-- ==== Sys2Proof/Word.lean ====
section
/-! DEFINITION. The byte and word types of the YW32-192 and their plainest arithmetic. -/

namespace Sys2Proof

/-- One byte of memory, of a record or of a wire format (R3). -/
abbrev Byte := BitVec 8

/-- A 32-bit register or field (R3). -/
abbrev Word := BitVec 32

/-- A time in ticks of 1/24 ns. A PAN cycle is 20 ticks, a CORE cycle 24, a MEM cycle 15, a TIME cycle 48,
an AON cycle 960 (R11). -/
abbrev Ticks := Nat

/-- Saturating addition in a counter of `w` bits ("saturates" in the counter tables). -/
def satAdd (w a b : Nat) : Nat := min (2 ^ w - 1) (a + b)

/-- Saturating increment of a 32-bit counter. -/
def sat32 (a : Nat) : Nat := satAdd 32 a 1

/-- The bit `i` of a number. -/
def bit (n i : Nat) : Bool := n.testBit i

/-- The `w` bits of `n` from bit `lo` upwards (a field map [lo+w-1:lo]). -/
def field (n lo w : Nat) : Nat := n / 2 ^ lo % 2 ^ w

/-- A Bool as a bit. -/
def b2n (b : Bool) : Nat := if b then 1 else 0

/-- ceil(a / b). -/
def ceilDiv (a b : Nat) : Nat := (a + b - 1) / b

end Sys2Proof
end

