-- ==== Sys2Proof/Syntax.lean ====
section
/-! DEFINITION. The commands of the block: one constructor of `Instr` per row of spec/opcode_table.json,
with the parameter blocks of the Gwejor commands as structures. -/

namespace Sys2Proof

/-- An IP address: IPv4 (32 bits) or IPv6 (128 bits), in network order as a number (R195, R447). -/
structure IpAddr where
  v6   : Bool
  addr : Nat
  deriving DecidableEq, Repr

/-- Where a command record comes from (R408, R448): a mailbox, the sluice, or a record of a bed or skim
image, which runs with the role recorded with the image. -/
inductive Via where
  | mailbox (n : Fin 8)
  | sluice (port : Fin 16) (src : IpAddr) (uport : Nat)
  | image (role : Nat)
  deriving DecidableEq, Repr

/-- The parts of the record header (R425) that a command's meaning reads: the transport, the session slot
(0xFF: none) and the sequence number, which the response echoes. -/
structure Caller where
  via  : Via
  slot : Nat
  seq  : Nat
  deriving DecidableEq, Repr

/-! ### Parameter blocks: warden, bed and skims -/

/-- HELLO (R412). -/
structure HelloP where
  keySlot : Nat
  nc      : List Byte
  deriving DecidableEq, Repr

/-- PROVE (R413). -/
structure ProveP where
  proof    : List Byte
  claimHwb : Bool
  deriving DecidableEq, Repr

/-- BED_LOAD (R449). -/
structure BedLoadP where
  addr  : Nat
  bytes : Nat
  deriving DecidableEq, Repr

/-- SKIM_STORE (R453); `acked` says whether every other device of the ring acknowledged over Welond
channel 1 within the bound (an input of the command: it is another device's answer). -/
structure SkimStoreP where
  skim  : Nat
  loc   : Bool
  addr  : Nat
  bytes : Nat
  acked : Bool
  deriving DecidableEq, Repr

/-- The answer of another device of the ring to a skim message (R454, R455). -/
inductive PeerAnswer where
  | acked
  | bedDiffers
  | refused (device status offset : Nat)
  | tideDiffers
  | unreachable
  deriving DecidableEq, Repr

/-- SKIM_APPLY (R454); `peers` holds the answers of the other devices of the ring. -/
structure SkimApplyP where
  skim   : Nat
  cancel : Bool
  loc    : Bool
  tide   : Nat
  peers  : List PeerAnswer
  deriving DecidableEq, Repr

/-- SKIM_APPROVE (R419, R455); `acked`: every device that holds the apply acknowledged within the bound. -/
structure SkimApproveP where
  skim  : Nat
  tide  : Nat
  acked : Bool
  deriving DecidableEq, Repr

/-- CONFIG_QUERY (R458). -/
structure ConfigQueryP where
  kind  : Nat
  index : Nat
  addr  : Nat
  deriving DecidableEq, Repr

/-! ### Heads and windows -/

/-- The timing block of HEAD_SET_TIMING without HEAD (R143). -/
structure Timing where
  hpol : Bool
  vpol : Bool
  colour : Bool
  depth : Bool
  matrix : Nat
  range : Bool
  vrrEn : Bool
  mult : Nat
  hactive : Nat
  hfp : Nat
  hsync : Nat
  hbp : Nat
  vactive : Nat
  vfpMin : Nat
  vfpNom : Nat
  vfpMax : Nat
  vsync : Nat
  vbp : Nat
  phaseLines : Nat
  waitMask : Nat
  deriving DecidableEq, Repr

/-- HEAD_SET_TIMING (R143). -/
structure HeadSetTimingP where
  head : Nat
  t    : Timing
  deriving DecidableEq, Repr

/-- HEAD_TWIN (R161). -/
structure HeadTwinP where
  pair : Nat
  twin : Bool
  deriving DecidableEq, Repr

/-- HEAD_ENABLE (R165). -/
structure HeadEnableP where
  head       : Nat
  enable     : Bool
  flipEvents : Bool
  deriving DecidableEq, Repr

/-- The geometry of a window (R135): layer, context (none: 0xFFFF) and rectangle in wall pixels. -/
structure WinGeom where
  layer   : Nat
  context : Option Nat
  x : Nat
  y : Nat
  w : Nat
  h : Nat
  deriving DecidableEq, Repr

/-- WINDOW_DEFINE (R135). WINDOW 0xFFFF asks for the lowest free number; a CONTEXT field of 0xFFFF is
`none`. -/
inductive WindowDefineP where
  | define (window : Nat) (g : WinGeom)
  | delete (window : Nat)
  | place (head wallX wallY : Nat)
  deriving DecidableEq, Repr

/-- The layer settings of a window (R137). -/
structure LayerSettings where
  srcX : Nat
  srcY : Nat
  srcW : Nat
  srcH : Nat
  globalAlpha : Nat
  filterH : Nat
  filterV : Nat
  matrix : Nat
  range : Bool
  premult : Bool
  decimateOk : Bool
  deriving DecidableEq, Repr

/-- LAYER_SET (R137, R138). -/
inductive LayerSetP where
  | settings (window : Nat) (l : LayerSettings)
  | palette (window first : Nat) (entries : List Nat)
  deriving DecidableEq, Repr

/-- LAYER_ADDRESS (R154). -/
structure LayerAddressP where
  context    : Nat
  buffer     : Nat
  capGiven   : Bool
  autoCommit : Bool
  capNs      : Nat
  capS       : Nat
  deriving DecidableEq, Repr

/-- Z-order and background of a head (R132). -/
structure ZOrder where
  mode       : Bool
  background : Nat
  level      : List Nat
  deriving DecidableEq, Repr

/-- ZORDER_SET (R132). -/
structure ZOrderSetP where
  head : Nat
  z    : ZOrder
  deriving DecidableEq, Repr

/-- The freshness policy of a window (R58). -/
structure Policy where
  budgetUs : Nat
  frozenRepeat : Nat
  recover : Nat
  colourSet : Nat
  glyphEn : Bool
  glyphCorner : Nat
  critical : Bool
  expectMotion : Bool
  taintCrust : Bool
  unverifiedBorder : Bool
  crustOff : Bool
  crustReplace : Bool
  deriving DecidableEq, Repr

/-- A colour set: A(1) to A(5) and B(1) to B(5), each a 30-bit colour (R60). -/
structure ColourSet where
  a : List Nat
  b : List Nat
  deriving DecidableEq, Repr

/-- FRESHNESS_SET (R58, R60, R92). -/
inductive FreshnessSetP where
  | policy (window : Nat) (p : Policy)
  | colours (set : Nat) (c : ColourSet)
  | membership (window groups : Nat)
  deriving DecidableEq, Repr

/-! ### Contexts, flows, decode, encode -/

/-- CONTEXT_OPEN (R203); CONTEXT is kept apart in `ContextOpenP`. -/
structure CtxParams where
  type : Nat
  method : Nat
  format : Nat
  width : Nat
  height : Nat
  ring : Nat
  extId : Nat
  extForm : Nat
  clockRate : Nat
  timeoutUs : Nat
  stream : Nat
  returnPort : Nat
  originDevice : Nat
  originContext : Nat
  base : Nat
  pitch : Nat
  plane1 : Nat
  stride0 : Nat
  stride1 : Nat
  deriving DecidableEq, Repr

structure ContextOpenP where
  context : Nat
  p       : CtxParams
  deriving DecidableEq, Repr

/-- The match fields and options of a flow rule (R194, R195). -/
structure FlowRule where
  path : Nat
  join : Bool
  anyVlan : Bool
  anySrc : Bool
  anySport : Bool
  port : Nat
  context : Nat
  vlan : Nat
  src : IpAddr
  dst : IpAddr
  srcPort : Nat
  dstPort : Nat
  deriving DecidableEq, Repr

/-- FLOW_BIND (R195). -/
structure FlowBindP where
  rule   : Nat
  unbind : Bool
  r      : FlowRule
  deriving DecidableEq, Repr

/-- SOURCE_ISOLATE (R201). -/
structure SourceIsolateP where
  context : Nat
  isolate : Bool
  leave   : Bool
  deriving DecidableEq, Repr

/-- SLUICE_SET (R200). -/
structure SluiceSetP where
  port     : Nat
  enable   : Bool
  udpPort  : Nat
  rateKbps : Nat
  deriving DecidableEq, Repr

/-- DECODE_ATTACH (R253) without CONTEXT. -/
structure Attach where
  codec : Nat
  cls : Nat
  priority : Bool
  pool : Nat
  maxRate : Nat
  maxAu : Nat
  lagMs : Nat
  rtcpPort : Nat
  poolBase : Nat
  poolPitch : Nat
  refBase : Nat
  refPitch : Nat
  deriving DecidableEq, Repr

structure DecodeAttachP where
  context : Nat
  a       : Attach
  deriving DecidableEq, Repr

/-- DECODE_PRIORITY (R254). -/
structure DecodePriorityP where
  context  : Nat
  cls      : Nat
  priority : Bool
  lagMs    : Nat
  deriving DecidableEq, Repr

/-- ENCODE_OPEN (R278) without ENC. -/
structure EncParams where
  engine : Nat
  tapContext : Bool
  twinBoth : Bool
  main10 : Bool
  rotate : Nat
  matrix : Nat
  source : Nat
  filterH : Nat
  filterV : Nat
  frameDiv : Nat
  sliceRows : Nat
  outKind : Nat
  srcX : Nat
  srcY : Nat
  srcW : Nat
  srcH : Nat
  outW : Nat
  outH : Nat
  idrFrames : Nat
  mtu : Nat
  inputBase : Nat
  reconBase : Nat
  ringBase : Nat
  ringBytes : Nat
  port : Nat
  dst : IpAddr
  dscp : Nat
  pt : Nat
  extId : Nat
  srcPort : Nat
  dstPort : Nat
  ssrc : Nat
  paceMbps : Nat
  deriving DecidableEq, Repr

structure EncodeOpenP where
  enc : Nat
  p   : EncParams
  deriving DecidableEq, Repr

/-- The rate settings of an encode context (R281). -/
structure EncRate where
  q : Nat
  capFrame : Nat
  capSecond : Nat
  deriving DecidableEq, Repr

/-- ENCODE_RATE (R281). -/
structure EncodeRateP where
  enc : Nat
  queryOnly : Bool
  forceIdr : Bool
  rate : EncRate
  deriving DecidableEq, Repr

/-! ### Crystallizer and checks -/

/-- CRYS_JOB (R299) without JOB. -/
structure CrysParams where
  decompress : Bool
  filter : Bool
  indexEn : Bool
  blockKib : Nat
  row : Nat
  inBase : Nat
  inBytes : Nat
  outBytes : Nat
  outBase : Nat
  stateBase : Nat
  indexBase : Nat
  indexEntries : Nat
  deriving DecidableEq, Repr

structure CrysJobP where
  job : Nat
  p   : CrysParams
  deriving DecidableEq, Repr

/-- CRYS_RESUME (R302). -/
structure CrysResumeP where
  job : Nat
  outBytes : Nat
  outBase : Nat
  deriving DecidableEq, Repr

/-- CRYS_FLUSH (R303). -/
structure CrysFlushP where
  job : Nat
  at_ : Nat
  deriving DecidableEq, Repr

/-- CHECK_BIND (R318). -/
structure CheckBindP where
  channel : Nat
  unbind : Bool
  crcEn : Bool
  aliveEn : Bool
  aliveW : Bool
  context : Nat
  deriving DecidableEq, Repr

/-- SEAL_REGION (R319). -/
structure SealRegionP where
  head : Nat
  region : Nat
  op : Nat
  poly : Nat
  x : Nat
  y : Nat
  w : Nat
  h : Nat
  deriving DecidableEq, Repr

/-! ### Time, links, memory -/

/-- TIME_SET_PROFILE (R329). The signed exponents are integers. -/
structure Profile where
  source : Nat
  slaveOnly : Bool
  transport : Nat
  ppsEdge : Bool
  domain : Nat
  priority1 : Nat
  priority2 : Nat
  logSync : Int
  logAnnounce : Int
  announceTimeout : Nat
  logDelayReq : Int
  ports : Nat
  todS : Nat
  deriving DecidableEq, Repr

/-- The settings of one pulse output or capture input (R330, R333). -/
structure Pulse where
  mode : Nat
  polarity : Bool
  fine : Nat
  startNs : Nat
  startS : Nat
  period : Nat
  width : Nat
  offset : Int
  div : Nat
  deriving DecidableEq, Repr

structure PulseSetP where
  target : Nat
  p : Pulse
  deriving DecidableEq, Repr

/-- TIDE_SET (R334). -/
structure TideSetP where
  num : Nat
  den : Nat
  deriving DecidableEq, Repr

/-- LINK_STATE, EQ_TABLE_QUERY and MEM_ERR_QUERY: a kind and an index (R189, R190, R397). -/
structure KindIndexP where
  kind : Nat
  index : Nat
  deriving DecidableEq, Repr

/-- EYE_SCAN (R340). -/
structure EyeScanP where
  kind : Nat
  lane : Nat
  phaseLo : Int
  phaseHi : Int
  voltLo : Int
  voltHi : Int
  step : Nat
  dwell : Nat
  resultBase : Nat
  deriving DecidableEq, Repr

/-- A dyke region: whole 4 KiB pages, read and write masks, decoder mode (R388, R395). -/
structure Region where
  wide : Bool
  base : Nat
  pages : Nat
  read : Nat
  write : Nat
  deriving DecidableEq, Repr

/-- DYKE_RULE (R395). -/
structure DykeRuleP where
  region : Nat
  delete : Bool
  r : Region
  deriving DecidableEq, Repr

/-- SCRUB_SET (R385). -/
structure ScrubSetP where
  enable : Bool
  periodH : Nat
  deriving DecidableEq, Repr

/-! ### Touch, trim, power, errors -/

/-- TOUCH_CONFIG (R480) without DESK. -/
structure DeskConfig where
  enable : Bool
  cnEn : Bool
  slowEn : Bool
  flipX : Bool
  flipY : Bool
  drive : Nat
  sense : Nat
  f0 : Nat
  f1 : Nat
  f2 : Nat
  f3 : Nat
  thMin : Nat
  thMax : Nat
  noiseLimit : Nat
  noiseMult : Nat
  slowAfterS : Nat
  approachTh : Nat
  stuckS : Nat
  deriving DecidableEq, Repr

structure TouchConfigP where
  desk : Nat
  cfg : DeskConfig
  deriving DecidableEq, Repr

/-- TOUCH_REBASE (R482). -/
structure TouchRebaseP where
  desk : Nat
  op : Nat
  deriving DecidableEq, Repr

/-- A route entry (R473, R481). -/
structure Route where
  blockNotLive : Bool
  hostAll : Bool
  head : Nat
  gx : Nat
  gy : Nat
  gw : Nat
  gh : Nat
  hx : Nat
  hy : Nat
  hw : Nat
  hh : Nat
  deriving DecidableEq, Repr

/-- TOUCH_ROUTE (R481). -/
structure TouchRouteP where
  desk : Nat
  entry : Nat
  clear : Bool
  r : Route
  deriving DecidableEq, Repr

/-- TRIM_RUN (R500). -/
structure TrimRunP where
  run : Bool
  setDelta : Bool
  deltaC : Nat
  deriving DecidableEq, Repr

/-- TRIM_QUERY (R501). -/
structure TrimQueryP where
  kind : Nat
  item : Nat
  index : Nat
  deriving DecidableEq, Repr

/-- WAKE_BUDGET (R502). -/
structure Budgets where
  displayMs : Nat
  ingestMs : Nat
  touchMs : Nat
  hostMs : Nat
  restS : Nat
  deriving DecidableEq, Repr

/-- ERR_READ (R437). -/
structure ErrReadP where
  first : Nat
  count : Nat
  deriving DecidableEq, Repr

/-- ERR_ACK (R438). -/
structure ErrAckP where
  id : Nat
  older : Bool
  none : Bool
  clearOverflow : Bool
  deriving DecidableEq, Repr

/-- FENCE (R439). -/
structure FenceP where
  set : Nat
  release : Nat
  mapEn : Bool
  ballMap : Nat
  deriving DecidableEq, Repr

/-- DEBUG_UNLOCK (R441). -/
structure DebugUnlockP where
  open_ : Bool
  durationS : Nat
  deriving DecidableEq, Repr

/-! ### Accesses and wire data that events carry -/

/-- A read of `n` bytes or a write of bytes, at an address (R389, R404). -/
inductive MemOp where
  | read (n : Nat)
  | write (data : List Byte)
  deriving DecidableEq, Repr

/-- What an Ethernet frame carries, as the classifier's tests of R193 and R194 see it: UDP with its payload, IPv6 neighbour
discovery and echo with their destination, an IGMP or MLD query (of one group, or of all). -/
inductive EthKind where
  | udp (src dst : IpAddr) (sport dport : Nat) (payload : List Byte)
  | ptpEther
  | arp
  | nd (dst : IpAddr)
  | echo (dst : IpAddr)
  | groupQuery (v6 : Bool) (group : Option IpAddr)
  | pause
  | other
  deriving DecidableEq, Repr

/-- An Ethernet frame; `len` counts from the destination address through the FCS. -/
structure EthFrame where
  len : Nat
  fcsBad : Bool
  tags : Nat
  vlan : Nat
  kind : EthKind
  deriving DecidableEq, Repr

/-- What an Announce says of a clock (R325; PRESUMED: IEEE 1588; notes/assumptions/78.md). -/
structure ClockData where
  priority1 : Nat
  cls : Nat
  accuracy : Nat
  variance : Nat
  priority2 : Nat
  gm : Nat
  steps : Nat
  deriving DecidableEq, Repr

/-- The body of a PTP message (R325); an origin or receive timestamp in ns since the epoch. -/
inductive PtpBody where
  | sync (twoStep : Bool) (origin : Nat)
  | followUp (origin : Nat)
  | delayReq
  | delayResp (receive reqClock reqPort : Nat)
  | announce (d : ClockData)
  deriving DecidableEq, Repr

/-- A PTP message as it arrives (R325): its transport as TRANSPORT codes it, domainNumber, sourcePortIdentity, sequenceId and
correctionField in 2^-16 ns. -/
structure PtpMsg where
  transport : Nat
  domain : Nat
  srcClock : Nat
  srcPort : Nat
  seq : Nat
  correction : Int
  body : PtpBody
  deriving DecidableEq, Repr

/-- The capabilities of a display sink (R180, R184). -/
structure Sink where
  maxRate : Nat
  maxLanes : Nat
  uhbr : Bool
  async : Bool
  ignoreMsa : Bool
  fmin : Nat
  fmax : Nat
  deriving DecidableEq, Repr

/-- A requested equalization setting of one lane in training (R183). -/
structure EqRequest where
  swing : Nat
  pre : Nat
  preset : Nat
  deriving DecidableEq, Repr

/-- A Welond channel 3 capability message (R354). -/
structure Capability where
  ver : Nat
  rate : Nat
  device : Nat
  ring : Nat
  ack : Bool
  fitted : Nat
  rxLocked : Nat
  link : Nat
  fenceProp : Nat
  wall : Nat
  tideCount : Nat
  stepping : Nat
  cmdset : Nat
  deriving DecidableEq, Repr

/-- A freshness record (R51). -/
structure FreshRecord where
  capNs : Nat
  capS : Nat
  alive : Nat
  aliveRun : Nat
  contentRun : Nat
  goodRun : Nat
  causes : Nat
  seq : Nat
  deriving DecidableEq, Repr

/-- The body of a mirror packet of Welond channel 0 (R361, R362): buffer data at an offset, or the closing record. What a payload says, whose bytes the spec leaves open. -/
inductive MirrorBody where
  | data (offset : Nat) (bytes : List Byte)
  | record (r : FreshRecord)
  deriving DecidableEq, Repr

/-- A mirror packet (R352, R361): its blocks as they came, and what its payload says. -/
structure MirrorPacket where
  blocks : List (Bool × List Byte)
  originContext : Nat
  body : MirrorBody
  deriving DecidableEq, Repr

/-- A mirror request message (R361): the origin asked, the device that asks, the context there, and what the asking device
declares of it (R344); a RATE_KBS in units of 1,000 bytes/s. -/
structure MirrorAsk where
  origin : Nat
  device : Nat
  context : Nat
  compress : Bool
  priority : Nat
  rateKbs : Nat
  compKbs : Nat
  deriving DecidableEq, Repr

/-- A touch record as R224 lays it out. -/
structure TouchRecord where
  contact : Nat
  state : Nat
  desk : Nat
  x : Nat
  y : Nat
  window : Nat
  deriving DecidableEq, Repr

/-- What a Welond touch packet says (R478), with the DEST of its SOP (R351). -/
structure TouchPacket where
  dest : Nat
  context : Nat
  device : Nat
  touchNs : Nat
  touchS : Nat
  records : List TouchRecord
  deriving DecidableEq, Repr

/-- A skim message of Welond channel 1 (R453 to R455); an answer carries a code and, for records that are refused, a status and an
offset. -/
inductive SkimMsg where
  | store (skim role : Nat) (image : List Byte)
  | apply (skim tide : Nat) (tideCount : Nat) (held : Bool)
  | cancel (skim tide : Nat)
  | approve (skim tide : Nat)
  | withdraw (skim tide : Nat)
  | ack (device code : Nat) (args : List Nat)
  deriving DecidableEq, Repr

/-- What the parameter sets that an access unit refers to say (R229 to R236), in the standards' own codes: profile_idc and level_idc,
bit depths, chroma_format_idc, coded size, cropping offsets in luma samples (left, top, right, bottom), decoded-picture-buffer size,
reordering and latency bounds (none when the VUI omits them; `latency`: sps_max_latency_increase_plus1), constraint_set1_flag,
frame_mbs_only_flag, slice groups, redundant slices, and an HEVC extension of R230 in use. -/
structure StreamSet where
  profile : Nat
  level : Nat
  depth : Nat
  chromaDepth : Nat
  chroma : Nat
  codedW : Nat
  codedH : Nat
  crop : Nat × Nat × Nat × Nat
  dpb : Option Nat
  reorder : Option Nat
  latency : Nat
  constraint1 : Bool
  constraint3 : Bool
  maxRefs : Nat
  frameNumBits : Nat
  frames : Bool
  groups : Bool
  redundant : Bool
  extension : Bool
  deriving DecidableEq, Repr

/-- A picture that stays a reference, by picture order count; `used`: the present picture may predict from it. -/
structure RefEntry where
  poc : Int
  long : Bool
  used : Bool
  deriving DecidableEq, Repr

/-- A rectangle of a picture in luma samples. -/
structure Area where
  x : Nat
  y : Nat
  w : Nat
  h : Nat
  deriving DecidableEq, Repr

/-- An AVC memory management control operation, 1 to 6 (R233): a short-term reference by difference_of_pic_nums_minus1 or a long-term
one by long_term_pic_num becomes unused, a short-term one becomes long-term under an index, indexes from a number on become
unused, all do, and the picture itself becomes long-term. -/
inductive Mmco where
  | unuseShort (diff : Nat)
  | unuseLong (num : Nat)
  | makeLong (diff idx : Nat)
  | limitLong (count : Nat)
  | clear
  | currentLong (idx : Nat)
  deriving DecidableEq, Repr

/-- A slice in its access unit: its first byte, its bytes, and the areas of the picture that it codes. -/
structure SliceSpan where
  pos : Nat
  size : Nat
  areas : List Area
  deriving DecidableEq, Repr

/-- One CTU as an encode engine's coding gives it (R268, R271): its bytes at the row's QP and in the minimal form, and the blocks that it
predicts with their vectors in quarter samples. -/
structure CtuCode where
  size : Nat
  minimal : Nat
  vectors : List (Area × Int × Int)
  deriving DecidableEq, Repr

/-- A slice as coding gives it: its NAL units in the byte-stream format, and its CTUs row by row. -/
structure SliceCode where
  nal : List Byte
  rows : List (List CtuCode)
  deriving DecidableEq, Repr

/-- What the NAL units of an access unit say of its picture: parameter sets, picture order count, pic_output_flag,
no_output_of_prior_pics_flag, a gap in frame_num, the references (HEVC: its reference picture set; AVC: those that it predicts from),
AVC's frame_num, long_term_reference_flag and memory management operations (none: sliding window), its slices, areas whose slice data
is missing or undecodable, and what it reads for prediction: reference and area. -/
structure PictureHead where
  set : StreamSet
  poc : Int
  output : Bool
  noPrior : Bool
  gap : Bool
  refs : List RefEntry
  frameNum : Nat
  long : Bool
  marking : Option (List Mmco)
  slices : List SliceSpan
  missing : List Area
  reads : List (Int × Area)
  deriving DecidableEq, Repr

/-- What the measurement of a node gave (R460): the bursts before its comparator tripped, 32 or more when it did not, and the
fraction, 0 to 15. -/
structure NodeReading where
  bursts : Nat
  fraction : Nat
  deriving DecidableEq, Repr

/-- What the trim sequencer does for one entry of R485 in a step. It reads a gain, an offset or one element, before the reading is traced to
its references (R484): `reading` is, for item 1, CALREF in µV at the factory gain; for item 2, ΔVBE in nV, with `sensor`, what the sensor
shows in 1/16 °C; for items 3 and 4, the element as a ratio to the reference resistor, or to the current of CALREF over it; for item 5,
the AON cycles that this current took and the µV that the element changed by. `edge` is the temperature of the edge die in 1/16 °C. Or
elements enter and leave the set (R487). -/
inductive TrimStep where
  | measure (element : Nat) (reading : Nat × Nat) (sensor edge : Int)
  | move (enter leave : Option Nat)
  deriving DecidableEq, Repr

/-- One memory transaction of a master (R32, R389): class, identity, address, whether a read is a control read
(R379), and what it does there. -/
structure MemRequest where
  cls : Nat
  identity : Nat
  addr : Nat
  control : Bool
  op : MemOp
  deriving DecidableEq, Repr


/-- Where a register that the host writes lies (R401, R423): host window A (BAR0), the MSI-X table and pending bits (BAR4), or the
MSI-X message control word of the configuration space. -/
inductive RegSpace where
  | hwa
  | msix
  | msixControl
  deriving DecidableEq, Repr

/-- A freshness record that a read at TAKE_POINT found poison, or uncorrectable with its syndromes (R378, R379): the window whose layer
slot takes the buffer, and the line of device memory that holds the record. -/
structure RecordRead where
  win : Nat
  line : Nat
  synd : Option (List Nat)
  deriving DecidableEq, Repr

/-- The firmware slot in the xSPI flash as the boot ROM reads it (R508): the image, its version word, and the public key and the
ECDSA P-384 signature that come with it. -/
structure FlashSlot where
  image : List Byte
  version : Nat
  key : Nat × Nat
  sig : Nat × Nat
  deriving DecidableEq, Repr

/-- What a gauge channel's tables hold of a window in a layer slot of a head (R77): its rectangle in the window-span table, its
policy, and its fence-group membership. -/
structure GaugeEntry where
  win : Nat
  g : WinGeom
  pol : Policy
  groups : Nat
  deriving DecidableEq, Repr

/-- A hardware upset of one gauge channel at one evaluation (R82 to R86): bits flipped in the span word it delivers and in the
fence vector it passes, and what its table entry of the window has been damaged to; 0, 0 and none for a sound channel. -/
structure Upset where
  word : BitVec 32
  fence : BitVec 17
  entry : Option GaugeEntry
  deriving DecidableEq, Repr

/-- A hardware fault in a salinity pass (R89): bits flipped in the word of a channel, 0 to 2, or in the voter's output, 3, on one
cycle of the pass. -/
structure PassFault where
  unit : Nat
  cycle : Nat
  bits : BitVec 32
  deriving DecidableEq, Repr

/-- One command of the block: a row of spec/opcode_table.json with its operands. The Gwejor commands carry
the caller and their parameter block; the register and port accesses carry the address and value; an event
carries its instance and what the outside world brings with it. -/
inductive Instr where
  -- Gwejor commands (R433)
  | hello (c : Caller) (p : HelloP)
  | prove (c : Caller) (p : ProveP)
  | close (c : Caller)
  | roleQuery (c : Caller)
  | bedLoad (c : Caller) (p : BedLoadP)
  | skimStore (c : Caller) (p : SkimStoreP)
  | skimApply (c : Caller) (p : SkimApplyP)
  | skimApprove (c : Caller) (p : SkimApproveP)
  | configQuery (c : Caller) (p : ConfigQueryP)
  | headSetTiming (c : Caller) (p : HeadSetTimingP)
  | headCommit (c : Caller) (heads : Nat)
  | headTwin (c : Caller) (p : HeadTwinP)
  | headStateQuery (c : Caller) (head : Nat)
  | headEnable (c : Caller) (p : HeadEnableP)
  | windowDefine (c : Caller) (p : WindowDefineP)
  | layerSet (c : Caller) (p : LayerSetP)
  | layerAddress (c : Caller) (p : LayerAddressP)
  | zorderSet (c : Caller) (p : ZOrderSetP)
  | freshnessSet (c : Caller) (p : FreshnessSetP)
  | verdictQuery (c : Caller) (window : Nat)
  | contextOpen (c : Caller) (p : ContextOpenP)
  | contextClose (c : Caller) (context : Nat)
  | flowBind (c : Caller) (p : FlowBindP)
  | sourceIsolate (c : Caller) (p : SourceIsolateP)
  | contextStats (c : Caller) (context : Nat)
  | sluiceSet (c : Caller) (p : SluiceSetP)
  | decodeAttach (c : Caller) (p : DecodeAttachP)
  | decodePriority (c : Caller) (p : DecodePriorityP)
  | decodeStats (c : Caller) (context : Nat)
  | encodeOpen (c : Caller) (p : EncodeOpenP)
  | encodeRate (c : Caller) (p : EncodeRateP)
  | encodeClose (c : Caller) (enc : Nat)
  | crysJob (c : Caller) (p : CrysJobP)
  | crysResume (c : Caller) (p : CrysResumeP)
  | crysFlush (c : Caller) (p : CrysFlushP)
  | checkBind (c : Caller) (p : CheckBindP)
  | sealRegion (c : Caller) (p : SealRegionP)
  | checkStats (c : Caller) (channel : Nat)
  | timeSetProfile (c : Caller) (p : Profile)
  | pulseSet (c : Caller) (p : PulseSetP)
  | timeQuery (c : Caller)
  | tideSet (c : Caller) (p : TideSetP)
  | linkState (c : Caller) (p : KindIndexP)
  | eyeScan (c : Caller) (p : EyeScanP)
  | eqTableQuery (c : Caller) (p : KindIndexP)
  | dykeRule (c : Caller) (p : DykeRuleP)
  | dykeSync (c : Caller)
  | dykeLock (c : Caller) (region : Nat)
  | memErrQuery (c : Caller) (p : KindIndexP)
  | scrubSet (c : Caller) (p : ScrubSetP)
  | touchConfig (c : Caller) (p : TouchConfigP)
  | touchRebase (c : Caller) (p : TouchRebaseP)
  | touchRoute (c : Caller) (p : TouchRouteP)
  | trimRun (c : Caller) (p : TrimRunP)
  | trimQuery (c : Caller) (p : TrimQueryP)
  | wakeBudget (c : Caller) (p : Budgets)
  | powerQuery (c : Caller)
  | errRead (c : Caller) (p : ErrReadP)
  | errAck (c : Caller) (p : ErrAckP)
  | fence (c : Caller) (p : FenceP)
  | debugUnlock (c : Caller) (p : DebugUnlockP)
  -- register and port accesses
  | swFence (value : BitVec 32)
  | swRelease (value : BitVec 32)
  | mailboxGo (n : Fin 8) (value : BitVec 32)
  | mailboxAck (n : Fin 8) (value : BitVec 32)
  | irqStatusClear (value : BitVec 32)
  | irqMaskWrite (value : BitVec 32)
  | msixUnmask (entries : BitVec 32) (function : Bool)
  | hwbBaseWrite (value : BitVec 64)
  | hwbAccess (offset : Nat) (op : MemOp)
  | evrEnableWrite (value : BitVec 32)
  | evrConsWrite (value : BitVec 32)
  | tideCountLowRead (wide : Bool)
  | timeNsRead
  | registerWrite (space : RegSpace) (offset : Nat) (value : BitVec 32)
  | debugProbeToken (token : BitVec 128)
  | debugAccess (addr : Nat) (op : MemOp)
  | keyProgram (slot : Fin 8) (key : List Byte)
  | sluiceDatagram (port : Fin 16) (src : IpAddr) (uport frameLen : Nat) (payload : List Byte)
  -- events: tide, heads, pans, gauges
  | tide
  | headFlip (h : Fin 32)
  | headLatchEdge (h : Fin 32)
  | frontPorchEnd (h : Fin 32)
  | vrrLineBoundary (h : Fin 32)
  | waitTimeout (h : Fin 32)
  | takePoint (h : Fin 32) (bad : List RecordRead)
  | groupCompose (p : Fin 4)
  | spanEvaluate (h : Fin 32) (layer : Fin 12) (line : Nat) (a b c : Upset)
  | salinityPass (p : Fin 4) (faults : List PassFault)
  | stateCopyComplete (p : Fin 4) (ch : Fin 3)
  | gaugeReload (p : Fin 4)
  | fenceNCapture
  | fenceNRelease
  | sealCompare (h : Fin 32) (r : Fin 8) (fault : BitVec 32)
  -- events: display links
  | hpdPresent (h : Fin 32) (samples : Nat) (sink : Sink)
  | hpdUnplug (h : Fin 32) (samples : Nat)
  | irqHpd (h : Fin 32) (samples : Nat) (lockLost : Bool)
  | dpLinkLockLoss (h : Fin 32)
  | auxTimeout (h : Fin 32) (transaction : Nat) (defer : Bool)
  | linkTrainingDone (h : Fin 32) (ok : Bool) (reqs : List (List EqRequest))
  | trainingTimeout (h : Fin 32)
  -- events: memory
  | memoryRequest (r : MemRequest)
  | slotPosition
  | memoryAccessComplete (errs : List (Nat × Byte)) (parity : Bool)
  | scrubPacingRead (errs : List (Nat × Nat × Byte))
  | dykeSyncComplete
  -- events: ingest
  | ethFrameReceive (port : Fin 16) (f : EthFrame)
  | ethLinkChange (port : Fin 16) (up : Bool)
  | mgmtFrame (port : Fin 16) (f : EthFrame)
  | mediaPacketProcess (eth : Fin 4)
  | frameTimeout (ctx : Fin 192)
  | dgsTileDecode (ctx : Fin 192) (tile : Nat)
  | fillCopy (ctx : Fin 192)
  | bufferComplete (ctx : Fin 192)
  | checkCompareEnd (ctx : Fin 192)
  | detectorComplete (ctx : Fin 192)
  -- events: decode and encode
  | decodePictureStart (e : Fin 8) (head : PictureHead)
  | decodePictureEnd (e : Fin 8)
  | pictureOutput (ctx : Fin 192)
  | decodeLagDiscard (ctx : Fin 192)
  | encodeFrameDue (e : Fin 16)
  | encodeLineComplete (e : Fin 16)
  | encodeFrameStart (e : Fin 2)
  | slicePublish (e : Fin 2) (c : SliceCode)
  | rtpTransmit (e : Fin 16)
  -- events: crystallizer, eye scan
  | crysJobStart
  | crysDone (lane : Fin 16)
  | eyeDone (kind : Nat) (lane : Fin 16) (counts : List Nat)
  -- events: time
  | ptpReceive (port : Fin 16) (m : PtpMsg) (word : Int)
  | ptpSyncTransmit (port : Fin 16)
  | ptpAnnounceTransmit (port : Fin 16)
  | ptpDelayReqTransmit (port : Fin 16)
  | sourceLost
  | ppsEdge (rising : Bool) (word : Int)
  | tenMhzGate (measured word : Int)
  | pulseEdge (p : Fin 8)
  | evtInEdge (i : Fin 2) (rising : Bool)
  -- events: Welond
  | welondDetect (l : Fin 2) (sensing : Nat)
  | welondLock (l : Fin 2) (lane : Fin 8) (bits : List Bool)
  | welondAttemptTimeout (l : Fin 2)
  | welondRetry (l : Fin 2) (sensing : Nat)
  | welondTerminationLost (l : Fin 2)
  | capabilitySend (l : Fin 2)
  | capabilityReceive (l : Fin 2) (blocks : List (Bool × List Byte))
  | welondLaneLockLoss (l : Fin 2) (lane : Fin 8) (bits : List Bool)
  | widthBlockReceive (l : Fin 2) (lane : Fin 8) (bits : List Bool)
  | laneRetrain (l : Fin 2) (lane : Fin 8) (bits : List Bool)
  | mirrorSetReceive (l : Fin 2) (blocks : List (Bool × List Byte)) (held : List (Nat × Nat))
  | mirrorRequest (l : Fin 2) (blocks : List (Bool × List Byte)) (a : MirrorAsk)
  | mirrorBufferSend (l : Fin 2) (context : Fin 192)
  | mirrorPacketReceive (l : Fin 2) (p : MirrorPacket)
  | fenceBlockReceive (l : Fin 2) (lane : Fin 8) (bits : List Bool)
  | fenceBlockPeriodic (l : Fin 2)
  | tideMessageReceive (l : Fin 2) (blocks : List (Bool × List Byte)) (count depart : Nat) (echo : Option (Nat × Nat))
  | skimMessageReceive (l : Fin 2) (blocks : List (Bool × List Byte)) (m : SkimMsg)
  | touchPacketReceive (l : Fin 2) (blocks : List (Bool × List Byte))
  -- events: touch
  | touchFrame (desk : Fin 4) (readings : List NodeReading) (noise : List (List Int))
  | baselineDone (desk : Fin 4)
  | negRebase (desk : Fin 4) (node : Nat)
  | thresholdUpdate (desk : Fin 4)
  | chargerNoiseEntry (desk : Fin 4)
  | chargerNoiseExit (desk : Fin 4)
  | slowScanEntry (desk : Fin 4)
  | slowScanFrame (desk : Fin 4) (readings : List NodeReading)
  | touchStuck (desk : Fin 4) (contact : Fin 10)
  | touchSaturated (desk : Fin 4) (node : Nat)
  | touchReport (desk : Fin 4)
  -- events: trim, power, faults, start-up
  | temperatureSample (readings : List Int)
  | trimElementStep (item index : Nat) (step : TrimStep)
  | trimRunComplete
  | avsSample (margins : List Nat)
  | voutReadback (ack : Bool) (microvolts : Nat)
  | thermalCheck (readings : List Int)
  | restTimeout
  | wakeIn (us : Nat)
  | powerExitDone
  | refclkLost
  | refclkReturn (us : Nat)
  | lrefALost
  | lrefBLost
  | pcieRefclkLost
  | pcieLinkDown
  | perstN
  | pwrGood (calrefUv : Nat)
  | porstNAssert
  | firmwareBoot (slot0 slot1 : FlashSlot)
  | memoryTrainingDone (failed : List Nat)
  | wardenReady (flash : Option (List Byte))
  | warmReset (cause : Nat)
  | warmResetRelease
  | restartWatchdog
  | watchdog (core : Fin 4) (ms : Nat)
  | fabricParity (identity : Nat) (addr : Nat)
  | fatalHandling
  | halfOpenExpiry (slot : Fin 8)
  | sessionIdleTimeout (slot : Fin 8)
  | approvalExpiry (skim : Nat)
  | debugTokenExpiry
  | debugSessionExpiry
  | pictureAbandoned (e : Fin 8)
  | encodeFrameAbandoned (e : Fin 2)
  | receiverAdapted (l : Fin 2) (lanes : Nat)
  | narrowingTimeout (l : Fin 2)
  deriving DecidableEq, Repr

end Sys2Proof
end

