-- ==== Sys2Proof/Config.lean ====
section
/-! DEFINITION. What the spec leaves open: free values, which nothing constrains. A value is drawn by applying
one of these to the counter `State.fresh`, or to what the open value depends on (notes/assumptions/4.md). -/

namespace Sys2Proof.Config

/-- The n-th byte of the true random generator (R412, R441). -/
opaque freeByte : Nat → Byte

/-- The n-th free number: a count, a time or a choice that the spec bounds at most. -/
opaque freeNat : Nat → Nat

/-- The n-th free signed number. -/
opaque freeInt : Nat → Int

/-- The n-th free choice. -/
opaque freeBool : Nat → Bool

/-- The clockIdentity of the device's PTP clock (R325). -/
opaque clockIdentity : Nat

/-- How far the oscillator behind a clock deviates in the PAN cycle at time `t`, in ppm (R10, R522): 0 LREF_A, 1 LREF_B,
2 PCIE_REFCLK, 3 the PLLs without REFCLK, and 4 the edge-die ring oscillator. -/
opaque deviation : Nat → Nat → Int

/-- Where the state of a decoded context, or (from 192 on) of an encode context, lies in device memory, and its bytes: the spec gives
neither (R247, R379; notes/assumptions/125.md). -/
opaque codecState : Nat → Nat × Nat

/-- The factory value of an element set, by item × 256 + index: selection mask, failed mask and value (R492, R493). -/
opaque factorySet : Nat → Nat × Nat × Int

/-- What the edge die's one-time-programmable area holds of its reference resistor (R484): its factory value in mΩ at 25 °C, and its
temperature coefficient in ppm per °C. -/
opaque refMilliohm : Nat
opaque refPpm : Int

/-- ΔVBE of the two-current pair beside a sensor, in nV per kelvin (R484). -/
opaque vbePerKelvin : Nat

/-- The fused hash of the key that signs firmware (R398, R508; notes/assumptions/143.md). -/
opaque fusedKeyHash : List Byte

/-- How far below −9 the exponent of the core regulator's VOUT_MODE lies (R494), 0 to 7. -/
opaque voutExponent : Nat

end Sys2Proof.Config
end

