-- ==== Sys2Proof/Machine/State.lean ====
section
/-! DEFINITION. The state of the block as plain data, the reasons it can stop, and the state right after
reset. Every field's default value is its value at reset; notes/assumptions/2.md lists the values that the
spec does not give. -/

namespace Sys2Proof.Machine

/-- A table of the device, by entry number, ascending: an entry that is not listed is at its reset value. -/
abbrev Tab (α : Type) := List (Nat × α)

/-- Why the block can stop with a fault. No command of this block does: every row has an effect, a refusal
status or no effect, and errors are records of the error queue (R513). Raised by nobody; safe. -/
inductive Fault where
  /-- Kept so that the type is inhabited; no meaning answers it (safe). -/
  | none
  deriving DecidableEq, Repr

/-- Why a command can be refused by the model. -/
inductive Refusal where
  /-- The command has no meaning yet; raised by Dispatch only (safe). -/
  | notModelled (mnemonic : String)
  deriving DecidableEq, Repr

/-! ### Output -/

/-- A freshness extension element (R47). -/
structure ExtElem where
  len : Nat
  ver : Nat
  reg : Bool
  chk : Bool
  rsv : Nat
  alive : Nat
  capS : Nat
  capNs : Nat
  crc : Nat
  rx : Nat
  ry : Nat
  rw : Nat
  rh : Nat
  deriving DecidableEq, Repr

/-- What a port wants of a multicast group (R197): any source, or the sources named. -/
structure Membership where
  group : IpAddr
  any : Bool
  sources : List IpAddr
  deriving DecidableEq, Repr

/-- The addresses of a UDP datagram that leaves on a logical port: its own address, the destination, and the UDP ports. -/
structure UdpAddr where
  port : Nat
  own : IpAddr
  dst : IpAddr
  sport : Nat
  dport : Nat
  deriving DecidableEq, Repr

/-- What leaves the block. The list `State.out` holds it, newest first (a field of the model). -/
inductive Output where
  /-- An MSI-X message (R423): the address and the data of the vector's entry of the table (R401). -/
  | msix (vector addr data : Nat)
  /-- A read line returned to its requester with its poison mark, and a write acknowledged, with a poison
  response or not (R32, R377, R378). -/
  | burst (identity addr : Nat) (data : List Byte) (poison : Bool)
  | acked (identity addr : Nat) (poison : Bool)
  /-- The error response to a denied part of a read, with its data (R389); a denied write has none (R390). -/
  | denied (identity addr : Nat) (data : List Byte)
  /-- A completion of a host read through HW-B or HW-A, with the EP bit (R380, R390, R403). -/
  | completion (data : List Byte) (ep : Bool)
  /-- A response datagram of the sluice (R199, R428). -/
  | sluice (port : Nat) (dst : IpAddr) (uport : Nat) (bytes : List Byte)
  /-- A DGS datagram to a PC: INPUT (type 2) or REFRESH (type 3) (R217, R223, R224). -/
  | dgs (a : UdpAddr) (bytes : List Byte)
  /-- An RTCP picture-loss indication (R251). -/
  | pli (a : UdpAddr) (bytes : List Byte)
  /-- An IGMPv3 or MLDv2 membership report of one group from a logical port's own address: no source and not any, when it leaves
  the group (R197). -/
  | membership (port : Nat) (own : IpAddr) (m : Membership)
  /-- An answer of the warden to a management frame (R193, R197). -/
  | mgmt (port : Nat) (request : EthKind)
  /-- A PTP message sent on a logical port, and the Ethernet frame with its FCS that carries it (R325, R328). -/
  | ptp (port : Nat) (m : PtpMsg) (frame : List Byte)
  /-- A pulse ball takes a level at a time of the time base (R330, R331). -/
  | pulse (p : Nat) (high : Bool) (time : Ticks)
  /-- An IP packet of an encode context's RTP stream that leaves on a logical port at a time of the REFCLK clock (R275). -/
  | rtp (enc port : Nat) (time : Ticks) (packet : List Byte)
  /-- The bits that a Welond lane sends for the blocks since the last known one (R345 to R350), as they leave its balls (R338). -/
  | line (link lane : Nat) (bits : List Bool)
  /-- A Welond control block of 8 bytes, and a packet whose payload the spec lays out: channel, DEST, SRC (R351, R352). -/
  | block (link : Nat) (bytes : List Byte)
  | packet (link channel dest src : Nat) (payload : List Byte)
  /-- A packet for another device that goes on as it came (R363). -/
  | passed (link : Nat) (blocks : List (Bool × List Byte))
  /-- A Welond message whose layout the spec leaves open, by its fields: 4 tide, 5 mirror request, 6 mirror set, 7 skim,
  9 mirror data (R360 to R362, R367, R453 to R455). -/
  | welond (link kind : Nat) (args : List Nat)
  /-- Rendered pixels of a group at the lane adapter (R69 to R72, R131): head, line, first pixel, codes, and the bits that the packer
  gives each lane in use, the lane's P and N swapped at the pins or not (R174, R187). -/
  | pixels (head line x : Nat) (codes : List (Nat × Nat × Nat)) (lanes : List (Bool × List Bool))
  /-- The main stream attributes of a vertical blanking (R187): HTOTAL and VTOTAL_NOM, active start, sync width and polarity,
  active size, bits per component, YCbCr with its matrix, range, and the pixel rate as a fraction in pixels per second, which the
  stream clock M/N carries (R142). -/
  | mainStream (head : Nat) (total start : Nat × Nat) (sync : (Nat × Bool) × (Nat × Bool)) (active : Nat × Nat) (bits : Nat)
      (ycbcr : Bool) (matrix : Nat) (range : Bool) (rate : Nat × Nat)
  /-- The Adaptive-Sync secondary-data packet of a vertical blanking, and the sink's timing-ignore mode (R184). -/
  | adaptiveSync (head : Nat)
  | timingIgnore (head : Nat) (on : Bool)
  /-- Levels that a lane drives in a training, as EQ(i) packs them, with the "maximum reached" flags of swing and pre-emphasis that
  the sink is told (R183); `swap`: P and N of the lane are swapped (R174). -/
  | drive (head lane eq : Nat) (swap swingMax preMax : Bool)
  /-- A transaction on PMBus with a 7-bit address, a page and a command: the word written, or none for a read (R494). -/
  | pmbus (addr page command : Nat) (word : Option Nat)
  /-- A write to a ring in host memory: address and bytes (R273). -/
  | hostWrite (addr : Nat) (bytes : List Byte)
  deriving DecidableEq, Repr

/-! ### Clocks, tide, memory schedule (01, 12) -/

structure Clocks where
  /-- The PAN clock: 20 ticks for each PAN cycle since PORST_N (R11). -/
  now : Ticks := 0
  /-- The clocks of the other domains, each in 2^-40 tick of its nominal rate (R11): REFCLK (CORE, MEM, WARDEN and TIME,
  which are phase-aligned, R12), AON, NET (LREF_A), the Welond lanes (LREF_B) and HOST (PCIE_REFCLK). -/
  ref : Nat := 0
  aon : Nat := 0
  net : Nat := 0
  wel : Nat := 0
  host : Nat := 0
  /-- The REFCLK clock at the last release of main-die reset, from which slot frames count (R27). -/
  origin : Nat := 0
  /-- The time base in 2^-40 ns, the increment's own fraction (R321). -/
  base : Nat := 0
  /-- The PAN time (R17). -/
  panTime : Ticks := 0
  /-- The PAN clock at the last phase step, and the step in ticks (R17, R19). -/
  steppedAt : Ticks := 0
  steppedBy : Int := 0
  refclk : Bool := true
  lrefA : Bool := true
  lrefB : Bool := true
  pcieRefclk : Bool := true
  aonRing : Bool := false
  /-- REFCLK clock time since which REFCLK is present (R14, R522). -/
  refclkSince : Ticks := 0
  freqWord : Int := 0
  freqTarget : Int := 0
  deriving DecidableEq, Repr

structure TideSt where
  num : Nat := 60
  den : Nat := 1
  pendRate : Option (Nat × Nat) := none
  count : Nat := 0
  /-- Index n of the last tide's instant (R18); the same as `count` unless R24 holds it back. -/
  index : Nat := 0
  /-- PAN time at the last tide, moved with every phase step (R22), the PAN clock at that tide, and the REFCLK clock then. -/
  lastAt : Int := 0
  lastNow : Ticks := 0
  lastRef : Ticks := 0
  /-- Hardware times of the earlier tides, newest first, at most 7, for the anchors of a stretched frame (R146). -/
  hist : List Ticks := []
  /-- Tides that have taken effect since reset, re-based or not: an anchor bears the number of its tide. -/
  taken : Nat := 0
  rebaseArmed : Bool := false
  locked : Bool := false
  lag : Nat := 0
  latchedHigh : Nat := 0
  latchedSec : Nat := 0
  deriving DecidableEq, Repr

/-- What a transfer of an engine serves: the fetch of a layer's line of a head (R112), a detector (R307), a decode or encode
engine (R247, R277), a buffer of the ring of a context (R226), or what nothing waits for. -/
inductive Purpose where
  | plain
  | pan (head layer line : Nat)
  | detector (ctx : Nat)
  | decoder (e : Nat)
  | encoder (e : Nat)
  | ring (ctx buf : Nat)
  deriving DecidableEq, Repr

/-- What a request does on its line: a read, control read or not (R379), a write of bytes at an offset, or a line of an engine's
transfer, whose bytes the engine's own row moves (notes/assumptions/110.md). -/
inductive LineOp where
  | read (control : Bool)
  | write (offset : Nat) (data : List Byte)
  | engine (write : Bool) (p : Purpose)
  deriving DecidableEq, Repr

/-- One request at the slot engine (R32, R33): a line of an allowed part, with the decoder mode of its check, and the MEM cycle
at which it becomes visible there. -/
structure SlotReq where
  at_ : Nat
  cls : Nat
  identity : Nat
  line : Nat
  wide : Bool
  op : LineOp
  deriving DecidableEq, Repr

/-- A request served in a position, completing 94 MEM cycles after the position's start (R32). -/
structure InFlight where
  req : SlotReq
  doneAt : Nat
  deriving DecidableEq, Repr

structure Slots where
  /-- Positions whose class differs from the default schedule of R28. -/
  sched : Tab Nat := []
  /-- A schedule and the slot frame from which it is in force (R36). -/
  nextSched : Option (Tab Nat × Nat) := none
  /-- Positions that have started since the release of main-die reset. -/
  started : Nat := 0
  queue : List SlotReq := []
  flight : List InFlight := []
  deriving DecidableEq, Repr

/-! ### Memory, symbol code, dyke table, scrub (14) -/

structure MemChan where
  corrected : Nat := 0
  wideCorrected : Nat := 0
  uncorrData : Nat := 0
  uncorrControl : Nat := 0
  poisonRead : Nat := 0
  wbDone : Nat := 0
  wbDropped : Nat := 0
  parity : Nat := 0
  lastAddr : Nat := 0
  lastSynd : Nat := 0
  /-- Write-back queue: line addresses with corrected data (R381). -/
  wb : List (Nat × List Byte) := []
  /-- Lines that scrub found uncorrectable, waiting to be stored as poison (R383). -/
  toPoison : List Nat := []
  /-- The symbol lines that the slot engine's write-back cache holds, the last used first, each with whether it is changed
  (R373; notes/assumptions/134.md). -/
  sym : List (Nat × Bool) := []
  deriving DecidableEq, Repr

structure Scrub where
  enable : Bool := true
  periodH : Nat := 24
  passPos : Nat := 0
  passes : Nat := 0
  /-- Slot frame of the previous pacing read, or of the event from which the first one counts (R382). -/
  lastFrame : Nat := 0
  /-- Slot frame at or after which the next pacing read is due when a SCRUB_SET moved it (R382). -/
  dueFloor : Nat := 0
  deriving DecidableEq, Repr

structure DykeFaultRec where
  master : Nat
  write : Bool
  region : Nat
  deniedBytes : Nat
  firstAddr : Nat
  count : Nat
  tide : Nat
  /-- The record is older than the last warm reset: no transaction joins it (R394). -/
  old : Bool := false
  deriving DecidableEq, Repr

/-- A sync in progress (R391): the rules it brings into force, when it started, the command that asked for it,
and the region that DYKE_LOCK locks at its end. -/
structure SyncJob where
  rules : Tab Region
  at_ : Ticks
  caller : Option Caller
  lock : Option Nat
  deriving DecidableEq, Repr

structure Dyke where
  force : Tab Region := []
  staged : Tab Region := []
  locked : List Nat := []
  syncs : List SyncJob := []
  /-- Fault log, newest first, at most 16 (R394). -/
  log : List DykeFaultRec := []
  deriving DecidableEq, Repr

structure Mem where
  /-- Data bytes: strictly rising addresses, no zero byte listed (notes/assumptions/3.md). -/
  cells : List Host.Cell := []
  /-- Check-symbol upset of a line: what its four check symbols differ by from its codeword (R374). -/
  upset : Tab (List Nat) := []
  chans : Tab MemChan := []
  /-- Address and syndromes of the last uncorrectable line of any channel (R397). -/
  lastAddr : Nat := 0
  lastSynd : Nat := 0
  scrub : Scrub := {}
  dyke : Dyke := {}
  deriving DecidableEq, Repr

/-! ### Contexts (02, 07, 08) -/

inductive CtxState where
  | free
  | opened
  | awaiting
  deriving DecidableEq, Repr

/-- A ring or pool buffer. `complete`: its complete mark (R208); `ever`: it has completed; reference and
output marks are those of R233 (0 unused, 1 short-term, 2 long-term). -/
structure Buf where
  complete : Bool := false
  ever : Bool := false
  /-- Main-die time from which the completion is visible in the PAN domain (R13, R113). -/
  visible : Ticks := 0
  record : FreshRecord := ⟨0, 0, 0, 0, 0, 255, 0, 0⟩
  content : Option Nat := none
  refMark : Nat := 0
  outMark : Bool := false
  /-- CODED: picture order count of the picture it holds, and the 64-byte units of each tile of its reference slot (R246). -/
  poc : Int := 0
  units : List Nat := []
  /-- AVC: frame_num and long-term index of the reference that it holds (R233). -/
  frameNum : Nat := 0
  longIdx : Nat := 0
  busy : Bool := false
  /-- DESK: the frame of the last completion of the buffer, as `DgsSt.frameIx` counts (R222). -/
  dgsFrame : Option Nat := none
  deriving DecidableEq, Repr

/-- A frame or access unit in progress (R210, R215, R221). -/
structure Frame where
  ts : Nat
  firstSeq : Nat
  lastSeq : Nat
  seen : List Nat
  marker : Bool
  target : Option Nat
  fill : Option Nat
  firstAt : Ticks
  lastAt : Ticks
  ext : Option ExtElem
  extBad : Bool
  /-- Pixels covered so far: (line, first pixel, pixels). -/
  covered : List (Nat × Nat × Nat)
  /-- RTP payloads by sequence number, and pgroup bytes by (row, offset), kept while a check needs them (R49). -/
  payload : List (Nat × List Byte)
  rows : List (Nat × Nat × List Byte)
  size : Nat
  /-- First two header bytes of the NAL units that its packets began, in the order they came (R214). -/
  nals : List Nat
  /-- Abandoned, or dropped by R208 or R212: its packets are discarded. -/
  abandoned : Bool
  /-- Complete: what still arrives of it is a second copy or late. -/
  done : Bool
  /-- Bindings that the context had had when its first packet came (R318). -/
  binds : Nat
  deriving DecidableEq, Repr

/-- A frame that is complete and whose buffer is not (R211, R226, R307, R309): what still has to end first. -/
structure Closing where
  target : Nat
  fill : Option Nat
  capNs : Nat
  capS : Nat
  /-- none: the source gave none, and the previous value stands (R41). -/
  alive : Option Nat
  binds : Nat
  /-- When the last covered byte and the expected value had come (R309). -/
  checkAt : Ticks
  /-- Time of its last write or of the end of its check (R226). -/
  at_ : Ticks
  causes : Nat
  /-- Uncovered ranges to copy from the fill source or fill with black (R211). -/
  gaps : List (Nat × Nat × Nat)
  tiles : List Nat
  comparing : Option (Nat × Nat)
  good : Option Bool
  /-- The detector's reads have been asked for, and have ended (R66, R307). -/
  reading : Bool := false
  detected : Bool := false
  content : Option Nat
  zeroDirty : Bool
  poison : Bool
  peer : Option FreshRecord
  dgsFrame : Option Nat
  /-- Byte ranges of a PEER buffer that no packet brought (R362). -/
  ranges : List (Nat × Nat) := []
  deriving DecidableEq, Repr

/-- An access unit in the bitstream ring (R215, R237). -/
structure AccessUnit where
  seq : Nat
  size : Nat
  doneAt : Ticks
  doneTide : Nat
  capNs : Nat
  capS : Nat
  causes : Nat
  alive : Nat
  aliveRun : Nat
  goodRun : Nat
  nals : List Nat
  /-- Where it begins in the ring (R215). -/
  pos : Nat
  /-- It has been counted as one that missed its due tide (R241). -/
  missed : Bool := false
  /-- A check comparison that still runs: expected and computed value (R308). -/
  comparing : Option (Nat × Nat)
  /-- When its last covered byte and its expected value had come, and the bindings its context had had when it began (R309, R318). -/
  checkAt : Ticks
  binds : Nat
  /-- Which access unit of its tide it is, from 1 (R242). -/
  tideIx : Nat
  deriving DecidableEq, Repr

/-- A picture at an engine, or decoded and not yet complete (R236): its buffer, access unit, causes and picture order count. -/
structure Picture where
  buffer : Nat
  au : AccessUnit
  causes : Nat
  poc : Int
  /-- When its last write completed, and when the output process decided to output it (R236). -/
  endAt : Ticks
  decided : Option Ticks := none
  /-- Pictures decoded since it began to wait for output. -/
  latency : Nat := 0
  /-- The detector's reads have been asked for, have ended, and their value (R307). -/
  reading : Bool := false
  detected : Bool := false
  content : Option Nat := none
  deriving DecidableEq, Repr

structure DecSt where
  seeking : Bool := true
  /-- RASL pictures of the last random-access picture are not decoded (R236, R249). -/
  dropRasl : Bool := false
  taint : Nat := 0
  profile : Nat := 0
  level : Nat := 0
  depth : Nat := 0
  codedW : Nat := 0
  codedH : Nat := 0
  cropL : Nat := 0
  cropT : Nat := 0
  cropR : Nat := 0
  cropB : Nat := 0
  pics : Nat := 0
  output : Nat := 0
  concealed : Nat := 0
  missingRef : Nat := 0
  auSkipped : Nat := 0
  auUnsupported : Nat := 0
  poolWait : Nat := 0
  poolWaitTide : Option Nat := none
  overDeclared : Nat := 0
  deadlineMiss : Nat := 0
  pliSent : Nat := 0
  pliAt : Option Ticks := none
  waiting : List Picture := []
  /-- Access units that have completed in a tide: the tide and their number (R242). -/
  arrivals : Nat × Nat := (0, 0)
  /-- PRIORITY asked for by DECODE_PRIORITY, applying from the next random-access unit (R254). -/
  nextPriority : Option Bool := none
  deriving DecidableEq, Repr

/-- One DGS tile being received (R217 to R219). -/
structure Tile where
  tile : Nat
  enc : Nat
  last : Nat
  unit : Nat
  pieces : List (Nat × List Byte)
  decoded : Bool
  bad : Bool
  /-- When its last piece came. -/
  wholeAt : Ticks := 0
  deriving DecidableEq, Repr

/-- A FRAME_END datagram: tiles counted, ALIVE, check value when CHK = 1, capture time (R217, R220). -/
structure DgsEnd where
  count : Nat
  alive : Nat
  check : Option Nat
  capS : Nat
  capNs : Nat
  deriving DecidableEq, Repr

structure DgsSt where
  tiles : List Tile := []
  /-- When the crystallizer delivered the frame's latest compressed tile (R306). -/
  decodedAt : Ticks := 0
  /-- FRAME_END of the frame in progress (R220). -/
  ended : Option DgsEnd := none
  firstCapS : Nat := 0
  firstCapNs : Nat := 0
  /-- Frames that have begun since the context opened, and the latest one that delivered each tile whole. -/
  frameIx : Nat := 0
  tileFrame : Tab Nat := []
  /-- Tiles received since the context opened or its isolation ended (R222). -/
  got : List Nat := []
  /-- LAST and UNIT of each tile of which a piece of the frame in progress has come (R218). -/
  geometry : Tab (Nat × Nat) := []
  everSeen : Bool := false
  refreshAt : Option Ticks := none
  outSeq : Nat := 0
  deriving DecidableEq, Repr

structure CtxCounters where
  frames : Nat := 0
  lossFrames : Nat := 0
  pktLost : Nat := 0
  path0Lost : Nat := 0
  path1Lost : Nat := 0
  dup : Nat := 0
  extBad : Nat := 0
  gap : Nat := 0
  ringFull : Nat := 0
  late : Nat := 0
  fast : Nat := 0
  dgsBad : Nat := 0
  unsupported : Nat := 0
  isolatedDrop : Nat := 0
  refreshSent : Nat := 0
  deriving DecidableEq, Repr

/-- Parameters of a context that was never opened. -/
def noParams : CtxParams :=
  ⟨0, 0, 0, 0, 0, 0, 0, 0, 0, 0, 0, 0, 0, 0, 0, 0, 0, 0, 0⟩

structure Ctx where
  state : CtxState := .free
  opening : Nat := 0
  p : CtxParams := noParams
  isolated : Bool := false
  leave : Bool := false
  /-- No buffer has completed since open, since isolation ended or since the mirror was admitted (R63, R202, R360). -/
  never : Bool := true
  mirrorHeld : Bool := false
  bufs : Tab Buf := []
  frame : Option Frame := none
  /-- Highest sequence number of the last frame, and the last one of each path (R213, R227). -/
  lastSeq : Option Nat := none
  pathLast : Tab Nat := []
  /-- Sequence numbers of earlier frames whose second copies may still come, with the time of each frame's last packet (R213). -/
  past : List (Ticks × List Nat) := []
  /-- Sequence numbers of packets that arrived and were dropped as unsupported, with their times: they are not lost (R213). -/
  dropped : List (Ticks × Nat) := []
  closing : List Closing := []
  /-- Buffers completed since the context opened, modulo 2^32 (R51). -/
  seqNext : Nat := 0
  prev : Option FreshRecord := none
  prevContent : Option Nat := none
  /-- CODED: the last picture that was output; `prev` is then the last access unit's record (R237). -/
  prevPic : Option FreshRecord := none
  /-- The next buffer is judged as a first buffer for its alive counter, for its content value (R52). -/
  aliveFirst : Bool := true
  /-- Source bindings made since it opened (R318). -/
  binds : Nat := 0
  contentFirst : Bool := true
  fastRef : Option Ticks := none
  cnt : CtxCounters := {}
  dgs : DgsSt := {}
  aus : List AccessUnit := []
  /-- Position in the bitstream ring at which the next bytes are written (R215). -/
  ringPos : Nat := 0
  auSeq : Nat := 0
  attach : Option Attach := none
  dec : DecSt := {}
  latest : Option (Nat × FreshRecord) := none
  srcAddr : Option (Nat × IpAddr) := none
  ssrc : Nat := 0
  /-- Repeats of the last INPUT datagram still to send, and that datagram (R224). -/
  repeats : Nat := 0
  lastInput : List Byte := []
  /-- Contacts of the stream that another device's touch packets left down: device, desk, contact (R478). -/
  remoteDown : List (Nat × Nat × Nat) := []
  deriving DecidableEq, Repr

/-! ### Heads and windows (02, 03, 04, 05, 06, 11) -/

structure WinDef where
  g : WinGeom
  l : LayerSettings
  pol : Policy
  groups : Nat
  deriving DecidableEq, Repr

/-- A sealed region as a head holds it (R313, R319). -/
structure Seal where
  x : Nat
  y : Nat
  w : Nat
  h : Nat
  poly : Nat
  channel : Nat
  deriving DecidableEq, Repr

/-- A window's slot on a head, as a commit brought it into force (R134, R207): the opening its context is
bound to, and the HOST buffer and record that came with it (R154). -/
structure Slot where
  win : Nat
  d : WinDef
  opening : Option Nat
  host : Option (Nat × FreshRecord)
  deriving DecidableEq, Repr

def zorderReset : ZOrder := ⟨false, 0, [0, 1, 2, 3, 4, 5, 6, 7, 8, 9, 10, 11]⟩

/-- The parameters of a head that a commit copies (R149). Windows are written to the shadow once for the
whole wall (`State.wins`); the slots of a bank are the windows that meet the head when it is armed. -/
structure Bank where
  timing : Option Timing := none
  z : ZOrder := zorderReset
  place : Option (Nat × Nat) := none
  /-- Palette entries by graphic layer × 256 + entry, those that are not 0 (R121). -/
  pal : Tab Nat := []
  seals : Tab Seal := []
  slots : List Slot := []
  deriving DecidableEq, Repr

/-- An armed commit of one head (R149, R150). -/
structure Armed where
  seq : Nat
  cycle : Ticks
  bank : Bank
  deriving DecidableEq, Repr

inductive HeadState where
  | disabled
  | starting
  | running
  | modeChange
  | training
  | unplugged
  | linkFailed
  deriving DecidableEq, Repr

/-- Where a head's frame stands (R141). -/
inductive Phase where
  | stopped
  | blanking
  | active
  | porch
  | sync
  deriving DecidableEq, Repr

/-- A buffer taken by a layer slot (R113, R115). -/
structure Taken where
  win : Nat
  ctx : Nat
  opening : Nat
  buf : Nat
  record : FreshRecord
  recordPoison : Bool
  deriving DecidableEq, Repr

/-- What the spans of one window have given on a head in one frame (R75, R76). -/
structure WinFrame where
  verdict : Nat
  causes : Nat
  firstLine : Nat
  capNs : Nat
  capS : Nat
  age : Nat
  frameCount : Nat
  deriving DecidableEq, Repr

/-- The span word in use for a layer slot, and the line it was evaluated on (R55, R82). -/
structure LineWord where
  line : Nat
  win : Nat
  verdict : Nat
  causes : Nat
  deriving DecidableEq, Repr

/-- Mode-change progress (R163, R164). -/
inductive McPhase where
  | none
  | blackNext
  | black
  | toContent
  | retrain
  | retrainBlack
  deriving DecidableEq, Repr

/-- One composed pixel in the head FIFO: 12-bit components, and the weight of each layer there (R129, R130). -/
structure Pixel where
  c0 : Nat
  c1 : Nat
  c2 : Nat
  weights : List (Nat × Nat)
  deriving DecidableEq, Repr

/-- A group of up to 4 pixels in a head FIFO (R108). -/
structure Group where
  line : Nat
  x : Nat
  px : List Pixel
  deriving DecidableEq, Repr

/-- A board equalization entry of a display lane (R182). -/
structure DplEq where
  allowedLv : Nat := 0x0137
  startSwing : Nat := 0
  startPre : Nat := 0
  startPreset : Nat := 0
  allowedPreset : Nat := 0xFFFF
  deriving DecidableEq, Repr

structure Link where
  mapped : Bool := false
  quad : Nat := 0
  width : Nat := 0
  first : Nat := 0
  maxRate : Nat := 6
  invert : Nat := 0
  /-- 0 no sink, 1 training, 2 up, 3 failed (R189). -/
  link : Nat := 0
  reason : Nat := 0
  rate : Nat := 7
  lanes : Nat := 0
  sink : Option Sink := none
  sinkRate : Nat := 7
  sinkLanes : Nat := 0
  asyncCap : Bool := false
  /-- The sink ignores main-stream timing, as firmware has told it (R184). -/
  ignoring : Bool := false
  fmin : Nat := 0
  fmax : Nat := 0
  trainCount : Nat := 0
  failCount : Nat := 0
  eq : List Nat := [0, 0, 0, 0]
  /-- Candidates left: lanes and rate code (R180). -/
  cands : List (Nat × Nat) := []
  trainStart : Option Ticks := none
  /-- Until when HPD has been sampled (R178). -/
  hpdAt : Ticks := 0
  /-- The AUX transaction that was answered late last, its retries, and when its last try ended (R179). -/
  auxTransaction : Nat := 0
  auxRetries : Nat := 0
  auxAt : Ticks := 0
  /-- Lanes DPL whose requests were clamped in the training in progress (R183). -/
  clampMask : Nat := 0
  deriving DecidableEq, Repr

/-- Fences that their source no longer holds and that stay on a head until its next flip (R96): groups by
source, sealed flags, and SAFE. -/
structure HeadFence where
  ball : Nat := 0
  sw : Nat := 0
  wel : Nat := 0
  seals : Nat := 0
  safe : Bool := false
  /-- Bits that a vote gave the head although no source holds them (R83, R95). -/
  voted : Nat := 0
  deriving DecidableEq, Repr

/-- The flip that a head is heading for, once its front porch has ended (R141, R147): exact times on the main
die's clock, the own anchor and its j, front-porch lines, and whether it ends a re-alignment. -/
structure NextFlip where
  at_ : Rat
  anchor : Rat
  /-- Number of the anchor's tide, and its j (R146). -/
  tide : Nat := 0
  j : Nat
  lines : Nat
  realign : Bool
  deriving DecidableEq, Repr

/-- A front porch that ends on the first anchor leaving VFP_MIN lines (R148, R163): of tides from `since` on;
`realign`: it is a re-alignment, which posts its event. -/
structure Fixed where
  since : Ticks
  realign : Bool
  deriving DecidableEq, Repr

structure Head where
  pan : Option Nat := none
  st : HeadState := .disabled
  phase : Phase := .stopped
  twin : Bool := false
  shadow : Bank := {}
  force : Bank := {}
  /-- The bank before the one in force, for touches on the frame shown (R474), and whether the frame shown
  is still that older one. -/
  before : Option Bank := none
  flippedForce : Bool := true
  armed : List Armed := []
  frameCount : Nat := 0
  /-- HEAD_FLIP_TIME, and the exact main-die time of that flip on the line grid. -/
  flipAt : Ticks := 0
  flipT : Rat := 0
  /-- The own anchor of that flip: the number of its tide and its j (R146). -/
  ownTide : Nat := 0
  ownJ : Nat := 0
  appliedSeq : Nat := 0
  forceSeq : Nat := 0
  waitTimeouts : Nat := 0
  lateFlips : Nat := 0
  late : Bool := false
  timeout : Bool := false
  lastVfp : Nat := 0
  flipEvents : Bool := false
  disableSched : Bool := false
  /-- The timing that the timing generator runs: the one in force, or still the old one in a mode change. -/
  gen : Option Timing := none
  /-- Exact main-die time at which the present vertical blanking began (R141, R165). -/
  base : Rat := 0
  porchLines : Nat := 0
  porchEnded : Bool := false
  /-- The front porch in progress uses variable blanking, as its latch edge found it (R156). -/
  porchVrr : Bool := false
  /-- A re-alignment due in the next front porch, to tides from this time on (R148). -/
  realign : Option Ticks := none
  fixed : Option Fixed := none
  next : Option NextFlip := none
  /-- The take point of the next flip has passed. -/
  took : Bool := false
  mc : McPhase := .none
  /-- Content starts at the first flip on an anchor j = 0 at or after this main-die time (R164, R185). -/
  contentFrom : Option Rat := none
  taken : Tab Taken := []
  /-- Buffers that slots without a buffer to take still pin (R115). -/
  kept : Tab Taken := []
  shown : Tab Taken := []
  fence : HeadFence := {}
  sealFlags : Nat := 0
  /-- Sealed regions compared in this frame, and the CRC registers of those that a plain pixel has reached (R313, R314). -/
  sealDone : Nat := 0
  taps : Tab Nat := []
  spans : Tab WinFrame := []
  done : Tab WinFrame := []
  sumVerdict : Nat := 0
  sumNotLive : Nat := 0
  sumCauses : Nat := 0
  link : Link := {}
  fifo : List Group := []
  /-- The next group of the first line not wholly composed, the next one of the line after it, and the lines whose fetches have
  started (R109, R110). -/
  nextLine : Nat := 0
  nextX : Nat := 0
  aheadX : Nat := 0
  fetched : Nat := 0
  lateLine : Option Nat := none
  /-- Device lines whose bursts were denied or late and count as zeros in the frame composed (R112). -/
  zeroed : List Nat := []
  /-- Span words in use by layer (R82). -/
  words : Tab LineWord := []
  /-- Main-die time from which the fence vector holds each of its 17 bits on this head (R83, R95). -/
  fenceAt : Tab Ticks := []
  vrrOn : Bool := false
  deriving DecidableEq, Repr

/-! ### Pans and gauges (03) -/

inductive ChanState where
  | active
  | suspect
  | failed
  deriving DecidableEq, Repr

/-- The tables of a gauge channel (R77): its windows by 16 × head + layer slot, and the colour sets. -/
structure GaugeTable where
  wins : Tab GaugeEntry := []
  colours : Tab ColourSet := []
  deriving DecidableEq, Repr

/-- A state copy in progress: when it started or restarted, and the copy source (R86). -/
structure StateCopy where
  start : Ticks
  src : Nat
  deriving DecidableEq, Repr

structure Gauge where
  st : ChanState := .active
  table : GaugeTable := {}
  copying : Option StateCopy := none
  /-- When the last copy or reload of a channel out of the vote completed (R87). -/
  copied : Option Ticks := none
  goodPasses : Nat := 0
  outvoted : Nat := 0
  salFails : Nat := 0
  deriving DecidableEq, Repr

structure Pan where
  a : Gauge := {}
  b : Gauge := {}
  c : Gauge := {}
  noVote : Bool := false
  reload : Bool := false
  short : Bool := false
  noMajority : Nat := 0
  salPass : Nat := 0
  salFailCycle : Nat := 0xFF
  salTide : Nat := 0
  lastWindow : Nat := 0
  lastHead : Nat := 0
  lastChannel : Nat := 0
  /-- Start of the tide's salinity pass, when one is due (R88). -/
  salDue : Option Ticks := none
  /-- The tide of that pass, and whether the present tide's pass has been scheduled. -/
  salDueTide : Nat := 0
  salDone : Bool := true
  /-- PAN cycle of the last group composed (R110). -/
  composedAt : Option Nat := none
  deriving DecidableEq, Repr

structure Fences where
  ballMap : Nat := 0xFF
  sw : Nat := 0
  ballLow : Bool := false
  /-- Groups held from each origin device on Welond (R364). -/
  wel : Tab Nat := []
  safe : Bool := false
  deriving DecidableEq, Repr

/-- A FENCE command whose changes become visible at fence distribution at time `at_` (R440). -/
structure FenceRun where
  c : Caller
  p : FenceP
  at_ : Ticks
  deriving DecidableEq, Repr

/-! ### Ports and flows (07) -/

structure PortCfg where
  mode : Nat := 0
  fec : Nat := 0
  mgmtVlan : Nat := 0
  rxDelay : Nat := 0
  txDelay : Nat := 0
  ipv4 : Nat := 0
  ipv6 : Nat := 0
  mac : Nat := 0
  deriving DecidableEq, Repr

structure Port where
  exists_ : Bool := false
  cfg : PortCfg := {}
  link : Bool := false
  rxFrames : Nat := 0
  fcsBad : Nat := 0
  oversize : Nat := 0
  stray : Nat := 0
  overrun : Nat := 0
  sluiceRx : Nat := 0
  sluiceDrop : Nat := 0
  mgmtDrop : Nat := 0
  fecCorr : Nat := 0
  fecUncorr : Nat := 0
  sluiceEn : Bool := true
  udpPort : Nat := 5260
  rateKbps : Nat := 20000
  /-- Tokens held, in bits × 24,000,000 (ticks × kbit/s), so that the fill is exact; full at reset (R199). -/
  sluiceTokens : Nat := 65536 * 8 * 24000000
  mgmtTokens : Nat := 16384 * 8 * 24000000
  tokensAt : Ticks := 0
  /-- Frames of the time path that wait, oldest first: length, and receive stamp in half-nanoseconds (R198, R326). -/
  timeIn : List (Nat × Nat) := []
  joined : List Membership := []
  deriving DecidableEq, Repr

/-- A frame in the media space of a physical port (R198): its logical port, the context, opening and path that the classifier gave
it, where it came from, its length, its receive stamp in half-nanoseconds (R326), and its UDP payload. -/
structure MediaFrame where
  port : Nat
  ctx : Nat
  opening : Nat
  path : Nat
  src : IpAddr
  len : Nat
  stamp : Nat
  payload : List Byte
  deriving DecidableEq, Repr

/-! ### Decode and encode engines (08, 09) -/

structure DecEngine where
  work : Option Picture := none
  head : Option PictureHead := none
  ctx : Nat := 0
  opening : Nat := 0
  startAt : Ticks := 0
  prevCtx : Option Nat := none
  /-- The context whose picture must be abandoned (R252). -/
  abandon : Bool := false
  busy : Nat := 0
  switches : Nat := 0
  pictures : Nat := 0
  lastBusy : Nat := 0
  lastSwitches : Nat := 0
  lastPictures : Nat := 0
  /-- The picture in work was the first of its context's on this engine (R240). -/
  switched : Bool := false
  dueTide : Nat := 0
  critical : Bool := false
  deriving DecidableEq, Repr

/-- A frame of an encode context (R263, R264): frame time, capture time, the half of the input ring that holds it, and the
main-die time of its flip or tide. -/
structure EncFrame where
  time : Ticks
  capNs : Nat
  capS : Nat
  half : Nat
  key : Ticks
  deriving DecidableEq, Repr

/-- A frame whose lines the converter writes (R260 to R262): the buffer it has pinned, scaled lines complete, 12-bit chroma
of the last even line, source lines read, and device lines whose reads were denied. -/
structure EncCapture where
  fr : EncFrame
  pinned : Option Nat
  lines : Nat
  chroma : List (Nat × Nat)
  srcRead : Nat
  zeroed : List Nat
  deriving DecidableEq, Repr

/-- The frame an engine is coding (R265 to R272). `at_`: its start or its last slice. -/
structure EncWork where
  enc : Nat
  fr : EncFrame
  idr : Bool
  budget : Nat
  spent : Nat
  slice : Nat
  row : Nat
  /-- `raise` of R271, and the scaled lines of the frame that are in the input ring (R265). -/
  raise : Nat
  lines : Nat
  capped : Bool
  discarding : Bool
  at_ : Ticks
  /-- Bytes of its slices, and its picture order count (R256, R271). -/
  bytes : Nat := 0
  poc : Nat := 0
  deriving DecidableEq, Repr

structure EncCounters where
  frames : Nat := 0
  capped : Nat := 0
  capDropped : Nat := 0
  skipped : Nat := 0
  noSource : Nat := 0
  ringOverflow : Nat := 0
  idrCount : Nat := 0
  deriving DecidableEq, Repr

/-- What the parameter sets of an encode context's last IDR picture say of slice headers (R256): the picture set's id, bits of a picture
order count, distance of the sequence's short-term set, and which optional fields there are; `unfiltered`: no deblocking by default. -/
structure SliceForm where
  pps : Nat
  pocBits : Nat
  near : Option Nat
  outputFlag : Bool
  cabacInit : Bool
  chromaQp : Bool
  override : Bool
  unfiltered : Bool
  deriving DecidableEq, Repr

structure Enc where
  p : EncParams
  rate : EncRate := ⟨28, 0xFFFFFFFF, 0xFFFFFFFF⟩
  nextRate : Option EncRate := none
  forceIdr : Bool := true
  /-- Main-die time of the last flip or tide handled, and the half of the input ring for the next frame. -/
  lastDue : Ticks := 0
  half : Nat := 0
  capture : Option EncCapture := none
  /-- A ready frame that waits for the engine (R265). -/
  waiting : Option EncFrame := none
  /-- Head pixels that the converter holds: those of the frame of a flip, by 2 × line + head of the pair (R259). -/
  tapKey : Ticks := 0
  tap : Tab (List (Nat × Nat × Nat)) := []
  frameNo : Nat := 0
  sinceIdr : Nat := 0
  /-- Bytes of coded frames with their frame times, newest first (R269). -/
  history : List (Ticks × Nat) := []
  producer : Nat := 0
  consumer : Nat := 0
  rtpSeq : Nat := 0
  /-- When the transmitter's last packet has left at its pace (R275). -/
  pacedAt : Ticks := 0
  /-- RTP payloads of the frame being sent (R275). -/
  sent : List Byte := []
  /-- CONSUMER once the packets of the entry that is being sent have left (R275). -/
  sending : Option Nat := none
  lastQp : Nat := 0
  /-- The parameter sets in use, and the picture order count of the last coded picture, modulo their range. -/
  form : Option SliceForm := none
  poc : Nat := 0
  cnt : EncCounters := {}
  deriving DecidableEq, Repr

structure EncEngine where
  work : Option EncWork := none
  prevEnc : Option Nat := none
  abandon : Bool := false
  deriving DecidableEq, Repr

/-! ### Crystallizer and check channels (10, 11) -/

inductive JobState where
  | queued
  | running
  | stopped
  deriving DecidableEq, Repr

/-- The saved coder of a job (R294): dictionary pairs from code 258 upwards, pending string, bits not yet
written, and where input and output stand. -/
structure Coder where
  dict : List (Nat × Nat) := []
  pend : Option Nat := none
  started : Bool := false
  bits : List Bool := []
  /-- Input position at which the block in progress started, and the present one: bytes when compressing, bits when
  decompressing. -/
  blockStart : Nat := 0
  inPos : Nat := 0
  outTotal : Nat := 0
  /-- Decompressing: bytes that the block has given, and the last ones, newest first (R287). -/
  blockOut : Nat := 0
  tail : List Byte := []
  deriving DecidableEq, Repr

structure Job where
  p : CrysParams
  st : JobState
  coder : Coder := {}
  outBytes : Nat
  outBase : Nat
  flushes : List Nat := []
  startAt : Ticks := 0
  blocks : Nat := 0
  inConsumed : Nat := 0
  outProduced : Nat := 0
  /-- The read position of the run as it was last found (R303). -/
  foundPos : Nat := 0
  deriving DecidableEq, Repr

structure Lane where
  /-- 0 ingest, 1 Welond, 2 host jobs, 3 unused (R446). -/
  use : Nat := 3
  job : Option Nat := none
  /-- When the last tile or buffer that the lane coded left it (R292). -/
  freeAt : Ticks := 0
  deriving DecidableEq, Repr

/-- A taken check channel (R305, R320): use 0 source binding, 1 detector, 2 sealed region. -/
structure Check where
  use : Nat
  crcEn : Bool := false
  aliveEn : Bool := false
  aliveW : Bool := false
  poly : Nat := 1
  region : Nat := 0
  object : Nat
  /-- Which binding of its context it is, from 1 (R318). -/
  serial : Nat := 0
  compared : Nat := 0
  mismatch : Nat := 0
  voids : Nat := 0
  lastExpected : Nat := 0
  lastComputed : Nat := 0
  lastAt : Nat := 0
  deriving DecidableEq, Repr

/-! ### Time and pulses (12) -/

inductive ServoState where
  | free
  | acquiring
  | locked
  | holdover
  deriving DecidableEq, Repr

def profileReset : Profile :=
  ⟨0, true, 0, false, 127, 128, 128, -3, -2, 3, -3, 1, 0⟩

/-- A clock that a port hears (R325): its last Announce, who sent it, and when the last two came. -/
structure Foreign where
  d : ClockData
  srcClock : Nat
  srcPort : Nat
  at_ : Ticks
  before : Option Ticks
  deriving DecidableEq, Repr

/-- A PTP port (R325): the clocks it hears, the exchange in progress (times in 2^-16 ns), and its sequence numbers. -/
structure PtpPort where
  /-- IEEE 1588's portState number; 0 while the port does not run PTP (R335). -/
  state : Nat := 0
  /-- When the port began to listen, or last heard an Announce. -/
  heardAt : Ticks := 0
  foreign : List Foreign := []
  /-- The Sync in progress: sequenceId, receive stamp, and origin time with the corrections, once it is known. -/
  sync : Option (Nat × Int × Option Int) := none
  /-- The Delay_Req in progress: sequenceId and departure stamp. -/
  delay : Option (Nat × Int) := none
  seqSync : Nat := 0
  seqAnnounce : Nat := 0
  seqDelay : Nat := 0
  /-- When the port last sent a Sync, an Announce and a Delay_Req. -/
  syncAt : Option Ticks := none
  announceAt : Option Ticks := none
  delayAt : Option Ticks := none
  deriving DecidableEq, Repr

structure Servo where
  st : ServoState := .free
  prof : Profile := profileReset
  goodRun : Nat := 0
  badRun : Nat := 0
  offsetNs : Int := 0
  /-- Words of the last 64 s with their times, newest first (R323 HOLDOVER). -/
  words : List (Ticks × Int) := []
  /-- Seconds that the PPS edges mark beyond the count in force, from a TOD_S until a step takes them up (R324). -/
  todLag : Int := 0
  /-- When the source in force was chosen, when its last PPS edge came, and whether TEN_MHZ_IN was last measured outside ±50 ppm (R323). -/
  sourceAt : Ticks := 0
  ppsAt : Option Ticks := none
  tenBad : Bool := false
  pathDelay : Nat := 0
  slavePort : Nat := 0xFF
  stepsRemoved : Nat := 0
  gmId : Nat := 0
  phaseSteps : Nat := 0
  ptp : Tab PtpPort := []
  deriving DecidableEq, Repr

def pulseReset : Pulse := ⟨0, false, 0, 0, 0, 0, 1, 0, 1⟩

structure PulseSt where
  cfg : Pulse := pulseReset
  /-- A setting written while the output is active (R330). -/
  pend : Option Pulse := none
  active : Bool := false
  /-- Next leading edge, or the trailing edge while active, in half-nanoseconds of the time base. -/
  next : Option Nat := none
  /-- The next leading edge is one that a forward step skipped and that fires late (R332). -/
  late : Bool := false
  /-- Edges that forward steps have skipped (R332). -/
  missed : Nat := 0
  deriving DecidableEq, Repr

structure Capture where
  mode : Nat := 0
  fifo : List (Ticks × Bool) := []
  lost : Nat := 0
  deriving DecidableEq, Repr

/-! ### Welond and serial lanes (13) -/

structure LaneEq where
  txPre : Nat := 0
  txMain : Nat := 63
  txPost : Nat := 0
  txInvert : Bool := false
  rxInvert : Bool := false
  ctleMin : Nat := 0
  ctleMax : Nat := 15
  dfeLimit : Nat := 63
  deriving DecidableEq, Repr

/-- A receiver lane (R339 to R341): adapted values, bit lock, scan in progress. -/
structure RxLane where
  ctle : Nat := 0
  dfe : List Int := [0, 0, 0, 0, 0]
  clamped : Bool := false
  scan : Option EyeScanP := none
  deriving DecidableEq, Repr

structure MirrorDecl where
  originDevice : Nat
  compress : Bool
  priority : Nat
  originContext : Nat
  rateKbs : Nat
  compKbs : Nat
  deriving DecidableEq, Repr

structure RingCfg where
  device : Nat := 0
  ring : Nat := 0
  fenceProp : Nat := 0xFF
  mirrors : List MirrorDecl := []
  deriving DecidableEq, Repr

/-- Lock of a lane (R348, R350): the last 64 headers or characters, valid or not, newest first, and consecutive valid ones. -/
structure BlockLock where
  locked : Bool := false
  run : Nat := 0
  last : List Bool := []
  deriving DecidableEq, Repr

/-- The line coder of a Welond transmitter (R346, R347, R350): the scrambled bits sent last, newest first; the serial bit sent last
and its run; in C-mode the running disparity (true: positive) and the characters since the last K28.5. -/
structure LaneTx where
  past : List Bool := []
  last : Bool := false
  run : Nat := 0
  disparity : Bool := false
  since : Nat := 0
  /-- The last 31 bits of its PRBS31 (R353), newest first. -/
  prbs : List Bool := []
  deriving DecidableEq, Repr

/-- The line decoder of a Welond receiver (R346 to R348, R350, R353). -/
structure LaneRx where
  /-- Bit lock, and the error-free PRBS31 bits or pattern pairs that lead to it. -/
  bit : Bool := false
  clean : Nat := 0
  prbs : List Bool := []
  /-- The serial bit received last and its run; the next one is a stuffed bit. -/
  last : Bool := false
  run : Nat := 0
  due : Bool := false
  /-- Bits of the block or character in progress, oldest first, and the scrambled bits received before them, newest first. -/
  part : List Bool := []
  past : List Bool := []
  lock : BlockLock := {}
  /-- C-mode: running disparity, the last ten bits, K28.5 since the last invalid character, the second character of a pair is
  due, and the block in progress with its mark as a control block. -/
  disparity : Bool := false
  win : List Bool := []
  comma : Nat := 0
  await : Bool := false
  group : Option (Bool × List Byte) := none
  /-- Blocks that wait for those of the other used lanes, oldest first (R349). -/
  held : List (Bool × List Byte) := []
  deriving DecidableEq, Repr

inductive WelState where
  | disabled
  | detect
  | train
  | lock
  | exchange
  | active
  | absent
  | foreign
  deriving DecidableEq, Repr

/-- A mirror that leaves this device on a link (R360, R361, R363): the device that asked for it, the context and its origin,
which may be another device. -/
structure Mirror where
  device : Nat
  context : Nat
  originDevice : Nat
  compress : Bool
  priority : Nat
  /-- What it takes of the capacity, in units of 1,000 bytes/s. -/
  kbs : Nat
  admitted : Bool
  /-- Buffer waiting or leaving, pinned until its last packet has left. -/
  waiting : Option Nat
  /-- Its context on this device is not open: it takes no capacity and is neither admitted nor held (R360). -/
  lost : Bool
  deriving DecidableEq, Repr

structure Wel where
  st : WelState := .disabled
  enable : Bool := false
  rateCode : Nat := 2
  fitted : Nat := 0xFF
  reason : Nat := 0
  rate : Nat := 7
  txWidth : Nat := 0
  rxWidth : Nat := 0
  partner : Nat := 0
  partnerValid : Bool := false
  partnerFitted : Nat := 0
  rxLocked : Nat := 0
  txLocked : Nat := 0
  tideSkew : Int := 0
  skewRun : Nat := 0
  /-- Attempts made since the link entered DETECT or left ACTIVE; 8 in ABSENT (R353). -/
  attempts : Nat := 0
  trainAttempts : Nat := 0
  narrowings : Nat := 0
  hdrInvalid : Nat := 0
  stuffErr : Nat := 0
  ctrlBad : Nat := 0
  pktBad : Nat := 0
  /-- Lanes that sense termination, lanes adapted in the attempt, and when they were last sensed (R353). -/
  sensing : Nat := 0
  adapted : Nat := 0
  sensedAt : Option Ticks := none
  /-- When the attempt in progress, or the state ABSENT or FOREIGN or its last retry, began. -/
  since : Ticks := 0
  /-- When the EXCHANGE in progress began, and its last message (R353, R354). -/
  exchange : Option Ticks := none
  capAt : Option Ticks := none
  /-- When the first lane of this end gained bit lock in the attempt (R353). -/
  bitAt : Option Ticks := none
  narrowAt : Option Ticks := none
  /-- More lanes have locked: the transmitting end widens after its next tide, the receiving end with it (R358). -/
  txWiden : Bool := false
  rxWiden : Bool := false
  /-- Retraining attempts of a lane that lost lock, and when the last one ended (R358). -/
  laneTries : Tab (Nat × Ticks) := []
  /-- Departure and arrival of the last tide message received (R367). -/
  lastTide : Option (Ticks × Ticks) := none
  fenceAt : Ticks := 0
  mirrors : List Mirror := []
  /-- Mirrors that the partner holds, by origin device and context, as its last mirror set message names them (R360). -/
  remoteHeld : List (Nat × Nat) := []
  seq : Nat := 0
  /-- Control blocks and packet blocks that are due, and ALIGN on the used lanes (R351, R352, R357). -/
  ctl : List (Bool × List Byte) := []
  queue : List (Bool × List Byte) := []
  alignDue : Bool := false
  /-- Block slots that the sending direction has had, modulo 16,384 (R349). -/
  slot : Nat := 0
  /-- Since when the bits of a lane count, those that the first lane has sent since, and those that a lane in training has (R353,
  R358). -/
  lineFrom : Ticks := 0
  sent : Nat := 0
  patSent : Nat := 0
  /-- Blocks whose bytes the spec leaves open have left since: the lanes' coders may stand anywhere. -/
  mixed : Bool := true
  deriving DecidableEq, Repr

/-! ### Warden (15, 16, 17) -/

inductive WardenState where
  | booting
  | ready
  | restarting
  deriving DecidableEq, Repr

structure Mailbox where
  irqEn : Bool := false
  /-- 0 IDLE, 1 BUSY, 2 DONE (R406). -/
  state : Nat := 0
  status : Nat := 0
  respLen : Nat := 0
  abCode : Nat := 0
  abStatus : Nat := 0
  abSeq : Nat := 0
  /-- REQUEST and RESPONSE buffers, bytes that are not 0 by offset. -/
  request : Tab Nat := []
  response : List Byte := []
  /-- Records that wait until an earlier command of the mailbox has completed, oldest first, each with whether the mailbox went away
  meanwhile (R399, R405). -/
  waiting : List (List Byte × Bool) := []
  deriving DecidableEq, Repr

inductive Binding where
  | mailbox (n : Nat)
  | sluice (port : Nat) (src : IpAddr) (uport : Nat)
  deriving DecidableEq, Repr

/-- A taken session slot (R408 to R416). -/
structure Session where
  isOpen : Bool
  keySlot : Nat
  binding : Binding
  nc : List Byte
  nd : List Byte
  key : List Byte := []
  lastSeq : Nat := 0
  lastRecord : List Byte := []
  response : List Byte := []
  badTags : Nat := 0
  at_ : Ticks
  deriving DecidableEq, Repr

structure Approval where
  skim : Nat
  tide : Nat
  session : Nat
  keySlot : Nat
  at_ : Ticks
  deriving DecidableEq, Repr

structure KeySlot where
  key : Option (List Byte) := none
  /-- Back-off: until when, and its present length in seconds (R413). -/
  until_ : Ticks := 0
  backoff : Nat := 0
  deriving DecidableEq, Repr

/-- An event that firmware posts, held back while HB_STATUS does not show READY (R400): type, vector, its
TIME (none: the posting) and payload. -/
structure HeldEvent where
  type : Nat
  vector : Nat
  time : Option Ticks
  payload : List Byte
  deriving DecidableEq, Repr

/-- A command that runs on after its row: TRIM_RUN, DYKE_SYNC, DYKE_LOCK. `abandoned`: its mailbox went away
(R405). `seenAt`: when it became visible to the warden (R430). -/
structure Running where
  c : Caller
  code : Nat
  abandoned : Bool
  seenAt : Ticks
  deriving DecidableEq, Repr

structure EventRing where
  held : List HeldEvent := []
  base : Nat := 0
  size : Nat := 6
  enable : Bool := false
  prod : Nat := 0
  cons : Nat := 0
  lost : Nat := 0
  phase : Bool := true
  seq : Nat := 0
  /-- Events discarded since the ring became full; an OVERFLOW record is owed when it is not 0 (R421). -/
  fullLost : Nat := 0
  deriving DecidableEq, Repr

structure Irq where
  status : BitVec 32 := 0#32
  mask : BitVec 32 := 0#32
  /-- Mask bits of the MSI-X table entries, set after reset (PRESUMED: PCI Express; notes/assumptions/2.md). -/
  entryMask : BitVec 32 := 0xFFFFFFFF#32
  funcMask : Bool := false
  pba : BitVec 32 := 0#32
  /-- Message address and message data of the 32 entries of the MSI-X table (R401; notes/assumptions/63.md). -/
  table : Tab (Nat × Nat) := []
  deriving DecidableEq, Repr

structure ErrRec where
  code : Nat
  cls : Nat
  id : Nat
  count : Nat
  object : Nat
  time : Ticks
  detailA : Nat
  detailB : Nat
  tide : Nat
  deriving DecidableEq, Repr

inductive DebugSession where
  | closed
  | awaiting (token : Nat) (opener durationS : Nat) (at_ : Ticks)
  | opened (opener durationS : Nat) (at_ : Ticks)
  deriving DecidableEq, Repr

/-- A command record of an image (R448). -/
structure ImageRec where
  offset : Nat
  code : Nat
  devices : Nat
  params : List Byte
  deriving DecidableEq, Repr

/-- A stored skim (R453). -/
structure Skim where
  length : Nat
  crc : Nat
  imageId : Nat
  bedCrc : Nat
  dual : Bool
  role : Nat
  records : List ImageRec
  deriving DecidableEq, Repr

/-- A skim apply scheduled or held (R454, R418); `loc`: on this device alone. -/
structure Apply where
  skim : Nat
  tide : Nat
  held : Bool
  loc : Bool
  deriving DecidableEq, Repr

/-- A bed as its sections give it (R446). -/
structure Bed where
  crc : Nat
  imageId : Nat
  wall : Nat
  laneMap : List Link
  dpl : List DplEq
  eq : List LaneEq
  ports : List PortCfg
  pans : List (Option Nat)
  sched : Tab Nat
  demands : List Nat
  coeffs : Tab Int
  ring : RingCfg
  wels : List (Bool × Nat × Nat)
  roles : List Nat
  idleS : Nat
  sluiceReserve : Nat
  lanes : List Nat
  rates : Nat × Nat × Nat
  /-- The blocks of a DYKE section, when there is one. -/
  dyke : Option (List DykeRuleP)
  records : List ImageRec
  deriving DecidableEq, Repr

structure Config where
  bed : Option Bed := none
  /-- A bed that passed and applies at the next tide (R451). -/
  next : Option Bed := none
  /-- Bytes of the retained bed that region 254 holds (R510). -/
  retained : Option Nat := none
  bedTide : Nat := 0
  wall : Nat := 0
  idleS : Nat := 60
  sluiceReserve : Nat := 2
  skims : Tab Skim := []
  applies : List Apply := []
  /-- Tide of an apply and context for which it holds a content-repeat detector (R66). -/
  motion : List (Nat × Nat) := []
  lastSkim : Nat := 0xFF
  lastTide : Nat := 0
  refusals : Tab Nat := []
  deriving DecidableEq, Repr

/-! ### Touch (18) -/

def deskReset : DeskConfig :=
  ⟨false, true, true, false, false, 48, 32, 400, 520, 680, 880, 48, 400, 24, 12, 60, 64, 1800⟩

structure Node where
  value : Nat := 0
  /-- Baseline in 1/256 of a value unit (R462). -/
  base : Int := 0
  raw : List Int := []
  /-- Values of the present run of frames with the delta at most −THRESHOLD / 2, newest first, at most 60 (R464). -/
  negRun : List Nat := []
  satRun : Nat := 0
  /-- TOUCH_SATURATED has been raised for the present run (R471). -/
  satRaised : Bool := false
  deriving DecidableEq, Repr

/-- How a contact is delivered (R476, R477): not to a source so far, to a source, to the host ring for the rest of its life
with a reason and BLOCKED, or nowhere. -/
inductive Delivery where
  | open_
  | source
  /-- Blocked at its down by a verdict (R476). -/
  | blocked
  | host (reason : Nat) (blocked : Bool)
  | discarded
  deriving DecidableEq, Repr

/-- A contact (R467) and where its down fell (R473 to R475). -/
structure Contact where
  /-- Position in 1/256 electrode pitch (R466), peak node, and the peak's delta. -/
  x : Int
  y : Int
  d : Nat
  s : Nat
  /-- 0 down, 1 move, 2 up (R224). -/
  state : Nat
  since : Ticks
  stuck : Bool := false
  /-- The report of its down has been mapped. -/
  mapped : Bool := false
  /-- Number and settings of its route entry, as they stood at its down. -/
  route : Option (Nat × Route) := none
  /-- Window, context and opening touched at its down. -/
  win : Nat := 0xFFFF
  ctx : Option (Nat × Nat) := none
  /-- How its window last lay on its head: the head's place, the window, and the size of its context's picture (R475;
  notes/assumptions/146.md). -/
  seen : Option ((Nat × Nat) × WinDef × (Nat × Nat)) := none
  delivery : Delivery := .open_
  /-- REMOTE_LOST has counted it (R476). -/
  lost : Bool := false
  deriving DecidableEq, Repr

inductive DeskState where
  | off
  | baselining
  | full
  | slow
  deriving DecidableEq, Repr

structure Desk where
  cfg : DeskConfig := deskReset
  /-- Settings that act from the next touch frame (R480). -/
  next : Option DeskConfig := none
  st : DeskState := .off
  cn : Bool := false
  freq : Nat := 0
  threshold : Nat := 0
  noiseRms : Nat := 0
  frames : Nat := 0
  /-- Touch frames scanned, modulo 64 (R465). -/
  frame64 : Nat := 0
  cnEntries : Nat := 0
  negRebases : Nat := 0
  overContacts : Nat := 0
  unrouted : Nat := 0
  blocked : Nat := 0
  remoteLost : Nat := 0
  stuck : Nat := 0
  baseFrames : Nat := 0
  nodes : Tab Node := []
  contacts : Tab Contact := []
  /-- Contacts of the last touch frame that have ended, as its report carries them (R467). -/
  ended : List (Nat × Contact) := []
  /-- Sum of squares and number of deltas of tracking nodes over the last 64 frames, newest first (R465). -/
  noise : List (Nat × Nat) := []
  hopAge : Nat := 16
  noisyRun : Nat := 0
  quietRun : Nat := 0
  lastContact : Ticks := 0
  slowFrames : Nat := 0
  /-- Super-node baselines in 1/256 of a value unit; sums until 4 slow frames have been scanned (R470). -/
  slowNodes : Tab Int := []
  /-- The power state put the desk into slow scan (R470). -/
  slowByPower : Bool := false
  /-- Nodes that take their values as baselines in the next touch frame (R482, R488). -/
  rebase : List Nat := []
  /-- The touch frame of the desk's last measurement, counted from 0 in frames of R461, and whether its report is still to
  be mapped. -/
  frameIx : Nat := 0
  report : Bool := false
  routes : Tab Route := []
  deriving DecidableEq, Repr

/-! ### Trim and power (19, 20) -/

/-- A record of an NVM copy (R492). -/
structure NvmRec where
  item : Nat
  index : Nat
  flags : Nat
  select : Nat
  failed : Nat
  value : Int
  deriving DecidableEq, Repr

structure Nvm where
  gen : Nat
  trimCount : Nat
  runNs : Nat
  runS : Nat
  flags : Nat
  runTide : Nat
  temp : Int
  deltaC : Nat
  records : List NvmRec
  deriving DecidableEq, Repr

/-- What a run may change before it completes, as it stood before (R432). -/
structure TrimPast where
  sets : Tab NvmRec
  deferred : Tab NvmRec
  moving : Tab NvmRec
  implausible : Nat
  calrefUv : Nat
  deriving DecidableEq, Repr

/-- A trim run in progress (R489): when it started, DELTA_C that its copy carries, and whether CALREF was absent at its start (R483). -/
structure TrimRun where
  at_ : Ticks
  deltaC : Nat
  caller : Option Caller
  absent : Bool
  /-- Entries of R485, item and index, that have no result yet. -/
  left : List (Nat × Nat)
  /-- Elements measured so far, by item × 256 + index: element and value in mΩ, nA or fF (R486). -/
  got : Tab (Tab Nat) := []
  /-- Of item 5: the touch frame in which a sense channel measured last, and how many of its capacitors it measured in it (R487). -/
  inFrame : Tab (Nat × Nat) := []
  past : TrimPast
  deriving DecidableEq, Repr

/-- A copy that is being written (R493): which one, its records, how many of them NVM holds so far, and, for a write of DELTA_C alone,
the new value with the command that asked for it; the header is written last. -/
structure NvmWrite where
  copy : Nat
  records : List NvmRec
  written : Nat
  delta : Option (Nat × Caller)
  deriving DecidableEq, Repr

structure Trim where
  /-- Contents of the two copies in NVM (R492). -/
  copyA : List Byte := []
  copyB : List Byte := []
  /-- The copy in force: 0 A, 1 B, and what it holds; none while the factory values are loaded (R493). -/
  copy : Nat := 0
  hdr : Option Nvm := none
  factoryRef : Bool := false
  factoryAll : Bool := false
  run : Option TrimRun := none
  implausible : Nat := 0
  calrefUv : Nat := 0
  tempNow : Int := 0
  tempAt : Option Ticks := none
  tempRunAt : Option Ticks := none
  deltaC : Nat := 8
  /-- Element sets in force by item × 256 + index: selection mask, failed mask, value, flags. -/
  sets : Tab NvmRec := []
  /-- Selections that wait for their latch edge or touch line (R485, R488). -/
  deferred : Tab NvmRec := []
  /-- New selections of lane termination that are being reached one element at a time (R487). -/
  moving : Tab NvmRec := []
  stepAt : Option Ticks := none
  write : Option NvmWrite := none
  deriving DecidableEq, Repr

structure Power where
  state : Nat := 0
  wakeReason : Nat := 0
  waking : Bool := false
  /-- Groups that rested are still to be restarted (R497). -/
  resume : Bool := false
  budgets : Budgets := ⟨0, 0, 0, 0, 300⟩
  entries1 : Nat := 0
  entries2 : Nat := 0
  entries3 : Nat := 0
  vdd : Nat := 800
  marginMin : Nat := 0
  monitor : Nat := 0
  avsUp : Nat := 0
  avsDown : Nat := 0
  raisedAt : Option Ticks := none
  wideSince : Option Ticks := none
  retries : Nat := 0
  pmbusFail : Bool := false
  /-- When MARGIN_MIN was read last, and the VOUT_COMMAND whose readback is due (R495, R496). -/
  sampledAt : Option Ticks := none
  voutAt : Option Ticks := none
  lastDisplay : Ticks := 0
  lastTouch : Ticks := 0
  lastHost : Ticks := 0
  lastIngest : Ticks := 0
  deriving DecidableEq, Repr

/-- Where the start-up of R507 stands. -/
inductive Boot where
  | porst
  | dieUp
  | running
  | memory
  | halted
  | warm
  | up
  deriving DecidableEq, Repr

structure Start where
  boot : Boot := .porst
  safe : Bool := false
  warden : WardenState := .booting
  restartAt : Ticks := 0
  restartImage : Bool := false
  warmCause : Nat := 0
  /-- The firmware slot whose image runs (R508). -/
  slot : Option Nat := none
  failedChans : List Nat := []
  /-- The FATAL record being handled, by its ID (R517). -/
  handling : Option Nat := none
  alertArmed : Bool := true
  /-- Highest sensor reading of the last check, in 1/16 °C (R521, R524). -/
  junction : Option Int := none
  /-- When the comparators last checked the sensors. -/
  checkedAt : Option Ticks := none
  /-- Memory has been trained since PORST_N: a warm reset restores it (R512). -/
  trained : Bool := false
  /-- The firmware image in the 2 MiB of on-die SRAM, from its first byte (R398); the mailbox buffers that the SRAM holds too are
  those of `State.mailboxes`. -/
  sram : List Byte := []
  deriving DecidableEq, Repr

/-- The state of the block. -/
structure State where
  clk : Clocks := {}
  tide : TideSt := {}
  slots : Slots := {}
  mem : Mem := {}
  ctxs : Tab Ctx := []
  wins : Tab WinDef := []
  heads : Tab Head := []
  dpl : Tab DplEq := []
  clamps : Tab Nat := []
  coeffs : Tab Int := []
  demands : Tab Nat := []
  rates : Nat × Nat × Nat := (0, 0, 0)
  colours : Tab ColourSet := []
  nextColours : Tab ColourSet := []
  commitSeq : Nat := 1
  pans : Tab Pan := []
  fences : Fences := {}
  fenceRuns : List FenceRun := []
  ports : Tab Port := []
  /-- Frames in the media space of each physical port, oldest first (R198). -/
  media : Tab (List MediaFrame) := []
  flows : Tab FlowRule := []
  decs : Tab DecEngine := []
  encs : Tab Enc := []
  encEngines : Tab EncEngine := []
  jobs : Tab Job := []
  jobQueue : List Nat := []
  lanes : Tab Lane := []
  checks : Tab Check := []
  servo : Servo := {}
  pulses : Tab PulseSt := []
  captures : Tab Capture := []
  laneEq : Tab LaneEq := []
  rx : Tab RxLane := []
  ring : RingCfg := {}
  wels : Tab Wel := []
  /-- Line coders and decoders of the Welond lanes, WLN_8k+i (R336). -/
  lineTx : Tab LaneTx := []
  lineRx : Tab LaneRx := []
  mailboxes : Tab Mailbox := []
  sessions : Tab Session := []
  approvals : List Approval := []
  keys : Tab KeySlot := []
  hwbBase : Nat := 0
  hwbIdent : Nat := 0
  running : List Running := []
  evr : EventRing := {}
  irq : Irq := {}
  errs : List ErrRec := []
  errNext : Nat := 0
  errOverflow : Nat := 0
  debug : DebugSession := .closed
  cfg : Config := {}
  desks : Tab Desk := []
  /-- The touch frame whose reports were mapped last (R472, R478). -/
  touchIx : Nat := 0
  trim : Trim := {}
  power : Power := {}
  start : Start := {}
  /-- Number of free values drawn so far (a field of the model, not of the spec). -/
  fresh : Nat := 0
  /-- What has left the block, newest first (a field of the model, not of the spec). -/
  out : List Output := []
  /-- The commands that are waiting, first in first out. -/
  pending : List Instr := []
  deriving DecidableEq, Repr

/-- The block right after reset: PORST_N low, every table and counter at its reset value, nothing waiting
(R506, R540). -/
def State.reset : State := {}

end Sys2Proof.Machine
end

