-- ==== Sys2Proof/Machine/Table.lean ====
section
/-! DEFINITION. Reading and writing the device's tables: sparse lists of (entry number, value), ascending,
an unlisted entry being at its reset value. -/

namespace Sys2Proof.Machine

/-- The listed value of entry `n`. -/
def tfind {α : Type} : Tab α → Nat → Option α
  | [], _ => none
  | (m, a) :: r, n => if m = n then some a else tfind r n

/-- The value of entry `n`, `d` being its reset value. -/
def tget {α : Type} (d : α) (t : Tab α) (n : Nat) : α := (tfind t n).getD d

/-- Write entry `n`. -/
def tset {α : Type} : Tab α → Nat → α → Tab α
  | [], n, a => [(n, a)]
  | (m, b) :: r, n, a =>
    if n < m then (n, a) :: (m, b) :: r
    else if n = m then (n, a) :: r
    else (m, b) :: tset r n a

/-- Return entry `n` to its reset value. -/
def tdel {α : Type} (t : Tab α) (n : Nat) : Tab α := t.filter (fun e => e.1 != n)

/-- Whether entry `n` is listed. -/
def thas {α : Type} (t : Tab α) (n : Nat) : Bool := (tfind t n).isSome

/-- Change the listed values that satisfy nothing more than being listed. -/
def tmap {α β : Type} (f : Nat → α → β) (t : Tab α) : Tab β := t.map (fun e => (e.1, f e.1 e.2))

/-- The lowest number below `lim` that is not listed, searched with `fuel` numbers left. -/
def tfreeFrom {α : Type} (t : Tab α) : (fuel n : Nat) → Option Nat
  | 0, _ => none
  | f + 1, n => if thas t n then tfreeFrom t f (n + 1) else some n

/-- The lowest free number of a table of `lim` entries. -/
def tfree {α : Type} (t : Tab α) (lim : Nat) : Option Nat := tfreeFrom t lim 0

/-- Element `i` of a list, `d` when there is none. -/
def nth {α : Type} (d : α) : List α → Nat → α
  | [], _ => d
  | a :: _, 0 => a
  | _ :: r, i + 1 => nth d r i

/-- Replace element `i` of a list. -/
def setNth {α : Type} : List α → Nat → α → List α
  | [], _, _ => []
  | _ :: r, 0, b => b :: r
  | a :: r, i + 1, b => a :: setNth r i b

/-- Sum of a list of numbers. -/
def sumNat (l : List Nat) : Nat := l.foldl (· + ·) 0

/-- Maximum of a list of numbers, 0 for none. -/
def maxNat (l : List Nat) : Nat := l.foldl max 0

/-- The numbers below `n` whose bit is set in `m`. -/
def bitsOf (n m : Nat) : List Nat := (List.range n).filter (fun i => m.testBit i)

/-- The mask with the listed bits set. -/
def maskOf (l : List Nat) : Nat := l.foldl (fun m i => m ||| 1 <<< i) 0

/-- Insert keeping an ascending list without repeats. -/
def insertAsc : List Nat → Nat → List Nat
  | [], n => [n]
  | m :: r, n => if n < m then n :: m :: r else if n = m then m :: r else m :: insertAsc r n

/-- Stable insertion of `a` by the key `k`, after the elements whose key is not greater. -/
def insertBy {α : Type} (k : α → Nat) (a : α) : List α → List α
  | [] => [a]
  | b :: r => if k a < k b then a :: b :: r else b :: insertBy k a r

/-- The first element with the least key. -/
def minBy {α : Type} (k : α → Nat) : List α → Option α
  | [] => none
  | a :: r => match minBy k r with
    | none => some a
    | some b => if k b < k a then some b else some a

end Sys2Proof.Machine
end

