-- ==== Sys2Proof/Machine/Bytes.lean ====
section
/-! DEFINITION. Byte orders and fields of records (R3): little-endian for the device's own formats,
network order for the formats of named standards. -/

namespace Sys2Proof.Machine

/-- A number as one byte. -/
def byte (n : Nat) : Byte := BitVec.ofNat 8 n

/-- `k` bytes of `n`, little-endian (R3). -/
def leBytes : (k n : Nat) → List Byte
  | 0, _ => []
  | k + 1, n => byte n :: leBytes k (n / 256)

/-- `k` bytes of `n`, network order. -/
def beBytes (k n : Nat) : List Byte := (leBytes k n).reverse

/-- The number that little-endian bytes spell. -/
def leNat : List Byte → Nat
  | [] => 0
  | b :: r => b.toNat + 256 * leNat r

/-- The number that bytes in network order spell. -/
def beNat (l : List Byte) : Nat := leNat l.reverse

/-- `n` zero bytes. -/
def zeros (n : Nat) : List Byte := List.replicate n 0#8

/-- `n` bytes of `l` from offset `o`; bytes past its end read as 0. -/
def slice (l : List Byte) (o n : Nat) : List Byte :=
  let p := (l.drop o).take n
  p ++ zeros (n - p.length)

/-- The little-endian field of `n` bytes at offset `o`. -/
def leAt (l : List Byte) (o n : Nat) : Nat := leNat (slice l o n)

/-- A two's complement number of `w` bits. -/
def signed (w n : Nat) : Int := if n < 2 ^ (w - 1) then (n : Int) else (n : Int) - 2 ^ w

/-- The `w`-bit two's complement code of an integer. -/
def unsigned (w : Nat) (i : Int) : Nat := (i % (2 ^ w : Int)).toNat

/-- Round half up of `a / b` for a positive `b`. -/
def roundHalfUp (a : Int) (b : Nat) : Int := (2 * a + b) / (2 * (b : Int))

/-- Clamp an integer to a range. -/
def clampI (lo hi x : Int) : Int := max lo (min hi x)

/-- A list cut into parts of `n`, with `fuel` parts at most. -/
def chunks {α : Type} (n : Nat) : (fuel : Nat) → List α → List (List α)
  | 0, _ => []
  | _, [] => []
  | f + 1, l => l.take n :: chunks n f (l.drop n)

end Sys2Proof.Machine
end

