-- ==== Sys2Proof/Machine/Crypto.lean ====
section
/-! DEFINITION. SHA-256, HMAC-SHA-256 and HKDF-SHA-256, which R413 and R414 name (PRESUMED: FIPS 180-4,
RFC 2104 and RFC 5869; notes/assumptions/7.md), and ECDSA over P-384 with SHA-384, which R398 and R508 name (PRESUMED: FIPS 180-4 and
FIPS 186-4; notes/assumptions/143.md). -/

namespace Sys2Proof.Machine

/-- Rotation of a 32-bit word to the right. -/
def rotr (n x : Nat) : Nat := (x >>> n) ||| ((x <<< (32 - n)) % 2 ^ 32)

/-- Addition modulo 2^32. -/
def add32 (a b : Nat) : Nat := (a + b) % 2 ^ 32

/-- The largest `r` with `r ^ n ≤ x` among those that differ from `r0` in the lowest `bits` bits alone, one bit at a
time from the highest. -/
def rootBits (n x : Nat) : (bits r0 : Nat) → Nat
  | 0, r => r
  | b + 1, r => rootBits n x b (if (r + 2 ^ b) ^ n ≤ x then r + 2 ^ b else r)

/-- The first 32 bits of the fraction of the `n`th root of `p`, with `p` below 2^10. -/
def rootFraction (n p : Nat) : Nat := rootBits n (p * 2 ^ (32 * n)) 38 0 % 2 ^ 32

/-- The primes below `n`, which is at most 529. -/
def primesBelow (n : Nat) : List Nat :=
  (List.range n).filter fun p => 2 ≤ p && !(List.range 23).any fun d => 2 ≤ d && d < p && p % d == 0

/-- The words the rounds add: the cube roots of the first 64 primes, 311 the last. -/
def shaRoundWords : List Nat := (primesBelow 312).map (rootFraction 3)

/-- The words the sum starts from: the square roots of the first eight primes. -/
def shaStart : List Nat := (primesBelow 20).map (rootFraction 2)

/-- The eight working words of a block and the sixteen schedule words still to use. -/
structure ShaState where
  a : Nat
  b : Nat
  c : Nat
  d : Nat
  e : Nat
  f : Nat
  g : Nat
  h : Nat
  w : List Nat
  deriving DecidableEq, Repr

def shaRound (s : ShaState) (k : Nat) : ShaState :=
  let w0 := nth 0 s.w 0
  let w1 := nth 0 s.w 1
  let w14 := nth 0 s.w 14
  let s0 := rotr 7 w1 ^^^ rotr 18 w1 ^^^ w1 >>> 3
  let s1 := rotr 17 w14 ^^^ rotr 19 w14 ^^^ w14 >>> 10
  let wn := (w0 + s0 + nth 0 s.w 9 + s1) % 2 ^ 32
  let e1 := rotr 6 s.e ^^^ rotr 11 s.e ^^^ rotr 25 s.e
  let ch := (s.e &&& s.f) ^^^ ((0xFFFFFFFF ^^^ s.e) &&& s.g)
  let t1 := s.h + e1 + ch + k + w0
  let e0 := rotr 2 s.a ^^^ rotr 13 s.a ^^^ rotr 22 s.a
  let mj := (s.a &&& s.b) ^^^ (s.a &&& s.c) ^^^ (s.b &&& s.c)
  { a := (t1 + e0 + mj) % 2 ^ 32, b := s.a, c := s.b, d := s.c, e := add32 s.d t1, f := s.e, g := s.f,
    h := s.g, w := s.w.drop 1 ++ [wn] }

/-- One block of 64 bytes. -/
def shaBlock (h : List Nat) (blk : List Byte) : List Nat :=
  let w := (chunks 4 16 blk).map beNat
  let s0 : ShaState := ⟨nth 0 h 0, nth 0 h 1, nth 0 h 2, nth 0 h 3, nth 0 h 4, nth 0 h 5, nth 0 h 6, nth 0 h 7, w⟩
  let s := shaRoundWords.foldl shaRound s0
  [add32 s0.a s.a, add32 s0.b s.b, add32 s0.c s.c, add32 s0.d s.d,
   add32 s0.e s.e, add32 s0.f s.f, add32 s0.g s.g, add32 s0.h s.h]

def sha256 (m : List Byte) : List Byte :=
  let n := m.length
  let p := m ++ 0x80#8 :: zeros ((119 - n % 64) % 64) ++ beBytes 8 (8 * n)
  let h := (chunks 64 (n / 64 + 2) p).foldl shaBlock shaStart
  h.flatMap (beBytes 4)

def hmacSha256 (key m : List Byte) : List Byte :=
  let k0 := if key.length ≤ 64 then key else sha256 key
  let k := k0 ++ zeros (64 - k0.length)
  sha256 (k.map (· ^^^ 0x5c#8) ++ sha256 (k.map (· ^^^ 0x36#8) ++ m))

/-- HKDF with 32 bytes of output: one expansion block. -/
def hkdf32 (ikm salt info : List Byte) : List Byte :=
  hmacSha256 (hmacSha256 salt ikm) (info ++ [1#8])

/-- "GWJ1C", "GWJ1D" and "GWJ1S" (R413). -/
def labelGwj (c : Nat) : List Byte := [0x47#8, 0x57#8, 0x4A#8, 0x31#8, byte c]

/-! ### SHA-384 -/

/-- Rotation of a 64-bit word to the right. -/
def rotr64 (n x : Nat) : Nat := (x >>> n) ||| ((x <<< (64 - n)) % 2 ^ 64)

def add64 (a b : Nat) : Nat := (a + b) % 2 ^ 64

/-- The first 64 bits of the fraction of the `n`th root of `p`, with `p` below 2^10. -/
def rootFraction64 (n p : Nat) : Nat := rootBits n (p * 2 ^ (64 * n)) 70 0 % 2 ^ 64

/-- The words the rounds add: the cube roots of the first 80 primes, 409 the last. -/
def sha512RoundWords : List Nat := (primesBelow 410).map (rootFraction64 3)

/-- The words SHA-384 starts from: the square roots of the ninth to the sixteenth prime. -/
def sha384Start : List Nat := ((primesBelow 54).drop 8).map (rootFraction64 2)

def sha512Round (s : ShaState) (k : Nat) : ShaState :=
  let w0 := nth 0 s.w 0
  let w1 := nth 0 s.w 1
  let w14 := nth 0 s.w 14
  let s0 := rotr64 1 w1 ^^^ rotr64 8 w1 ^^^ w1 >>> 7
  let s1 := rotr64 19 w14 ^^^ rotr64 61 w14 ^^^ w14 >>> 6
  let wn := (w0 + s0 + nth 0 s.w 9 + s1) % 2 ^ 64
  let e1 := rotr64 14 s.e ^^^ rotr64 18 s.e ^^^ rotr64 41 s.e
  let ch := (s.e &&& s.f) ^^^ ((0xFFFFFFFFFFFFFFFF ^^^ s.e) &&& s.g)
  let t1 := s.h + e1 + ch + k + w0
  let e0 := rotr64 28 s.a ^^^ rotr64 34 s.a ^^^ rotr64 39 s.a
  let mj := (s.a &&& s.b) ^^^ (s.a &&& s.c) ^^^ (s.b &&& s.c)
  { a := (t1 + e0 + mj) % 2 ^ 64, b := s.a, c := s.b, d := s.c, e := add64 s.d t1, f := s.e, g := s.f,
    h := s.g, w := s.w.drop 1 ++ [wn] }

/-- One block of 128 bytes. -/
def sha512Block (h : List Nat) (blk : List Byte) : List Nat :=
  let w := (chunks 8 16 blk).map beNat
  let s := sha512RoundWords.foldl sha512Round
    ⟨nth 0 h 0, nth 0 h 1, nth 0 h 2, nth 0 h 3, nth 0 h 4, nth 0 h 5, nth 0 h 6, nth 0 h 7, w⟩
  List.zipWith add64 h [s.a, s.b, s.c, s.d, s.e, s.f, s.g, s.h]

def sha384 (m : List Byte) : List Byte :=
  let n := m.length
  let p := m ++ 0x80#8 :: zeros ((239 - n % 128) % 128) ++ beBytes 16 (8 * n)
  let h := (chunks 128 (n / 128 + 2) p).foldl sha512Block sha384Start
  (h.take 6).flatMap (beBytes 8)

/-! ### ECDSA over P-384 -/

/-- The prime, the coefficient b (a is -3), the base point and its order. -/
def p384 : Nat := 2 ^ 384 - 2 ^ 128 - 2 ^ 96 + 2 ^ 32 - 1
def p384B : Nat := 0xb3312fa7e23ee7e4988e056be3f82d19181d9c6efe8141120314088f5013875ac656398d8a2ed19d2a85c8edd3ec2aef
def p384G : Nat × Nat :=
  (0xaa87ca22be8b05378eb1c71ef320ad746e1d3b628ba79b9859f741e082542a385502f25dbf55296c3a545e3872760ab7,
   0x3617de4a96262c6f5d9e98bf9292dc29f8f41dbd289a147ce9da3113b5f0b8c00a60b1ce1d7e819d7a431d7c90ea0e5f)
def p384N : Nat := 0xffffffffffffffffffffffffffffffffffffffffffffffffc7634d81f4372ddf581a0db248b0a77aecec196accc52973

/-- `b ^ e` modulo `m`, for an exponent below 2^384. -/
def powMod (m b e : Nat) : Nat :=
  (List.range 384).foldr (fun i r => if e.testBit i then r * r % m * b % m else r * r % m) 1

/-- The inverse modulo a prime. -/
def invMod (m x : Nat) : Nat := powMod m x (m - 2)

/-- The sum of two points of the curve; `none` is the point at infinity. -/
def addPoint (a b : Option (Nat × Nat)) : Option (Nat × Nat) :=
  match a, b with
  | none, q => q
  | q, none => q
  | some (x, y), some (u, v) =>
    if x = u ∧ (y + v) % p384 = 0 then none
    else
      let k := (if x = u then (3 * x * x + (p384 - 3)) * invMod p384 (2 * y) else (v + p384 - y) * invMod p384 (u + p384 - x)) % p384
      let z := (k * k + 2 * p384 - x - u) % p384
      some (z, (k * (x + p384 - z) + p384 - y) % p384)

/-- A multiple of a point, for a factor below 2^384. -/
def mulPoint (n : Nat) (q : Option (Nat × Nat)) : Option (Nat × Nat) :=
  (List.range 384).foldr (fun i r => if n.testBit i then addPoint (addPoint r r) q else addPoint r r) none

/-- The signature (r, s) of a digest of 48 bytes verifies under a key that is a point of the curve. -/
def ecdsaP384 (key sig : Nat × Nat) (digest : List Byte) : Bool :=
  let (x, y) := key
  let (r, s) := sig
  let w := invMod p384N s
  let point := addPoint (mulPoint (beNat digest * w % p384N) (some p384G)) (mulPoint (r * w % p384N) (some key))
  decide (x < p384) && decide (y < p384) && y * y % p384 == (x * x * x + (p384 - 3) * x + p384B) % p384 &&
    decide (0 < r) && decide (r < p384N) && decide (0 < s) && decide (s < p384N) &&
    point.elim false (fun q => q.1 % p384N == r)

end Sys2Proof.Machine
end

