-- ==== Sys2Proof/Machine/Ops.lean ====
section
/-! DEFINITION. The named operations over the registers, tables, memory bytes and clocks of the block. -/

namespace Sys2Proof.Machine

/-! ### Time (R11 to R17, R321; notes/assumptions/1.md and 101.md) -/

/-- Ticks in a nanosecond, microsecond, millisecond and second. -/
def nsT : Nat := 24
def usT : Nat := 24000
def msT : Nat := 24000000
def secT : Nat := 24000000000
/-- Ticks of one cycle of a domain (R11); the cycles of NET and AON are 2048/55 and 960 ticks. -/
def panT : Nat := 20
def coreT : Nat := 24
def memT : Nat := 15
def wardenT : Nat := 30
def timeT : Nat := 48
def hostT : Nat := 24
def aonT : Nat := 960

/-- Seconds and nanoseconds of a time. -/
def timeS (t : Ticks) : Nat := t / secT
def timeNs (t : Ticks) : Nat := t % secT / nsT
/-- The time at a capture time of seconds and nanoseconds. -/
def ofCap (sec ns : Nat) : Ticks := sec * secT + ns * nsT

/-- The fraction that the clocks and the time base carry: 40 bits (R321). -/
def one40 : Nat := 2 ^ 40

/-- Main-die clocks in ticks: PAN, REFCLK, AON, NET, Welond lanes and HOST. -/
def State.now (s : State) : Ticks := s.clk.now
def State.ref (s : State) : Ticks := s.clk.ref / one40
def State.aon (s : State) : Ticks := s.clk.aon / one40
def State.net (s : State) : Ticks := s.clk.net / one40
def State.welT (s : State) : Ticks := s.clk.wel / one40

/-- Cycles of the domains since PORST_N (R11). -/
def State.coreCycle (s : State) : Nat := s.ref / coreT
def State.wardenCycle (s : State) : Nat := s.ref / wardenT
def State.timeCycle (s : State) : Nat := s.ref / timeT
def State.aonCycle (s : State) : Nat := s.aon / aonT
def State.netCycle (s : State) : Nat := s.clk.net * 55 / (2048 * one40)
def State.hostCycle (s : State) : Nat := s.clk.host / (hostT * one40)

/-- MEM cycle since the release of main-die reset, slot frame and position at present (R27). -/
def State.memCycle (s : State) : Nat := (s.clk.ref - s.clk.origin) / (memT * one40)
def State.slotFrame (s : State) : Nat := s.memCycle / 4096
/-- The first MEM cycle at or after the present time: what is issued now is visible from it. -/
def State.memNext (s : State) : Nat := ceilDiv (s.clk.ref - s.clk.origin) (memT * one40)
def State.slotPos (s : State) : Nat := s.memCycle % 4096 / 2

/-- The time base (R321), in ticks. -/
def State.tb (s : State) : Ticks := s.clk.base * nsT / one40

/-- The PAN time (R17). -/
def State.pt (s : State) : Ticks := s.clk.panTime

/-- The increment of the time base in a TIME cycle, in 2^-40 ns: 2 ns scaled by the frequency word, rounded half up (R15,
R321). -/
def timeStep (word : Int) : Nat := (2 * one40 * (100000000 + word).toNat + 50000000) / 100000000

/-- The time base in half nanoseconds, interpolated between TIME cycles (R326, R333). -/
def State.halves (s : State) : Nat :=
  2 * (s.clk.base + s.clk.ref % (timeT * one40) * timeStep s.clk.freqWord / (timeT * one40)) / one40

/-- The time base on the first TIME cycle at or after now, in ticks (R12, R472). -/
def State.tbNext (s : State) : Ticks :=
  (s.clk.base + if s.clk.ref % (timeT * one40) = 0 then 0 else timeStep s.clk.freqWord) * nsT / one40

/-- The REFCLK clock and the other clocks of its domains at the first REFCLK edge at or after an instant (R12). -/
def refEdge (t : Nat) : Nat := ceilDiv t (aonT * one40) * (aonT * one40)

/-- What a bounded deviation makes of a step. -/
def deviate (step bound : Nat) (d : Int) : Nat :=
  step * (1000000 + max (-(bound : Int)) (min bound d)).toNat / 1000000

/-- What the REFCLK clock advances in a PAN cycle: PAN runs at REFCLK × 48 scaled by the frequency word (R11, R15). Without
REFCLK the PLLs wander within 1,000 ppm of their nominal frequency (R522). -/
def refStep (k : Clocks) : Nat :=
  let n := panT * one40 * 100000000 / (100000000 + k.freqWord).toNat
  if k.refclk then n else deviate n 2000 (Config.deviation 3 k.now)

/-- What the AON clock advances: 25 MHz with REFCLK, or the ring oscillator's 20 MHz ±10 % (R11, R522). -/
def aonStep (k : Clocks) (step : Nat) : Nat :=
  if k.aonRing then deviate (step * 4 / 5) 100000 (Config.deviation 4 k.now) else step

/-- What a clock of its own oscillator `d` advances, ±100 ppm beside the ±20 ppm of REFCLK, while its reference is there (R10, R11). -/
def freeStep (k : Clocks) (present : Bool) (d step : Nat) : Nat :=
  if present then deviate step 120 (Config.deviation d k.now) else 0

/-- The PAN time a cycle later: 20 ticks on, kept within 2 ns of the time base and never going back (R17). -/
def slewPan (base pan : Nat) : Ticks :=
  let b := base * nsT
  max pan (min (max (pan + panT) (ceilDiv b one40 - timeT)) (b / one40 + timeT))

/-- One PAN cycle passes: every clock advances, and the time base by each TIME cycle that ends in it (R11, R17, R321). -/
def Clocks.cycle (k : Clocks) : Clocks :=
  let step := refStep k
  let ref := k.ref + step
  let base := k.base + (ref / (timeT * one40) - k.ref / (timeT * one40)) * timeStep k.freqWord
  { k with
    now := k.now + panT, ref := ref, aon := k.aon + aonStep k step, net := k.net + freeStep k k.lrefA 0 step,
    wel := k.wel + freeStep k k.lrefB 1 step, host := k.host + freeStep k k.pcieRefclk 2 step,
    base := base, panTime := slewPan base k.panTime }

def State.pass (s : State) : State := { s with clk := s.clk.cycle }

/-- A length of REFCLK time in ticks of the PAN clock, at the frequency word in force (R15). -/
def State.panTicks (s : State) (t : Nat) : Nat := t * (100000000 + s.clk.freqWord).toNat / 100000000

/-! ### Tables by entry -/

def State.head (s : State) (h : Nat) : Head := tget {} s.heads h
def State.setHead (s : State) (h : Nat) (v : Head) : State := { s with heads := tset s.heads h v }
def State.ctx (s : State) (c : Nat) : Ctx := tget {} s.ctxs c
def State.setCtx (s : State) (c : Nat) (v : Ctx) : State := { s with ctxs := tset s.ctxs c v }
def State.pan (s : State) (p : Nat) : Pan := tget {} s.pans p
def State.setPan (s : State) (p : Nat) (v : Pan) : State := { s with pans := tset s.pans p v }
def State.port (s : State) (p : Nat) : Port := tget {} s.ports p
def State.setPort (s : State) (p : Nat) (v : Port) : State := { s with ports := tset s.ports p v }
def State.dec (s : State) (e : Nat) : DecEngine := tget {} s.decs e
def State.setDec (s : State) (e : Nat) (v : DecEngine) : State := { s with decs := tset s.decs e v }
def State.encEngine (s : State) (e : Nat) : EncEngine := tget {} s.encEngines e
def State.setEncEngine (s : State) (e : Nat) (v : EncEngine) : State :=
  { s with encEngines := tset s.encEngines e v }
def State.setEnc (s : State) (e : Nat) (v : Enc) : State := { s with encs := tset s.encs e v }
def State.setJob (s : State) (j : Nat) (v : Job) : State := { s with jobs := tset s.jobs j v }
def State.lane (s : State) (l : Nat) : Lane := tget {} s.lanes l
def State.setLane (s : State) (l : Nat) (v : Lane) : State := { s with lanes := tset s.lanes l v }
def State.setCheck (s : State) (c : Nat) (v : Check) : State := { s with checks := tset s.checks c v }
def State.pulse (s : State) (p : Nat) : PulseSt := tget {} s.pulses p
def State.setPulse (s : State) (p : Nat) (v : PulseSt) : State := { s with pulses := tset s.pulses p v }
def State.capture (s : State) (i : Nat) : Capture := tget {} s.captures i
def State.setCapture (s : State) (i : Nat) (v : Capture) : State := { s with captures := tset s.captures i v }
def State.wel (s : State) (l : Nat) : Wel := tget {} s.wels l
def State.setWel (s : State) (l : Nat) (v : Wel) : State := { s with wels := tset s.wels l v }
/-- Receiver lanes by the order of R338: ELN_00 to ELN_15, then WLN_00 to WLN_15. -/
def State.rxLane (s : State) (i : Nat) : RxLane := tget {} s.rx i
def State.setRxLane (s : State) (i : Nat) (v : RxLane) : State := { s with rx := tset s.rx i v }
def State.mailbox (s : State) (n : Nat) : Mailbox := tget {} s.mailboxes n
def State.setMailbox (s : State) (n : Nat) (v : Mailbox) : State := { s with mailboxes := tset s.mailboxes n v }
def State.keySlot (s : State) (k : Nat) : KeySlot := tget {} s.keys k
def State.setKeySlot (s : State) (k : Nat) (v : KeySlot) : State := { s with keys := tset s.keys k v }
def State.setSession (s : State) (n : Nat) (v : Session) : State := { s with sessions := tset s.sessions n v }
def State.desk (s : State) (d : Nat) : Desk := tget {} s.desks d
def State.setDesk (s : State) (d : Nat) (v : Desk) : State := { s with desks := tset s.desks d v }
def State.memChan (s : State) (c : Nat) : MemChan := tget {} s.mem.chans c
def State.setMemChan (s : State) (c : Nat) (v : MemChan) : State :=
  { s with mem := { s.mem with chans := tset s.mem.chans c v } }

/-- One more output. -/
def State.emit (s : State) (o : Output) : State := { s with out := o :: s.out }

/-- One more refusal of table `t` (R8, R458). -/
def State.countRefusal (s : State) (t : Nat) : State :=
  { s with cfg := { s.cfg with refusals := tset s.cfg.refusals t (sat32 (tget 0 s.cfg.refusals t)) } }

/-! ### Free values (notes/assumptions/4.md) -/

def State.drawBytes (s : State) (n : Nat) : List Byte × State :=
  ((List.range n).map (fun i => Config.freeByte (s.fresh + i)), { s with fresh := s.fresh + n })
def State.drawNat (s : State) : Nat × State := (Config.freeNat s.fresh, { s with fresh := s.fresh + 1 })
def State.drawInt (s : State) : Int × State := (Config.freeInt s.fresh, { s with fresh := s.fresh + 1 })
def State.drawBool (s : State) : Bool × State := (Config.freeBool s.fresh, { s with fresh := s.fresh + 1 })

/-- A free number between two bounds. -/
def drawWithin (s : State) (lo hi : Int) : Int × State :=
  let (n, s) := s.drawNat
  (lo + ((n % ((hi - lo).toNat + 1) : Nat) : Int), s)

/-! ### Memory bytes (R386; notes/assumptions/3.md) -/

/-- One past the highest device address: 45 GiB (R386). -/
def memTop : Nat := 0xB40000000

/-- What the byte at an address reads as. -/
def readCell : List Host.Cell → Nat → Byte
  | [], _ => 0#8
  | (b, v) :: r, a => if b = a then v else readCell r a

/-- Write one byte, keeping the canonical form. -/
def writeCell : List Host.Cell → Nat → Byte → List Host.Cell
  | [], a, v => if v = 0#8 then [] else [(a, v)]
  | (b, w) :: r, a, v =>
    if a < b then (if v = 0#8 then (b, w) :: r else (a, v) :: (b, w) :: r)
    else if a = b then (if v = 0#8 then r else (a, v) :: r)
    else (b, w) :: writeCell r a v

/-- Addresses strictly rise from above `lo`, and no zero byte is listed. -/
def cellsWf : Option Nat → List Host.Cell → Bool
  | _, [] => true
  | lo, (a, v) :: r => (match lo with | none => true | some l => decide (l < a)) && v != 0#8 && cellsWf (some a) r

/-- The canonical form of the memory bytes. -/
def Memory.wf (m : List Host.Cell) : Bool := cellsWf none m

/-- Write bytes from an address upwards. -/
def writeCells : List Host.Cell → Nat → List Byte → List Host.Cell
  | m, _, [] => m
  | m, a, v :: r => writeCells (writeCell m a v) (a + 1) r

/-- The bytes from an address upwards. -/
def readCells (m : List Host.Cell) (a n : Nat) : List Byte := (List.range n).map (fun i => readCell m (a + i))

def State.readMem (s : State) (a n : Nat) : List Byte := readCells s.mem.cells a n
def State.writeMem (s : State) (a : Nat) (l : List Byte) : State :=
  { s with mem := { s.mem with cells := writeCells s.mem.cells a l } }

/-! ### Status codes (R434) -/

def stOk : Nat := 0x0000
def stBadCommand : Nat := 0x0010
def stBadParam : Nat := 0x0011
def stBadLength : Nat := 0x0012
def stNotAuth : Nat := 0x0020
def stRoleDenied : Nat := 0x0021
def stBadTag : Nat := 0x0022
def stReplay : Nat := 0x0023
def stBusy : Nat := 0x0030
def stCtxExhausted : Nat := 0x0031
def stLinebufShort : Nat := 0x0032
def stPanOverload : Nat := 0x0033
def stBudget : Nat := 0x0034
def stLimit : Nat := 0x0035
def stNoSpace : Nat := 0x0040
def stDykeDenied : Nat := 0x0041
def stLocked : Nat := 0x0050
def stApprovalNeeded : Nat := 0x0060
def stApprovalTimeout : Nat := 0x0061
def stInternal : Nat := 0x00F0
def stPending : Nat := 0x0001

/-- Statuses with which the checks of a command refuse it (R434). -/
def refusalStatuses : List Nat :=
  [stBadCommand, stBadParam, stBadLength, stRoleDenied, stBusy, stCtxExhausted, stLinebufShort, stPanOverload, stBudget, stLimit,
   stNoSpace, stDykeDenied, stLocked]

/-- What a command answers: the state it leaves, its status and its response parameters. -/
structure Reply where
  st : State
  status : Nat
  resp : List Byte
  deriving DecidableEq, Repr

/-- OK with response parameters. -/
def ok (s : State) (resp : List Byte := []) : Reply := ⟨s, stOk, resp⟩
/-- A refusal that changes nothing. -/
def refuse (s : State) (status : Nat) : Reply := ⟨s, status, []⟩
/-- A refusal of a full table, counted (R8). -/
def refuseFull (s : State) (status table : Nat) : Reply := ⟨s.countRefusal table, status, []⟩

end Sys2Proof.Machine
end

