-- ==== Sys2Proof/Machine/Flags.lean ====
section
/-! DEFINITION. The status flags of the block: interrupt vectors (R423), the event ring (R420 to R424), fences
held (R91 to R97), the error queue and its classes (R513 to R518, R436, R525), and entry to SAFE state with the
warden restart (R519, R400). -/

namespace Sys2Proof.Machine

/-- The main die is out of reset (R507, R511). -/
def released (s : State) : Bool :=
  match s.start.boot with
  | .porst => false
  | .warm => false
  | _ => true

/-- Accesses of the host reach the device: the main die is out of reset and PCIE_REFCLK is there (R14). -/
def hostUp (s : State) : Bool := released s && s.clk.pcieRefclk

/-! ### Vectors (R423) -/

/-- The message of vector `v` leaves, with the address and data of its table entry. -/
def sendMsix (s : State) (v : Nat) : State :=
  let e := tget (0, 0) s.irq.table v
  s.emit (.msix v e.1 e.2)

/-- A message of vector `v` is due: it passes the MSI-X masks or waits as pending. -/
def msixDue (s : State) (v : Nat) : State :=
  if s.irq.funcMask || s.irq.entryMask.getLsbD v then
    { s with irq := { s.irq with pba := s.irq.pba ||| (1#32 <<< v) } }
  else sendMsix s v

/-- The device signals vector `v`: its status bit is set; a message is due when the bit rises unmasked. -/
def signalVector (s : State) (v : Nat) : State :=
  let s' := { s with irq := { s.irq with status := s.irq.status ||| (1#32 <<< v) } }
  if s.irq.status.getLsbD v || s.irq.mask.getLsbD v then s' else msixDue s' v

/-! ### Event ring (R420 to R422) -/

/-- Entries of the ring. -/
def evrSize (e : EventRing) : Nat := 2 ^ e.size

/-- R420: full when EVR_PROD + 1 reaches EVR_CONS. -/
def evrFull (e : EventRing) : Bool := (e.prod + 1) % evrSize e == e.cons

/-- The 32 bytes of an event record (R422); payload bytes that no field names are 0 (R424). -/
def eventRecord (type vector : Nat) (phase : Bool) (seq : Nat) (time : Ticks) (payload : List Byte) : List Byte :=
  [byte type, byte (vector % 32 + 128 * b2n phase)] ++ leBytes 2 seq ++ leBytes 4 (timeNs time) ++ leBytes 6 (timeS time) ++
    leBytes 2 0 ++ slice payload 0 16

/-- Write a record to the ring, advance EVR_PROD, signal the vector, in this order (R420, R422). -/
def writeRecord (s : State) (type vector : Nat) (time : Ticks) (payload : List Byte) : State :=
  let e := s.evr
  let wrap := (e.prod + 1) % evrSize e == 0
  let s := s.emit (.hostWrite (e.base + 32 * e.prod) (eventRecord type vector e.phase e.seq time payload))
  let s := { s with evr := { e with prod := (e.prod + 1) % evrSize e, seq := (e.seq + 1) % 65536,
                                    phase := if wrap then !e.phase else e.phase } }
  signalVector s vector

/-- Offer an event to the ring (R421): written, or discarded and counted when disabled or full. -/
def putEvent (s : State) (type vector : Nat) (time : Ticks) (payload : List Byte) : State :=
  let e := s.evr
  if !e.enable then { s with evr := { e with lost := sat32 e.lost } }
  else if evrFull e then { s with evr := { e with lost := sat32 e.lost, fullLost := sat32 e.fullLost } }
  else writeRecord s type vector time payload

/-- An event that hardware posts. -/
def postHw (s : State) (type vector : Nat) (time : Ticks) (payload : List Byte) : State :=
  putEvent s type vector time payload

/-- An event that firmware posts; held until HB_STATUS shows READY (R400; notes/assumptions/11.md).
`time = none`: TIME is the posting. -/
def postFw (s : State) (type vector : Nat) (time : Option Ticks) (payload : List Byte) : State :=
  if s.start.warden = .ready then putEvent s type vector (time.getD s.tb) payload
  else { s with evr := { s.evr with held := s.evr.held ++ [⟨type, vector, time, payload⟩] } }

/-- Firmware posts what it held back. -/
def flushHeld (s : State) : State :=
  let h := s.evr.held
  h.foldl (fun s e => putEvent s e.type e.vector (e.time.getD s.tb) e.payload)
    { s with evr := { s.evr with held := [] } }

/-- Vector of a head's COMMIT_APPLIED and FLIP events (R423). -/
def headVector (h : Nat) : Nat := 4 + h / 4

/-- SESSION event (R424). `what`: 0 opened, 1 CLOSE, 2 idle, 3 role change, 4 restart or link-down,
5 PROVE failed, 6 tag failures. -/
def postSession (s : State) (slot key what transport : Nat) : State :=
  postFw s 0x41 1 none [byte slot, byte key, byte what, byte transport]

/-- APPROVAL event (R424). State 0 pending, 1 approved, 2 expired, 3 withdrawn. -/
def postApproval (s : State) (skim state requester approver tide : Nat) : State :=
  postFw s 0x42 1 none ([byte skim, byte state, byte requester, byte approver] ++ zeros 4 ++ leBytes 8 tide)

/-- SERVO codes of R329 and HB_STATUS. -/
def servoCode : ServoState → Nat
  | .free => 0
  | .acquiring => 1
  | .locked => 2
  | .holdover => 3

/-- FENCE event (R97, R424) at time `t`. -/
def postFence (s : State) (t : Ticks) (source groups sealed head origin : Nat) : State :=
  postHw s 0x02 3 t [byte source, byte groups, byte sealed, byte head, byte origin]

/-! ### Fences (R91 to R97) -/

/-- Groups that FENCE_N holds (R91, R93). -/
def ballGroups (f : Fences) : Nat := if f.ballLow then f.ballMap else 0

/-- Groups held from every origin on Welond (R364). -/
def welGroups (f : Fences) : Nat := f.wel.foldl (fun m e => m ||| e.2) 0

/-- Groups that any source of the device holds at present. -/
def sourceGroups (f : Fences) : Nat := ballGroups f ||| f.sw ||| welGroups f

/-- A head on which a fence can be held: placed on a pan and not DISABLED (notes/assumptions/20.md). -/
def fenceable (h : Head) : Bool := h.pan.isSome && h.st != .disabled

/-- Fence groups on a head: those that a source holds, and those kept until the flip (R96). -/
def headGroups (f : Fences) (h : Head) : Nat :=
  if fenceable h then sourceGroups f ||| h.fence.ball ||| h.fence.sw ||| h.fence.wel else 0

/-- Sealed flags on a head. -/
def headSeals (h : Head) : Nat := if fenceable h then h.sealFlags ||| h.fence.seals else 0

/-- SAFE bit on a head. -/
def headSafe (f : Fences) (h : Head) : Bool := fenceable h && (f.safe || h.fence.safe)

/-- The fence vector of a head: groups in [7:0], sealed flags in [15:8], SAFE in [16] (R83). -/
def fenceBits (f : Fences) (h : Head) : Nat :=
  (headGroups f h % 256 + 256 * (headSeals h % 256) + 65536 * b2n (headSafe f h)) |||
    if fenceable h then h.fence.voted % 2 ^ 17 else 0

/-- What a head holds now stays on it until its next flip, whatever its source does (R96). -/
def keepFences (f : Fences) (h : Head) : Head :=
  if fenceable h then
    { h with fence :=
      { ball := h.fence.ball ||| ballGroups f, sw := h.fence.sw ||| f.sw, wel := h.fence.wel ||| welGroups f,
        seals := h.fence.seals ||| h.sealFlags, safe := h.fence.safe || f.safe, voted := h.fence.voted } }
  else h

/-- The vector of a head holds its new bits from time `t` on (R95). -/
def stampFences (old new : Nat) (t : Ticks) (h : Head) : Head :=
  { h with fenceAt := ((bitsOf 17 new).filter (fun b => !old.testBit b)).foldl (fun l b => tset l b t) h.fenceAt }

/-- Change the fence sources; every head keeps what it held until its next flip, and its vector holds the new bits
from time `t` on. -/
def setFences (s : State) (f : Fences) (t : Ticks) : State :=
  { s with fences := f, heads := tmap (fun _ h =>
      let h' := keepFences s.fences h
      stampFences (fenceBits s.fences h) (fenceBits f h') t h') s.heads }

/-- Round up to a whole PAN cycle. -/
def panUp (x : Int) : Int := -((-x) / (panT : Int)) * panT

/-- First PAN cycle on which a change made now is visible in the PAN domain: 2 or 3 cycles on (R13). -/
def crossToPan (s : State) : Ticks × State :=
  let (b, s) := s.drawBool
  ((panUp s.now).toNat + (if b then 3 else 2) * panT, s)

/-- Time at which the gauges hold a software, sealed-region or SAFE fence set now: four cycles of fence distribution
after its crossing (R98, R99). -/
def softFenceTime (s : State) : Ticks × State :=
  let (t, s) := crossToPan s
  (t + 4 * panT, s)

/-! ### Error codes (R436, R525): code, class, and whether it enters SAFE on detection -/

def errTable : List (Nat × Nat × Bool) :=
  [(0x0001, 3, true), (0x0002, 1, false), (0x0003, 1, false), (0x0004, 1, false), (0x0005, 1, false),
   (0x0010, 0, false), (0x0011, 1, false), (0x0012, 2, false), (0x0013, 2, false), (0x0020, 2, false),
   (0x0021, 1, false), (0x0030, 1, false), (0x0031, 1, false), (0x0032, 0, false), (0x0040, 1, false),
   (0x0050, 0, false), (0x0051, 1, false), (0x0060, 1, false), (0x0061, 1, false)] ++
  [(0x0070, 0, false), (0x0071, 1, false), (0x0072, 2, false), (0x0073, 1, false), (0x0074, 1, false),
   (0x0080, 1, false), (0x0081, 2, false), (0x0082, 1, false),
   (0x0101, 3, true), (0x0102, 3, true), (0x0103, 1, false), (0x0104, 1, false), (0x0105, 3, false),
   (0x0106, 2, false), (0x0107, 1, false), (0x0108, 1, false), (0x0109, 3, false)]

/-- Class of a code: 0 CORRECTED, 1 DEGRADED, 2 SERVICE, 3 FATAL. Codes of "Trim and Power States" and "Desk
Touch" are added by their chapters' own tables (R504, R479). -/
def errClass (code : Nat) : Nat :=
  match errTable.find? (fun e => e.1 == code) with
  | some e => e.2.1
  | none => 1

def errSafe (code : Nat) : Bool := errTable.any (fun e => e.1 == code && e.2.2)

/-- Which detections coalesce (R515): the same CODE and the same OBJECT under the key mask, and, where the
raising rule says so, in the same tide. -/
structure ErrKey where
  mask : Nat := 0xFFFFFFFF
  perTide : Bool := false
  deriving DecidableEq, Repr

def errMatches (r : ErrRec) (code obj tide : Nat) (k : ErrKey) : Bool :=
  r.code == code && (r.object &&& k.mask) == (obj &&& k.mask) && (!k.perTide || r.tide == tide)

/-- Count one more occurrence in the first record that matches. -/
def coalesce (code obj tide : Nat) (k : ErrKey) : List ErrRec → List ErrRec
  | [] => []
  | r :: l => if errMatches r code obj tide k then { r with count := satAdd 16 r.count 1 } :: l
              else r :: coalesce code obj tide k l

/-- Remove the newest record of a class; the queue is oldest first. -/
def dropNewest (cls : Nat) (l : List ErrRec) : Option (List ErrRec) :=
  match l.reverse.findIdx? (fun r => r.cls == cls) with
  | none => none
  | some i => some ((l.reverse.eraseIdx i).reverse)

/-- Room for a new record of a class, and how many records that takes from the queue (R514). -/
def makeRoom (cls : Nat) (l : List ErrRec) : Option (List ErrRec × Nat) :=
  if cls = 3 then
    if l.length < 64 then some (l, 0)
    else match dropNewest 0 l with
      | some r => some (r, 1)
      | none => match dropNewest 1 l with
        | some r => some (r, 1)
        | none => (dropNewest 2 l).map (fun r => (r, 1))
  else if l.length < 63 then some (l, 0) else none

/-- Queue an error (R514, R515, R435): coalesced, queued as a new record with its ERROR event, or lost and
counted. `cls` is the class that the table gives the code. -/
def queueErr (s : State) (code cls obj a b : Nat) (k : ErrKey := {}) : State :=
  if s.errs.any (fun r => errMatches r code obj s.tide.count k) then
    { s with errs := coalesce code obj s.tide.count k s.errs }
  else match makeRoom cls s.errs with
    | none => { s with errOverflow := satAdd 16 s.errOverflow 1 }
    | some (l, n) =>
      let r : ErrRec := ⟨code, cls, s.errNext, 1, obj, s.tb, a % 2 ^ 32, b % 2 ^ 32, s.tide.count⟩
      let s := { s with errs := l ++ [r], errNext := (s.errNext + 1) % 65536,
                        errOverflow := satAdd 16 s.errOverflow n }
      postFw s 0x40 2 (some s.tb)
        ([byte cls, 0#8] ++ leBytes 2 code ++ [1#8, 0#8, 0#8, 0#8, byte s.errs.length])

/-- TRANSPORT of R417. -/
def transportOf : Binding → Nat
  | .mailbox n => n
  | .sluice p _ _ => 0x80 + p

/-! ### Debug sessions, approvals and sessions as their endings need them (R441, R416, R418) -/

/-- A debug session ends: DEBUG_STATE names `obj`, the session or 0xFF for expiry (R436). -/
def endDebug (s : State) (obj : Nat) : State :=
  match s.debug with
  | .closed => s
  | .awaiting .. => { s with debug := .closed }
  | .opened _ d _ => queueErr { s with debug := .closed } 0x0082 1 obj 0 d

/-- A message whose bytes the spec leaves open leaves on a link: its lanes' coders may stand anywhere afterwards. -/
def sendOpen (s : State) (l kind : Nat) (args : List Nat) : State :=
  (s.setWel l { s.wel l with mixed := true }).emit (.welond l kind args)

/-! ### Ways around the ring of devices (R363) -/

/-- Hops from this device to another over the link whose partner is `partner`. -/
def hopsVia (s : State) (partner dest : Nat) : Nat :=
  let n := s.ring.ring + 1
  let d := s.ring.device
  if partner = (d + 1) % n then (dest + n - d) % n else (d + n - dest) % n

/-- The ACTIVE link with fewer hops to a device, WL_0 when they are equal. -/
def linkTo (s : State) (dest : Nat) : Option Nat :=
  minBy (fun l => hopsVia s (s.wel l).partner dest) ((List.range 2).filter (fun l => (s.wel l).st == .active))

/-! ### Check channels (R66, R305) -/

/-- Windows of the banks of a head that are in force or armed. -/
def bankWindows (h : Head) : List WinDef :=
  (h.force.slots.map (·.d)) ++ h.armed.flatMap (fun a => a.bank.slots.map (·.d))

/-- Contexts that a window with EXPECT_MOTION = 1 names, in the shadow, armed or in force (R66). -/
def motionContexts (s : State) : List Nat :=
  ((s.wins.map (·.2)) ++ s.heads.flatMap (fun e => bankWindows e.2)).filterMap
    (fun d => if d.pol.expectMotion then d.g.context else none)

/-- The detector channel of a context (R305). -/
def detectorOf (s : State) (ctx : Nat) : Option Nat :=
  (s.checks.find? (fun e => e.2.use == 1 && e.2.object == ctx)).map (·.1)

/-- Banks of a head that hold its sealed regions: the shadow, the armed ones and the one in force. -/
def sealBanks (h : Head) : List Bank := h.shadow :: h.force :: h.armed.map (·.bank)

/-- A channel's use has not ended (R66, R305): a detector is needed while a window with EXPECT_MOTION = 1
names its context or a scheduled or held skim makes such a window, a
sealed region's while a bank holds the region. -/
def channelNeeded (s : State) (n : Nat) (k : Check) : Bool :=
  if k.use = 1 then (motionContexts s).contains k.object || s.cfg.motion.any (fun e => e.2 == k.object)
  else if k.use = 2 then
    (sealBanks (s.head k.object)).any (fun b => (tfind b.seals k.region).elim false (fun r => r.channel == n))
  else true

/-- Release the channels whose use has ended. -/
def releaseChannels (s : State) : State := { s with checks := s.checks.filter (fun e => channelNeeded s e.1 e.2) }

/-- The detectors of skims whose apply is no longer scheduled or held are released (R66). -/
def settleMotion (s : State) : State :=
  let l := s.cfg.motion.filter (fun e => s.cfg.applies.any (fun a => a.tide == e.1))
  releaseChannels { s with cfg := { s.cfg with motion := l } }

/-! ### Skim messages and approvals (R363, R453 to R455) -/

/-- A skim message leaves for one device, over the link towards it: its DEST and SRC, and what it says. -/
def sendSkimTo (s : State) (dest : Nat) (args : List Nat) : State :=
  match linkTo s dest with
  | some l => sendOpen s l 7 ([dest, s.ring.device] ++ args)
  | none => s

/-- A skim message to every other device of the ring: 0 store, 1 apply, 2 cancel, 3 approve, 4 withdraw. -/
def sendSkim (s : State) (args : List Nat) : State :=
  (List.range (s.ring.ring + 1)).foldl (fun s d => if d = s.ring.device then s else sendSkimTo s d args) s

/-- Withdraw the pending approvals that satisfy `p`, and the applies held for them (R416, R400, R455). -/
def dropApprovals (s : State) (p : Approval → Bool) (state : Nat) : State :=
  let gone := s.approvals.filter p
  let keep (a : Apply) : Bool := !(a.held && gone.any (fun g => g.skim == a.skim && g.tide == a.tide))
  let away := s.cfg.applies.filter (fun a => !keep a && !a.loc)
  let s := settleMotion { s with approvals := s.approvals.filter (fun a => !p a),
                                 cfg := { s.cfg with applies := s.cfg.applies.filter keep } }
  let s := away.foldl (fun s a => sendSkim s [4, a.skim, a.tide]) s
  gone.foldl (fun s g => postApproval s g.skim state g.session 0xFF g.tide) s

/-- A session slot is freed (R416): approvals it requested are withdrawn, its HW-B claim ends, a debug
session it opened ends; an open session posts a SESSION event. -/
def endSession (s : State) (slot what : Nat) : State :=
  match tfind s.sessions slot with
  | none => s
  | some x =>
    let s := { s with sessions := tdel s.sessions slot,
                      hwbIdent := if s.hwbIdent = 1 + slot then 0 else s.hwbIdent }
    let s := dropApprovals s (fun a => a.session == slot) 3
    let opener := match s.debug with
      | .closed => false
      | .awaiting .. => false
      | .opened o _ _ => o == slot
    let s := if opener then endDebug s slot else s
    if x.isOpen || what == 5 then postSession s slot x.keySlot what (transportOf x.binding) else s

/-- Close every session that satisfies `p`. -/
def endSessions (s : State) (p : Session → Bool) (what : Nat) : State :=
  ((s.sessions.filter (fun e => p e.2)).map (·.1)).foldl (fun s n => endSession s n what) s

/-! ### Mailbox completion by hardware (R400, R507) -/

/-- A response record of 32 bytes without tag, echoing a request's CODE, SEQ and SESSION. -/
def bareResponse (code slot seq status : Nat) : List Byte :=
  leBytes 2 code ++ leBytes 2 32 ++ leBytes 4 seq ++ [byte slot, 1#8] ++ leBytes 2 status ++ zeros 20

/-- STATE becomes DONE with a response; vector 0 when IRQ_EN = 1 (R407). -/
def mailboxDone (s : State) (n status : Nat) (record : List Byte) : State :=
  let m := s.mailbox n
  let s := s.setMailbox n { m with state := 2, status := status, respLen := record.length, response := record }
  if m.irqEn then signalVector s 0 else s

/-! ### A trim run that leaves nothing behind (R432, R434, R522) -/

/-- The factory's element set of an entry of R485. -/
def factoryRec (key : Nat) : NvmRec :=
  let f := Config.factorySet key
  ⟨key / 256, key % 256, 1, f.1, f.2.1, f.2.2⟩

/-- A set that a run changed goes back to what it was: at once for items 1 and 2, by steps for item 3, and for items 4 and 5 when their
moment comes (R487, R488). -/
def restoreSet (t : Trim) (r : NvmRec) : Trim :=
  let k := r.item * 256 + r.index
  if r.item ≤ 2 then { t with sets := tset t.sets k r }
  else if r.item = 3 then { t with moving := if thas t.moving k then t.moving else tset t.moving k r }
  else { t with deferred := if thas t.deferred k then t.deferred else tset t.deferred k r }

/-- A run ends, and every effect of it is undone. -/
def undoTrim (t : Trim) : Trim :=
  match t.run with
  | none => t
  | some r =>
    let p := r.past
    let changed := (t.sets.filter (fun e => tfind p.sets e.1 != some e.2)).map (fun e => (tfind p.sets e.1).getD (factoryRec e.1))
    changed.foldl restoreSet { t with run := none, write := none, deferred := p.deferred, moving := p.moving,
                                      implausible := p.implausible, calrefUv := p.calrefUv }

/-- A run is abandoned: its results are discarded, and the values in force are kept (R522). -/
def abandonTrim (t : Trim) : Trim :=
  match t.run with
  | none => t
  | some r => { t with
    run := none, write := none, deferred := t.deferred.filter (fun e => tfind r.past.deferred e.1 == some e.2),
    moving := t.moving.filter (fun e => tfind r.past.moving e.1 == some e.2) }

/-- A trim command that runs ends without an effect (R434). -/
def abortTrim (t : Trim) : Trim :=
  let t := if t.run.elim false (fun r => r.caller.isSome) then undoTrim t else t
  if t.write.elim false (fun w => w.delta.isSome) then { t with write := none, deltaC := t.hdr.elim 8 (·.deltaC) } else t

/-- Commands in progress end at a restart: on a mailbox with INTERNAL, and none has an effect (R400, R434). -/
def abortCommands (s : State) : State :=
  let l := s.running
  let queued := (List.range 8).flatMap (fun n => (s.mailbox n).waiting.map (fun e => (n, e)))
  let owned (o : Option Caller) : Bool := o.isSome
  let s := { s with
    running := [], fenceRuns := [],
    mem := { s.mem with dyke := { s.mem.dyke with syncs := s.mem.dyke.syncs.filter (fun j => !owned j.caller) } },
    trim := abortTrim s.trim }
  let fail (s : State) (n : Nat) (gone : Bool) (code slot seq : Nat) : State :=
    if gone then s.setMailbox n { s.mailbox n with abCode := code, abStatus := stInternal, abSeq := seq }
    else mailboxDone s n stInternal (bareResponse code slot seq stInternal)
  let s := l.foldl (fun s r => match r.c.via with
    | .mailbox n => fail s n.val r.abandoned r.code r.c.slot r.c.seq
    | _ => s) s
  queued.foldl (fun s e =>
    let s := s.setMailbox e.1 { s.mailbox e.1 with waiting := [] }
    fail s e.1 e.2.2 (leAt e.2.1 0 2) (leAt e.2.1 8 1) (leAt e.2.1 4 4)) s

/-- A warden restart begins (R400). -/
def restartWarden (s : State) : State :=
  let s := { s with start := { s.start with warden := .restarting, restartAt := s.ref, restartImage := false } }
  let s := endSessions s (fun _ => true) 4
  let s := dropApprovals s (fun _ => true) 3
  abortCommands { s with hwbIdent := 0 }

/-! ### Wake events (R497, R499) -/

/-- POWER_STATE event (R504). -/
def postPower (s : State) (old new : Nat) : State :=
  postFw s 0x60 1 none [byte old, byte new, byte s.power.wakeReason]

/-- A wake event: the groups that rest are restarted. -/
def wake (s : State) (reason : Nat) : State :=
  if s.power.state = 0 ∨ s.power.waking = true then s
  else { s with power := { s.power with waking := true, resume := true, wakeReason := reason } }

/-- The power state becomes ACTIVE at once, and the groups that rested are restarted (R519). -/
def forceActive (s : State) : State :=
  if s.power.state = 0 then s
  else postPower { s with power := { s.power with state := 0, waking := false, resume := true } } s.power.state 0

/-- DisplayPort links rest (R497). -/
def displayRests (s : State) : Bool := s.power.state != 0 && !s.power.waking

/-- Pans, memory and media rest (R497). -/
def memoryRests (s : State) : Bool := decide (2 ≤ s.power.state) && !s.power.waking

/-! ### SAFE state (R517 to R519) -/

/-- Entry to SAFE state (the FENCE event of source 3 carries GROUPS 0 and SEALED 0, here and at the exit: R424 gives no SAFE bit, and
the spec does not say what stands there. DESIGN CHOICE; notes/assumptions/105.md): SAFE bit, HB_STATUS SAFE, SAFE_N low, power ACTIVE, warden restart. In SAFE state
nothing else changes. -/
def enterSafe (s : State) : State :=
  if s.start.safe then s
  else
    let (t, s) := softFenceTime s
    let s := setFences s { s.fences with safe := true } t
    let s := forceActive { s with start := { s.start with safe := true, handling := none } }
    restartWarden (postFence s (s.pt + (t - 4 * panT - s.now)) 3 0 0 0xFF 0)

/-- An error of a class is detected (R514 to R518). A FATAL error enters SAFE state when its code says so, when
another FATAL record is being handled, or when HB_STATUS does not show READY; else the handling of the record that it makes
begins, and there is none where it makes none (notes/assumptions/154.md). In SAFE state nothing else changes (R519). -/
def raiseClass (s : State) (code cls obj a b : Nat) (k : ErrKey := {}) : State :=
  let id := s.errNext
  let s' := queueErr s code cls obj a b k
  if cls ≠ 3 ∨ s.start.safe = true then s'
  else if errSafe code || s.start.handling.isSome || s.start.warden ≠ .ready then enterSafe s'
  else if s'.errNext = id then s'
  else { s' with start := { s'.start with handling := some id } }

/-- An error of the tables of R436 and R525. -/
def raiseErr (s : State) (code obj a b : Nat) (k : ErrKey := {}) : State :=
  raiseClass s code (errClass code) obj a b k

end Sys2Proof.Machine
end

