-- ==== Sys2Proof/Machine/Accept.lean ====
section
/-! DEFINITION. Acceptance and completion of commands: rows 1 to 6 of R429, roles (R409, R410), tags (R414), and
the response over a mailbox or the sluice (R407, R427, R428). -/

namespace Sys2Proof.Machine

/-- Codes and base roles of R433: 0 OBSERVER, 1 OPERATOR, 2 ENGINEER, 3 OWNER. HELLO and PROVE need none. -/
def codeTable : List (Nat × Nat) :=
  [(0x0101, 0), (0x0102, 0), (0x0103, 0), (0x0104, 0), (0x0201, 3), (0x0202, 2), (0x0203, 1), (0x0204, 1),
   (0x0205, 0), (0x0301, 2), (0x0302, 1), (0x0303, 2), (0x0304, 0), (0x0305, 2), (0x0401, 1), (0x0402, 1)] ++
  [(0x0403, 1), (0x0404, 1), (0x0405, 1), (0x0406, 0), (0x0501, 2), (0x0502, 2), (0x0503, 2), (0x0504, 1),
   (0x0505, 0), (0x0506, 3), (0x0601, 2), (0x0602, 1), (0x0603, 0), (0x0701, 2), (0x0702, 0), (0x0703, 2)] ++
  [(0x0801, 1), (0x0802, 1), (0x0803, 1), (0x0901, 2), (0x0902, 1), (0x0903, 0), (0x0A01, 2), (0x0A02, 2),
   (0x0A03, 0), (0x0A04, 2), (0x0B01, 0), (0x0B02, 2), (0x0B03, 0), (0x0C01, 3), (0x0C02, 3), (0x0C03, 3)] ++
  [(0x0C04, 0), (0x0C05, 2), (0x0D01, 2), (0x0D02, 1), (0x0D03, 1), (0x0E01, 2), (0x0E02, 0), (0x0E03, 2),
   (0x0E04, 0), (0x0F01, 0), (0x0F02, 1), (0x0F03, 0), (0x0F04, 3)]

/-- Base role of a code. -/
def baseRole (code : Nat) : Nat := ((codeTable.find? (fun e => e.1 == code)).map (·.2)).getD 0

/-- Completion bounds in µs (R433). -/
def boundTable : List (Nat × Nat) :=
  [(0x0101, 50), (0x0102, 200), (0x0103, 20), (0x0104, 20), (0x0201, 1500000), (0x0202, 100000), (0x0203, 500), (0x0204, 500),
   (0x0205, 2000), (0x0301, 500), (0x0302, 200), (0x0303, 100), (0x0304, 50), (0x0305, 100), (0x0401, 200), (0x0402, 200)] ++
  [(0x0403, 50), (0x0404, 100), (0x0405, 100), (0x0406, 50), (0x0501, 500), (0x0502, 200), (0x0503, 200), (0x0504, 30),
   (0x0505, 50), (0x0506, 100), (0x0601, 500), (0x0602, 200), (0x0603, 50), (0x0701, 500), (0x0702, 100), (0x0703, 100)] ++
  [(0x0801, 100), (0x0802, 50), (0x0803, 50), (0x0901, 200), (0x0902, 200), (0x0903, 50), (0x0A01, 200), (0x0A02, 100),
   (0x0A03, 50), (0x0A04, 100), (0x0B01, 50), (0x0B02, 100), (0x0B03, 50), (0x0C01, 100), (0x0C02, 20), (0x0C03, 20)] ++
  [(0x0C04, 50), (0x0C05, 50), (0x0D01, 500), (0x0D02, 100), (0x0D03, 200), (0x0E01, 250000), (0x0E02, 50), (0x0E03, 100),
   (0x0E04, 100), (0x0F01, 50), (0x0F02, 20), (0x0F03, 20), (0x0F04, 1000)]

/-- Bound of a code in ticks; a code without one has none. -/
def boundT (code : Nat) : Option Ticks := (boundTable.find? (fun e => e.1 == code)).map (fun e => e.2 * usT)

/-- Role of a key slot (R409): from the bed in force, or OWNER for slot 0 and OBSERVER for the others. -/
def roleOfKey (s : State) (k : Nat) : Nat :=
  match s.cfg.bed with
  | some b => nth 0 b.roles k
  | none => if k = 0 then 3 else 0

/-- The binding that a transport gives a session (R408). -/
def bindingOf : Via → Option Binding
  | .mailbox n => some (.mailbox n.val)
  | .sluice p src u => some (.sluice p.val src u)
  | .image _ => none

/-- The open session that a record names, when it is bound to the record's transport (R408, row 2 of R429). -/
def openSession (s : State) (c : Caller) : Option Session :=
  match tfind s.sessions c.slot with
  | some x => if x.isOpen && some x.binding == bindingOf c.via then some x else none
  | none => none

/-- Key that tags a response: that of the open session that the record names, whatever its binding (R427). -/
def openKey (s : State) (slot : Nat) : Option (List Byte) :=
  ((tfind s.sessions slot).filter (·.isOpen)).map (·.key)

/-- Role with which a command runs: the session's, or the one recorded with an image (R410, R453). -/
def callerRole (s : State) (c : Caller) : Nat :=
  match c.via with
  | .image r => r
  | _ => match openSession s c with
    | some x => roleOfKey s x.keySlot
    | none => 0

/-- Tag of a record (R414): `dir` is 0x43 for a command, 0x52 for a response. -/
def tagOf (key : List Byte) (dir : Nat) (head params : List Byte) : List Byte :=
  (hmacSha256 key (byte dir :: head ++ params)).take 16

/-- The response record (R425, R427): tagged with `key` when its session is open. -/
def responseRecord (code : Nat) (c : Caller) (key : Option (List Byte)) (status : Nat) (params : List Byte) :
    List Byte :=
  let head := leBytes 2 code ++ leBytes 2 (32 + params.length) ++ leBytes 4 c.seq ++ [byte c.slot, 1#8] ++
    leBytes 2 status ++ zeros 4
  head ++ (match key with | some k => tagOf k 0x52 head params | none => zeros 16) ++ params

/-- A sluice session keeps its last response (R415). -/
def storeResponse (s : State) (slot : Nat) (rec : List Byte) : State :=
  match tfind s.sessions slot with
  | some x => s.setSession slot { x with response := rec }
  | none => s

/-- Completion of a command on its transport. PENDING leaves a mailbox BUSY: the command runs on (R407). -/
def complete (c : Caller) (code : Nat) (key : Option (List Byte)) (r : Reply) : State :=
  match c.via with
  | .image _ => r.st
  | .mailbox n =>
    if r.status = stPending then
      let s : State := { r.st with running := r.st.running ++ [⟨c, code, false, r.st.ref⟩] }
      s.setMailbox n.val { s.mailbox n.val with state := 1 }
    else mailboxDone r.st n.val r.status (responseRecord code c key r.status r.resp)
  | .sluice p src u =>
    if r.status = stPending then { r.st with running := r.st.running ++ [⟨c, code, false, r.st.ref⟩] }
    else r.st.emit (.sluice p.val src u (responseRecord code c key r.status r.resp))

def isSluice : Via → Bool
  | .sluice .. => true
  | _ => false

/-- Completion of an accepted command: a sluice session keeps its response (R415). -/
def completeAccepted (c : Caller) (code : Nat) (key : Option (List Byte)) (r : Reply) : State :=
  complete c code key (if isSluice c.via && r.status != stPending then
    { r with st := storeResponse r.st c.slot (responseRecord code c key r.status r.resp) } else r)

/-- The session has an accepted command: its sequence number and its idle time (R414, R416). -/
def acceptSeq (s : State) (c : Caller) (x : Session) (record : List Byte) : State :=
  s.setSession c.slot { x with lastSeq := c.seq, at_ := s.ref, lastRecord := record }

/-- Whether the session's previous command still runs (R415). -/
def stillRunning (s : State) (c : Caller) : Bool :=
  s.running.any (fun r => r.c.via == c.via && r.c.slot == c.slot)

/-- Mailboxes on which a command runs. -/
def busyMailboxes (s : State) : List Nat :=
  s.running.filterMap (fun r => match r.c.via with
    | .mailbox n => some n.val
    | _ => none)

/-- The binding is a mailbox on which no command runs. -/
def idleBinding (busy : List Nat) : Binding → Bool
  | .mailbox n => !busy.contains n
  | .sluice .. => false

/-- A command on a mailbox that satisfies `f` runs on, and its response will be discarded (R405). -/
def abandonRunning (s : State) (f : Nat → Bool) : State :=
  { s with running := s.running.map (fun r => match r.c.via with
      | .mailbox n => if f n.val then { r with abandoned := true } else r
      | _ => r) }

/-- A command that ran on completes. When its mailbox went away meanwhile, its response is discarded, the
mailbox records it and its session closes (R405). -/
def finishRunning (s : State) (c : Caller) (code status : Nat) (resp : List Byte) : State :=
  match s.running.find? (fun r => r.c == c && r.code == code) with
  | none => s
  | some r =>
    let s := { s with running := s.running.filter (fun x => x != r) }
    match r.abandoned, c.via with
    | true, .mailbox n =>
      endSessions (s.setMailbox n.val
        { s.mailbox n.val with abCode := code, abStatus := status, abSeq := c.seq })
        (fun x => x.binding == .mailbox n.val) 4
    | _, _ => completeAccepted c code ((openSession s c).map (·.key)) ⟨s, status, resp⟩

/-- A command that runs on can no longer complete within its bound (R430, R432). -/
def overdue (s : State) (c : Caller) (code : Nat) : Bool :=
  match s.running.find? (fun r => r.c == c && r.code == code), boundT code with
  | some r, some b => decide (r.seenAt + b < s.ref)
  | _, _ => false

/-- A command of which every effect has been undone completes with INTERNAL, and COMMAND_FAULT is logged (R432). -/
def faultRunning (s : State) (c : Caller) (code : Nat) : State :=
  finishRunning (raiseErr s 0x0081 code c.seq c.slot) c code stInternal []

/-- Commands that read or write device memory, which rests in DORMANT (R499). -/
def memoryCodes : List Nat := [0x0201, 0x0202, 0x0203, 0x0801, 0x0802, 0x0B02]

/-- The command needs a resting block (R499). -/
def needsResting (s : State) (code : Nat) : Bool := decide (2 ≤ s.power.state) && memoryCodes.contains code

/-- Commands of the display families keep DISPLAY from resting (R498). -/
def noteCode (s : State) (code : Nat) : State :=
  if code / 256 = 3 ∨ code / 256 = 4 ∨ code = 0x0203 then { s with power := { s.power with lastDisplay := s.ref } } else s

/-- Rows 2, 4 and 6 of R429, then the command. `record` is the record's bytes where it came as bytes. -/
def runAccepted (c : Caller) (code : Nat) (record : List Byte) (run : State → Reply) (s : State) : State :=
  match openSession s c with
  | none => complete c code (openKey s c.slot) (refuse s stNotAuth)
  | some x =>
    if c.seq ≤ x.lastSeq then complete c code (some x.key) (refuse s stReplay)
    else
      let s1 := noteCode (acceptSeq s c x record) code
      if roleOfKey s x.keySlot < baseRole code then completeAccepted c code (some x.key) (refuse s1 stRoleDenied)
      else if needsResting s code then completeAccepted c code (some x.key) (refuse s1 stBusy)
      else completeAccepted c code (some x.key) (run s1)

/-- One more datagram dropped at a port's sluice (R428). -/
def sluiceDropped (s : State) (p : Nat) : State :=
  s.setPort p { s.port p with sluiceDrop := sat32 (s.port p).sluiceDrop }

/-- A record arrives on a mailbox or the sluice, which wakes the device (R499): reason 2 or 3. -/
def noteHost (s : State) (reason : Nat) : State :=
  wake { s with power := { s.power with lastHost := s.ref } } reason

/-- A record arrives on its transport, which needs the main die and, for a mailbox, the host link. A GO in BUSY or DONE is
ignored (R407), and so is a command whose turn on its mailbox has not come, because an earlier one of the mailbox still runs (R399;
notes/assumptions/144.md); while HB_STATUS does not show READY a GO completes with BUSY and a datagram is dropped (R400, R507); a datagram
for a session whose command still runs completes with BUSY (R415). -/
def arrive (c : Caller) (code : Nat) (s : State) (go : State → State) : State :=
  match c.via with
  | .image _ => s
  | .mailbox n =>
    if !hostUp s || (s.mailbox n.val).state != 0 || (busyMailboxes s).contains n.val || !(s.mailbox n.val).waiting.isEmpty then s
    else if s.start.warden ≠ .ready then mailboxDone s n.val stBusy (bareResponse code c.slot c.seq stBusy)
    else go (noteHost s 2)
  | .sluice p _ _ =>
    if released s = false then s
    else if s.start.warden ≠ .ready then sluiceDropped s p.val
    else if stillRunning s c then complete c code ((openSession s c).map (·.key)) (refuse s stBusy)
    else go (noteHost s 3)

/-- A command of the code table with its parameters read, from its arrival to its completion. A record of an
image runs at once with the image's role (R448, R453). -/
def command (c : Caller) (code : Nat) (run : State → Reply) (s : State) : State :=
  match c.via with
  | .image r => if r < baseRole code then s else (run s).st
  | _ => arrive c code s (runAccepted c code [] run)

end Sys2Proof.Machine
end

