-- ==== Sys2Proof/Machine/SymbolCode.lean ====
section
/-! DEFINITION. The symbol code of memory lines: RS(68,64) over GF(2^8) (R372 to R376). -/

namespace Sys2Proof.Machine

/-- Multiplication by α = 0x02 modulo x^8 + x^4 + x^3 + x^2 + 1 (R372). -/
def gfDouble (a : Nat) : Nat := if a < 128 then 2 * a else (2 * a) ^^^ 0x11D

/-- Product by the bits of `b`, `fuel` of them. -/
def gfMulBits : (fuel a b : Nat) → Nat
  | 0, _, _ => 0
  | f + 1, a, b => (if b % 2 = 1 then a else 0) ^^^ gfMulBits f (gfDouble a) (b / 2)

def gfMul (a b : Nat) : Nat := gfMulBits 8 a b

/-- α^k. -/
def gfExp : Nat → Nat
  | 0 => 1
  | k + 1 => gfDouble (gfExp k)

/-- a^254, the inverse of a non-zero element. -/
def gfInv (a : Nat) : Nat :=
  let a2 := gfMul a a
  let a4 := gfMul a2 a2
  let a8 := gfMul a4 a4
  let a16 := gfMul a8 a8
  let a32 := gfMul a16 a16
  let a64 := gfMul a32 a32
  let a128 := gfMul a64 a64
  gfMul a128 (gfMul a64 (gfMul a32 (gfMul a16 (gfMul a8 (gfMul a4 a2)))))

/-- One step of the division by g(x) = x^4 + 0x0F x^3 + 0x36 x^2 + 0x78 x + 0x40, the product of x + α^0 to
x + α^3: the remainder (c_0, ..., c_3) takes one more byte. -/
def rsStep (c : Nat × Nat × Nat × Nat) (d : Nat) : Nat × Nat × Nat × Nat :=
  let f := d ^^^ c.1
  (c.2.1 ^^^ gfMul f 0x0F, c.2.2.1 ^^^ gfMul f 0x36, c.2.2.2 ^^^ gfMul f 0x78, gfMul f 0x40)

/-- Check symbols c_0 to c_3 of a line's data bytes (R372). -/
def rsChecks (d : List Nat) : List Nat :=
  let c := d.foldl rsStep (0, 0, 0, 0)
  [c.1, c.2.1, c.2.2.1, c.2.2.2]

/-- The pattern by which stored poison differs from a codeword in its check symbols (R374). -/
def poisonPattern : List Nat := [0xA5, 0x5A, 0xC3, 0x3C]

/-- What the check symbols differ by from the data's codeword when symbol `i` of a codeword changes by `v`:
symbols 0 to 63 are the data bytes, 64 to 67 the check symbols. -/
def upsetOf (i v : Nat) : List Nat :=
  if i < 64 then rsChecks ((List.range 64).map (fun k => if k = i then v else 0))
  else (List.range 4).map (fun k => if k + 64 = i then v else 0)

/-- Sum of two check-symbol differences. -/
def xorChecks (a b : List Nat) : List Nat := (List.range 4).map (fun k => nth 0 a k ^^^ nth 0 b k)

/-- Syndrome S_j = r(α^j) of a line whose check symbols differ by `d` (R374). -/
def syndrome (d : List Nat) (j : Nat) : Nat :=
  (List.range 4).foldl (fun x i => x ^^^ gfMul (nth 0 d i) (gfExp (j * (3 - i)))) 0

def syndromes (d : List Nat) : List Nat := (List.range 4).map (syndrome d)

/-- An error in one symbol that gives these syndromes: (symbol, value). The symbol of x^k is 67 - k. -/
def oneError (s : List Nat) : Option (Nat × Nat) :=
  let s0 := nth 0 s 0
  if s0 = 0 then none
  else
    ((List.range 68).find? (fun k =>
      let x := gfExp k
      gfMul s0 x == nth 0 s 1 && gfMul (nth 0 s 1) x == nth 0 s 2 && gfMul (nth 0 s 2) x == nth 0 s 3)).map
      (fun k => (67 - k, s0))

/-- Errors in two symbols that give these syndromes, by the roots of the locator polynomial. -/
def twoErrors (s : List Nat) : Option ((Nat × Nat) × (Nat × Nat)) :=
  let s0 := nth 0 s 0
  let s1 := nth 0 s 1
  let s2 := nth 0 s 2
  let s3 := nth 0 s 3
  let det := gfMul s1 s1 ^^^ gfMul s0 s2
  if det = 0 then none
  else
    let inv := gfInv det
    let g1 := gfMul (gfMul s1 s2 ^^^ gfMul s0 s3) inv
    let g2 := gfMul (gfMul s2 s2 ^^^ gfMul s1 s3) inv
    let roots := (List.range 68).filter (fun k =>
      let x := gfExp k
      (gfMul x x ^^^ gfMul g1 x ^^^ g2) == 0)
    match roots with
    | [k1, k2] =>
      let x1 := gfExp k1
      let x2 := gfExp k2
      let e2 := gfMul (s1 ^^^ gfMul x1 s0) (gfInv (x1 ^^^ x2))
      let e1 := s0 ^^^ e2
      if e1 = 0 ∨ e2 = 0 then none else some ((67 - k1, e1), (67 - k2, e2))
    | _ => none

/-- What a read of a line decodes to (R375). -/
inductive ReadOutcome where
  | good
  | poison
  | corrected (errors : List (Nat × Nat))
  | uncorrectable (synd : List Nat)
  deriving DecidableEq, Repr

/-- R375: decode a line whose check symbols differ by `d`, in strict or wide mode. -/
def decodeLine (d : List Nat) (wide : Bool) : ReadOutcome :=
  let s := syndromes d
  if s == [0, 0, 0, 0] then .good
  else if s == syndromes poisonPattern then .poison
  else match oneError s with
    | some e => .corrected [e]
    | none =>
      if wide then
        match twoErrors s with
        | some (e, f) => .corrected [e, f]
        | none => .uncorrectable s
      else .uncorrectable s

end Sys2Proof.Machine
end

