-- ==== Sys2Proof/Machine/Memory.lean ====
section
/-! DEFINITION. Memory, the symbol code, scrub and the dyke table (spec/14), and the slot engine that times memory
(spec/01 R27 to R36). -/

namespace Sys2Proof.Machine

/-! ### The dyke table (R386 to R394) -/

/-- The region of a page, with its number. -/
def findRegion (t : Tab Region) (page : Nat) : Option (Nat × Region) :=
  t.find? (fun e => e.2.base ≤ page && page < e.2.base + e.2.pages)

/-- Whether a region's mask grants an identity (R388). -/
def grants (r : Region) (ident : Nat) (write : Bool) : Bool := (if write then r.write else r.read).testBit ident

/-- Whether the DEBUG identity has the access of the masks (R393). -/
def debugOpen (s : State) : Bool :=
  match (s.keySlot 0).key, s.debug with
  | none, _ => true
  | some _, .opened .. => true
  | _, _ => false

/-- R388, R393: whether rules let an identity read or write a page. -/
def judgePage (s : State) (t : Tab Region) (ident : Nat) (write : Bool) (page : Nat) : Bool :=
  match findRegion t page with
  | some (n, r) => grants r ident write && (ident != 16 || (debugOpen s && !s.mem.dyke.locked.contains n))
  | none => false

/-- The rules that a check uses: those in force; between a staging write and the completion of its sync, either
the old ones or the new ones (R391; a free choice). -/
def dykeRules (s : State) : Tab Region × State :=
  if s.mem.dyke.staged = s.mem.dyke.force then (s.mem.dyke.force, s)
  else
    let (new, s') := s.drawBool
    (if new then s.mem.dyke.staged else s.mem.dyke.force, s')

/-- A part of a transaction within one page (R389). -/
structure Part where
  addr : Nat
  len : Nat
  ok : Bool
  deriving DecidableEq, Repr

/-- R389: a transaction split at every 4 KiB boundary, each part judged by itself; `fuel` parts at most. -/
def splitParts (ok : Nat → Bool) : (fuel addr n : Nat) → List Part
  | 0, _, _ => []
  | _, _, 0 => []
  | f + 1, addr, n + 1 =>
    let len := min (n + 1) (4096 - addr % 4096)
    ⟨addr, len, ok (addr / 4096)⟩ :: splitParts ok f (addr + len) (n + 1 - len)

/-- R394: one fault record and its DYKE_FAULT error; records of one identity, region and tide coalesce. -/
def dykeFault (s : State) (ident : Nat) (write : Bool) (region first denied : Nat) : State :=
  let d := s.mem.dyke
  let same (r : DykeFaultRec) : Bool := r.master == ident && r.region == region && r.tide == s.tide.count && !r.old
  let log :=
    if d.log.any same then d.log.map (fun r => if same r then { r with count := sat32 r.count } else r)
    else (⟨ident, write, region, denied, first, 1, s.tide.count, false⟩ :: d.log).take 16
  let s := { s with mem := { s.mem with dyke := { d with log := log } } }
  raiseErr s 0x0074 (ident + b2n write * 256 + region * 65536) (first % 2 ^ 32) (first / 2 ^ 32) { perTide := true }

/-- R389: check a transaction, on one rule set, which the answer names; a denied one makes one fault record. -/
def dykeCheck (s : State) (ident addr n : Nat) (write : Bool) : Tab Region × List Part × State :=
  let (t, s) := dykeRules s
  let parts := splitParts (judgePage s t ident write) (n / 4096 + 2) addr n
  match parts.find? (fun p => !p.ok) with
  | none => (t, parts, s)
  | some p =>
    let region := ((findRegion t (p.addr / 4096)).map (·.1)).getD 0xFFFF
    (t, parts, dykeFault s ident write region p.addr (sumNat ((parts.filter (fun p => !p.ok)).map (·.len))))

/-- Whether the rules in force let an identity at every page from `page` to `last`: region by region. -/
def permitFrom (s : State) (ident : Nat) (write : Bool) : (fuel page last : Nat) → Bool
  | 0, _, _ => false
  | f + 1, page, last =>
    if last < page then true
    else match findRegion s.mem.dyke.force page with
      | some (_, r) => judgePage s s.mem.dyke.force ident write page && permitFrom s ident write f (r.base + r.pages) last
      | none => false

/-- What firmware checks of an address that a command names, for the master that would use it (DYKE_DENIED). -/
def dykePermits (s : State) (ident addr n : Nat) (write : Bool) : Bool :=
  decide (addr + n ≤ memTop) &&
    permitFrom s ident write (s.mem.dyke.force.length + 1) (addr / 4096) ((addr + max n 1 - 1) / 4096)

/-- Decoder mode of a line under a rule set: MODE of its region, strict outside every region (R376). -/
def wideIn (t : Tab Region) (addr : Nat) : Bool := ((findRegion t (addr / 4096)).map (·.2.wide)).getD false

/-- Decoder mode of a line under the rules in force. -/
def wideAt (s : State) (addr : Nat) : Bool := wideIn s.mem.dyke.force addr

/-! ### Lines (R370, R374 to R381) -/

def lineChan (line : Nat) : Nat := line % 32
def lineIndex (line : Nat) : Nat := line / 32

/-- Check-symbol difference of a line, [0, 0, 0, 0] for a sound one. -/
def lineUpset (s : State) (line : Nat) : List Nat := tget [0, 0, 0, 0] s.mem.upset line

def setLineUpset (s : State) (line : Nat) (d : List Nat) : State :=
  { s with mem := { s.mem with
      upset := if d == [0, 0, 0, 0] then tdel s.mem.upset line else tset s.mem.upset line d } }

/-- A queued write-back of a line, or its pending poison write, is discarded (R384). -/
def dropWriteBack (s : State) (line : Nat) : State :=
  let c := s.memChan (lineChan line)
  s.setMemChan (lineChan line)
    { c with wb := c.wb.filter (fun e => e.1 != line), toPoison := c.toPoison.filter (· != line) }

/-- Store a whole line with check symbols that differ by `d` from its codeword. -/
def storeLine (s : State) (line : Nat) (data : List Byte) (d : List Nat) : State :=
  setLineUpset (s.writeMem (64 * line) data) line d

/-- Hardware damage to a symbol of a line (R371): a data byte or a check symbol changes by `v`. -/
def damageSymbol (s : State) (line i : Nat) (v : Byte) : State :=
  let s := setLineUpset s line (xorChecks (lineUpset s line) (upsetOf i v.toNat))
  if i < 64 then s.writeMem (64 * line + i) [readCell s.mem.cells (64 * line + i) ^^^ v] else s

/-- Apply the corrections of a decode to a line's data bytes. -/
def fixBytes (data : List Byte) (errors : List (Nat × Nat)) : List Byte :=
  errors.foldl (fun d e => if e.1 < 64 then setNth d e.1 (nth 0#8 d e.1 ^^^ byte e.2) else d) data

/-- Syndromes as LAST_SYND packs them (R397). -/
def packSynd (l : List Nat) : Nat := nth 0 l 0 + 256 * nth 0 l 1 + 65536 * nth 0 l 2 + 16777216 * nth 0 l 3

/-- R381: queue a corrected line for write-back, or count it dropped. -/
def queueWriteBack (s : State) (line : Nat) (data : List Byte) : State :=
  let c := s.memChan (lineChan line)
  if c.wb.any (fun e => e.1 == line) then s
  else if c.wb.length < 16 then s.setMemChan (lineChan line) { c with wb := c.wb ++ [(line, data)] }
  else s.setMemChan (lineChan line) { c with wbDropped := sat32 c.wbDropped }

/-- What a read of a line gives: data, poison mark, outcome. -/
structure LineData where
  data : List Byte
  poison : Bool
  failed : Bool
  deriving DecidableEq, Repr

/-- A read outcome's counter and error (R378). -/
def noteOutcome (s : State) (line : Nat) (control : Bool) (o : ReadOutcome) : State :=
  let ch := lineChan line
  let c := s.memChan ch
  match o with
  | .good => s
  | .poison => s.setMemChan ch { c with poisonRead := sat32 c.poisonRead }
  | .corrected errors =>
    let s := s.setMemChan ch
      (if errors.length = 1 then { c with corrected := sat32 c.corrected }
       else { c with wideCorrected := sat32 c.wideCorrected })
    raiseErr s 0x0070 ch (lineIndex line) errors.length { perTide := true }
  | .uncorrectable synd =>
    let c := { c with lastAddr := 64 * line, lastSynd := packSynd synd }
    let s := s.setMemChan ch
      (if control then { c with uncorrControl := sat32 c.uncorrControl } else { c with uncorrData := sat32 c.uncorrData })
    let s := { s with mem := { s.mem with lastAddr := 64 * line, lastSynd := packSynd synd } }
    raiseErr s (if control then 0x0072 else 0x0071) ch (64 * line % 2 ^ 32) (64 * line / 2 ^ 32) { perTide := true }

/-- Read a line (R375, R378, R381). -/
def readLine (s : State) (line : Nat) (wide control : Bool) : LineData × State :=
  let raw := s.readMem (64 * line) 64
  let o := decodeLine (lineUpset s line) wide
  let s := noteOutcome s line control o
  match o with
  | .good => (⟨raw, false, false⟩, s)
  | .poison => (⟨raw, true, true⟩, s)
  | .corrected errors => (⟨fixBytes raw errors, false, false⟩, queueWriteBack s line (fixBytes raw errors))
  | .uncorrectable _ => (⟨raw, true, true⟩, s)

/-- Write bytes of a line (R377). The answer is the poison response. -/
def writeLine (s : State) (line off : Nat) (data : List Byte) (wide : Bool) : Bool × State :=
  if data.length = 64 then (false, dropWriteBack (storeLine s line data [0, 0, 0, 0]) line)
  else
    let (r, s) := readLine s line wide false
    let merged := r.data.take off ++ data ++ r.data.drop (off + data.length)
    let s := dropWriteBack s line
    if r.failed then
      (true, raiseErr (storeLine s line merged poisonPattern) 0x0073 (lineChan line)
        (64 * line % 2 ^ 32) (64 * line / 2 ^ 32))
    else (false, storeLine s line merged [0, 0, 0, 0])

/-- The lines that bytes from an address touch: (line, offset in it, bytes), `fuel` lines at most. -/
def splitLines : (fuel addr n : Nat) → List (Nat × Nat × Nat)
  | 0, _, _ => []
  | _, _, 0 => []
  | f + 1, addr, n + 1 =>
    let len := min (n + 1) (64 - addr % 64)
    (addr / 64, addr % 64, len) :: splitLines f (addr + len) (n + 1 - len)

def linesOf (addr n : Nat) : List (Nat × Nat × Nat) := splitLines (n / 64 + 2) addr n

/-- A piece of a read: the bytes of one line, whether they are poison, and whether they were denied. -/
structure Piece where
  addr : Nat
  data : List Byte
  poison : Bool
  denied : Bool
  deriving DecidableEq, Repr

/-- The parts of a checked read, by line and in address order; denied parts return zeros (R389). A line is decoded in the mode
of the rules it was checked under (R376). -/
def readParts (s : State) (t : Tab Region) (parts : List Part) (control : Bool) : List Piece × State :=
  parts.foldl (fun (acc, s) p =>
    (linesOf p.addr p.len).foldl (fun (acc, s) l =>
      if p.ok then
        let (r, s) := readLine s l.1 (wideIn t (64 * l.1)) control
        (acc ++ [⟨64 * l.1 + l.2.1, slice r.data l.2.1 l.2.2, r.poison, false⟩], s)
      else (acc ++ [⟨64 * l.1 + l.2.1, zeros l.2.2, false, true⟩], s)) (acc, s)) ([], s)

/-- A read by a master without its timing. -/
def readPieces (s : State) (ident addr n : Nat) (control : Bool) : List Piece × State :=
  let (t, parts, s) := dykeCheck s ident addr n false
  readParts s t parts control

/-- A read by a master: the bytes, and whether any of them is poisoned or denied. -/
def devRead (s : State) (ident addr n : Nat) (control : Bool := false) : List Byte × Bool × State :=
  let (l, s) := readPieces s ident addr n control
  (l.flatMap (·.data), l.any (fun p => p.poison || p.denied), s)

/-- Store a line as poison, with the data it has (R374). -/
def poisonLine (s : State) (line : Nat) : State :=
  dropWriteBack (storeLine s line (s.readMem (64 * line) 64) poisonPattern) line

/-- Store the parts of a checked write: denied parts are dropped (R389). The answers are whether one was denied, and
whether a poison response came (R377). -/
def storeParts (s : State) (t : Tab Region) (addr : Nat) (data : List Byte) (parts : List Part) : Bool × Bool × State :=
  parts.foldl (fun (denied, bad, s) p =>
    if p.ok then
      (linesOf p.addr p.len).foldl (fun (denied, bad, s) l =>
        let (b, s) := writeLine s l.1 l.2.1 (slice data (64 * l.1 + l.2.1 - addr) l.2.2) (wideIn t (64 * l.1))
        (denied, bad || b, s)) (denied, bad, s)
    else (true, bad, s)) (false, false, s)

/-- A write by a master without its timing. The answer is whether every byte was written and no poison response came. -/
def devWrite (s : State) (ident addr : Nat) (data : List Byte) : Bool × State :=
  let (t, parts, s) := dykeCheck s ident addr data.length true
  let (denied, bad, s) := storeParts s t addr data parts
  (!denied && !bad, s)

/-! ### Transfers of engines (R32, R33; notes/assumptions/110.md) -/

/-- The first MEM cycle since release that is not before the CORE cycle `cycles` from now. -/
def memAfter (s : State) (cycles : Nat) : Nat :=
  ceilDiv (s.clk.ref + cycles * coreT * one40 - s.clk.origin) (memT * one40)

/-- A request joins the queue in the order in which requests become visible (R30, R33). -/
def queueRequest (q : List SlotReq) (r : SlotReq) : List SlotReq :=
  q.filter (fun x => decide (x.at_ ≤ r.at_)) ++ r :: q.filter (fun x => decide (r.at_ < x.at_))

/-- When the lines of a transfer become visible: the first after `first` CORE cycles, each further one after `pace` more. The
dyke check alone takes 4 (R389). -/
structure Issue where
  first : Nat := 4
  pace : Nat := 0
  deriving DecidableEq, Repr

/-- The lines of the allowed parts of an engine's checked transfer become visible at the slot engine in its class. -/
def postParts (s : State) (t : Tab Region) (parts : List Part) (cls ident : Nat) (write : Bool) (p : Purpose) (i : Issue) :
    State :=
  let lines := (parts.filter (·.ok)).flatMap (fun q => (linesOf q.addr q.len).map (·.1))
  { s with slots := { s.slots with queue := lines.zipIdx.foldl (fun q l =>
      queueRequest q ⟨memAfter s (i.first + i.pace * l.2), cls, ident, l.1, wideIn t (64 * l.1), .engine write p⟩) s.slots.queue } }

/-- Reads of several ranges whose requests follow each other, each range from its lowest address. -/
def postRanges (s : State) (cls ident : Nat) (i : Issue) (p : Purpose) (rs : List (Nat × Nat)) : State :=
  let t := s.mem.dyke.force
  postParts s t (rs.flatMap (fun r => splitParts (judgePage s t ident false) (r.2 / 4096 + 2) r.1 r.2)) cls ident false p i

/-- A transfer whose data its engine takes up later, when it is checked again (notes/assumptions/110.md). -/
def post (s : State) (cls ident addr n : Nat) (write : Bool) (p : Purpose) : State :=
  postParts s s.mem.dyke.force (splitParts (judgePage s s.mem.dyke.force ident write) (n / 4096 + 2) addr n) cls ident write p {}

/-- A read and a write of an engine, in its class. -/
def classPieces (s : State) (cls ident addr n : Nat) (p : Purpose := .plain) (control : Bool := false) : List Piece × State :=
  let (t, parts, s) := dykeCheck s ident addr n false
  readParts (postParts s t parts cls ident false p {}) t parts control

def classRead (s : State) (cls ident addr n : Nat) (p : Purpose := .plain) (control : Bool := false) : List Byte × Bool × State :=
  let (l, s) := classPieces s cls ident addr n p control
  (l.flatMap (·.data), l.any (fun p => p.poison || p.denied), s)

/-- The answers are those of `storeParts`. -/
def classStore (s : State) (cls ident addr : Nat) (data : List Byte) (p : Purpose) (i : Issue) : Bool × Bool × State :=
  let (t, parts, s) := dykeCheck s ident addr data.length true
  storeParts (postParts s t parts cls ident true p i) t addr data parts

def classWrite (s : State) (cls ident addr : Nat) (data : List Byte) (p : Purpose := .plain) (i : Issue := {}) :
    Bool × State :=
  let (denied, bad, s) := classStore s cls ident addr data p i
  (!denied && !bad, s)

/-- The warden's accesses (R387); its reads are control reads (R379). -/
def wardenRead (s : State) (addr n : Nat) : List Byte × Bool × State := classRead s 0x31 15 addr n .plain true
def wardenWrite (s : State) (addr : Nat) (data : List Byte) : State := (classWrite s 0x31 15 addr data).2

/-- What a request serves. -/
def SlotReq.purpose (r : SlotReq) : Purpose :=
  match r.op with
  | .engine _ p => p
  | _ => .plain

/-- Where the context state of number `n` of a codec engine lies: address and bytes. -/
def stateRange (n : Nat) : Nat × Nat := ((Config.codecState n).1 % (memTop / 64) * 64, (Config.codecState n).2 % 65536)

/-- The load of context state `n` becomes visible at the slot engine (R247, R277). -/
def loadState (s : State) (cls ident n : Nat) (p : Purpose) : State := post s cls ident (stateRange n).1 (stateRange n).2 false p

/-- The load returns: a control read (R379). -/
def stateLoaded (s : State) (ident n : Nat) : State := (readPieces s ident (stateRange n).1 (stateRange n).2 true).2

/-- A transfer that satisfies `f` has not completed. -/
def outstanding (s : State) (f : Purpose → Bool) : Bool :=
  s.slots.queue.any (fun r => f r.purpose) || s.slots.flight.any (fun e => f e.req.purpose)

/-- What the requests that satisfy `f` serve is waited for no longer; the requests stay. -/
def forgetReqs (s : State) (f : SlotReq → Bool) : State :=
  let g (r : SlotReq) : SlotReq :=
    match r.op with
    | .engine w _ => if f r then { r with op := .engine w .plain } else r
    | _ => r
  { s with slots := { s.slots with
      queue := s.slots.queue.map g, flight := s.slots.flight.map (fun e => { e with req := g e.req }) } }

/-- Nothing waits any more for the transfers that satisfy `f`. -/
def forget (s : State) (f : Purpose → Bool) : State := forgetReqs s (fun r => f r.purpose)

/-! ### The slot engine (R27 to R36) -/

/-- Memory is served: out of reset, and not in self-refresh (R497). -/
def memoryUp (s : State) : Bool := released s && !memoryRests s

/-- The tide schedule in force: a new one from its slot-frame boundary on (R36). -/
def scheduleNow (s : State) : Tab Nat :=
  match s.slots.nextSched with
  | some (t, f) => if f ≤ s.slotFrame then t else s.slots.sched
  | none => s.slots.sched

/-- Class that owns position `p` of a schedule (R28, R29). -/
def classAt (t : Tab Nat) (p : Nat) : Nat := tget (if p % 32 = 31 then 0x3E else 0x3F) t p

/-- Positions that a class owns. -/
def ownedPositions (t : Tab Nat) (cls : Nat) : Nat := ((List.range 2048).filter (fun p => classAt t p == cls)).length

/-- A defined class code (R28). -/
def classDefined (cls : Nat) : Bool := decide (cls ≤ 0x34) || cls == 0x3E || cls == 0x3F

/-- A request is served as best-effort: its class is 0x3F or owns no position (R30). -/
def bestEffort (t : Tab Nat) (cls : Nat) : Bool := cls == 0x3F || !(t.any (fun e => e.2 == cls))

/-- The answer to a denied part of a read: zeros with an error response (R389), which reaches the host as a completion with EP set
(R390). -/
def deniedRead (ident addr n : Nat) : Output :=
  if ident ≤ 8 then .completion (zeros n) true else .denied ident addr (zeros n)

/-- R32: a transaction passes its dyke check and its lines become visible at the slot engine. -/
def requestMemory (s : State) (r : MemRequest) : State :=
  let write := match r.op with | .read _ => false | .write _ => true
  let n := match r.op with | .read n => n | .write d => d.length
  let (t, parts, s) := dykeCheck s r.identity r.addr n write
  parts.foldl (fun s p =>
    if p.ok then
      let reqs := (linesOf p.addr p.len).map (fun l =>
        (⟨memAfter s 4, r.cls, r.identity, l.1, wideIn t (64 * l.1),
          match r.op with
          | .read _ => .read (r.control || r.identity == 15)
          | .write d => .write l.2.1 (slice d (64 * l.1 + l.2.1 - r.addr) l.2.2)⟩ : SlotReq))
      { s with slots := { s.slots with queue := reqs.foldl queueRequest s.slots.queue } }
    else if write then s
    else s.emit (deniedRead r.identity p.addr p.len)) s

/-- MEMORY_REQUEST (R32, R389). A request that carries a class that may not use memory, or none of its bytes,
is no request. -/
def execMemoryRequest (r : MemRequest) (s : State) : Host.Outcome State Fault Refusal :=
  if memoryUp s && classDefined r.cls && r.cls != 0x3E && decide (r.identity < 20) then .next (requestMemory s r) else .next s

/-- Slot frames between pacing reads (R382). -/
def scrubP (periodH : Nat) : Nat := periodH * 3600 * 390625 / 23592960

/-- A pacing read is due in the present slot frame (R382). -/
def scrubDue (s : State) : Bool :=
  let c := s.mem.scrub
  c.enable && decide (max (c.lastFrame + scrubP c.periodH) c.dueFloor ≤ s.slotFrame)

/-- The number, since release, of the position that starts or runs at present. -/
def posNow (s : State) : Nat := s.memCycle / 2

/-- What the slot engine serves in one channel at a position that starts at MEM cycle `p` (R30, R32, R33), of the requests
visible by then: the owner's first one, else the first best-effort one. A position of class 0x3F has no other owner. -/
def pickRequest (t : Tab Nat) (cls ch p : Nat) (q : List SlotReq) : Option SlotReq :=
  let here := q.filter (fun r => lineChan r.line == ch && decide (r.at_ ≤ p))
  match here.find? (fun r => r.cls == cls && cls != 0x3F) with
  | some r => some r
  | none => here.find? (fun r => bestEffort t r.cls)

/-- R383: one queued write-back, or one line found uncorrectable stored as poison, in channel `ch`. -/
def writeBackOne (s : State) (ch : Nat) : Option State :=
  let c := s.memChan ch
  match c.wb, c.toPoison with
  | (line, data) :: r, _ =>
    some (storeLine (s.setMemChan ch { c with wb := r, wbDone := sat32 c.wbDone }) line data [0, 0, 0, 0])
  | [], line :: r =>
    some (storeLine (s.setMemChan ch { c with toPoison := r }) line (s.readMem (64 * line) 64) poisonPattern)
  | [], [] => none

/-- A request writes its line. -/
def SlotReq.writes (r : SlotReq) : Bool :=
  match r.op with
  | .read _ => false
  | .write .. => true
  | .engine w _ => w

/-- The symbol line of a line comes to the front of its channel's cache of 1,024 (R373): 16 consecutive lines of a channel share it,
a write changes it, and the one used longest ago leaves (notes/assumptions/134.md). -/
def touchSymbols (s : State) (line : Nat) (write : Bool) : State :=
  let c := s.memChan (lineChan line)
  let n := lineIndex line / 16
  let dirty := write || c.sym.any (fun e => e.1 == n && e.2)
  s.setMemChan (lineChan line) { c with sym := ((n, dirty) :: c.sym.filter (fun e => e.1 != n)).take 1024 }

/-- Serve channel `ch` at a position owned by `cls`. -/
def serveChannel (t : Tab Nat) (cls : Nat) (s : State) (ch : Nat) : State :=
  let go (s : State) : State :=
    match pickRequest t cls ch (2 * posNow s) s.slots.queue with
    | none => s
    | some r =>
      let s := touchSymbols s r.line r.writes
      { s with slots := { s.slots with
        queue := s.slots.queue.erase r, flight := s.slots.flight ++ [⟨r, 2 * posNow s + 94⟩] } }
  if cls = 0x32 then
    match writeBackOne s ch with
    | some s' => s'
    | none => go s
  else go s

/-- SLOT_POSITION (R30, R36, R383): the position at the present MEM cycle starts, once. A refresh position serves
nothing; a scrub position with a pacing read due is left to it. -/
def execSlotPosition (s : State) : Host.Outcome State Fault Refusal :=
  if !memoryUp s || decide (posNow s < s.slots.started) then .next s
  else
    let t := scheduleNow s
    let cls := classAt t (posNow s % 2048)
    let s := { s with slots := { s.slots with
      sched := t, nextSched := s.slots.nextSched.filter (fun n => decide (s.slotFrame < n.2)) } }
    if cls = 0x32 ∧ scrubDue s = true then .next s
    else
      let s := { s with slots := { s.slots with started := posNow s + 1 } }
      if cls = 0x3E then .next s
      else .next ((List.range 32).foldl (serveChannel t cls) s)

/-- A write to a ring buffer has completed: a frame that waits for its buffer counts from then (R226). -/
def ringWritten (s : State) (n k : Nat) : State :=
  let c := s.ctx n
  s.setCtx n { c with closing := c.closing.map (fun x => if x.target = k then { x with at_ := s.ref } else x) }

/-- Carry out a request that its position served (R32, R375, R377). -/
def finishRequest (s : State) (r : SlotReq) : State :=
  match r.op with
  | .read control =>
    let (d, s) := readLine s r.line r.wide control
    s.emit (.burst r.identity (64 * r.line) d.data d.poison)
  | .write off data =>
    let (bad, s) := writeLine s r.line off data r.wide
    s.emit (.acked r.identity (64 * r.line + off) bad)
  | .engine true (.ring n k) => ringWritten s n k
  | .engine .. => s

/-- MEMORY_ACCESS_COMPLETE (R32): the oldest access in flight completes 94 MEM cycles after its position; `errs`
are the symbols of its line that hardware damaged since they were written, `parity` a parity error of the
transfer (R371). -/
def execMemoryAccessComplete (errs : List (Nat × Byte)) (parity : Bool) (s : State) :
    Host.Outcome State Fault Refusal :=
  match s.slots.flight with
  | [] => .next s
  | f :: rest =>
    if s.memCycle < f.doneAt then .next s
    else
      let s := { s with slots := { s.slots with flight := rest } }
      let ch := lineChan f.req.line
      let s := if parity then s.setMemChan ch { s.memChan ch with parity := sat32 (s.memChan ch).parity } else s
      .next (match f.req.op with
        | .read _ => finishRequest (errs.foldl (fun s e => damageSymbol s f.req.line e.1 e.2) s) f.req
        | _ => errs.foldl (fun s e => damageSymbol s f.req.line e.1 e.2) (finishRequest s f.req))

/-- SCRUB_PACING_READ (R382, R383): one row group is read and corrected; `errs` are symbols (channel, symbol,
value) that hardware damaged. -/
def scrubRead (s : State) (errs : List (Nat × Nat × Byte)) : State :=
  let pos := s.mem.scrub.passPos
  let s := (List.range 32).foldl (fun s ch =>
    let line := 32 * pos + ch
    let s := (errs.filter (fun e => e.1 == ch)).foldl (fun s e => damageSymbol s line e.2.1 e.2.2) s
    let (_, s') := readLine s line (wideAt s (64 * line)) false
    match decodeLine (lineUpset s line) (wideAt s (64 * line)) with
    | .uncorrectable _ =>
      let c := s'.memChan ch
      s'.setMemChan ch { c with toPoison := if c.toPoison.contains line then c.toPoison else c.toPoison ++ [line] }
    | _ => s') s
  let c := s.mem.scrub
  let last := pos + 1 = 23592960
  { s with
    mem := { s.mem with scrub := { c with
      passPos := if last then 0 else pos + 1, passes := if last then c.passes + 1 else c.passes,
      lastFrame := s.slotFrame, dueFloor := 0 } },
    slots := { s.slots with started := posNow s + 1 } }

def execScrubPacingRead (errs : List (Nat × Nat × Byte)) (s : State) : Host.Outcome State Fault Refusal :=
  if memoryUp s && scrubDue s && classAt (scheduleNow s) (posNow s % 2048) == 0x32 && decide (s.slots.started ≤ posNow s)
  then .next (scrubRead s errs) else .next s

/-! ### Host window B (R404, R380, R390) -/

/-- HWB_ACCESS: an access of the aperture under the identity of HB_HWB_IDENT. A read is answered by one
completion per line piece, with EP where a byte of it is poisoned or denied. -/
def hwbAccess (s : State) (offset : Nat) (op : MemOp) : State :=
  let addr := s.hwbBase + offset
  match op with
  | .read n =>
    let (l, s) := classPieces s 0x30 s.hwbIdent addr n
    l.foldl (fun s p => s.emit (.completion p.data (p.poison || p.denied))) s
  | .write d => (classWrite s 0x30 s.hwbIdent addr d).2

def execHwbAccess (offset : Nat) (op : MemOp) (s : State) : Host.Outcome State Fault Refusal :=
  let n := match op with | .read n => n | .write d => d.length
  if hostUp s && decide (offset + n ≤ 2 ^ 30) then .next (hwbAccess s offset op) else .next s

/-- HWB_BASE_WRITE (R404): [20:0] reserved; a base that puts the aperture past the last address is ignored. -/
def execHwbBaseWrite (value : BitVec 64) (s : State) : Host.Outcome State Fault Refusal :=
  let b := value.toNat / 2 ^ 21 * 2 ^ 21
  if hostUp s && decide (b + 2 ^ 30 ≤ memTop) then .next { s with hwbBase := b } else .next s

/-! ### Commands (R385, R395 to R397) -/

/-- R395: two ranges of pages meet. -/
def pagesMeet (a b : Region) : Bool := decide (a.base < b.base + b.pages) && decide (b.base < a.base + a.pages)

/-- R395: the fields of a region are within their ranges. -/
def regionFields (r : Region) : Bool :=
  decide (1 ≤ r.pages) && decide (r.base + r.pages ≤ 11796480) && decide (r.read < 2 ^ 20) && decide (r.write < 2 ^ 20)

/-- The region number that DYKE_RULE names; 0xFFFF asks for the lowest not defined in the staged table. -/
def dykeTarget (s : State) (region : Nat) : Option Nat :=
  if region = 0xFFFF then tfree s.mem.dyke.staged 256 else some region

def stageRules (s : State) (t : Tab Region) : State :=
  { s with mem := { s.mem with dyke := { s.mem.dyke with staged := t } } }

/-- A region is locked, or a DYKE_LOCK of it is in progress (R392; notes/assumptions/64.md). -/
def holdsRule (s : State) (n : Nat) : Bool := s.mem.dyke.locked.contains n || s.mem.dyke.syncs.any (fun j => j.lock == some n)

/-- DYKE_RULE (R395). -/
def cmdDykeRule (p : DykeRuleP) (s : State) : Reply :=
  match dykeTarget s p.region with
  | none => refuseFull s stLimit 11
  | some n =>
    if holdsRule s n then refuseFull s stLocked 11
    else if 255 < n then refuseFull s stBadParam 11
    else if p.delete then
      if thas s.mem.dyke.staged n then ok (stageRules s (tdel s.mem.dyke.staged n)) (leBytes 2 n)
      else refuseFull s stBadParam 11
    else if regionFields p.r && !(s.mem.dyke.staged.any (fun e => e.1 != n && pagesMeet e.2 p.r)) then
      ok (stageRules s (tset s.mem.dyke.staged n p.r)) (leBytes 2 n)
    else refuseFull s stBadParam 11

def execDykeRule (c : Caller) (p : DykeRuleP) (s : State) : Host.Outcome State Fault Refusal :=
  .next (command c 0x0C01 (cmdDykeRule p) s)

/-- Start a sync of the staged table (R391). -/
def startSync (s : State) (caller : Option Caller) (lock : Option Nat) : State :=
  { s with mem := { s.mem with dyke := { s.mem.dyke with
      syncs := s.mem.dyke.syncs ++ [⟨s.mem.dyke.staged, s.ref, caller, lock⟩] } } }

/-- DYKE_SYNC (R396): completes when the sync does. -/
def cmdDykeSync (c : Caller) (s : State) : Reply := ⟨startSync s (some c) none, stPending, []⟩

def execDykeSync (c : Caller) (s : State) : Host.Outcome State Fault Refusal :=
  .next (command c 0x0C02 (cmdDykeSync c) s)

/-- DYKE_LOCK (R392, R396). -/
def cmdDykeLock (c : Caller) (region : Nat) (s : State) : Reply :=
  if s.mem.dyke.locked.contains region then ok s
  else if thas s.mem.dyke.staged region then ⟨startSync s (some c) (some region), stPending, []⟩
  else refuse s stBadParam

def execDykeLock (c : Caller) (region : Nat) (s : State) : Host.Outcome State Fault Refusal :=
  .next (command c 0x0C03 (cmdDykeLock c region) s)

/-- R392: a locked region loses its DEBUG bits. -/
def clearDebug (r : Region) : Region :=
  { r with read := r.read - r.read / 2 ^ 16 % 2 * 2 ^ 16, write := r.write - r.write / 2 ^ 16 % 2 * 2 ^ 16 }

/-- Lock a region in the rule in force, which a region that is locked already keeps (R392, R396). -/
def lockRegion (d : Dyke) (n : Nat) : Dyke :=
  let f (t : Tab Region) : Tab Region := tmap (fun k r => if k = n then clearDebug r else r) t
  if d.locked.contains n then d
  else { d with force := f d.force, staged := f d.staged, locked := insertAsc d.locked n }

/-- A table of rules in which the locked regions keep the rules in force (R392). -/
def keepLocked (d : Dyke) (t : Tab Region) : Tab Region :=
  d.locked.foldl (fun t n => (tfind d.force n).elim t (tset t n)) t

/-- The syncs that wait behind one: the first of them starts now. -/
def laterSyncs (s : State) (j : SyncJob) : List SyncJob :=
  match s.mem.dyke.syncs.erase j with
  | [] => []
  | k :: r => { k with at_ := s.ref } :: r

/-- A sync ends without effect. -/
def dropSync (s : State) (j : SyncJob) : State :=
  { s with mem := { s.mem with dyke := { s.mem.dyke with syncs := laterSyncs s j } } }

/-- A sync takes effect: its rules come into force, and its region is locked (R391, R392). -/
def applySync (s : State) (j : SyncJob) : State :=
  let d : Dyke := { s.mem.dyke with force := keepLocked s.mem.dyke j.rules, syncs := laterSyncs s j }
  let d := match j.lock with
    | some n => lockRegion d n
    | none => d
  { s with mem := { s.mem with dyke := d } }

/-- The code of the command that asked for a sync. -/
def syncCode (j : SyncJob) : Nat := if j.lock.isSome then 0x0C03 else 0x0C02

/-- The oldest sync completes, and with it the command that asked for it; one past its command's bound is undone (R391, R432). -/
def completeSync (s : State) : State :=
  match s.mem.dyke.syncs with
  | [] => s
  | j :: _ =>
    let cycles := min 2048 (ceilDiv (s.ref - j.at_) coreT)
    match j.caller with
    | some c =>
      if overdue s c (syncCode j) then faultRunning (dropSync s j) c (syncCode j)
      else finishRunning (applySync s j) c (syncCode j) stOk (if j.lock.isSome then [] else leBytes 4 cycles)
    | none => applySync s j

/-- DYKE_SYNC_COMPLETE. -/
def execDykeSyncComplete (s : State) : Host.Outcome State Fault Refusal := .next (completeSync s)

/-- The `n` oldest syncs complete, in order (R391). -/
def completeSyncs : Nat → State → State
  | 0, s => s
  | n + 1, s => completeSyncs n (completeSync s)

/-- How many syncs end with the last one that a bed started. -/
def syncsOfBeds (l : List SyncJob) : Nat := l.length - (l.reverse.takeWhile (fun j => j.caller.isSome || j.lock.isSome)).length

/-- The counters of a channel as MEM_ERR_QUERY lays them out (R397). -/
def chanBlock (l : List MemChan) (addr synd : Nat) : List Byte :=
  let f (g : MemChan → Nat) : List Byte := leBytes 4 (min (2 ^ 32 - 1) (sumNat (l.map g)))
  f (·.corrected) ++ f (·.wideCorrected) ++ f (·.uncorrData) ++ f (·.uncorrControl) ++ f (·.poisonRead) ++
    f (·.wbDone) ++ f (·.wbDropped) ++ f (·.parity) ++ leBytes 8 addr ++ leBytes 4 synd ++ zeros 4

/-- A fault record as MEM_ERR_QUERY lays it out (R397). -/
def faultBlock : Option DykeFaultRec → List Byte
  | none => [0#8, 0#8, 0xFF#8, 0xFF#8] ++ zeros 28
  | some r => [byte r.master, byte (b2n r.write)] ++ leBytes 2 r.region ++ leBytes 4 r.deniedBytes ++
      leBytes 8 r.firstAddr ++ leBytes 4 r.count ++ leBytes 4 r.tide ++ zeros 8

/-- MEM_ERR_QUERY (R397). -/
def cmdMemErrQuery (p : KindIndexP) (s : State) : Reply :=
  if p.kind = 0 then
    if p.index < 32 then
      let c := s.memChan p.index
      ok s (chanBlock [c] c.lastAddr c.lastSynd)
    else if p.index = 0xFF then
      ok s (chanBlock ((List.range 32).map s.memChan) s.mem.lastAddr s.mem.lastSynd)
    else refuse s stBadParam
  else if p.kind = 1 ∧ p.index < 16 then ok s (faultBlock s.mem.dyke.log[p.index]?)
  else refuse s stBadParam

def execMemErrQuery (c : Caller) (p : KindIndexP) (s : State) : Host.Outcome State Fault Refusal :=
  .next (command c 0x0C04 (cmdMemErrQuery p) s)

/-- SCRUB_SET (R385, R382). -/
def cmdScrubSet (p : ScrubSetP) (s : State) : Reply :=
  if p.periodH < 1 ∨ 168 < p.periodH then refuse s stBadParam
  else if p.enable && ownedPositions (scheduleNow s) 0x32 == 0 then refuse s stBudget
  else
    let c := s.mem.scrub
    let starts := p.enable && !c.enable
    let due := c.lastFrame + scrubP p.periodH
    let c' := { c with
      enable := p.enable, periodH := p.periodH, lastFrame := if starts then s.slotFrame else c.lastFrame,
      dueFloor := if !starts && decide (due < s.slotFrame) then s.slotFrame + 1 else 0 }
    ok { s with mem := { s.mem with scrub := c' } }
      (leBytes 2 (scrubP p.periodH) ++ zeros 2 ++ leBytes 4 c.passPos ++ leBytes 4 c.passes)

def execScrubSet (c : Caller) (p : ScrubSetP) (s : State) : Host.Outcome State Fault Refusal :=
  .next (command c 0x0C05 (cmdScrubSet p) s)

end Sys2Proof.Machine
end

