-- ==== Sys2Proof/Machine/Verdict.lean ====
section
/-! DEFINITION. The judgement of a window span: age, causes, verdict, span word, and the vote (spec/02 R53, R54, R63,
R64; spec/03 R79 to R83). -/

namespace Sys2Proof.Machine

/-- Age of a record that has no capture time, and the greatest age (R54). -/
def ageMax : Nat := 2 ^ 48 - 1

/-- Whole nanoseconds of a time (R53). -/
def wholeNs (t : Ticks) : Nat := t / nsT

/-- Age in nanoseconds of a capture time at a wire time (R54). -/
def spanAge (wireNs capS capNs : Nat) : Nat :=
  if capS = 0 ∧ capNs = 0 then ageMax else min ageMax (wireNs - (capS * 1000000000 + capNs))

/-- What a channel is told of a span (R78): the record of the buffer shown, `none` when the slot took no buffer
(R116; notes/assumptions/21.md), whether its read was poison (R379), the state of the context, the policy, the
wire time, and whether the fence vector holds the window. -/
structure SpanInput where
  record : Option FreshRecord
  recordPoison : Bool
  never : Bool
  closed : Bool
  isolated : Bool
  pol : Policy
  wireNs : Nat
  fenced : Bool
  deriving DecidableEq, Repr

def inputAge (i : SpanInput) : Nat :=
  match i.record with
  | none => ageMax
  | some r => if i.recordPoison then ageMax else spanAge i.wireNs r.capS r.capNs

/-- A cause bit when its condition holds. -/
def causeIf (c : Bool) (bit : Nat) : Nat := if c then 1 <<< bit else 0

/-- Causes that the buffer shown brings with its record, its age and its runs (R79). -/
def recordCauses (i : SpanInput) (r : FreshRecord) : Nat :=
  r.causes % 128 ||| causeIf i.recordPoison 2 ||| causeIf (decide (i.pol.budgetUs * 1000 < inputAge i)) 7 |||
    causeIf (decide (i.pol.frozenRepeat ≤ r.aliveRun)) 8 |||
    causeIf (i.pol.expectMotion && decide (i.pol.frozenRepeat ≤ r.contentRun)) 9 |||
    causeIf (decide (r.goodRun < i.pol.recover)) 15

/-- The cause mask of a span (R79). -/
def spanCauses (i : SpanInput) : Nat :=
  (match i.record with | none => 0 | some r => recordCauses i r) |||
    causeIf i.never 10 ||| causeIf i.closed 11 ||| causeIf i.isolated 12 ||| causeIf i.fenced 13

/-- Verdict that each cause bit gives (R63). -/
def causeVerdicts : List Nat := [1, 1, 1, 1, 1, 2, 2, 3, 4, 4, 5, 5, 5, 3, 3, 2]

/-- The highest verdict that the causes give (R64). -/
def verdictOf (causes : Nat) : Nat :=
  maxNat ((List.range 16).map (fun i => if causes.testBit i then nth 0 causeVerdicts i else 0))

/-- A span word (R81). -/
structure SpanWord where
  causes : Nat
  window : Nat
  verdict : Nat
  deriving DecidableEq, Repr

def packWord (w : SpanWord) : Nat := w.causes * 65536 + w.window * 16 + w.verdict

def unpackWord (n : Nat) : SpanWord := ⟨field n 16 16, field n 4 9, field n 0 3⟩

/-- The word that a sound channel gives for a span (R79, R80). -/
def channelWord (i : SpanInput) (window : Nat) : SpanWord :=
  let c := spanCauses i
  ⟨c, window, verdictOf c⟩

/-- Two words agree: they are equal and their verdict is 0 to 5 (R82). -/
def wordsAgree (a b : Nat) : Bool := a == b && decide ((unpackWord a).verdict ≤ 5)

/-- The word used without a majority (R82): the highest verdict, at least 3 and never a reserved code (R64), and
the OR of the causes with bit 14. -/
def noMajorityWord (window : Nat) (l : List Nat) : SpanWord :=
  let ws := l.map unpackWord
  ⟨(ws.foldl (fun m w => m ||| w.causes) 0) ||| 1 <<< 14, window, min 5 (max 3 (maxNat (ws.map (·.verdict))))⟩

/-- What the voter gives for a span: the word used, and the channels (by number) in the minority. -/
structure Vote where
  word : SpanWord
  majority : Bool
  minority : List Nat
  deriving DecidableEq, Repr

/-- R82: the vote over the words of the participating channels, listed with their channel numbers. -/
def voteWords (window : Nat) (l : List (Nat × Nat)) : Vote :=
  match l with
  | [(ca, a), (cb, b), (cc, c)] =>
    if wordsAgree a b then ⟨unpackWord a, true, if a = c then [] else [cc]⟩
    else if wordsAgree a c then ⟨unpackWord a, true, [cb]⟩
    else if wordsAgree b c then ⟨unpackWord b, true, [ca]⟩
    else ⟨noMajorityWord window [a, b, c], false, []⟩
  | [(_, a), (_, b)] =>
    if wordsAgree a b then ⟨unpackWord a, true, []⟩ else ⟨noMajorityWord window [a, b], false, []⟩
  | l => ⟨noMajorityWord window (l.map (·.2)), false, []⟩

/-- R83: the vote over the fence vectors of the participating channels. -/
def voteFence (l : List (Nat × BitVec 17)) : BitVec 17 × List Nat :=
  match l with
  | [(ca, a), (cb, b), (cc, c)] =>
    let m := (a &&& b) ||| (a &&& c) ||| (b &&& c)
    (m, (if a = m then [] else [ca]) ++ (if b = m then [] else [cb]) ++ (if c = m then [] else [cc]))
  | [(_, a), (_, b)] => (a ||| b, [])
  | _ => (BitVec.allOnes 17, [])

end Sys2Proof.Machine
end

