-- ==== Sys2Proof/Machine/Operands.lean ====
section
/-! DEFINITION. The operand forms that commands share: buffer formats and extents (R118, R119), head timings (R141,
R142), places, windows and their parts (R133, R134), crops (R122 to R127), contexts and pins, fetch demand (R34),
and what a skim names (R457). -/

namespace Sys2Proof.Machine

/-! ### Buffer formats (R118, R119) -/

def fmtDefined (f : Nat) : Bool := (decide (1 ≤ f) && decide (f ≤ 8)) || (decide (0x10 ≤ f) && decide (f ≤ 0x13))
def fmtTwoPlane (f : Nat) : Bool := decide (1 ≤ f) && decide (f ≤ 4)
def fmt420 (f : Nat) : Bool := f == 1 || f == 2
def fmt422 (f : Nat) : Bool := f == 3 || f == 4
/-- YCbCr formats. -/
def fmtYcc (f : Nat) : Bool := decide (1 ≤ f) && decide (f ≤ 6)

/-- Bytes of one sample of plane 0 (R119). -/
def fmtBytes (f : Nat) : Nat :=
  if f = 1 ∨ f = 3 ∨ f = 0x13 then 1 else if f = 2 ∨ f = 4 ∨ f = 0x12 then 2 else 4

/-- R118: formats that a layer accepts; layer codes 0 to 7 are video, 8 to 11 graphic. -/
def layerAccepts (layer f : Nat) : Bool :=
  if layer < 8 then fmtDefined f && f != 0x12 && f != 0x13
  else f == 7 || f == 8 || f == 0x10 || f == 0x11 || f == 0x12 || f == 0x13

/-- Lines of plane 1. -/
def plane1Lines (f h : Nat) : Nat := if fmt420 f then ceilDiv h 2 else h

/-- Extent of a buffer (R119). -/
def bufExtent (f h plane1 stride0 stride1 : Nat) : Nat :=
  if fmtTwoPlane f then plane1 + stride1 * plane1Lines f h else stride0 * h

/-- R119: base, planes, strides and pitch of a ring of buffers. -/
def ringLayoutOk (f w h base pitch plane1 stride0 stride1 : Nat) : Bool :=
  base % 256 == 0 && pitch % 256 == 0 && stride0 % 64 == 0 && decide (w * fmtBytes f ≤ stride0) &&
    (if fmtTwoPlane f then
      plane1 % 256 == 0 && stride1 % 64 == 0 && decide (stride0 * h ≤ plane1) &&
        decide (ceilDiv w 2 * 2 * fmtBytes f ≤ stride1)
     else plane1 == 0 && stride1 == 0) &&
    decide (bufExtent f h plane1 stride0 stride1 ≤ pitch)

/-! ### Timings (R141, R142) -/

def htotal (t : Timing) : Nat := t.hactive + t.hfp + t.hsync + t.hbp
def vtotalNom (t : Timing) : Nat := t.vactive + t.vfpNom + t.vsync + t.vbp

/-- Pixel rate times DEN, in pixels per second (R142). -/
def rateNum (t : Timing) (num : Nat) : Nat := htotal t * vtotalNom t * t.mult * num

/-- Duration of `px` pixels of a timing in ticks, exactly `px × 24·10^9 × DEN / rateNum`, rounded down. -/
def pixelsT (t : Timing) (num den px : Nat) : Ticks :=
  if rateNum t num = 0 then 0 else px * secT * den / rateNum t num

/-- Duration of lines. -/
def linesT (t : Timing) (num den lines : Nat) : Ticks := pixelsT t num den (lines * htotal t)

/-- The timing of a head in force. -/
def timingOf (h : Head) : Option Timing := h.force.timing

/-! ### Rectangles, places and windows (R133, R134) -/

/-- A rectangle from (x0, y0) to (x1 - 1, y1 - 1). -/
structure Rect where
  x0 : Nat
  y0 : Nat
  x1 : Nat
  y1 : Nat
  deriving DecidableEq, Repr

def winRect (g : WinGeom) : Rect := ⟨g.x, g.y, g.x + g.w, g.y + g.h⟩

/-- Place of a head by a bank: its active area in the wall (R133). -/
def placeRect (b : Bank) : Option Rect :=
  match b.place, b.timing with
  | some (x, y), some t => some ⟨x, y, x + t.hactive, y + t.vactive⟩
  | _, _ => none

/-- The intersection of two rectangles, when it holds a pixel. -/
def rectMeet (a b : Rect) : Option Rect :=
  let r : Rect := ⟨max a.x0 b.x0, max a.y0 b.y0, min a.x1 b.x1, min a.y1 b.y1⟩
  if r.x0 < r.x1 ∧ r.y0 < r.y1 then some r else none

/-- The part of a window that a head with this bank shows, in wall pixels (R134). -/
def winPart (b : Bank) (g : WinGeom) : Option Rect := (placeRect b).bind (rectMeet (winRect g))

def winMeets (b : Bank) (g : WinGeom) : Bool := (winPart b g).isSome

/-- Heads whose shadow a window meets. -/
def metHeads (s : State) (g : WinGeom) : List Nat :=
  (s.heads.filter (fun e => winMeets e.2.shadow g)).map (·.1)

/-! ### Crops (R122, R126, R127) -/

/-- A crop as a layer uses it, after any pre-decimation. -/
structure Crop where
  x : Nat
  y : Nat
  w : Nat
  h : Nat
  dec : Bool
  deriving DecidableEq, Repr

/-- R126: a crop fits the line buffer. -/
def lineBufFits (w h winH : Nat) : Bool := decide (w ≤ 4096) || (decide (w ≤ 7680) && h == winH)

/-- The crop of a window on a context of a size: SRC_W and SRC_H of 0 run to the edge (R137), and a video layer
that does not fit and may be decimated counts half as wide (R127). -/
def cropOf (d : WinDef) (width height : Nat) : Crop :=
  let w := if d.l.srcW = 0 then width - d.l.srcX else d.l.srcW
  let h := if d.l.srcH = 0 then height - d.l.srcY else d.l.srcH
  let dec := d.l.decimateOk && decide (d.g.layer < 8) && !lineBufFits w h d.g.h
  ⟨d.l.srcX, d.l.srcY, if dec then w / 2 else w, h, dec⟩

/-- Check 2 of R140: the crop lies within the buffer and meets the evenness rules. -/
def cropInside (d : WinDef) (f width height : Nat) : Bool :=
  let c := cropOf d width height
  let w := if c.dec then 2 * c.w else c.w
  let m := if c.dec then (if fmt420 f || fmt422 f then 4 else 2) else (if fmt420 f || fmt422 f then 2 else 1)
  let full := if d.l.srcW = 0 then width - d.l.srcX else d.l.srcW
  decide (1 ≤ w) && decide (1 ≤ c.h) && decide (c.x + full ≤ width) && decide (c.y + c.h ≤ height) &&
    c.x % m == 0 && full % m == 0 && (!fmt420 f || (c.y % 2 == 0 && c.h % 2 == 0))

/-- Check 3 of R140: the ratios of R122. -/
def ratiosOk (d : WinDef) (width height : Nat) : Bool :=
  let c := cropOf d width height
  if d.g.layer < 8 then
    decide (c.w ≤ 8 * d.g.w) && decide (d.g.w ≤ 16 * c.w) && decide (c.h ≤ 8 * d.g.h) && decide (d.g.h ≤ 16 * c.h)
  else c.w == d.g.w && c.h == d.g.h

/-- Check 4 of R140: the crop fits, after any pre-decimation. -/
def cropFits (d : WinDef) (width height : Nat) : Bool :=
  let c := cropOf d width height
  decide (8 ≤ d.g.layer) || lineBufFits c.w c.h d.g.h

/-! ### Contexts, openings and pins (R115, R206, R207) -/

/-- The open context of a number. -/
def openCtx (s : State) (n : Nat) : Option Ctx :=
  if (s.ctx n).state = .opened then some (s.ctx n) else none

/-- Buffers of a context: its ring, or its pool when it is CODED (R203, R253). -/
def bufCount (c : Ctx) : Nat :=
  if c.p.type = 1 then (c.attach.elim 0 (·.pool)) else c.p.ring

/-- Master identities (R387). -/
def idIngest : Nat := 9
def idDecoder : Nat := 10
def idEncoder : Nat := 11
def idPan : Nat := 12
def idCrys : Nat := 13
def idCheck : Nat := 14
def idWarden : Nat := 15

def Ctx.buf (c : Ctx) (k : Nat) : Buf := tget {} c.bufs k
def Ctx.setBuf (c : Ctx) (k : Nat) (b : Buf) : Ctx := { c with bufs := tset c.bufs k b }

/-- Device address of buffer `k` of a context: of its ring, or of its pool (R203, R253). -/
def bufAddr (c : Ctx) (k : Nat) : Nat :=
  if c.p.type = 1 then (c.attach.elim 0 (fun a => a.poolBase + k * a.poolPitch)) else c.p.base + k * c.p.pitch

/-- Method of a context with the type's default put in (R39): 4 HOST. -/
def methodOf (p : CtxParams) : Nat :=
  if p.method = 0xF then (if p.type = 2 then 3 else 0) else p.method

def isHost (p : CtxParams) : Bool := p.type == 0 && methodOf p == 4

/-- Buffers of an opening that layer slots pin (R115). -/
def slotPins (s : State) (ctx opening : Nat) : List Nat :=
  s.heads.flatMap (fun e => ((e.2.taken ++ e.2.kept).filter (fun t => t.2.ctx == ctx && t.2.opening == opening)).map (·.2.buf))

/-- Buffers that something besides a layer slot holds: an encode converter until it has read the buffer (R263), or a mirror
that waits to leave or is leaving (R361). -/
def otherPins (s : State) (ctx : Nat) : List Nat :=
  (s.encs.filter (fun e => e.2.p.tapContext && e.2.p.source == ctx)).flatMap (fun e =>
    (e.2.capture.bind (·.pinned)).toList) ++
  (s.wels.flatMap (fun e => (e.2.mirrors.filter (fun m => m.context == ctx && m.originDevice == s.ring.device)).flatMap (fun m => m.waiting.toList)))

/-- A buffer is pinned (R115). -/
def pinned (s : State) (ctx buf : Nat) : Bool :=
  (slotPins s ctx (s.ctx ctx).opening).contains buf || (otherPins s ctx).contains buf

/-- A closed context whose buffers no slot pins becomes free (R206). -/
def releaseContext (s : State) (n : Nat) : State :=
  let c := s.ctx n
  if c.state = .awaiting ∧ slotPins s n c.opening = [] then
    s.setCtx n { ({} : Ctx) with opening := c.opening }
  else s

def releaseContexts (s : State) : State := (s.ctxs.map (·.1)).foldl releaseContext s

/-! ### Windows in shadows and in force -/

/-- A window number whose deletion has not yet applied on every head that shows it (R136). -/
def winAwaiting (s : State) (w : Nat) : Bool :=
  !thas s.wins w && s.heads.any (fun e =>
    e.2.force.slots.any (fun x => x.win == w) || e.2.armed.any (fun a => a.bank.slots.any (fun x => x.win == w)))

/-- Take a detector for a context when a channel is free: the lowest (notes/assumptions/22.md). -/
def takeDetector (s : State) (ctx : Nat) : Option State :=
  match detectorOf s ctx with
  | some _ => some s
  | none => (tfree s.checks 256).map (fun n =>
      let s := s.setCheck n { use := 1, object := ctx }
      s.setCtx ctx { s.ctx ctx with contentFirst := true })

/-! ### Fetch demand (R34 check 5, R35; notes/assumptions/23.md) -/

/-- Bytes that one line of a window's part fetches: visible width by the horizontal ratio, source lines per output
line rounded up, plane 1 included. -/
def lineBytes (d : WinDef) (p : CtxParams) (part : Rect) : Nat :=
  let c := cropOf d p.width p.height
  let sw := if c.dec then 2 * c.w else c.w
  let vis := part.x1 - part.x0
  let cols := if d.g.layer < 8 then ceilDiv (vis * sw) d.g.w else vis
  let lines := if d.g.layer < 8 then ceilDiv c.h d.g.h else 1
  cols * fmtBytes p.format * lines +
    (if fmtTwoPlane p.format then
      ceilDiv cols 2 * 2 * fmtBytes p.format * (if fmt420 p.format then ceilDiv lines 2 else lines) else 0)

/-- The parts of the shadow's windows on a head, with the bytes that a line of each fetches. -/
def demandRows (s : State) (b : Bank) : List (Nat × Nat × Nat) :=
  s.wins.filterMap (fun e =>
    match winPart b e.2.g, e.2.g.context.bind (openCtx s) with
    | some part, some c => some (part.y0, part.y1, lineBytes e.2 c.p part)
    | _, _ => none)

/-- Bytes of the head's most demanding line. -/
def peakBytes (rows : List (Nat × Nat × Nat)) : Nat :=
  maxNat (rows.map (fun r => sumNat ((rows.filter (fun q => decide (q.1 ≤ r.1) && decide (r.1 < q.2.1))).map (·.2.2))))

/-- Fetch demand of a head's shadow in bytes per second, times DEN. -/
def headDemand (s : State) (b : Bank) : Nat :=
  match b.timing with
  | some t => peakBytes (demandRows s b) * (vtotalNom t * t.mult * s.tide.num)
  | none => 0

/-- The supply of a class in bytes per second, times DEN: 800 MB/s for each position it owns (R27). -/
def classSupply (s : State) (cls : Nat) : Nat := ownedPositions (scheduleNow s) cls * 800000000 * s.tide.den

/-- R35: a change from `s` to `s'` does not raise the demand of a head with a pan above its supply. -/
def demandOk (s s' : State) : Bool :=
  s'.heads.all (fun e => e.2.pan.isNone ||
    decide (headDemand s' e.2.shadow ≤ headDemand s (s.head e.1).shadow) ||
      decide (headDemand s' e.2.shadow ≤ classSupply s' e.1))

/-! ### What a skim names (R457) -/

/-- Skims whose apply is scheduled or held. -/
def liveSkims (s : State) : List Skim := s.cfg.applies.filterMap (fun a => tfind s.cfg.skims a.skim)

/-- The window that an image record names, by its code and FUNC. -/
def recordWindow (r : ImageRec) : Option Nat :=
  let func := leAt r.params 0 1
  if r.code = 0x0401 ∧ func < 2 then some (leAt r.params 2 2)
  else if r.code = 0x0402 then some (leAt r.params 2 2)
  else if r.code = 0x0405 ∧ func ≠ 1 then some (leAt r.params 2 2)
  else none

def skimNamesWindow (s : State) (w : Nat) : Bool :=
  (liveSkims s).any (fun k => k.records.any (fun r => recordWindow r == some w))

def skimNamesHead (s : State) (h : Nat) : Bool :=
  (liveSkims s).any (fun k => k.records.any (fun r => r.code == 0x0404 && leAt r.params 0 1 == h))

/-- A skim record binds a context: WINDOW_DEFINE with FUNC = 0. -/
def skimBindsContext (s : State) (c : Nat) : Bool :=
  (liveSkims s).any (fun k => k.records.any (fun r =>
    r.code == 0x0401 && leAt r.params 0 1 == 0 && leAt r.params 6 2 == c))

/-! ### Twins (R161, R162) -/

/-- The other head of a twinned pair. -/
def partner (h : Nat) : Nat := if h % 2 = 0 then h + 1 else h - 1

/-- The heads that a command naming head `h` acts on. -/
def withTwin (s : State) (h : Nat) : List Nat :=
  if (s.head h).twin then (if h % 2 = 0 then [h, h + 1] else [h - 1, h]) else [h]

/-- Heads of a pan. -/
def panHeads (s : State) (p : Nat) : List Nat := (s.heads.filter (fun e => e.2.pan == some p)).map (·.1)

/-- Change heads. -/
def modHeads (s : State) (l : List Nat) (f : Nat → Head → Head) : State :=
  l.foldl (fun s h => s.setHead h (f h (s.head h))) s

end Sys2Proof.Machine
end

