-- ==== Sys2Proof/Machine/EncodeLoad.lean ====
section
/-! DEFINITION. Geometry and load of encode contexts (spec/09 R256, R260, R261, R267, R277), as ENCODE_OPEN and HEAD_SET_TIMING
check them (R279, R280). -/

namespace Sys2Proof.Machine

/-- The picture that a tap gives: width and height. A head counts with a timing. -/
def tapSize (s : State) (p : EncParams) (t : Option Timing) : Option (Nat × Nat) :=
  if p.tapContext then (openCtx s p.source).map (fun c => (c.p.width, c.p.height))
  else t.map (fun t => (if p.twinBoth then 2 * t.hactive else t.hactive, t.vactive))

/-- The timing that a head tap's shadow holds. -/
def tapTiming (s : State) (p : EncParams) : Option Timing := (s.head p.source).shadow.timing

/-- The crop; a width or height of 0 means the whole picture (R278). -/
def encCropSize (p : EncParams) (w h : Nat) : Nat × Nat :=
  (if p.srcW = 0 then w else p.srcW, if p.srcH = 0 then h else p.srcH)

/-- The size before rotation (R260). -/
def preSize (p : EncParams) : Nat × Nat := if p.rotate % 2 = 0 then (p.outW, p.outH) else (p.outH, p.outW)

/-- The crop lies in the picture, and each ratio lies from 1/4 to 2 (R260). -/
def encGeometry (p : EncParams) (size : Nat × Nat) : Bool :=
  let (cw, ch) := encCropSize p size.1 size.2
  let (ow, oh) := preSize p
  decide (1 ≤ cw) && decide (1 ≤ ch) && decide (p.srcX + cw ≤ size.1) && decide (p.srcY + ch ≤ size.2) &&
    decide (cw ≤ 4 * ow) && decide (ow ≤ 2 * cw) && decide (ch ≤ 4 * oh) && decide (oh ≤ 2 * ch)

/-- CTUs in a row, CTU rows, CTUs, slices (R256). -/
def ctuCols (p : EncParams) : Nat := ceilDiv p.outW 64
def ctuRows (p : EncParams) : Nat := ceilDiv p.outH 64
def ctus (p : EncParams) : Nat := ctuCols p * ctuRows p
def sliceCount (p : EncParams) : Nat := ceilDiv (ctuRows p) (max 1 p.sliceRows)

/-- R263: row-wise contexts have a head tap and no rotation. -/
def rowWise (p : EncParams) : Bool := !p.tapContext && p.rotate == 0

/-- Frames per second, as a fraction (R142, R267). -/
def encFps (s : State) (p : EncParams) (t : Option Timing) : Nat × Nat :=
  let m := if p.tapContext then 1 else t.elim 1 (·.mult)
  (s.tide.num * m, s.tide.den * max 1 p.frameDiv)

/-- Nanoseconds of the active lines of a timing, rounded up. -/
def activeNs (s : State) (t : Timing) : Nat :=
  let px := htotal t * t.vactive
  if rateNum t s.tide.num = 0 then 0 else ceilDiv (px * 1000000000 * s.tide.den) (rateNum t s.tide.num)

/-- The charge of a frame in CORE cycles (R267). -/
def encCharge (s : State) (p : EncParams) (t : Option Timing) : Nat :=
  if rowWise p then t.elim 0 (activeNs s) + 4096 * ctuCols p + 3072 else 4096 * ctus p + 3072

/-- The contexts of an engine, with the timing that their head tap counts with. -/
def engineContexts (s : State) (e : Nat) : List (Nat × EncParams × Option Timing) :=
  (s.encs.filter (fun x => x.2.p.engine == e)).map (fun x => (x.1, x.2.p, tapTiming s x.2.p))

/-- A sum of fractions. -/
def addFrac (a b : Nat × Nat) : Nat × Nat := (a.1 * b.2 + b.1 * a.2, a.2 * b.2)

/-- R267: the load of an engine stays within 980,000,000 cycles per second. -/
def loadFits (s : State) (l : List (EncParams × Option Timing)) : Bool :=
  let f := (l.map (fun x =>
    let r := encFps s x.1 x.2
    (encCharge s x.1 x.2 * r.1, r.2))).foldl addFrac (0, 1)
  decide (f.1 ≤ 980000000 * f.2)

/-- Padded size of a frame of the input ring: w × h rounded up to multiples of 64 (R261). -/
def paddedSize (p : EncParams) : Nat × Nat :=
  let (w, h) := preSize p
  (ceilDiv w 64 * 64, ceilDiv h 64 * 64)

def sampleBytes (p : EncParams) : Nat := if p.main10 then 2 else 1

/-- I: bytes of a frame of the input ring (R261). -/
def inputFrame (p : EncParams) : Nat := sampleBytes p * (paddedSize p).1 * (paddedSize p).2 * 3 / 2

/-- Bytes per second that an encode class needs, within its supply (R277, R34 check 5). -/
def encDemandFits (s : State) (e : Nat) (l : List (EncParams × Option Timing)) : Bool :=
  let f := (l.map (fun x =>
    let r := encFps s x.1 x.2
    ((paddedSize x.1).1 * (paddedSize x.1).2 * (if x.1.main10 then 32 else 16) * r.1, r.2))).foldl addFrac (0, 1)
  decide (f.1 ≤ ownedPositions (scheduleNow s) (0x2C + e) * 800000000 * f.2)

/-- R280: an encode context taps head `h`, alone or as the second of a pair. -/
def tapped (p : EncParams) (h : Nat) : Bool := !p.tapContext && (p.source == h || (p.twinBoth && p.source + 1 == h))

/-- R280: a new timing of the heads `hs` breaks R260 or R267 for an encode context that taps one of them. -/
def timingBreaksTap (s : State) (hs : List Nat) (t : Timing) : Bool :=
  let hit (p : EncParams) : Bool := hs.any (tapped p)
  s.encs.any (fun e => hit e.2.p && !((tapSize s e.2.p (some t)).elim false (encGeometry e.2.p))) ||
    [0, 1].any (fun e =>
      (s.encs.any (fun x => x.2.p.engine == e && hit x.2.p)) &&
        !loadFits s ((engineContexts s e).map (fun x => (x.2.1, if hit x.2.1 then some t else x.2.2))))

end Sys2Proof.Machine
end

