-- ==== Sys2Proof/Machine/Crc.lean ====
section
/-! DEFINITION. The four CRC definitions of the device (spec/11 R304). -/

namespace Sys2Proof.Machine

/-- `k` shifts of a reflected register. -/
def crcShiftR (poly : Nat) : (k reg : Nat) → Nat
  | 0, reg => reg
  | k + 1, reg => crcShiftR poly k (if reg % 2 = 1 then (reg / 2) ^^^ poly else reg / 2)

/-- `k` shifts of a register of `w` bits, most significant bit first. -/
def crcShiftL (w poly : Nat) : (k reg : Nat) → Nat
  | 0, reg => reg
  | k + 1, reg =>
    crcShiftL w poly k (if reg.testBit (w - 1) then ((2 * reg) ^^^ poly) % 2 ^ w else (2 * reg) % 2 ^ w)

/-- Width in bits of the CRC of a polynomial code. -/
def crcWidth (code : Nat) : Nat := if code ≤ 1 then 32 else if code = 2 then 16 else 8

/-- The register of polynomial code 0 to 3 before the first byte. -/
def crcInit (code : Nat) : Nat := 2 ^ crcWidth code - 1

/-- The register takes one byte. -/
def crcStep (code reg : Nat) (b : Byte) : Nat :=
  if code = 0 then crcShiftR 0xEDB88320 8 (reg ^^^ b.toNat)
  else if code = 1 then crcShiftR 0x82F63B78 8 (reg ^^^ b.toNat)
  else if code = 2 then crcShiftL 16 0x1021 8 (reg ^^^ (b.toNat * 2 ^ 8))
  else crcShiftL 8 0x2F 8 (reg ^^^ b.toNat)

/-- What a register ends as. -/
def crcEnd (code reg : Nat) : Nat := reg ^^^ (if code = 2 then 0 else crcInit code)

/-- The CRC of polynomial code 0 to 3 over bytes. -/
def crc (code : Nat) (l : List Byte) : Nat := crcEnd code (l.foldl (crcStep code) (crcInit code))

end Sys2Proof.Machine
end

