-- ==== Sys2Proof/Machine/Grid.lean ====
section
/-! DEFINITION. Tide instants, anchors and the line grid of a head, in exact times on the PAN clock (spec/01 R18
to R22, spec/05 R141 to R148, R156). -/

namespace Sys2Proof.Machine

/-! ### Tide instants (R18, R19, R22) -/

/-- The first tick of the time base at or after tide instant `n` (R18). -/
def tideInst (num den n : Nat) : Nat := ceilDiv (n * den * secT) num

/-- The first instant at least half a period after the previous tide (R22, R547). -/
def rebaseIndex (s : State) : Nat :=
  let num := s.tide.num
  let den := s.tide.den
  ((2 * s.tide.lastAt * num + den * secT + (2 * den * secT - 1)) / ((2 * den * secT : Nat) : Int)).toNat

/-- Index of the instant at which the next tide falls. -/
def nextIndex (s : State) : Nat := if s.tide.rebaseArmed then rebaseIndex s else s.tide.index + 1

/-- PAN clock of the first PAN cycle at which the PAN time equals or passes tide instant `n` (R19): not before the step, when
one has passed the instant. -/
def tideNow (s : State) (n : Nat) : Int :=
  let inst := tideInst s.tide.num s.tide.den n
  let t := (s.now : Int) + panUp ((inst : Int) - s.pt)
  if inst ≤ s.pt then max t s.clk.steppedAt else t

/-- The tides known at present, numbered as they take effect, with their main-die times: past ones, the last one, and the next five. -/
def knownTides (s : State) : List (Nat × Rat) :=
  (s.tide.hist.zipIdx.map (fun e => (s.tide.taken - 1 - e.2, ((e.1 : Nat) : Rat)))).reverse ++ [(s.tide.taken, (s.tide.lastNow : Rat))] ++
    (List.range 5).map (fun i => (s.tide.taken + 1 + i, ((tideNow s (nextIndex s + i) : Int) : Rat)))

/-! ### The line grid (R141, R142) -/

/-- Ticks of one pixel (R142). -/
def pixelRat (s : State) (t : Timing) : Rat := ((secT * s.tide.den : Nat) : Rat) / ((rateNum t s.tide.num : Nat) : Rat)

/-- Ticks of one line. -/
def lineRat (s : State) (t : Timing) : Rat := ((htotal t : Nat) : Rat) * pixelRat s t

def natRat (n : Nat) : Rat := (n : Rat)

/-- An exact time has come. -/
def isDue (s : State) (t : Rat) : Bool := decide (t ≤ natRat s.now)

/-- The first PAN cycle at or after an exact time, as main-die ticks (R141). -/
def panCycle (t : Rat) : Ticks := (panUp t.ceil).toNat

/-- An anchor: its time, the number of its tide and its j (R146). -/
structure Anchor where
  at_ : Rat
  tide : Nat
  j : Nat
  deriving DecidableEq, Repr

/-- The anchors of the known tides from `since` on. -/
def anchors (s : State) (t : Timing) (since : Rat) : List Anchor :=
  let l := lineRat s t
  ((knownTides s).filter (fun x => decide (since ≤ x.2))).flatMap (fun x =>
    (List.range t.mult).map (fun j => ⟨x.2 + natRat (t.phaseLines + j * vtotalNom t) * l, x.1, j⟩))

/-- The earliest anchor that satisfies `p`. -/
def firstAnchor (p : Anchor → Bool) : List Anchor → Option Anchor
  | [] => none
  | a :: r => match firstAnchor p r with
    | none => if p a then some a else none
    | some b => if p a && decide (a.at_ ≤ b.at_) then some a else some b

/-- An anchor comes after the one that a head's last flip had as its own, in the order of tides and of j. -/
def laterAnchor (h : Head) (a : Anchor) : Bool := decide (h.ownTide < a.tide) || (a.tide == h.ownTide && decide (h.ownJ < a.j))

/-- The own anchor of the frame after a head's flip (R146): the first one strictly after the PAN cycle of that flip, and not the
anchor that the flip had as its own, which the limits of R147 or a step of the time base can leave behind
(notes/assumptions/115.md). -/
def ownAnchor (s : State) (t : Timing) (h : Head) : Option Anchor :=
  firstAnchor (fun a => decide (natRat (panCycle h.flipT) < a.at_) && laterAnchor h a) (anchors s t 0)

/-- Lines from the front-porch end to the flip (R141). -/
def backLines (t : Timing) : Nat := t.vsync + t.vbp

/-- The least vertical blanking, in lines. -/
def needLines (t : Timing) : Nat := t.vfpMin + t.vsync + t.vbp

/-- R147: the pixels by which a residue lengthens the last front-porch line. -/
def trimPixels (t : Timing) (vrr : Bool) (r : Rat) : Rat :=
  let ht := natRat (htotal t)
  let r := if vrr then r - ht * (((r / ht + 1 / 2).floor : Int) : Rat) else r
  if decide (-2 ≤ r) && decide (r ≤ 2) then 0 else max (-(ht / 4)) (min (ht / 4) r)

/-- A blanking that ends on anchor `a`: whole lines and a trim of less than one (R148). -/
def fixedEnd (s : State) (t : Timing) (base : Rat) (realign : Bool) (a : Anchor) : NextFlip :=
  let l := lineRat s t
  ⟨a.at_, a.at_, a.tide, a.j, ((a.at_ - natRat (backLines t) * l - base) / l).floor.toNat, realign⟩

/-- A front porch of `k` lines, trimmed onto the own anchor (R147). -/
def trimmedEnd (s : State) (t : Timing) (h : Head) (vrr : Bool) (k : Nat) : Option NextFlip :=
  (ownAnchor s t h).map (fun a =>
    let f := h.base + natRat (k + backLines t) * lineRat s t
    ⟨f + trimPixels t vrr ((a.at_ - f) / pixelRat s t) * pixelRat s t, a.at_, a.tide, a.j, k, false⟩)

/-! ### Groups of twinned heads (R162) -/

/-- The head whose grid a twinned pair runs: the even one. -/
def leadOf (s : State) (h : Nat) : Nat := if (s.head h).twin then h / 2 * 2 else h

/-- A head group uses variable blanking when each of its heads does (R156). A head without a sink leaves the timing of its twin
unchanged (R162). -/
def groupVrr (s : State) (h : Nat) : Bool :=
  (withTwin s h).all (fun i => (s.head i).vrrOn || (s.head i).link.sink.isNone) && (withTwin s h).any (fun i => (s.head i).vrrOn)

/-- What the blanking in progress of a head ends with, as far as it can be told now (R147, R148, R159, R165). A head
that uses variable blanking must first have ended its porch (R156). -/
def blankingEnd (s : State) (i : Nat) : Option NextFlip :=
  let h := s.head (leadOf s i)
  match h.gen, h.phase with
  | some t, .blanking =>
    (firstAnchor (fun a => a.j == 0 && decide (h.base + natRat (needLines t) * lineRat s t ≤ a.at_))
      (anchors s t 0)).map (fixedEnd s t h.base false)
  | some t, .porch =>
    match h.fixed with
    | some f =>
      (firstAnchor (fun a => decide (h.base + natRat (needLines t) * lineRat s t ≤ a.at_))
        (anchors s t (natRat f.since))).map (fixedEnd s t h.base f.realign)
    | none =>
      if h.porchVrr then (if h.porchEnded then trimmedEnd s t h true h.porchLines else none)
      else trimmedEnd s t h false t.vfpNom
  | _, _ => none

/-- Main-die time of a front-porch end, from the flip that follows it (R141). -/
def porchEndAt (s : State) (t : Timing) (n : NextFlip) : Rat := n.at_ - natRat (backLines t) * lineRat s t

/-- The PAN time at PAN clock `t`, which does not lie in the future (R17). -/
def tbAt (s : State) (t : Ticks) : Ticks :=
  ((s.pt : Int) - ((s.now - t : Nat) : Int) - if t < s.clk.steppedAt then s.clk.steppedBy else 0).toNat

end Sys2Proof.Machine
end

