-- ==== Sys2Proof/Machine/Links.lean ====
section
/-! DEFINITION. The operations of a display link: capacity (R177), candidates and training (R180, R181), the clamp of
equalization requests (R183), Adaptive-Sync (R184), and the state changes of R185. -/

namespace Sys2Proof.Machine

/-- Code of a head state (R168). -/
def stateCode : HeadState → Nat
  | .disabled => 0
  | .starting => 1
  | .running => 2
  | .modeChange => 3
  | .training => 4
  | .unplugged => 5
  | .linkFailed => 6

/-- A head changes its state. -/
def setState (s : State) (h : Nat) (st : HeadState) : State := s.setHead h { s.head h with st := st }

/-- A head changes its state as R185 gives, with its LINK_CHANGE event (R424). -/
def linkState (s : State) (h : Nat) (st : HeadState) : State :=
  let old := (s.head h).st
  if old = st then s
  else postFw (setState s h st) 0x14 1 none
    [byte h, byte (stateCode old), byte (stateCode st), byte (s.head h).link.reason]

/-- Mapped lanes of a head (R174). -/
def mappedLanes (l : Link) : Nat := if l.width = 0 then 1 else if l.width = 1 then 2 else 4

/-- Payload of one lane in bits per second, as a fraction (R171). -/
def lanePayload (c : Nat) : Nat × Nat :=
  nth (0, 1) [(1296000000, 1), (2160000000, 1), (4320000000, 1), (6480000000, 1), (320000000000, 33),
    (432000000000, 33), (640000000000, 33)] c

/-- R177: `n` lanes at rate code `c` carry a timing at tide rate `num / den`. -/
def carries (t : Timing) (num den n c : Nat) : Bool :=
  let p := lanePayload c
  decide (rateNum t num * 3 * (if t.depth then 10 else 8) * 1000 * p.2 ≤ 994 * n * p.1 * den)

/-- R180: the candidate list of a head's link, lanes descending, then rate ascending. -/
def candidates (s : State) (l : Link) (k : Sink) (t : Timing) : List (Nat × Nat) :=
  ([4, 2, 1].filter (fun n => decide (n ≤ mappedLanes l) && decide (n ≤ k.maxLanes))).flatMap (fun n =>
    ((List.range 7).filter (fun c => decide (c ≤ l.maxRate) && decide (c ≤ k.maxRate) && (decide (c < 4) || k.uhbr) &&
      carries t s.tide.num s.tide.den n c)).map (fun c => (n, c)))

/-- R184: the sink's refresh range covers a timing. -/
def rangeCovers (s : State) (k : Sink) (t : Timing) : Bool :=
  let lines (vfp : Nat) : Nat := t.vactive + vfp + t.vsync + t.vbp
  decide (k.fmin * htotal t * lines t.vfpMax * s.tide.den ≤ rateNum t s.tide.num * 100) &&
    decide (rateNum t s.tide.num * 100 ≤ k.fmax * htotal t * lines t.vfpMin * s.tide.den)

/-- Firmware sets the sink's timing-ignore mode while the head uses variable blanking on a link that is up (R184). -/
def setIgnore (s : State) (i : Nat) : State :=
  let h := s.head i
  let on := h.vrrOn && h.link.link == 2
  if on = h.link.ignoring then s
  else
    let s := s.setHead i { h with link := { h.link with ignoring := on } }
    if h.link.link = 2 then s.emit (.timingIgnore i on) else s

/-- R184: evaluate Adaptive-Sync support and whether the head uses variable blanking (R156). -/
def evalVrr (s : State) (i : Nat) : State :=
  let h := s.head i
  let cap := match h.link.sink, h.gen with
    | some k, some t => k.async && k.ignoreMsa && rangeCovers s k t
    | _, _ => false
  setIgnore (s.setHead i { h with link := { h.link with asyncCap := cap }, vrrOn := cap && (h.gen.elim false (·.vrrEn)) }) i

/-- The lane-side end of a training: the log entry of its clamps (R183). -/
def closeClamps (s : State) (i : Nat) : State :=
  let m := (s.head i).link.clampMask
  if m = 0 then s
  else
    let s := s.setHead i { s.head i with link := { (s.head i).link with clampMask := 0 } }
    raiseErr s 0x0032 i (m % 2 ^ 32) (m / 2 ^ 32)

/-- DPL number of lane `k` of a head (R173). -/
def dplOf (l : Link) (k : Nat) : Nat := 4 * l.quad + l.first + k

/-! ### Equalization (R182, R183) -/

/-- Where a lane starts, as EQ(i) packs it. -/
def startEq (e : DplEq) (uhbr : Bool) : Nat := if uhbr then 16 * e.startPreset else e.startSwing + 4 * e.startPre

/-- The allowed pairs not above a request, best last (R183). -/
def lvPairs (e : DplEq) (swing pre : Nat) : List (Nat × Nat) :=
  (List.range (swing + 1)).flatMap (fun a => ((List.range (pre + 1)).filter (fun b =>
    decide (a + b ≤ 3) && e.allowedLv.testBit (4 * a + b))).map (fun b => (a, b)))

/-- What a lane applies for a request, as EQ(i) packs it, and whether it clamped (R183). -/
def applyEq (e : DplEq) (uhbr : Bool) (r : EqRequest) : Nat × Bool :=
  if uhbr then
    if e.allowedPreset.testBit r.preset then (16 * r.preset, false) else (startEq e true, true)
  else
    match (lvPairs e r.swing r.pre).getLast? with
    | some (a, b) => (a + 4 * b, !(a == r.swing && b == r.pre))
    | none => (startEq e false, true)

/-- The standard's "maximum reached" flags of swing and pre-emphasis: the value applied is the largest that the table allows for
the lane (R183). -/
def maxReached (e : DplEq) (uhbr : Bool) (v : Nat) : Bool × Bool :=
  let l := lvPairs e 3 3
  (!uhbr && l.all (fun p => decide (p.1 ≤ v % 4)), !uhbr && l.all (fun p => decide (p.2 ≤ v / 4 % 4)))

/-- A lane of a head drives levels, which the sink is told with the flags. -/
def driveLane (s : State) (i k : Nat) (uhbr : Bool) (v : Nat) : State :=
  let h := s.head i
  let m := maxReached (tget {} s.dpl (dplOf h.link k)) uhbr v
  (s.setHead i { h with link := { h.link with eq := setNth h.link.eq k v } }).emit (.drive i k v (h.link.invert.testBit k) m.1 m.2)

/-- The lanes of the first candidate left start from their table's levels (R182). -/
def startLevels (s : State) (i : Nat) : State :=
  match (s.head i).link.cands with
  | [] => s
  | (n, c) :: _ =>
    let s := s.setHead i { s.head i with link := { (s.head i).link with eq := [0, 0, 0, 0] } }
    (List.range n).foldl (fun s k =>
      driveLane s i k (decide (4 ≤ c)) (startEq (tget {} s.dpl (dplOf (s.head i).link k)) (decide (4 ≤ c)))) s

/-- One round of requests of a training, lane by lane: levels applied and clamps counted (R183, R190). -/
def applyRequests (s : State) (i : Nat) (uhbr : Bool) (reqs : List EqRequest) : State :=
  let l := (s.head i).link
  ((reqs.take (mappedLanes l)).zipIdx).foldl (fun s e =>
    let d := dplOf l e.2
    let (v, c) := applyEq (tget {} s.dpl d) uhbr e.1
    let s := driveLane s i e.2 uhbr v
    let h := s.head i
    if c then
      { s.setHead i { h with link := { h.link with clampMask := h.link.clampMask ||| 1 <<< d } } with
        clamps := tset s.clamps d (sat32 (tget 0 s.clamps d)) }
    else s) s

/-! ### The ends and the start of a training -/

/-- R181: the link attempt of a head fails. -/
def failLink (s : State) (i reason : Nat) : State :=
  let s := closeClamps s i
  let h := s.head i
  let s := s.setHead i { h with
    contentFrom := none, mc := if h.mc = .retrain then .none else h.mc,
    link := { h.link with
      link := 3, reason := reason, rate := 7, lanes := 0, cands := [], trainStart := none, eq := [0, 0, 0, 0],
      failCount := sat32 h.link.failCount } }
  linkState (raiseErr s 0x0031 i reason 0) i .linkFailed

/-- Start training a head's link for a timing; the sink is present (R180). A training in progress ends with its clamps logged. A
link that rests waits for the wake (R497). -/
def startTrainingFor (s : State) (i : Nat) (timing : Option Timing) : State :=
  let s := closeClamps s i
  let h := s.head i
  match (if displayRests s then none else h.link.sink), timing with
  | some k, some t =>
    let c := candidates s h.link k t
    let s := s.setHead i { h with contentFrom := none, link := { h.link with
      link := 1, rate := 7, lanes := 0, cands := c, trainStart := some s.ref, auxRetries := 0, auxAt := s.ref } }
    if c = [] then failLink s i 1 else startLevels s i
  | _, _ => s

/-- Start training for the timing that the head's generator runs. -/
def startTraining (s : State) (i : Nat) : State := startTrainingFor s i (s.head i).gen

/-- The stream of a head stops and its lanes go idle. -/
def dropLink (l : Link) : Link :=
  { l with link := 0, rate := 7, lanes := 0, cands := [], trainStart := none, clampMask := 0, eq := [0, 0, 0, 0], ignoring := false }

end Sys2Proof.Machine
end

