-- ==== Sys2Proof/Machine/Windows.lean ====
section
/-! DEFINITION. Windows, layers, z-order and freshness policy: WINDOW_DEFINE, LAYER_SET, ZORDER_SET, FRESHNESS_SET and
VERDICT_QUERY (spec/04 R132 to R139, spec/02 R58 to R61 and R76, spec/03 R92). -/

namespace Sys2Proof.Machine

/-- Layer settings of a new window (R137). -/
def layerDefault : LayerSettings := ⟨0, 0, 0, 0, 1024, 1, 1, 0, false, false, false⟩
/-- Freshness policy of a new window (R58). -/
def policyDefault : Policy := ⟨2000000, 2, 2, 0, false, 0, false, false, false, false, false, false⟩

def setWin (s : State) (w : Nat) (d : WinDef) : State := { s with wins := tset s.wins w d }

/-! ### Shared checks (R139, R66, R35) -/

/-- Two windows of the shadow hold one layer on one head. -/
def layerClash (s : State) (w : Nat) (d : WinDef) : Bool :=
  s.wins.any (fun e => e.1 != w && e.2.g.layer == d.g.layer &&
    s.heads.any (fun h => winMeets h.2.shadow d.g && winMeets h.2.shadow e.2.g))

/-- The window needs a detector and no channel is free (R66). -/
def detectorShort (s : State) (d : WinDef) : Bool :=
  d.pol.expectMotion && (match d.g.context with
    | some c => (detectorOf s c).isNone && (tfree s.checks 256).isNone
    | none => false)

/-- What R139 finds wrong with a window of the shadow `s'` that a command changed: status, and the refusal counter of R458. The
limit of 16 heads, BAD_PARAM and BUDGET_EXCEEDED count with the windows, counter 1 (DESIGN CHOICE; notes/assumptions/113.md). -/
def windowFault (s s' : State) (w : Nat) (d : WinDef) : Option (Nat × Nat) :=
  if 16 < (metHeads s' d.g).length then some (stLimit, 1)
  else if layerClash s' w d then some (stLimit, 2)
  else if detectorShort s d then some (stLimit, 6)
  else if demandOk s s' then none
  else some (stBudget, 1)

/-- Take the detector that a window needs, and release those no longer needed (R66). -/
def settleDetectors (s : State) (d : WinDef) : State :=
  let s := match d.pol.expectMotion, d.g.context with
    | true, some c => (takeDetector s c).getD s
    | _, _ => s
  releaseChannels s

/-! ### WINDOW_DEFINE (R135, R136, R139) -/

/-- The lowest number that is neither defined nor awaiting its deletion. -/
def freeWindow (s : State) : Option Nat :=
  (List.range 384).find? (fun w => !thas s.wins w && !winAwaiting s w)

def geomOk (g : WinGeom) : Bool :=
  decide (g.layer ≤ 11) && (match g.context with | some c => decide (c ≤ 191) | none => true) &&
    decide (1 ≤ g.w) && decide (1 ≤ g.h) && decide (g.x < 65536) && decide (g.y < 65536) &&
    decide (g.w < 65536) && decide (g.h < 65536)

/-- The definition that results: a redefined window keeps its settings, a new one takes the defaults. One that moves from a
graphic to a video layer keeps PREMULT = 1 too (DESIGN CHOICE; notes/assumptions/114.md). -/
def redefine (s : State) (w : Nat) (g : WinGeom) : WinDef :=
  match tfind s.wins w with
  | some d => { d with g := g }
  | none => ⟨g, layerDefault, policyDefault, 1⟩

def defineWindow (window : Nat) (g : WinGeom) (s : State) : Reply :=
  match (if window = 0xFFFF then freeWindow s else some window) with
  | none => refuseFull s stLimit 1
  | some w =>
    if 383 < w ∨ geomOk g = false then refuseFull s stBadParam 1
    else if winAwaiting s w || skimNamesWindow s w then refuse s stBusy
    else
      let d := redefine s w g
      let s' := setWin s w d
      match windowFault s s' w d with
      | some (st, t) => refuseFull s st t
      | none => ok (settleDetectors s' d) (leBytes 2 w)

def deleteWindow (w : Nat) (s : State) : Reply :=
  if !thas s.wins w then refuseFull s stBadParam 1
  else if skimNamesWindow s w then refuse s stBusy
  else ok (releaseChannels { s with wins := tdel s.wins w })

/-- Place of a head: 0xFFFF in both coordinates is none (R135). -/
def placeHead (head x y : Nat) (s : State) : Reply :=
  if 31 < head ∨ 65535 < x ∨ 65535 < y ∨ (s.head head).pan = none then refuseFull s stBadParam 1
  else
    let h := s.head head
    let s' := s.setHead head
      { h with shadow := { h.shadow with place := if x = 0xFFFF ∧ y = 0xFFFF then none else some (x, y) } }
    let brought := s'.wins.filter (fun e => winMeets (s'.head head).shadow e.2.g)
    if brought.any (fun e => decide (16 < (metHeads s' e.2.g).length)) then refuseFull s stLimit 1
    else if brought.any (fun e => brought.any (fun f => e.1 != f.1 && e.2.g.layer == f.2.g.layer)) then
      refuseFull s stLimit 2
    else if demandOk s s' then ok s'
    else refuseFull s stBudget 1

def cmdWindowDefine (p : WindowDefineP) (s : State) : Reply :=
  match p with
  | .define w g => defineWindow w g s
  | .delete w => deleteWindow w s
  | .place h x y => placeHead h x y s

def execWindowDefine (c : Caller) (p : WindowDefineP) (s : State) : Host.Outcome State Fault Refusal :=
  .next (command c 0x0401 (cmdWindowDefine p) s)

/-! ### LAYER_SET (R137, R138) -/

def layerFields (d : WinDef) (l : LayerSettings) : Bool :=
  decide (l.globalAlpha ≤ 1024) && decide (l.matrix ≤ 2) && decide (l.filterH ≤ 15) && decide (l.filterV ≤ 15) &&
    decide (l.srcX < 65536) && decide (l.srcY < 65536) && decide (l.srcW < 65536) && decide (l.srcH < 65536) &&
    (decide (8 ≤ d.g.layer) || !l.premult)

def setLayer (w : Nat) (l : LayerSettings) (s : State) : Reply :=
  match tfind s.wins w with
  | none => refuseFull s stBadParam 1
  | some d =>
    if !layerFields d l then refuseFull s stBadParam 1
    else if skimNamesWindow s w then refuse s stBusy
    else
      let s' := setWin s w { d with l := l }
      if demandOk s s' then ok s' else refuseFull s stBudget 1

/-- Palette entries of graphic layer `layer` - 8 in a bank. -/
def writePalette (b : Bank) (layer first : Nat) (l : List Nat) : Bank :=
  { b with pal := (l.zipIdx).foldl (fun t e =>
      let k := (layer - 8) * 256 + first + e.2
      if e.1 = 0 then tdel t k else tset t k e.1) b.pal }

def setPalette (w first : Nat) (l : List Nat) (s : State) : Reply :=
  match tfind s.wins w with
  | none => refuseFull s stBadParam 1
  | some d =>
    let indexed := match d.g.context.bind (openCtx s) with
      | some c => c.p.format == 0x13
      | none => false
    if d.g.layer < 8 ∨ indexed = false ∨ l = [] ∨ 64 < l.length ∨ 256 < first + l.length ∨
        l.any (fun e => decide (2 ^ 32 ≤ e)) = true then refuseFull s stBadParam 1
    else if skimNamesWindow s w then refuse s stBusy
    else ok (modHeads s (metHeads s d.g) (fun _ h => { h with shadow := writePalette h.shadow d.g.layer first l }))

def cmdLayerSet (p : LayerSetP) (s : State) : Reply :=
  match p with
  | .settings w l => setLayer w l s
  | .palette w first l => setPalette w first l s

def execLayerSet (c : Caller) (p : LayerSetP) (s : State) : Host.Outcome State Fault Refusal :=
  .next (command c 0x0402 (cmdLayerSet p) s)

/-! ### ZORDER_SET (R132) -/

/-- LEVEL is a permutation of the twelve layer codes. -/
def levelsOk (l : List Nat) : Bool := l.length == 12 && (List.range 12).all (fun i => l.contains i)

def cmdZorderSet (p : ZOrderSetP) (s : State) : Reply :=
  if 31 < p.head ∨ 2 ^ 30 ≤ p.z.background ∨ (p.z.mode && !levelsOk p.z.level) = true then refuse s stBadParam
  else if (withTwin s p.head).any (skimNamesHead s) then refuse s stBusy
  else ok (modHeads s (withTwin s p.head) (fun _ h => { h with shadow := { h.shadow with z := p.z } }))

def execZorderSet (c : Caller) (p : ZOrderSetP) (s : State) : Host.Outcome State Fault Refusal :=
  .next (command c 0x0404 (cmdZorderSet p) s)

/-! ### FRESHNESS_SET (R58 to R62, R92) -/

/-- A 10-bit RGB colour as its word. -/
def rgb10 (r g b : Nat) : Nat := r * 2 ^ 20 + g * 2 ^ 10 + b

/-- Colour set 0 (R62). -/
def colourSet0 : ColourSet :=
  ⟨[rgb10 1023 767 0, rgb10 1023 0 1023, rgb10 1023 256 0, rgb10 0 1023 1023, rgb10 512 512 512], [0, 0, 0, 0, 0]⟩

/-- A colour set in force; set 0 is fixed, the others start as set 0 (R60). -/
def colourSet (s : State) (n : Nat) : ColourSet := if n = 0 then colourSet0 else tget colourSet0 s.colours n

/-- A colour set as last written, in force or at the next tide. -/
def colourSetWritten (s : State) (n : Nat) : ColourSet :=
  match tfind s.nextColours n with
  | some c => c
  | none => colourSet s n

/-- Luma of a colour (R61). -/
def luma (c : Nat) : Nat := (2126 * field c 20 10 + 7152 * field c 10 10 + 722 * field c 0 10) / 10000

/-- The contrast floor (R61). -/
def contrastOk (c : ColourSet) : Bool :=
  (List.range 4).all (fun v =>
    let a := luma (nth 0 c.a v)
    let b := luma (nth 0 c.b v)
    decide (a + 256 ≤ b) || decide (b + 256 ≤ a))

def policyFields (p : Policy) : Bool :=
  decide (1000 ≤ p.budgetUs) && decide (p.budgetUs ≤ 10000000) && decide (1 ≤ p.frozenRepeat) &&
    decide (p.frozenRepeat ≤ 255) && decide (1 ≤ p.recover) && decide (p.recover ≤ 255) && decide (p.colourSet ≤ 7) &&
    decide (p.glyphCorner ≤ 3)

/-- R59: what a critical window may not have. -/
def criticalOk (s : State) (p : Policy) : Bool :=
  !p.critical || (!p.crustOff && !p.unverifiedBorder && contrastOk (colourSetWritten s p.colourSet))

def setPolicy (c : Caller) (w : Nat) (p : Policy) (s : State) : Reply :=
  if !policyFields p || !criticalOk s p then refuse s stBadParam
  else match tfind s.wins w with
  | none => refuse s stBadParam
  | some d =>
    if (d.pol.critical && !p.critical) = true ∧ callerRole s c < 2 then refuse s stRoleDenied
    else if (p.critical && d.groups == 0) = true ∧ callerRole s c < 2 then refuse s stRoleDenied
    else if detectorShort s { d with pol := p } then refuseFull s stLimit 6
    else if skimNamesWindow s w then refuse s stBusy
    else
      let d := { d with pol := p }
      ok (settleDetectors (setWin s w d) d)

/-- Windows of the shadow or in force that are critical and use a colour set (R61). -/
def criticalUses (s : State) (set : Nat) : Bool :=
  ((s.wins.map (·.2)) ++ s.heads.flatMap (fun e => bankWindows e.2)).any
    (fun d => d.pol.critical && d.pol.colourSet == set)

def coloursFields (c : ColourSet) : Bool :=
  c.a.length == 5 && c.b.length == 5 && (c.a ++ c.b).all (fun x => decide (x < 2 ^ 30)) && nth 0 c.b 4 == 0

/-- FUNC = 1: a colour set, in force at the next tide (R60, R61). -/
def setColours (set : Nat) (c : ColourSet) (s : State) : Reply :=
  if set = 0 ∨ 7 < set ∨ coloursFields c = false ∨ (criticalUses s set && !contrastOk c) = true then
    refuse s stBadParam
  else ok { s with nextColours := tset s.nextColours set c }

/-- FUNC = 2: fence-group membership (R92). -/
def setMembership (c : Caller) (w groups : Nat) (s : State) : Reply :=
  match tfind s.wins w with
  | none => refuse s stBadParam
  | some d =>
    if 255 < groups then refuse s stBadParam
    else if (d.pol.critical && groups == 0) = true ∧ callerRole s c < 2 then refuse s stRoleDenied
    else if skimNamesWindow s w then refuse s stBusy
    else ok (setWin s w { d with groups := groups })

def cmdFreshnessSet (c : Caller) (p : FreshnessSetP) (s : State) : Reply :=
  match p with
  | .policy w pol => setPolicy c w pol s
  | .colours set cs => setColours set cs s
  | .membership w g => setMembership c w g s

def execFreshnessSet (c : Caller) (p : FreshnessSetP) (s : State) : Host.Outcome State Fault Refusal :=
  .next (command c 0x0405 (cmdFreshnessSet c p) s)

/-! ### VERDICT_QUERY (R76) -/

/-- Heads on which a window is in force. -/
def showingHeads (s : State) (w : Nat) : List Nat :=
  (s.heads.filter (fun e => e.2.force.slots.any (fun x => x.win == w))).map (·.1)

/-- One entry of the answer: the head's last completed frame. A window that no completed frame of the head has
shown has an entry of zeros (DESIGN CHOICE: notes/assumptions/84.md). -/
def verdictEntry (s : State) (w h : Nat) : List Byte :=
  match tfind (s.head h).done w with
  | some f => [byte h, byte f.verdict] ++ leBytes 2 f.causes ++ leBytes 4 f.frameCount ++ leBytes 4 f.capNs ++
      leBytes 6 f.capS ++ leBytes 6 f.age
  | none => byte h :: zeros 23

def cmdVerdictQuery (w : Nat) (s : State) : Reply :=
  if !thas s.wins w && !winAwaiting s w then refuse s stBadParam
  else
    let l := (showingHeads s w).take 16
    ok s (leBytes 2 w ++ [byte l.length, 0#8] ++ l.flatMap (verdictEntry s w))

def execVerdictQuery (c : Caller) (window : Nat) (s : State) : Host.Outcome State Fault Refusal :=
  .next (command c 0x0406 (cmdVerdictQuery window) s)

end Sys2Proof.Machine
end

