-- ==== Sys2Proof/Machine/Pixels.lean ====
section
/-! DEFINITION. Pixels: unpack, scaling, colour conversion and blending (spec/04 R118 to R132), the pulse glyph and the crust
(spec/02 R69 to R73, spec/03 R95, R103), and GROUP_COMPOSE (R108 to R112). -/

namespace Sys2Proof.Machine

/-- Three components of 12 bits. -/
structure Comp where
  a : Int
  b : Int
  c : Int
  deriving DecidableEq, Repr

/-! ### Colour (R120, R128, R131, R132) -/

/-- R120: an `n`-bit code (n at least 4) expanded to 12 bits by repetition. -/
def expand12 (n code : Nat) : Nat := (code * 2 ^ (2 * n) + code * 2 ^ n + code) / 2 ^ (3 * n - 12)

/-- R120: an `n`-bit alpha as a pixel alpha. -/
def pixelAlpha (n a : Nat) : Nat := (a * 1024 + (2 ^ n - 1) / 2) / (2 ^ n - 1)

/-- Kr and Kb of matrix code 0 BT.709, 1 BT.601, 2 BT.2020 (PRESUMED: the ITU-R recommendations that R128 names;
notes/assumptions/24.md). -/
def lumaK (m : Nat) : Rat × Rat :=
  if m = 0 then (2126 / 10000, 722 / 10000) else if m = 1 then (299 / 1000, 114 / 1000) else (2627 / 10000, 593 / 10000)

/-- A coefficient rounded to a multiple of 1/8,192, as that multiple. -/
def quant (x : Rat) : Rat := (((x * 8192 + 1 / 2).floor : Int) : Rat) / 8192

/-- Luma span, luma offset and chroma span of a range at 12 bits; the matrices of R128 take the ratio of the spans into their
coefficients before those are rounded (DESIGN CHOICE; notes/assumptions/111.md). -/
def spans12 (full : Bool) : Rat × Rat × Rat := if full then (4095, 0, 4095) else (3504, 256, 3584)

/-- A result rounded half up and clamped. -/
def round12 (x : Rat) : Int := clampI 0 4095 (x + 1 / 2).floor

def ratI (x : Int) : Rat := (x : Rat)

/-- YCbCr to full-range RGB; `f` scales the offsets of a premultiplied colour (R128). -/
def toRgb (m : Nat) (full : Bool) (f : Rat) (p : Comp) : Comp :=
  let (kr, kb) := lumaK m
  let kg := 1 - kr - kb
  let (ys, yo, cs) := spans12 full
  let y := quant (4095 / ys) * (ratI p.a - yo * f)
  let cb := ratI p.b - 2048 * f
  let cr := ratI p.c - 2048 * f
  let k := 4095 / cs
  ⟨round12 (y + quant (2 * (1 - kr) * k) * cr),
   round12 (y - quant (2 * kb * (1 - kb) / kg * k) * cb - quant (2 * kr * (1 - kr) / kg * k) * cr),
   round12 (y + quant (2 * (1 - kb) * k) * cb)⟩

/-- Full-range RGB to YCbCr (R128). -/
def toYcc (m : Nat) (full : Bool) (f : Rat) (p : Comp) : Comp :=
  let (kr, kb) := lumaK m
  let kg := 1 - kr - kb
  let (ys, yo, cs) := spans12 full
  let (r, g, b) := (ratI p.a, ratI p.b, ratI p.c)
  let q := ys / 4095
  let u := cs / 4095 / (2 * (1 - kb))
  let v := cs / 4095 / (2 * (1 - kr))
  ⟨round12 (quant (q * kr) * r + quant (q * kg) * g + quant (q * kb) * b + yo * f),
   round12 (quant (-(u * kr)) * r + quant (-(u * kg)) * g + quant (u * (1 - kb)) * b + 2048 * f),
   round12 (quant (v * (1 - kr)) * r + quant (-(v * kg)) * g + quant (-(v * kb)) * b + 2048 * f)⟩

/-- Full-range RGB as an RGB head with RANGE = 0 sends it (R128). For a premultiplied colour the floor is taken of the offset and
the scaled component together, and nothing is clamped (DESIGN CHOICE; notes/assumptions/112.md). -/
def limitRgb (f : Rat) (p : Comp) : Comp :=
  let g (x : Int) : Int := (256 * f + ((x * 3504 + 2047 : Int) : Rat) / 4095).floor
  ⟨g p.a, g p.b, g p.c⟩

/-- R128: a colour into the head's space. `src`: the matrix and range of a YCbCr source, none for RGB. -/
def toHead (t : Timing) (src : Option (Nat × Bool)) (f : Rat) (p : Comp) : Comp :=
  if t.colour && src == some (t.matrix, t.range) then p
  else
    let rgb := match src with
      | some (m, r) => toRgb m r f p
      | none => p
    if t.colour then toYcc t.matrix t.range f rgb else if t.range then rgb else limitRgb f rgb

/-- A 30-bit colour in the head's space (R132, R72). -/
def wordColour (t : Timing) (w : Nat) : Comp :=
  toHead t none 1 ⟨expand12 10 (field w 20 10), expand12 10 (field w 10 10), expand12 10 (field w 0 10)⟩

/-- R131: a component at the output depth. -/
def reduceDepth (ten : Bool) (x : Int) : Nat :=
  if ten then min 1023 ((x.toNat + 2) / 4) else min 255 ((x.toNat + 8) / 16)

def reduceComp (t : Timing) (p : Comp) : Nat × Nat × Nat :=
  (reduceDepth t.depth p.a, reduceDepth t.depth p.b, reduceDepth t.depth p.c)

/-! ### Fetch and unpack (R112, R118, R120, R127) -/

/-- A byte as a pan fetch returns it: zero in a line denied or late, corrected where the code can. The reads count when
their line is fetched (`fetchRange`). -/
def peekByte (s : State) (zeroed : List Nat) (a : Nat) : Byte :=
  if zeroed.contains (a / 64) then 0#8
  else
    let raw := readCell s.mem.cells a
    match decodeLine (lineUpset s (a / 64)) (wideAt s a) with
    | .corrected es => es.foldl (fun v e => if e.1 = a % 64 then v ^^^ byte e.2 else v) raw
    | _ => raw

def peekWord (s : State) (zeroed : List Nat) (a n : Nat) : Nat :=
  leNat ((List.range n).map (fun i => peekByte s zeroed (a + i)))

/-- Shift and width of each component of plane 0 (R118). -/
def fmtFields (f : Nat) : List (Nat × Nat) :=
  if f = 1 ∨ f = 3 ∨ f = 0x13 then [(0, 8)]
  else if f = 2 ∨ f = 4 then [(0, 10)]
  else if f = 5 ∨ f = 7 ∨ f = 0x10 then [(16, 8), (8, 8), (0, 8)]
  else if f = 0x12 then [(11, 5), (5, 6), (0, 5)]
  else [(20, 10), (10, 10), (0, 10)]

/-- Shift and width of alpha (R118). -/
def fmtAlpha (f : Nat) : Option (Nat × Nat) :=
  if f = 0x10 ∨ f = 0x13 then some (24, 8) else if f = 0x11 then some (30, 2) else none

/-- A plane of a buffer with the crop on it, in samples; `dec`: pre-decimated, and `w` counts after it (R127). -/
structure Plane where
  base : Nat
  stride : Nat
  bytes : Nat
  fields : List (Nat × Nat)
  x0 : Nat
  y0 : Nat
  w : Nat
  h : Nat
  dec : Bool
  deriving DecidableEq, Repr

/-- Raw codes of a sample of a plane, `x` counted from the crop before decimation. -/
def planeRaw (s : State) (z : List Nat) (pl : Plane) (x y : Nat) : List Nat :=
  let w := peekWord s z (pl.base + (pl.y0 + y) * pl.stride + (pl.x0 + x) * pl.bytes) pl.bytes
  pl.fields.map (fun f => field w f.1 f.2)

/-- Components of a sample, expanded; outside the crop the nearest one (R124). -/
def planeAt (s : State) (z : List Nat) (pl : Plane) (x y : Int) : List Int :=
  let x := (clampI 0 ((pl.w : Int) - 1) x).toNat
  let y := (clampI 0 ((pl.h : Int) - 1) y).toNat
  let codes :=
    if pl.dec then
      ((planeRaw s z pl (2 * x) y).zip (planeRaw s z pl (2 * x + 1) y)).map (fun e => (e.1 + e.2 + 1) / 2)
    else planeRaw s z pl x y
  (codes.zip pl.fields).map (fun e => (expand12 e.2.2 e.1 : Int))

/-! ### The scaler (R123 to R125) -/

/-- Key of a loaded coefficient: direction, set, phase, tap. -/
def coefKey (vert : Bool) (set phase tap : Nat) : Nat := ((b2n vert * 16 + set) * 64 + phase) * 8 + tap

/-- Taps of a phase. Sets 2 to 15 follow set 1 until the bed loads them (R125). -/
def tapsOf (s : State) (vert : Bool) (set phase : Nat) : List Int :=
  let n := if vert then 6 else 8
  let mid := if vert then 2 else 3
  (List.range n).map (fun k =>
    if set = 0 then (if k = (if phase < 32 then mid else mid + 1) then 512 else 0)
    else if set = 1 ∨ s.coeffs = [] then
      (if k = mid then 512 - 8 * (phase : Int) else if k = mid + 1 then 8 * (phase : Int) else 0)
    else tget 0 s.coeffs (coefKey vert set phase k))

/-- R124: one filter sum. -/
def fir (c p : List Int) : Int :=
  clampI 0 4095 ((((c.zip p).map (fun e => e.1 * e.2)).foldl (· + ·) 0 + 256) / 512)

/-- Phase and integer part of a 16.16 position (R123). -/
def posPhase (p : Int) : Nat := (p / 1024 % 64).toNat
def posInt (p : Int) : Int := p / 65536

/-- Position of destination pixel `u` for a crop of `n` on `w` (R123). -/
def scalePos (n w u : Nat) : Int :=
  let st := n * 65536 / w
  ((st / 2 : Nat) : Int) - 32768 + ((u * st : Nat) : Int)

/-- Horizontal, then vertical filter of a plane at a position. -/
def scaleAt (s : State) (z : List Nat) (pl : Plane) (fh fv : Nat) (hp vp : Int) : List Int :=
  let n := pl.fields.length
  let hc := tapsOf s false fh (posPhase hp)
  let vc := tapsOf s true fv (posPhase vp)
  let rows := (List.range 6).map (fun j =>
    let px := (List.range 8).map (fun k => planeAt s z pl (posInt hp - 3 + k) (posInt vp - 2 + j))
    (List.range n).map (fun c => fir hc (px.map (fun l => nth 0 l c))))
  (List.range n).map (fun c => fir vc (rows.map (fun l => nth 0 l c)))

/-- Plane 0 of the buffer that a slot shows. -/
def plane0 (c : Ctx) (d : WinDef) (buf : Nat) : Plane :=
  let k := cropOf d c.p.width c.p.height
  ⟨bufAddr c buf, c.p.stride0, fmtBytes c.p.format, fmtFields c.p.format, k.x, k.y, k.w, k.h, k.dec⟩

/-- Plane 1 of a two-plane buffer (R118, R124). -/
def plane1 (c : Ctx) (d : WinDef) (buf : Nat) : Plane :=
  let k := cropOf d c.p.width c.p.height
  let f := c.p.format
  let v := if fmt420 f then 2 else 1
  let w := if fmtBytes f = 1 then 8 else 10
  ⟨bufAddr c buf + c.p.plane1, c.p.stride1, 2 * fmtBytes f, [(0, w), (8 * fmtBytes f, w)],
   k.x / 2, k.y / v, k.w / 2, k.h / v, k.dec⟩

/-- Chroma positions (R124). -/
def chromaPos (f : Nat) (hp vp : Int) : Int × Int := (hp / 2, if fmt420 f then (vp - 32768) / 2 else vp)

/-- Colour and alpha of a window's pixel before colour conversion (R117 to R124). -/
def windowPixel (s : State) (z pal : List Nat) (c : Ctx) (d : WinDef) (buf u v : Nat) : Comp × Nat :=
  let p0 := plane0 c d buf
  let f := c.p.format
  if d.g.layer < 8 then
    let hp := scalePos p0.w d.g.w u
    let vp := scalePos p0.h d.g.h v
    let a := scaleAt s z p0 d.l.filterH d.l.filterV hp vp
    if fmtTwoPlane f then
      let (ch, cv) := chromaPos f hp vp
      let b := scaleAt s z (plane1 c d buf) d.l.filterH d.l.filterV ch cv
      (⟨nth 0 a 0, nth 0 b 0, nth 0 b 1⟩, 1024)
    else (⟨nth 0 a 0, nth 0 a 1, nth 0 a 2⟩, 1024)
  else
    let w := peekWord s z (p0.base + (p0.y0 + v) * p0.stride + (p0.x0 + u) * p0.bytes) p0.bytes
    let (w, f) := if f = 0x13 then (nth 0 pal w, 0x10) else (w, f)
    let l := (fmtFields f).map (fun e => (expand12 e.2 (field w e.1 e.2) : Int))
    (⟨nth 0 l 0, nth 0 l 1, nth 0 l 2⟩, match fmtAlpha f with
      | some (sh, n) => pixelAlpha n (field w sh n)
      | none => 1024)

/-! ### Slots of a head's line -/

/-- The part of a slot's window on a head, in wall pixels. -/
def slotPart (b : Bank) (x : Slot) : Option Rect := winPart b x.d.g

/-- Place of a head, (0, 0) when it has none. -/
def placeOf (b : Bank) : Nat × Nat := b.place.getD (0, 0)

/-- A slot covers pixel `x` of line `line` of its head. -/
def slotCovers (b : Bank) (k : Slot) (line x : Nat) : Bool :=
  match slotPart b k with
  | some r => let (px, py) := placeOf b
    decide (r.x0 ≤ px + x) && decide (px + x < r.x1) && decide (r.y0 ≤ py + line) && decide (py + line < r.y1)
  | none => false

/-- A slot has a span on a line; the answer is the span's first pixel on the head. -/
def spanStart (b : Bank) (k : Slot) (line : Nat) : Option Nat :=
  match slotPart b k with
  | some r => let (px, py) := placeOf b
    if r.y0 ≤ py + line ∧ py + line < r.y1 then some (r.x0 - px) else none
  | none => none

/-- Layer codes from the bottom level to the top (R132). -/
def levels (b : Bank) : List Nat := if b.z.mode then b.z.level else List.range 12

/-- The slots at a pixel, bottom first. -/
def slotsAt (b : Bank) (line x : Nat) : List Slot :=
  (levels b).filterMap (fun l => b.slots.find? (fun k => k.d.g.layer == l && slotCovers b k line x))

/-! ### Blending (R116, R129, R130) and the glyph (R73) -/

/-- What a slot gives at a pixel: colour in the head's space, pixel alpha, and whether it is premultiplied. -/
def slotColour (s : State) (h : Head) (t : Timing) (line x : Nat) (k : Slot) : Comp × Nat × Bool :=
  let (px, py) := placeOf h.force
  match tfind h.taken k.d.g.layer with
  | some b =>
    let c := s.ctx b.ctx
    let (p, ap) := windowPixel s h.zeroed
      ((List.range 256).map (fun i => tget 0 h.force.pal ((k.d.g.layer - 8) * 256 + i)))
      c k.d b.buf (px + x - k.d.g.x) (py + line - k.d.g.y)
    let f : Rat := if k.d.l.premult then natRat ap / 1024 else 1
    let src := if fmtYcc c.p.format then some (k.d.l.matrix, k.d.l.range) else none
    (toHead t src f p, ap, k.d.l.premult)
  | none => (wordColour t h.force.z.background, 1024, false)

/-- R129: one component of a layer over what lies beneath it. -/
def blendOne (c d : Int) (ap a ga : Nat) (pre : Bool) : Int :=
  let cp := if pre then c else (c * ap + 512) / 1024
  min 4095 ((cp * ga + 512) / 1024 + (d * (1024 - a) + 512) / 1024)

/-- Effective alpha (R129). -/
def effAlpha (ap ga : Nat) : Nat := (ap * ga + 512) / 1024

/-- R130: weights from the top level down, `l` top first: (layer, effective alpha). -/
def weightsFrom : (t : Nat) → List (Nat × Nat) → List (Nat × Nat)
  | _, [] => []
  | t, (layer, a) :: r => (layer, (a * t + 512) / 1024) :: weightsFrom ((t * (1024 - a) + 512) / 1024) r

/-- Offset along one axis from the left or top edge, or from the right or bottom one, of a corner (R73). -/
def glyphAxis (far : Bool) (n u : Nat) : Option Nat :=
  let o := if far then n - 16 else 8
  if o ≤ u ∧ u < o + 8 then some (u - o) else none

/-- The glyph of a slot at a pixel of its window: white or black, where it is drawn. -/
def glyphAt (d : WinDef) (seq u v : Nat) : Option Bool :=
  if d.pol.glyphEn && decide (24 ≤ d.g.w) && decide (24 ≤ d.g.h) then
    match glyphAxis (d.pol.glyphCorner == 1 || d.pol.glyphCorner == 2) d.g.w u,
        glyphAxis (decide (2 ≤ d.pol.glyphCorner)) d.g.h v with
    | some a, some b =>
      let quad := if b < 4 then (if a < 4 then 0 else 1) else (if a < 4 then 3 else 2)
      some (seq % 4 == quad)
    | _, _ => none
  else none

/-- One composed pixel of a head (R129, R130, R73). -/
def composePixel (s : State) (h : Head) (t : Timing) (line x : Nat) : Pixel :=
  let ks := slotsAt h.force line x
  let cols := ks.map (fun k => (k, slotColour s h t line x k))
  let bg := wordColour t h.force.z.background
  let d := cols.foldl (fun (d : Comp) e =>
    let (c, ap, pre) := e.2
    let ga := e.1.d.l.globalAlpha
    let a := effAlpha ap ga
    ⟨blendOne c.a d.a ap a ga pre, blendOne c.b d.b ap a ga pre, blendOne c.c d.c ap a ga pre⟩) bg
  let w := weightsFrom 1024
    ((cols.map (fun e => (e.1.d.g.layer, effAlpha e.2.2.1 e.1.d.l.globalAlpha))).reverse)
  let (px, py) := placeOf h.force
  let glyph := ks.reverse.findSome? (fun k =>
    match tfind h.taken k.d.g.layer with
    | some b => if 0 < tget 0 w k.d.g.layer then
        glyphAt k.d b.record.seq (px + x - k.d.g.x) (py + line - k.d.g.y) else none
    | none => none)
  let d := match glyph with
    | some white => wordColour t (if white then rgb10 1023 1023 1023 else 0)
    | none => d
  ⟨d.a.toNat, d.b.toNat, d.c.toNat, w⟩

/-! ### The crust stage (R69 to R72, R95, R103) -/

/-- Time at which pixel `x` of line `line` of the frame with flip `f` enters gauge evaluate: 34 PAN cycles before it
reaches the lane adapter output (R57, R100). -/
def evalTime (s : State) (t : Timing) (f : Rat) (line x : Nat) : Int :=
  (panCycle (f + natRat (line * htotal t + x) * pixelRat s t) : Int) - 34 * panT

/-- ACTIVE channels of a pan (R85). -/
def activeChans (p : Pan) : List Nat :=
  (if p.a.st = .active then [0] else []) ++ (if p.b.st = .active then [1] else []) ++
    (if p.c.st = .active then [2] else [])

/-- The fence vector of a head at time `d`: the bits held whose time has come. -/
def fenceVector (s : State) (h : Head) (d : Int) : Nat :=
  maskOf ((bitsOf 17 (fenceBits s.fences h)).filter (fun b => decide (((tget 0 h.fenceAt b : Nat) : Int) ≤ d)))

/-- The voted vector of sound channels: every bit with fewer than two (R83). -/
def votedVector (s : State) (h : Head) (d : Int) : Nat :=
  if (activeChans (s.pan (h.pan.getD 0))).length < 2 then 2 ^ 17 - 1 else fenceVector s h d

/-- A sealed region of a head in wall coordinates. -/
def sealRect (b : Bank) (r : Seal) : Rect :=
  let (px, py) := placeOf b
  ⟨px + r.x, py + r.y, px + r.x + r.w, py + r.y + r.h⟩

/-- A fence vector holds a window on a head (R91). -/
def vectorHolds (b : Bank) (d : WinDef) (v : Nat) : Bool :=
  v.testBit 16 || v % 256 &&& d.groups != 0 ||
    b.seals.any (fun e => v.testBit (8 + e.1) && (rectMeet (sealRect b e.2) (winRect d.g)).isSome)

/-- How a pixel of a window is rendered (R70): plain, border only, crust, or the DARK hatch. -/
inductive Render where
  | plain
  | border
  | crust
  | dark
  deriving DecidableEq, Repr

def renderOf (p : Policy) (safe : Bool) (v : Nat) : Render :=
  if v = 0 then .plain
  else if v = 1 then (if p.taintCrust then .crust else .border)
  else if v = 2 then (if !p.unverifiedBorder && !p.crustOff then .crust else .border)
  else if v ≤ 4 then (if p.crustOff && !safe then .border else .crust)
  else .dark

/-- R72: a component of a stroke or gap pixel. -/
def mixCrust (repl : Bool) (c k : Int) : Int := if repl then k else (c + k + 1) / 2

def mixComp (repl : Bool) (c k : Comp) : Comp := ⟨mixCrust repl c.a k.a, mixCrust repl c.b k.b, mixCrust repl c.c k.c⟩

/-- R71, R72: a pixel at wall position (wx, wy) under a window's verdict, and whether it is rendered plain. -/
def crustPixel (s : State) (h : Head) (t : Timing) (k : Slot) (verdict wx wy : Nat) (c : Comp) : Comp × Bool :=
  let r := (slotPart h.force k).getD ⟨0, 0, 0, 0⟩
  let border := decide (wx < r.x0 + 6) || decide (wy < r.y0 + 6) || decide (r.x1 ≤ wx + 6) || decide (r.y1 ≤ wy + 6)
  let stroke := decide ((wx - k.d.g.x + (wy - k.d.g.y)) % 16 < 4)
  let cs := colourSet s k.d.pol.colourSet
  let a := wordColour t (nth 0 cs.a (verdict - 1))
  let b := wordColour t (nth 0 cs.b (verdict - 1))
  match renderOf k.d.pol s.start.safe verdict with
  | .plain => (c, true)
  | .border => if border then (a, false) else (c, true)
  | .crust => (if border then a else mixComp k.d.pol.crustReplace c (if stroke then a else b), false)
  | .dark => (if border || stroke then a else wordColour t h.force.z.background, false)

/-- Verdict of a slot at a pixel that enters gauge evaluate at time `d`: its span word's, STALE under a fence (R95). -/
def pixelVerdict (s : State) (h : Head) (d : Int) (k : Slot) : Nat :=
  let v := ((tfind h.words k.d.g.layer).map (·.verdict)).getD 0
  if vectorHolds h.force k.d (votedVector s h d) then max v 3 else v

/-- R69: the slot that decides a pixel's rendering: the highest verdict, the topmost among equals; `ks` top first. -/
def decidingSlot (judge : Slot → Nat) : List Slot → Option Slot
  | [] => none
  | k :: r => match decidingSlot judge r with
    | none => some k
    | some j => if judge k < judge j then some j else some k

/-- A pixel that leaves the crust stage: its codes, and whether it was rendered plain (R314). -/
structure Rendered where
  codes : Nat × Nat × Nat
  plain : Bool
  deriving DecidableEq, Repr

/-- What leaves the crust stage for a composed pixel (R69 to R72, R131). -/
def renderPixel (s : State) (h : Head) (t : Timing) (line x : Nat) (p : Pixel) : Rendered :=
  let ks := (slotsAt h.force line x).reverse.filter (fun k => decide (0 < tget 0 p.weights k.d.g.layer))
  let v := pixelVerdict s h (evalTime s t h.flipT line x)
  let (px, py) := placeOf h.force
  let c : Comp := ⟨p.c0, p.c1, p.c2⟩
  match decidingSlot v ks with
  | none => ⟨reduceComp t c, true⟩
  | some k =>
    let (q, plain) := crustPixel s h t k (v k) (px + x) (py + line) c
    ⟨reduceComp t q, plain⟩

/-- The frame in progress on a head is black: no span of it is evaluated (R163, R164). -/
def blackFrame (h : Head) : Bool := h.mc == .black || h.mc == .retrainBlack

/-- The lane adapter passes pixels: a running head, or the black frame after a retraining (R163, R164, R186). -/
def shownLink (h : Head) : Bool := h.st == .running || h.st == .modeChange || (h.st == .starting && h.mc == .retrainBlack)

/-- The bits of a pixel in the order of the main stream: R, G, B, or Cr, Y, Cb, each from its most significant bit (R187; PRESUMED:
DisplayPort's single-stream mapping; notes/assumptions/132.md). -/
def pixelBits (t : Timing) (c : Nat × Nat × Nat) : List Bool :=
  let w := if t.depth then 10 else 8
  let bits (n : Nat) : List Bool := (List.range w).reverse.map (fun k => n.testBit k)
  if t.colour then bits c.2.2 ++ bits c.1 ++ bits c.2.1 else bits c.1 ++ bits c.2.1 ++ bits c.2.2

/-- The bits that each of `n` lanes takes of a group: pixel k of a line goes to lane k mod n. -/
def laneBits (t : Timing) (n x : Nat) (codes : List (Nat × Nat × Nat)) : List (List Bool) :=
  (List.range n).map (fun i => ((codes.zipIdx).filter (fun e => (x + e.2) % n == i)).flatMap (fun e => pixelBits t e.1))

/-- An encode context's tap takes the pixels of head `i` (R259). -/
def tapsHead (e : Enc) (i : Nat) : Bool :=
  !e.p.tapContext && (e.p.source == i || (e.p.twinBoth && e.p.source + 1 == i))

/-- A group of a head leaves the crust mixer towards the encode contexts that tap the head. -/
def tapGroup (s : State) (i : Nat) (h : Head) (line : Nat) (codes : List (Nat × Nat × Nat)) : State :=
  let key := (panUp h.flipT.ceil).toNat
  { s with encs := tmap (fun _ (e : Enc) =>
      if tapsHead e i then
        let t := if e.tapKey = key then e.tap else []
        let k := 2 * line + (if e.p.source = i then 0 else 1)
        { e with tapKey := key, tap := tset t k (tget [] t k ++ codes) }
      else e) s.encs }

/-- The bytes that a pixel gives to the taps of a sealed region (R313). -/
def tapBytes (ten : Bool) (c : Nat × Nat × Nat) : List Byte := [c.1, c.2.1, c.2.2].flatMap (leBytes (if ten then 2 else 1))

/-- A sealed region takes the plain pixels of a group that lie in it, in raster order (R313, R314). -/
def tapSeal (ten : Bool) (line x : Nat) (l : List Rendered) (taps : Tab Nat) (e : Nat × Seal) : Tab Nat :=
  let k := e.2
  (l.zipIdx).foldl (fun taps p =>
    if p.1.plain && decide (k.y ≤ line) && decide (line < k.y + k.h) && decide (k.x ≤ x + p.2) && decide (x + p.2 < k.x + k.w) then
      tset taps e.1 ((tapBytes ten p.1.codes).foldl (crcStep k.poly) (tget (crcInit k.poly) taps e.1))
    else taps) taps

/-- The sealed regions of a head take a group. -/
def tapSeals (s : State) (i : Nat) (t : Timing) (line x : Nat) (l : List Rendered) : State :=
  let h := s.head i
  s.setHead i { h with taps := h.force.seals.foldl (tapSeal t.depth line x l) h.taps }

/-- A group leaves the crust mixer: to the taps, and to the lane adapter unless the link carries blanking. -/
def emitGroup (s : State) (i : Nat) (t : Timing) (line x : Nat) (l : List Rendered) : State :=
  let h := s.head i
  let codes := l.map (fun p => if blackFrame h then (0, 0, 0) else p.codes)
  let s := tapGroup (if blackFrame h then s else tapSeals s i t line x l) i h line codes
  if shownLink h then s.emit (.pixels i line x codes
      ((laneBits t h.link.lanes x codes).zipIdx.map (fun e => (h.link.invert.testBit e.2, e.1)))) else s

/-- The spans that a group needs are evaluated. -/
def groupReady (h : Head) (g : Group) : Bool :=
  blackFrame h || h.force.slots.all (fun k =>
    match spanStart h.force k g.line with
    | some x => decide (g.x + g.px.length ≤ x) || (match tfind h.words k.d.g.layer with
        | some w => w.line == g.line && w.win == k.win
        | none => false)
    | none => true)

/-- The groups of a head that have left its FIFO by now pass the crust stage (R108); `fuel` groups at most. -/
def drainHead (i : Nat) : (fuel : Nat) → State → State
  | 0, s => s
  | f + 1, s =>
    let h := s.head i
    match h.gen, h.fifo with
    | some t, g :: rest =>
      if h.phase = .active ∧ evalTime s t h.flipT g.line (g.x + g.px.length - 1) ≤ s.now ∧ groupReady h g = true then
        let l := (g.px.zipIdx).map (fun e => renderPixel s h t g.line (g.x + e.2) e.1)
        drainHead i f (emitGroup (s.setHead i { h with fifo := rest }) i t g.line g.x l)
      else s
    | _, _ => s

def drain (s : State) (i : Nat) : State := drainHead i ((s.head i).fifo.length) s

/-! ### Composing (R109 to R112, R67) -/

/-- Flip time of the frame that a head composes: the one on the wire, or the next once its take point has passed. -/
def composeFlip (h : Head) : Option Rat :=
  match h.phase, h.next with
  | .active, _ => some h.flipT
  | .sync, some n => if h.took then some n.at_ else none
  | _, _ => none

/-- Time from which line `line` is composable (R109). -/
def composableAt (s : State) (t : Timing) (f : Rat) (line : Nat) : Int :=
  if line ≤ 1 then panCycle (f - lineRat s t) else evalTime s t f (line - 2) (t.hactive - 1)

/-- A buffer shown bears POISON (R67). -/
def poisonBuf (s : State) (b : Taken) : State :=
  let c := s.ctx b.ctx
  if c.opening = b.opening then
    let k := c.buf b.buf
    s.setCtx b.ctx (c.setBuf b.buf { k with record := { k.record with causes := k.record.causes ||| 4 } })
  else s

/-- Lines that a vertical filter reads at a position, each once (R124). -/
def tapLines (pl : Plane) (vp : Int) : List Nat :=
  (List.range 6).foldl (fun l j => insertAsc l (clampI 0 ((pl.h : Int) - 1) (posInt vp - 2 + j)).toNat) []

/-- First and last sample that a horizontal filter reads from position `a` to position `b`. -/
def tapCols (pl : Plane) (a b : Int) : Nat × Nat :=
  let lo := (clampI 0 ((pl.w : Int) - 1) (posInt a - 3)).toNat
  let hi := (clampI 0 ((pl.w : Int) - 1) (posInt b + 4)).toNat
  if pl.dec then (2 * lo, 2 * hi + 1) else (lo, hi)

/-- Bytes of samples `x0` to `x1` of a line of a plane: address and length. -/
def planeBytes (pl : Plane) (x0 x1 y : Nat) : Nat × Nat :=
  (pl.base + (pl.y0 + y) * pl.stride + (pl.x0 + x0) * pl.bytes, (x1 - x0 + 1) * pl.bytes)

/-- What an output line of a slot fetches that the line before it did not (R109, R124): addresses and lengths. `u0`
and `u1` are the first and last visible column, `v` the window line, `first` that it is the part's first line. -/
def slotFetch (c : Ctx) (d : WinDef) (buf u0 u1 v : Nat) (first : Bool) : List (Nat × Nat) :=
  let p0 := plane0 c d buf
  if d.g.layer < 8 then
    let pos (u : Nat) : Int := scalePos p0.w d.g.w u
    let line (v : Nat) : Int := scalePos p0.h d.g.h v
    let rows (pl : Plane) (f : Int → Int) : List Nat :=
      (tapLines pl (f (line v))).filter (fun y => first || !(tapLines pl (f (line (v - 1)))).contains y)
    let (a, b) := tapCols p0 (pos u0) (pos u1)
    (rows p0 id).map (planeBytes p0 a b) ++
      (if fmtTwoPlane c.p.format then
        let p1 := plane1 c d buf
        let (a, b) := tapCols p1 (pos u0 / 2) (pos u1 / 2)
        (rows p1 (fun x => (chromaPos c.p.format 0 x).2)).map (planeBytes p1 a b)
      else [])
  else [planeBytes p0 u0 u1 v]

/-- The spans of a line that show a buffer: layer, first pixel, buffer, and what the line fetches of it. -/
def lineFetches (s : State) (i line : Nat) : List (Nat × Nat × Taken × List (Nat × Nat)) :=
  let h := s.head i
  let (px, py) := placeOf h.force
  h.force.slots.filterMap (fun k =>
    match spanStart h.force k line, tfind h.taken k.d.g.layer, slotPart h.force k with
    | some x0, some b, some r =>
      some (k.d.g.layer, x0, b, slotFetch (s.ctx b.ctx) k.d b.buf (px + x0 - k.d.g.x) (r.x1 - 1 - k.d.g.x) (py + line - k.d.g.y)
        (r.y0 == py + line))
    | _, _, _ => none)

/-- The fetches of the lines of head `i` whose time has come start, in the head's class (R109, R112); `fuel` lines at most. -/
def startFetches (i : Nat) : (fuel : Nat) → State → State
  | 0, s => s
  | f + 1, s =>
    let h := s.head i
    match h.gen, composeFlip h with
    | some t, some flip =>
      if h.fetched < t.vactive ∧ (h.fetched = 0 ∨ composableAt s t flip (h.fetched - 1) ≤ s.now) then
        startFetches i f ((lineFetches s i h.fetched).foldl (fun s e =>
          e.2.2.2.foldl (fun s r => post s i idPan r.1 r.2 false (.pan i e.1 h.fetched)) s)
          (s.setHead i { h with fetched := h.fetched + 1 }))
      else s
    | _, _ => s

/-- A transfer for layer `layer` of head `i` that line `line` needs. -/
def feeds (i layer line : Nat) : Purpose → Bool
  | .pan h k l => h == i && k == layer && decide (l ≤ line)
  | _ => false

/-- The slots of a head that lie in the group of pixels [x, x + n) of a line. -/
def groupSlots (h : Head) (line x n : Nat) : List Slot :=
  h.force.slots.filter (fun k => (List.range n).any (fun j => slotCovers h.force k line (x + j)))

/-- The lines of memory that the pixels [x, x + n) of a line take from a slot, rows of earlier lines of the frame among them. -/
def groupLines (s : State) (i line x n : Nat) (k : Slot) : List Nat :=
  let h := s.head i
  let (px, py) := placeOf h.force
  match tfind h.taken k.d.g.layer, slotPart h.force k with
  | some b, some r =>
    (slotFetch (s.ctx b.ctx) k.d b.buf (max (px + x) r.x0 - k.d.g.x) (min (px + x + n) r.x1 - 1 - k.d.g.x) (py + line - k.d.g.y)
      true).flatMap (fun q => (linesOf q.1 q.2).map (·.1))
  | _, _ => []

/-- A burst of head `i` that a group of line `line` needs from the layer of a slot, `lines` being those of `groupLines`. -/
def feedsGroup (i line : Nat) (k : Slot) (lines : List Nat) (r : SlotReq) : Bool :=
  feeds i k.d.g.layer line r.purpose && lines.contains r.line

/-- The bursts of head `i` that the group needs from a slot and that have not returned. -/
def awaitedBursts (s : State) (i line x n : Nat) (k : Slot) : List SlotReq :=
  let lines := groupLines s i line x n k
  (s.slots.queue ++ s.slots.flight.map (·.req)).filter (feedsGroup i line k lines)

/-- The source data of a group is present (R110). -/
def dataPresent (s : State) (i line x n : Nat) : Bool :=
  (groupSlots (s.head i) line x n).all (fun k => (awaitedBursts s i line x n k).isEmpty)

/-- Fetch bytes for a head under the pans' identity: denied lines count as zeros, and a denied or poisoned burst marks
the buffer (R67, R112). -/
def fetchRange (i : Nat) (b : Taken) (s : State) (r : Nat × Nat) : State :=
  let (l, s) := readPieces s idPan r.1 r.2 false
  let h := s.head i
  let s := s.setHead i { h with
    zeroed := h.zeroed ++ (l.filter (·.denied)).map (fun p => p.addr / 64) }
  if l.any (fun p => p.poison || p.denied) then poisonBuf s b else s

/-- The slots whose span starts in the group of pixels [x, x + n) of a line take what the line has fetched. -/
def fetchStarts (s : State) (i line x n : Nat) : State :=
  ((lineFetches s i line).filter (fun e => decide (x ≤ e.2.1) && decide (e.2.1 < x + n))).foldl (fun s e =>
    e.2.2.2.foldl (fetchRange i e.2.2.1) s) s

/-- The bursts of a slot that return later than the group that needs them count as zeros and as poison (R112). -/
def lateBursts (i line x n : Nat) (s : State) (k : Slot) : State :=
  let late := (awaitedBursts s i line x n k).map (·.line)
  match tfind (s.head i).taken k.d.g.layer with
  | some b =>
    if late.isEmpty then s
    else
      let h := s.head i
      let s := forgetReqs (s.setHead i { h with zeroed := h.zeroed ++ late }) (feedsGroup i line k late)
      raiseErr (poisonBuf s b) 0x0021 i h.frameCount line
  | none => s

/-- A line of a head whose next group is to be composed: the line and the group's first pixel. -/
def openLines (h : Head) : List (Nat × Nat) := [(h.nextLine, h.nextX), (h.nextLine + 1, h.aheadX)]

/-- Pixels of the head FIFO (R108). -/
def fifoSize : Nat := 16384

def fifoUsed (h : Head) : Nat := sumNat (h.fifo.map (·.px.length))

/-- A group that a pan may compose now: its line's due cycle, head, timing, flip, line and first pixel. -/
structure NextGroup where
  due : Int
  head : Nat
  t : Timing
  flip : Rat
  line : Nat
  x : Nat
  deriving DecidableEq, Repr

/-- The candidates of a head: its composable lines whose next group has its source data (R109, R110). -/
def headNextGroups (s : State) (i : Nat) (h : Head) : List NextGroup :=
  match h.gen, composeFlip h with
  | some t, some f =>
    (openLines h).filterMap (fun e =>
      let n := min 4 (t.hactive - e.2)
      if e.1 < t.vactive ∧ e.2 < t.hactive ∧ composableAt s t f e.1 ≤ s.now ∧ fifoUsed h + n ≤ fifoSize ∧
          dataPresent s i e.1 e.2 n = true then
        some ⟨evalTime s t f e.1 0, i, t, f, e.1, e.2⟩
      else none)
  | _, _ => []

/-- R110: the earliest line of a pan, of equal ones the head with the lower number. -/
def mostUrgent (s : State) (p : Nat) : Option NextGroup :=
  (s.heads.flatMap (fun e => if e.2.pan == some p then headNextGroups s e.1 e.2 else [])).foldl
    (fun (b : Option NextGroup) c => if b.elim true (fun x => decide (c.due < x.due)) then some c else b) none

/-- A group enters the head FIFO at its place (R108). -/
def enqueue (g : Group) : List Group → List Group
  | [] => [g]
  | a :: r => if g.line < a.line ∨ g.line = a.line ∧ g.x < a.x then g :: a :: r else a :: enqueue g r

/-- The head goes on to the group after pixel `x` of a line. -/
def advanceGroup (h : Head) (t : Timing) (line x : Nat) : Head :=
  if line = h.nextLine then
    if x + 4 < t.hactive then { h with nextX := x + 4 }
    else if h.aheadX < t.hactive then { h with nextLine := line + 1, nextX := h.aheadX, aheadX := 0 }
    else { h with nextLine := line + 2, nextX := 0, aheadX := 0 }
  else { h with aheadX := x + 4 }

/-- A group of a head enters its FIFO. -/
def pushGroup (s : State) (i : Nat) (t : Timing) (g : Group) : State :=
  let h := s.head i
  s.setHead i (advanceGroup { h with fifo := enqueue g h.fifo } t g.line g.x)

/-- A group that misses its due cycle: background, and COMPOSE_LATE once a line (R111). The frame count it names is
HEAD_FRAME_COUNT as it stands, for a group of line 0 found late before the flip that of the frame before (DESIGN CHOICE:
notes/assumptions/148.md). -/
def lateGroup (s : State) (i : Nat) (t : Timing) (line x : Nat) : State :=
  let n := min 4 (t.hactive - x)
  let s := (groupSlots (s.head i) line x n).foldl (lateBursts i line x n) (fetchStarts s i line x n)
  let h := s.head i
  let s := if h.lateLine = some line then s else raiseErr s 0x0020 i h.frameCount line
  let bg := wordColour t h.force.z.background
  pushGroup (s.setHead i { s.head i with lateLine := some line }) i t
    ⟨line, x, List.replicate n ⟨bg.a.toNat, bg.b.toNat, bg.c.toNat, []⟩⟩

/-- PAN cycles from unpack to the head FIFO (R117). -/
def pipeCycles : Nat := 43

/-- Compose a group (R110, R117). -/
def composeGroup (s : State) (k : NextGroup) : State :=
  let n := min 4 (k.t.hactive - k.x)
  if evalTime s k.t k.flip k.line k.x < s.now + pipeCycles * panT then lateGroup s k.head k.t k.line k.x
  else
    let s := fetchStarts s k.head k.line k.x n
    let h := s.head k.head
    pushGroup s k.head k.t ⟨k.line, k.x, (List.range n).map (fun j => composePixel s h k.t k.line (k.x + j))⟩

/-- The groups of the frame on the wire that have reached their due cycle without being composed (R111); `fuel` groups at most. -/
def missGroups (i : Nat) : (fuel : Nat) → State → State
  | 0, s => s
  | f + 1, s =>
    let h := s.head i
    match h.gen with
    | some t =>
      if h.phase = .active ∧ h.nextLine < t.vactive ∧ h.nextX < t.hactive ∧ evalTime s t h.flipT h.nextLine h.nextX ≤ s.now then
        missGroups i f (lateGroup s i t h.nextLine h.nextX)
      else s
    | none => s

/-- A head's part of a pan up to now: fetches start, groups miss their due cycle, and groups leave the FIFO (R108 to R112). -/
def pump (s : State) (i : Nat) : State :=
  match (s.head i).gen with
  | some t => drain (missGroups i (t.vactive * t.hactive) (startFetches i t.vactive s)) i
  | none => s

/-- GROUP_COMPOSE (R110): one group of a pan on a PAN cycle. -/
def execGroupCompose (p : Fin 4) (s : State) : Host.Outcome State Fault Refusal :=
  let s := (panHeads s p.val).foldl pump s
  let q := s.pan p.val
  match mostUrgent s p.val with
  | none => .next s
  | some k =>
    if q.composedAt = some (s.now / panT) then .next s
    else .next (drain (composeGroup (s.setPan p.val { q with composedAt := some (s.now / panT) }) k) k.head)

end Sys2Proof.Machine
end

