-- ==== Sys2Proof/Machine/Heads.lean ====
section
/-! DEFINITION. Heads: commits (R149 to R153), the frame cycle (R141 to R165), and the commands HEAD_SET_TIMING,
HEAD_COMMIT, HEAD_TWIN, HEAD_STATE_QUERY and HEAD_ENABLE (spec/05). -/

namespace Sys2Proof.Machine

/-! ### Commit checks and arming (R140, R149, R150) -/

/-- Windows of the shadow that meet a named head, by ascending number. -/
def commitWindows (s : State) (heads : List Nat) : List (Nat × WinDef × CtxParams) :=
  s.wins.filterMap (fun e =>
    if heads.any (fun h => winMeets (s.head h).shadow e.2.g) then
      (e.2.g.context.bind (openCtx s)).map (fun c => (e.1, e.2, c.p))
    else none)

/-- The checks of R140 in their order, with their statuses. -/
def commitChecks : List ((WinDef → CtxParams → Bool) × Nat) :=
  [(fun d p => layerAccepts d.g.layer p.format, stBadParam),
   (fun d p => cropInside d p.format p.width p.height, stBadParam),
   (fun d p => ratiosOk d p.width p.height, stBadParam),
   (fun d p => cropFits d p.width p.height, stLinebufShort)]

/-- R140: the first failing check and the lowest window that fails it. -/
def commitFault (s : State) (heads : List Nat) : Option (Nat × Nat) :=
  let ws := commitWindows s heads
  commitChecks.findSome? (fun c => (ws.find? (fun w => !c.1 w.2.1 w.2.2)).map (fun w => (c.2, w.1)))

/-- The slots of a head at an arm: the windows that meet it, bound to the openings that the checks judged (R134,
R207), with the latest HOST buffer (R154). -/
def armSlots (s : State) (b : Bank) : List Slot :=
  s.wins.filterMap (fun e =>
    if winMeets b e.2.g then
      let c := e.2.g.context.bind (openCtx s)
      some ⟨e.1, e.2, c.map (·.opening), c.bind (fun c => if isHost c.p then c.latest else none)⟩
    else none)

/-- A head's whole shadow, as an arm copies it. -/
def armBank (s : State) (h : Nat) : Bank := { (s.head h).shadow with slots := armSlots s (s.head h).shadow }

/-- COMMIT_APPLIED (R169, R424). -/
def postApplied (s : State) (h seq sup first : Nat) (t : Ticks) : State :=
  postHw s 0x10 (headVector h) t
    ([byte h, byte (min sup 255), 0#8, 0#8] ++ leBytes 4 seq ++ [byte first])

/-- The flags of sealed regions that a bank no longer holds are cleared; their fence stays until the next flip (R96,
R316). -/
def dropSeals (s : State) (i : Nat) (b : Bank) : State :=
  let h := s.head i
  let flags := maskOf ((bitsOf 8 h.sealFlags).filter (fun r => thas b.seals r))
  if flags = h.sealFlags then s
  else postFence (s.setHead i { keepFences s.fences h with sealFlags := flags }) s.pt 2 0 flags i 0

/-! ### The tables of the gauges (R77, R78) -/

/-- What a bank's slots put into the tables of the gauges, by 16 × head + layer. -/
def gaugeEntries (i : Nat) (b : Bank) : Tab GaugeEntry :=
  b.slots.map (fun k => (16 * i + k.d.g.layer, ⟨k.win, k.d.g, k.d.pol, k.d.groups⟩))

/-- A channel's table with the entries of head `i` replaced. -/
def loadTable (i : Nat) (l : Tab GaugeEntry) (t : GaugeTable) : GaugeTable :=
  { t with wins := l.foldl (fun w e => tset w e.1 e.2) (t.wins.filter (fun e => e.1 / 16 != i)) }

/-- All three channels of a pan. -/
def Pan.mapChans (f : Gauge → Gauge) (q : Pan) : Pan := { q with a := f q.a, b := f q.b, c := f q.c }

/-- The three channels of the head's pan load the windows of a bank on the same cycle (R78); no other pan keeps any of the head. -/
def loadGauges (s : State) (i : Nat) (b : Bank) : State :=
  (List.range 4).foldl (fun s p =>
    let l := if (s.head i).pan = some p then gaugeEntries i b else []
    s.setPan p ((s.pan p).mapChans (fun g => { g with table := loadTable i l g.table }))) s

/-- A bank comes into force on a head; a slot that leaves its layer loses its pin (R115). -/
def applyBank (s : State) (i : Nat) (seq : Nat) (b : Bank) : State :=
  let h := s.head i
  let kept (e : Nat × Taken) : Bool := b.slots.any (fun x => x.d.g.layer == e.1 && x.win == e.2.win)
  dropSeals (loadGauges (s.setHead i { h with
    force := b, forceSeq := seq, taken := h.taken.filter kept, kept := h.kept.filter kept,
    before := if h.st = .disabled then none else some (if h.flippedForce then h.force else h.before.getD h.force),
    flippedForce := h.st = .disabled }) i b) i b

/-- A commit applies on a DISABLED head, on its arm cycle (R150). -/
def applyDisabled (s : State) (i seq sup : Nat) (b : Bank) (t : Ticks) : State :=
  postApplied (applyBank s i seq b) i seq sup 1 t

/-- Arm a commit that names `heads`: it takes the next commit sequence and applies at once on DISABLED heads (R149,
R150). The answer is its sequence. DESIGN CHOICE: 0 follows 2^32 - 1 (notes/assumptions/117.md). -/
def armCommit (s : State) (heads : List Nat) : Nat × State :=
  let seq := s.commitSeq
  let banks := heads.map (fun h => (h, armBank s h))
  let s := { s with commitSeq := if seq + 1 = 2 ^ 32 then 0 else seq + 1 }
  let s := banks.foldl (fun s e =>
    let h := s.head e.1
    if h.st = .disabled then applyDisabled s e.1 seq 0 e.2 s.pt
    else s.setHead e.1 { h with armed := h.armed ++ [⟨seq, s.now, e.2⟩] }) s
  (seq, releaseContexts (releaseChannels s))

/-- The heads that a mask names, with the partners of twinned heads (R153, R162). -/
def namedHeads (s : State) (mask : Nat) : List Nat :=
  (bitsOf 32 mask).foldl (fun l h => (withTwin s h).foldl insertAsc l) []

/-- HEAD_COMMIT (R153). -/
def cmdHeadCommit (heads : Nat) (s : State) : Reply :=
  if heads = 0 then refuse s stBadParam
  else
    let l := namedHeads s heads
    match commitFault s l with
    | some (st, w) => ⟨s, st, leBytes 2 w⟩
    | none =>
      let t := s.pt
      let (seq, s) := armCommit s l
      ok s (leBytes 4 seq ++ leBytes 4 (timeNs t) ++ leBytes 6 (timeS t) ++ zeros 2)

def execHeadCommit (c : Caller) (heads : Nat) (s : State) : Host.Outcome State Fault Refusal :=
  .next (command c 0x0302 (cmdHeadCommit heads) s)

/-! ### HEAD_SET_TIMING (R143, R144) -/

/-- The cases of R144 that concern the timing alone, of R106, R88 and R142. -/
def timingFields (t : Timing) (num den : Nat) : Bool :=
  let hb := t.hfp + t.hsync + t.hbp
  let rate := rateNum t num
  decide (1 ≤ t.mult) && decide (t.mult ≤ 4) && decide (t.matrix ≤ 2) &&
    decide (64 ≤ t.hactive) && decide (t.hactive ≤ 7680) && decide (48 ≤ t.vactive) && decide (t.vactive ≤ 4320) &&
    decide (64 ≤ hb) && decide (ceilDiv (48 * rate) (1200000000 * den) ≤ hb) &&
    decide (1 ≤ t.hsync) && decide (1 ≤ t.vsync) && decide (1 ≤ t.vfpMin) && decide (2 ≤ t.vsync + t.vbp) &&
    decide (t.vfpMin ≤ t.vfpNom) && decide (t.vfpNom ≤ t.vfpMax) &&
    decide (t.vactive + t.vfpMax + t.vsync + t.vbp ≤ 4 * vtotalNom t) &&
    decide (1024 * rate ≤ needLines t * htotal t * 1200000000 * den) &&
    decide (25000000 * den ≤ rate) && decide (rate ≤ 2400000000 * den) &&
    decide ((bitsOf 12 t.waitMask).length ≤ 4) && decide (t.waitMask < 4096) && decide (t.phaseLines < vtotalNom t) &&
    decide (t.hfp < 65536) && decide (t.hsync < 65536) && decide (t.hbp < 65536)

/-- Sum of the pixel rates of a pan's shadow timings, times DEN (R34 check 3, R144). -/
def panRate (s : State) (p : Nat) : Nat :=
  sumNat ((panHeads s p).map (fun h => (s.head h).shadow.timing.elim 0 (fun t => rateNum t s.tide.num)))

/-- A head that HEAD_SET_TIMING and HEAD_ENABLE may name (R104, R176). -/
def headUsable (s : State) (h : Nat) : Bool :=
  decide (h ≤ 31) && (s.head h).pan.isSome && (s.head h).link.mapped

/-- HEAD_SET_TIMING. -/
def cmdHeadSetTiming (p : HeadSetTimingP) (s : State) : Reply :=
  let l := withTwin s p.head
  let s' := modHeads s l (fun _ h => { h with shadow := { h.shadow with timing := some p.t } })
  if !l.all (headUsable s) || !timingFields p.t s.tide.num s.tide.den then refuseFull s stBadParam 15
  else if !l.all (fun h => carries p.t s.tide.num s.tide.den (mappedLanes (s.head h).link) (s.head h).link.maxRate) then
    refuseFull s stBadParam 15
  else if l.any (fun h => decide (4800000000 * s.tide.den < panRate s' ((s.head h).pan.getD 0))) then
    refuseFull s stPanOverload 15
  else if l.any (fun h => decide (classSupply s' h < headDemand s' (s'.head h).shadow)) then
    refuseFull s stBudget 15
  else if timingBreaksTap s l p.t then refuseFull s stBusy 15
  else ok s' (leBytes 8 (rateNum p.t s.tide.num * 1000 / s.tide.den))

def execHeadSetTiming (c : Caller) (p : HeadSetTimingP) (s : State) : Host.Outcome State Fault Refusal :=
  .next (command c 0x0301 (cmdHeadSetTiming p) s)

/-! ### HEAD_TWIN (R161) -/

def cmdHeadTwin (p : HeadTwinP) (s : State) : Reply :=
  let a := 2 * p.pair
  let ha := s.head a
  let hb := s.head (a + 1)
  if 15 < p.pair ∨ ha.pan = none ∨ hb.pan = none then refuse s stBadParam
  else if ha.st ≠ .disabled ∨ hb.st ≠ .disabled then refuse s stBusy
  else if ha.pan ≠ hb.pan then refuse s stLimit
  else
    let timing := if p.twin then ha.shadow.timing else hb.shadow.timing
    ok ((s.setHead a { ha with twin := p.twin }).setHead (a + 1)
      { hb with twin := p.twin, shadow := { hb.shadow with timing := timing } })

def execHeadTwin (c : Caller) (p : HeadTwinP) (s : State) : Host.Outcome State Fault Refusal :=
  .next (command c 0x0303 (cmdHeadTwin p) s)

/-! ### The start of a blanking and the end of a frame (R75, R165, R168) -/

/-- VERDICT_CHANGE of one window (R75, R424). -/
def verdictChange (i : Nat) (h : Head) (t : Ticks) (s : State) (e : Nat × WinFrame) : State :=
  let old := ((tfind h.done e.1).map (·.verdict)).getD 0
  if e.2.verdict = old then s
  else postHw s 0x01 3 t (leBytes 2 e.1 ++ [byte i, byte (old + 8 * e.2.verdict)] ++ leBytes 2 e.2.causes ++
    leBytes 2 e.2.firstLine ++ leBytes 4 e.2.frameCount)

/-- The frame of a head has ended: its verdict events and summary (R75, R168). -/
def frameEnd (s : State) (i : Nat) : State :=
  let h := s.head i
  match h.gen with
  | none => s
  | some t =>
    if blackFrame h then s.setHead i { h with spans := [] }
    else
      let last := h.flipT + natRat ((t.vactive - 1) * htotal t + t.hactive - 1) * pixelRat s t
      let s := s.setHead i { h with
        done := h.spans, spans := [],
        sumVerdict := maxNat (h.spans.map (·.2.verdict)),
        sumNotLive := min 12 (h.spans.filter (fun e => e.2.verdict != 0)).length,
        sumCauses := h.spans.foldl (fun m e => m ||| e.2.causes) 0 }
      h.spans.foldl (verdictChange i h (tbAt s (panCycle last))) s

/-- The commits of a head that may apply at a latch edge now: those armed at least 64 PAN cycles ago (R150). -/
def ripe (s : State) (h : Head) : List Armed := h.armed.filter (fun a => decide (a.cycle + 64 * panT ≤ s.now))

/-- The armed commits of a head apply at its latch edge: only the one armed last (R150, R151). -/
def applyRipe (s : State) (i : Nat) (t : Ticks) : State :=
  let h := s.head i
  match (ripe s h).getLast? with
  | none => s
  | some a =>
    let n := (ripe s h).length
    let s := applyBank (s.setHead i { h with armed := h.armed.drop n }) i a.seq a.bank
    postApplied s i a.seq (n - 1) ((h.frameCount + 1) % 2 ^ 32) t

/-- A head stops: its stream, its pins, its frame; commits still armed apply at once (R150, R165). -/
def stopHead (s : State) (i : Nat) : State :=
  let s := closeClamps s i
  let h := s.head i
  let s := s.setHead i { h with
    st := .disabled, phase := .stopped, disableSched := false, gen := none, porchEnded := false, realign := none,
    fixed := none, next := none, took := false, mc := .none, contentFrom := none, taken := [], kept := [], shown := [],
    fence := {}, spans := [], link := dropLink h.link, fifo := [], nextLine := 0, nextX := 0, aheadX := 0, fetched := 0,
    lateLine := none, taps := [], zeroed := [], words := [], vrrOn := false, before := none, flippedForce := true, armed := [] }
  match h.armed.getLast? with
  | none => s
  | some a => applyDisabled s i a.seq (h.armed.length - 1) a.bank s.pt

/-- What a new timing in force asks of a head (R145). -/
inductive TimingChange where
  | none
  | seamless
  | phase
  | mode
  deriving DecidableEq, Repr

def timingChange (old new : Option Timing) : TimingChange :=
  match old, new with
  | some a, some b =>
    if a = b then .none
    else
      let c := { b with vfpMin := a.vfpMin, vfpMax := a.vfpMax, vrrEn := a.vrrEn, waitMask := a.waitMask }
      if c = a then .seamless
      else if { c with phaseLines := a.phaseLines } = a then .phase
      else .mode
  | _, _ => .none

/-- The generator takes the timing in force. -/
def takeTiming (s : State) (i : Nat) : State :=
  evalVrr (s.setHead i { s.head i with gen := (s.head i).force.timing }) i

/-- MODE_CHANGE event (R169, R424). -/
def postMode (s : State) (i : Nat) (ended : Bool) : State :=
  postFw s 0x13 1 none [byte i, byte (b2n ended), byte (stateCode (s.head i).st)]

/-- The head shows content or is about to: a mode change of it follows R163 or R164. -/
def streaming (h : Head) : Bool := h.st == .running || h.st == .modeChange

/-- R164: the link in use does not carry the timing in force. -/
def uncarried (s : State) (i : Nat) : Bool :=
  let h := s.head i
  !h.force.timing.elim true (fun t => carries t s.tide.num s.tide.den h.link.lanes h.link.rate)

/-- A head with a stream whose new timing needs another link rate (R164). -/
def needsRetrain (s : State) (i : Nat) : Bool :=
  streaming (s.head i) && (s.head i).link.link == 2 && uncarried s i

def setFixed (s : State) (i : Nat) (f : Fixed) : State := s.setHead i { s.head i with fixed := some f }

/-- A head without a stream whose new timing is in force trains for it: one in LINK_FAILED (R185), one in training, and one whose
link does not carry it. -/
def retrainFor (s : State) (i : Nat) : State :=
  let h := s.head i
  if h.st = .linkFailed then startTrainingFor (linkState s i .training) i h.force.timing
  else if h.link.link = 1 then startTrainingFor s i h.force.timing
  else if h.link.link = 2 ∧ uncarried s i = true then startTrainingFor (linkState s i .training) i h.force.timing
  else s

/-- A mode change that keeps the link rate begins on a head (R163). -/
def beginMode (s : State) (i : Nat) : State :=
  let s := s.setHead i { s.head i with mc := .blackNext }
  if streaming (s.head i) then postMode (setState s i .modeChange) i false else retrainFor s i

/-- A mode change takes the new timing at its latch edge: with a retraining (R164), or on a head without a stream
(R145, R185). -/
def modeAtOnce (s : State) (i : Nat) : State :=
  let s := setFixed (takeTiming s i) i ⟨0, false⟩
  if streaming (s.head i) then
    let s := postMode (setState s i .training) i false
    startTraining (s.setHead i { s.head i with mc := .retrain }) i
  else retrainFor s i

/-- The timing consequences of a latch edge for a group of heads, of which `changes` says what their new timings ask
(R145, R148, R163). DESIGN CHOICE: where the link of one head of a twinned pair needs another rate, both retrain
(notes/assumptions/116.md). A mode change that applies at E2 of another one starts over, and for a head in
LINK_FAILED a commit is a new timing when R145 makes it a mode change (DESIGN CHOICE: notes/assumptions/149.md). -/
def latchTiming (s : State) (l : List Nat) (changes : List TimingChange) : State :=
  if changes.contains .mode then
    if l.any (fun i => streaming (s.head i)) && !l.any (needsRetrain s) then l.foldl beginMode s
    else l.foldl modeAtOnce s
  else if l.any (fun i => (s.head i).mc == .black) then
    l.foldl (fun s i => setFixed ((takeTiming s i).setHead i { (takeTiming s i).head i with mc := .toContent }) i ⟨0, false⟩) s
  else if changes.contains .phase then
    l.foldl (fun s i => setFixed (takeTiming s i) i ⟨0, true⟩) s
  else if changes.contains .seamless then
    l.foldl (fun s i => if (s.head i).mc = .blackNext then s else takeTiming s i) s
  else s

/-- Phase offset of a head from the tide, as a time (R88). -/
def phaseOffset (s : State) (i : Nat) : Rat :=
  (s.head i).gen.elim 0 (fun t => natRat t.phaseLines * lineRat s t)

/-- The earliest head of a pan: the enabled head with the smallest phase offset, the lowest among equals (R88). -/
def earliestHead (s : State) (p : Nat) : Option Nat :=
  ((panHeads s p).filter (fun i => (s.head i).st != .disabled)).foldl (fun b i =>
    match b with
    | none => some i
    | some k => if phaseOffset s i < phaseOffset s k then some i else some k) none

/-- A latch edge of the pan restarts a state copy in progress (R86). -/
def restartCopy (now : Ticks) (g : Gauge) : Gauge :=
  { g with copying := g.copying.map (fun c => { c with start := now }) }

/-- The latch edge of a head at the gauges of its pan: copies restart, and the salinity pass of the tide is due 512 PAN
cycles after the first latch edge of the earliest head (R88). -/
def gaugeLatch (s : State) (i : Nat) : State :=
  match (s.head i).pan with
  | none => s
  | some p =>
    let q := s.pan p
    let q := q.mapChans (restartCopy s.now)
    let due := !q.salDone && q.salDue.isNone && earliestHead s p == some i
    s.setPan p (if due then { q with salDue := some (s.now + 512 * panT), salDueTide := s.tide.count, salDone := true } else q)

/-- Selections of trim sets that wait for a latch edge of a head come into force (R485, R487): `which` picks them. -/
def releaseDeferred (s : State) (which : NvmRec → Bool) : State :=
  let d := s.trim.deferred.filter (fun e => which e.2)
  { s with trim := { s.trim with
    sets := d.foldl (fun t e => tset t e.1 e.2) s.trim.sets,
    deferred := s.trim.deferred.filter (fun e => !which e.2) } }

/-- The latch edge of one head at time `t`: verdict events of the ended frame, the commit that applies, the gauges. -/
def latchHead (t : Ticks) (s : State) (i : Nat) : State := gaugeLatch (applyRipe (frameEnd (pump s i) i) i t) i

/-- What the packer inserts in the vertical blanking that begins on a head whose link is up: the main stream attributes, and the
Adaptive-Sync packet while the head uses variable blanking (R184, R187). -/
def sendBlanking (s : State) (i : Nat) : State :=
  let h := s.head i
  match h.gen with
  | some t =>
    if h.link.link = 2 then
      let s := s.emit (.mainStream i (htotal t, vtotalNom t) (t.hsync + t.hbp, t.vsync + t.vbp) ((t.hsync, t.hpol), (t.vsync, t.vpol))
        (t.hactive, t.vactive) (if t.depth then 10 else 8) t.colour t.matrix t.range (rateNum t s.tide.num, s.tide.den))
      if h.vrrOn then s.emit (.adaptiveSync i) else s
    else s
  | none => s

/-- The start of blanking on a head group that has been enabled is a latch edge (R165). -/
def startBlanking (s : State) (l : List Nat) : State :=
  let old := l.map (fun i => (s.head i).force.timing)
  let s := l.foldl (latchHead s.pt) s
  let s := l.foldl (fun s i =>
    let s := takeTiming s i
    let h := s.head i
    s.setHead i { h with
      phase := .blanking, base := natRat s.now, next := none, took := false, fixed := none, realign := none,
      contentFrom := if h.st = .starting then
        h.gen.map (fun t => natRat s.now + natRat (needLines t) * lineRat s t) else none }) s
  let s := (l.zip old).foldl (fun s e =>
    if timingChange e.2 (s.head e.1).force.timing = .mode then retrainFor s e.1 else s) s
  releaseContexts (releaseChannels (l.foldl sendBlanking s))

/-- A head has its link, or will not get one for now. -/
def settled (h : Head) : Bool := h.st != .disabled && (h.st != .starting || h.link.link == 2)

/-- An enabled head group whose generator does not run yet starts its blanking once each of its heads is settled, unless the
pans are stopped (R497). -/
def settle (s : State) (i : Nat) : State :=
  let l := withTwin s i
  if !memoryRests s && l.all (fun k => (s.head k).phase == .stopped && settled (s.head k)) then startBlanking s l else s

/-! ### HEAD_ENABLE (R165) -/

/-- Enable one DISABLED head: its link is brought up when a sink is present. -/
def enableOne (s : State) (i : Nat) : State :=
  let h := s.head i
  let s := s.setHead i { h with
    st := .starting, frameCount := 0, gen := h.force.timing, mc := .none, contentFrom := none, disableSched := false }
  if h.link.sink.isSome then startTraining s i
  else linkState (s.setHead i { s.head i with st := .disabled }) i .unplugged

/-- Stop a head: at once when its generator has not started, else at its next latch edge. -/
def disableOne (s : State) (i : Nat) : State :=
  let h := s.head i
  if h.st = .disabled then s
  else if h.phase = .stopped then stopHead s i
  else s.setHead i { h with disableSched := true }

def cmdHeadEnable (p : HeadEnableP) (s : State) : Reply :=
  let l := withTwin s p.head
  if !l.all (headUsable s) then refuse s stBadParam
  else if p.enable && l.any (fun i => (s.head i).force.timing.isNone) then refuse s stBadParam
  else
    let s := modHeads s l (fun _ h => { h with flipEvents := p.flipEvents })
    if p.enable then
      let s := l.foldl (fun s i =>
        if (s.head i).st = .disabled then enableOne s i
        else s.setHead i { s.head i with disableSched := false }) s
      ok (settle s p.head)
    else ok (releaseContexts (releaseChannels (l.foldl disableOne s)))

def execHeadEnable (c : Caller) (p : HeadEnableP) (s : State) : Host.Outcome State Fault Refusal :=
  .next (command c 0x0305 (cmdHeadEnable p) s)

/-! ### The latch edge (R141, R150, R163, R165) -/

/-- Exact time of the latch edge of the frame in progress. -/
def latchAt (s : State) (h : Head) : Option Rat :=
  match h.phase, h.gen with
  | .active, some t => some (h.flipT + natRat t.vactive * lineRat s t)
  | _, _ => none

/-- A group of heads passes its latch edge at exact time `e`. -/
def latchGroup (s : State) (l : List Nat) (e : Rat) : State :=
  let old := l.map (fun i => (s.head i).force.timing)
  let s := l.foldl (latchHead (tbAt s (panCycle e))) s
  if l.any (fun i => (s.head i).disableSched) then l.foldl stopHead s
  else
    let s := modHeads s l (fun _ h => { h with
      phase := .porch, base := e, porchLines := 0, porchEnded := false, next := none, took := false,
      fixed := h.realign.map (fun t => ⟨t, true⟩), realign := none })
    let s := latchTiming s l ((l.zip old).map (fun e => timingChange e.2 (s.head e.1).force.timing))
    l.foldl sendBlanking (modHeads s l (fun i h => { h with porchVrr := groupVrr s i }))

/-- HEAD_LATCH_EDGE (R150). The row acts on both heads of a twinned pair (R162). -/
def execHeadLatchEdge (h : Fin 32) (s : State) : Host.Outcome State Fault Refusal :=
  match latchAt s (s.head (leadOf s h.val)) with
  | some e =>
    if isDue s e then
      let l := withTwin s h.val
      .next (releaseContexts (releaseChannels (releaseDeferred (latchGroup s l e)
        (fun r => r.item == 4 && l.any (fun i => dplOf (s.head i).link 0 ≤ r.index &&
          r.index < dplOf (s.head i).link 0 + mappedLanes (s.head i).link)))))
    else .next s
  | none => .next s

/-! ### The front porch (R147, R156 to R159) -/

/-- FRONT_PORCH_END (R147, R148): the porch ends, and the flip that follows is fixed. -/
def execFrontPorchEnd (h : Fin 32) (s : State) : Host.Outcome State Fault Refusal :=
  match blankingEnd s h.val, (s.head (leadOf s h.val)).gen with
  | some n, some t =>
    if isDue s (porchEndAt s t n) then
      .next (modHeads s (withTwin s h.val) (fun _ h =>
        { h with phase := .sync, next := some n, took := false, porchEnded := true, porchLines := n.lines,
                 timeout := h.timeout && h.porchEnded }))
    else .next s
  | _, _ => .next s

/-- A complete buffer of a context with a higher SEQ than the one taken is visible in the PAN domain at `t` (R157). -/
def newerVisible (c : Ctx) (seq : Option Nat) (t : Ticks) : Bool :=
  c.bufs.any (fun e => e.2.complete && decide (e.2.visible ≤ t) &&
    (match seq with | some q => decide (q < e.2.record.seq) | none => true))

/-- R157: the slot of a WAIT layer is ready at PAN cycle `t`. -/
def slotReady (s : State) (h : Head) (t : Ticks) (x : Slot) : Bool :=
  match x.d.g.context, x.opening with
  | some n, some o =>
    let c := s.ctx n
    if c.state = .opened ∧ c.opening = o ∧ c.isolated = false then
      let prev := (tfind h.taken x.d.g.layer).filter (fun t => t.ctx == n && t.opening == o)
      if isHost c.p then
        (match x.host, prev with
          | some b, some t => b != (t.buf, t.record)
          | some _, none => true
          | none, _ => false)
      else newerVisible c (prev.map (·.record.seq)) t
    else true
  | _, _ => true

/-- Every WAIT layer of a head is ready at PAN cycle `t`. -/
def waitReady (s : State) (t : Ticks) (i : Nat) : Bool :=
  let h := s.head i
  match h.gen with
  | none => true
  | some g => h.force.slots.all (fun x => !g.waitMask.testBit x.d.g.layer || slotReady s h t x)

/-- The front porch of a group that uses variable blanking and has not ended it yet: the timing, the lines that lie before the
boundary whose PAN cycle this is, and that cycle. The end of the VFP_MAX-th line stays the boundary until the porch ends there
(notes/assumptions/136.md). -/
def openPorch (s : State) (i : Nat) : Option (Timing × Nat × Ticks) :=
  let h := s.head (leadOf s i)
  match h.gen with
  | some t =>
    if h.phase = .porch ∧ h.fixed = none ∧ h.porchEnded = false ∧ h.porchVrr = true ∧ h.base ≤ natRat s.now then
      let k := min t.vfpMax ((natRat s.now - h.base) / lineRat s t).floor.toNat
      let b := panCycle (h.base + natRat k * lineRat s t)
      if s.now < b + panT ∨ k = t.vfpMax then some (t, k, b) else none
    else none
  | none => none

/-- VRR_LINE_BOUNDARY (R156): the porch ends after `k` lines when the conditions hold, or at VFP_MAX with every WAIT
layer ready. -/
def execVrrLineBoundary (h : Fin 32) (s : State) : Host.Outcome State Fault Refusal :=
  match openPorch s h.val with
  | some (t, k, b) =>
    let x := s.head (leadOf s h.val)
    let flip := x.base + natRat (k + backLines t) * lineRat s t
    let early := decide (t.vfpMin ≤ k) && ((ownAnchor s t x).elim false (fun a => decide (a.at_ ≤ natRat (panCycle flip))))
    if (early || decide (t.vfpMax ≤ k)) && (withTwin s h.val).all (waitReady s b) then
      .next (modHeads s (withTwin s h.val) (fun _ h => { h with porchEnded := true, porchLines := k, timeout := false }))
    else .next s
  | none => .next s

/-- WAIT_TIMEOUT (R158). -/
def execWaitTimeout (h : Fin 32) (s : State) : Host.Outcome State Fault Refusal :=
  match openPorch s h.val with
  | some (t, k, b) =>
    if t.vfpMax ≤ k ∧ (withTwin s h.val).all (waitReady s b) = false then
      .next (modHeads s (withTwin s h.val) (fun _ h =>
        { h with porchEnded := true, porchLines := k, timeout := true, waitTimeouts := sat32 h.waitTimeouts }))
    else .next s
  | none => .next s

/-! ### The take point (R113 to R116, R160) -/

/-- The complete buffer with the highest SEQ that is visible (R113). -/
def bestBuffer (s : State) (c : Ctx) : Option (Nat × FreshRecord) :=
  c.bufs.foldl (fun b e =>
    if e.2.complete && decide (e.2.visible ≤ s.now) &&
        (match b with | some x => decide (x.2.seq < e.2.record.seq) | none => true)
    then some (e.1, e.2.record) else b) none

/-- The buffer that a slot takes at a take point, when it has one (R113, R116, R207). -/
def slotTake (s : State) (x : Slot) : Option (Nat × Nat × Nat × FreshRecord) :=
  match x.d.g.context, x.opening with
  | some n, some o =>
    let c := s.ctx n
    if c.state = .opened ∧ c.opening = o ∧ c.isolated = false then
      (if isHost c.p then x.host else bestBuffer s c).map (fun b => (n, o, b.1, b.2))
    else none
  | _, _ => none

/-- A freshness record read as poison or found uncorrectable is counted and raised as a control read (R378, R379). -/
def noteRecord (s : State) (r : RecordRead) : State :=
  noteOutcome s r.line true (r.synd.elim .poison .uncorrectable)

/-- The layer slots of a head take their buffers, and the fetch of line 0 may start (R109). A slot that takes none keeps the pin
that it has (R115). `bad` are the record reads that failed (R379). -/
def takeHead (bad : List RecordRead) (s : State) (i : Nat) : State :=
  let h := s.head i
  let l := h.force.slots.filterMap (fun x => (slotTake s x).map (fun b =>
    (x.d.g.layer, (⟨x.win, b.1, b.2.1, b.2.2.1, b.2.2.2, bad.any (fun r => r.win == x.win)⟩ : Taken))))
  let s := l.foldl (fun s e => (bad.find? (fun r => r.win == e.2.win)).elim s (noteRecord s)) s
  let old := h.kept ++ h.taken.filter (fun e => !thas h.kept e.1)
  let s := forget s (fun p => match p with
    | .pan k _ _ => k == i
    | _ => false)
  pump (s.setHead i { h with
    taken := l.foldl (fun t e => tset t e.1 e.2) [], kept := old.filter (fun e => !l.any (fun x => x.1 == e.1)), took := true,
    fifo := [], nextLine := 0, nextX := 0, aheadX := 0, fetched := 0, lateLine := none, zeroed := [] }) i

/-- TAKE_POINT (R113, R160): two line times before the flip. -/
def execTakePoint (h : Fin 32) (bad : List RecordRead) (s : State) : Host.Outcome State Fault Refusal :=
  let x := s.head (leadOf s h.val)
  match x.next, x.gen with
  | some n, some t =>
    if x.took = false ∧ isDue s (n.at_ - 2 * lineRat s t) = true then
      .next (releaseContexts ((withTwin s h.val).foldl (takeHead bad) s))
    else .next s
  | _, _ => .next s

/-! ### The flip (R141, R163 to R166) -/

/-- The head's mode change, start or retraining moves on at a flip (R163, R164, R165, R185). -/
def flipProgress (n : NextFlip) (s : State) (i : Nat) : State :=
  let h := s.head i
  let start := h.st == .starting && n.j == 0 && h.contentFrom.elim false (fun c => decide (c ≤ n.anchor))
  match h.mc with
  | .blackNext => s.setHead i { h with mc := .black }
  | .toContent =>
    let s := s.setHead i { h with mc := .none }
    if h.st = .modeChange then postMode (setState s i .running) i true else s
  | .retrainBlack =>
    let s := s.setHead i { h with mc := .none }
    if h.st = .starting then postMode (linkState s i .running) i true else s
  | .retrain => if start then s.setHead i { h with mc := .retrainBlack, contentFrom := none } else s
  | _ => if start then linkState (s.setHead i { h with contentFrom := none }) i .running else s

/-- One head flips (R166, R169, R96). -/
def flipHead (n : NextFlip) (t : Ticks) (s : State) (i : Nat) : State :=
  let h := s.head i
  let late := decide (panCycle n.anchor < panCycle n.at_)
  let h' : Head := { h with
    phase := .active, next := none, took := false, frameCount := (h.frameCount + 1) % 2 ^ 32, flipAt := t,
    flipT := n.at_, ownTide := n.tide, ownJ := n.j, appliedSeq := h.forceSeq, late := late,
    lateFlips := if late then sat32 h.lateFlips else h.lateFlips, lastVfp := n.lines % 65536, shown := h.taken,
    fence := {}, spans := [], words := [], sealDone := 0, taps := [], before := none, flippedForce := true }
  let s := s.setHead i h'
  let s := if h.flipEvents then
      postHw s 0x11 (headVector i) t ([byte i, byte (b2n late + 2 * b2n h.timeout)] ++ leBytes 2 h'.lastVfp ++
        [byte h'.frameCount, 0#8, 0#8, 0#8, byte h'.appliedSeq]) else s
  let s := if n.realign then
      postFw s 0x12 1 (some t) ([byte i, 0#8] ++ leBytes 2 h'.lastVfp ++ leBytes 4 (s.tide.count % 2 ^ 32)) else s
  flipProgress n s i

/-- HEAD_FLIP (R141). -/
def execHeadFlip (h : Fin 32) (s : State) : Host.Outcome State Fault Refusal :=
  let x := s.head (leadOf s h.val)
  match x.next, x.gen with
  | some n, some _ =>
    if x.took = true ∧ isDue s n.at_ = true then
      .next ((withTwin s h.val).foldl (flipHead n (tbAt s (panCycle n.at_))) s)
    else .next s
  | _, _ => .next s

/-! ### HEAD_STATE_QUERY (R166, R168, R170) -/

/-- HEAD_STATE (R168). -/
def headStateWord (h : Head) : Nat :=
  stateCode h.st + 16 * b2n h.vrrOn + 32 * b2n h.twin + 64 * h.pan.getD 0 + 256 * b2n h.late + 512 * b2n h.timeout +
    65536 * h.lastVfp

/-- HEAD_LINE (R166): lines count on from active line 0 through the front porch, whose last line may be trimmed, and the lines
after it. -/
def headLine (s : State) (i : Nat) : Nat :=
  let h := s.head i
  match h.gen with
  | none => 0
  | some t =>
    let lines (since : Rat) : Nat := ((natRat s.now - since) / lineRat s t).floor.toNat
    match h.phase, h.next with
    | .stopped, _ => 0
    | .active, _ => min (t.vactive - 1) (lines h.flipT)
    | .sync, some n => t.vactive + n.lines + min (backLines t - 1) (lines (porchEndAt s t n))
    | _, _ =>
      let k := lines h.base
      t.vactive + (match blankingEnd s i with
        | some n => if isDue s (porchEndAt s t n) then n.lines + lines (porchEndAt s t n) else min (n.lines - 1) k
        | none => k)

/-- The status block of a head (R166). -/
def headStatus (s : State) (i : Nat) : List Byte :=
  let h := s.head i
  leBytes 4 h.frameCount ++ leBytes 4 (headStateWord h) ++ leBytes 4 (timeNs h.flipAt) ++ leBytes 6 (timeS h.flipAt) ++
    zeros 2 ++ leBytes 4 h.appliedSeq ++
    leBytes 4 (h.sumVerdict + 16 * h.sumNotLive + 65536 * h.sumCauses) ++ leBytes 2 (headLine s i % 65536) ++ zeros 2 ++
    leBytes 4 h.waitTimeouts ++ leBytes 4 h.lateFlips ++ zeros 24

/-- A timing in the layout of R143, with its head. -/
def timingBytes (i : Nat) (t : Timing) : List Byte :=
  [byte i, byte (b2n t.hpol + 2 * b2n t.vpol + 4 * b2n t.colour + 8 * b2n t.depth + 16 * t.matrix + 64 * b2n t.range +
      128 * b2n t.vrrEn), byte t.mult, 0#8] ++
    leBytes 2 t.hactive ++ leBytes 2 t.hfp ++ leBytes 2 t.hsync ++ leBytes 2 t.hbp ++ leBytes 2 t.vactive ++
    leBytes 2 t.vfpMin ++ leBytes 2 t.vfpNom ++ leBytes 2 t.vfpMax ++ leBytes 2 t.vsync ++ leBytes 2 t.vbp ++
    leBytes 2 t.phaseLines ++ leBytes 2 t.waitMask ++ zeros 4

def cmdHeadStateQuery (head : Nat) (s : State) : Reply :=
  if 31 < head then refuse s stBadParam
  else ok s ((match (s.head head).force.timing with
    | some t => timingBytes head t
    | none => byte head :: zeros 31) ++ headStatus s head)

def execHeadStateQuery (c : Caller) (head : Nat) (s : State) : Host.Outcome State Fault Refusal :=
  .next (command c 0x0304 (cmdHeadStateQuery head) s)

end Sys2Proof.Machine
end

