-- ==== Sys2Proof/Machine/Lzw.lean ====
section
/-! DEFINITION. The code stream of the crystallizer (spec/10 R283 to R288, R295, R296): one coder that can stop between
code words and go on, for both directions. -/

namespace Sys2Proof.Machine

/-- R285: width of a code word when `n` codes are defined. -/
def codeWidth (n : Nat) : Nat := if n ≤ 512 then 9 else if n ≤ 1024 then 10 else if n ≤ 2048 then 11 else 12

/-- Number of codes defined. -/
def codesDefined (c : Coder) : Nat := 258 + c.dict.length

/-- The bits of a number, least significant first. -/
def bitList : (w n : Nat) → List Bool
  | 0, _ => []
  | w + 1, n => (n % 2 == 1) :: bitList w (n / 2)

/-- The number that bits spell, least significant first. -/
def bitNat : List Bool → Nat
  | [] => 0
  | b :: r => b2n b + 2 * bitNat r

/-- Whole bytes of a bit list, and the bits left over. -/
def packBits : (fuel : Nat) → List Bool → List Byte × List Bool
  | 0, l => ([], l)
  | f + 1, l =>
    if l.length < 8 then ([], l)
    else
      let r := packBits f (l.drop 8)
      (byte (bitNat (l.take 8)) :: r.1, r.2)

/-- The pre-filter's value of byte `i` of a block (R287); `a` is the byte, `b` the one four places before it. -/
def preFilter (row i : Nat) (a b : Byte) : Byte := if i / 4 % row > 0 then a - b else a

/-! ### Compression -/

/-- A compressing run: the coder, whole bytes written (newest first), bits that the output still takes, index entries
and blocks completed. -/
structure CompRun where
  c : Coder
  out : List Byte
  space : Nat
  index : List (Nat × Nat)
  blocks : Nat
  /-- 0 running, 1 all input coded, 2 out of space, 4 at an input byte that cannot be read. -/
  ended : Nat
  deriving DecidableEq, Repr

/-- Write a code word, or stop when its last bit does not fit (R295). -/
def putCode (r : CompRun) (code w : Nat) : Option CompRun :=
  if r.space < w then none
  else
    let (bytes, left) := packBits 3 (r.c.bits ++ bitList w code)
    some { r with c := { r.c with bits := left }, out := bytes.reverse ++ r.out, space := r.space - w }

/-- Zero bits up to the byte boundary (R283). -/
def padBits (r : CompRun) : CompRun :=
  if r.c.bits = [] then r
  else { r with
    c := { r.c with bits := [] }, out := byte (bitNat r.c.bits) :: r.out, space := r.space - (8 - r.c.bits.length) }

/-- Position in the dictionary of a pair, as its code. -/
def findPair (d : List (Nat × Nat)) (k b : Nat) : Option Nat :=
  (d.findIdx? (fun e => e.1 == k && e.2 == b)).map (· + 258)

/-- Where the block that starts at `start` ends: the block size, the next flush, or the end of the input (R290, R291). -/
def blockEnd (p : CrysParams) (flushes : List Nat) (start : Nat) : Nat :=
  (flushes.filter (fun f => decide (start < f))).foldl min (min p.inBytes (start + p.blockKib * 1024))

/-- One step of the encoder of R287's pseudocode. -/
def compStep (p : CrysParams) (flushes : List Nat) (inp : List Byte) (r : CompRun) : CompRun :=
  let c := r.c
  let stop : CompRun := { r with ended := 2 }
  let stopE := blockEnd p flushes c.blockStart
  if c.started = false then
    if p.inBytes ≤ c.inPos then { r with ended := 1 }
    else match putCode r 256 9 with
      | none => stop
      | some r' => { r' with
          c := { r'.c with started := true, dict := [], pend := none },
          index := (c.inPos, c.outTotal + r.out.length) :: r'.index }
  else if c.inPos < stopE then
    let i := c.inPos - c.blockStart
    let raw := nth 0#8 inp c.inPos
    let b := (if p.filter then preFilter p.row i raw (nth 0#8 inp (c.inPos - 4)) else raw).toNat
    match c.pend with
    | none => { r with c := { c with pend := some b, inPos := c.inPos + 1 } }
    | some k => match findPair c.dict k b with
      | some j => { r with c := { c with pend := some j, inPos := c.inPos + 1 } }
      | none => match putCode r k (codeWidth (codesDefined c)) with
        | none => stop
        | some r' => { r' with c := { r'.c with
            dict := if codesDefined c < 4096 then c.dict ++ [(k, b)] else c.dict,
            pend := some b, inPos := c.inPos + 1 } }
  else match c.pend with
    | some k => match putCode r k (codeWidth (codesDefined c)) with
      | none => stop
      | some r' => { r' with c := { r'.c with pend := none } }
    | none => match putCode r 257 (codeWidth (min (codesDefined c + 1) 4096)) with
      | none => stop
      | some r' =>
        let r' := padBits r'
        { r' with c := { r'.c with started := false, blockStart := c.inPos }, blocks := r'.blocks + 1 }

/-- The next input byte is one that cannot be read: `inp` ends before it. -/
def compBlocked (p : CrysParams) (flushes : List Nat) (inp : List Byte) (c : Coder) : Bool :=
  c.started && decide (c.inPos < blockEnd p flushes c.blockStart) && decide (inp.length ≤ c.inPos)

/-- The encoder runs until all input is coded, the output space ends, or a byte cannot be read. -/
def compLoop (p : CrysParams) (flushes : List Nat) (inp : List Byte) : (fuel : Nat) → CompRun → CompRun
  | 0, r => r
  | f + 1, r =>
    if r.ended ≠ 0 then r
    else if compBlocked p flushes inp r.c then { r with ended := 4 }
    else compLoop p flushes inp f (compStep p flushes inp r)

/-- A compressing run from a saved coder into `outBytes` of space (R295: the bits still pending count). -/
def compress (p : CrysParams) (flushes : List Nat) (inp : List Byte) (c : Coder) (outBytes : Nat) : CompRun :=
  compLoop p flushes inp (5 * p.inBytes + 8) ⟨c, [], outBytes * 8 - c.bits.length, [], 0, 0⟩

/-! ### Decompression -/

/-- The string of a code; `fuel` bytes at most. -/
def codeString (d : List (Nat × Nat)) : (fuel k : Nat) → List Nat
  | 0, _ => []
  | f + 1, k =>
    if k < 256 then [k]
    else
      let e := nth (0, 0) d (k - 258)
      codeString d f e.1 ++ [e.2]

/-- `w` bits of the input from bit position `pos`, or none past its end. -/
def getBits (inp : List Byte) (total pos w : Nat) : Option Nat :=
  if 8 * total < pos + w then none
  else some (leNat ((inp.drop (pos / 8)).take 3) / 2 ^ (pos % 8) % 2 ^ w)

/-- A decompressing run; `mark` are input and output positions at the start of the block in progress. -/
structure DecRun where
  c : Coder
  out : List Byte
  space : Nat
  blocks : Nat
  mark : Nat × Nat
  /-- CORE cycles spent: 16 for a block's start, ceil(m / 8) for a string of m bytes (R292). -/
  cycles : Nat
  /-- 0 running, 1 all input decoded, 2 out of space, 3 malformed, 4 at an input byte that cannot be read. -/
  ended : Nat
  deriving DecidableEq, Repr

/-- Undo the pre-filter over the bytes of one string (R287). -/
def unfilter (filter : Bool) (row : Nat) : (l : List Nat) → (blockOut : Nat) → (tail : List Byte) → List Byte
  | [], _, _ => []
  | b :: r, i, t =>
    let v := if filter && decide (i / 4 % row > 0) then byte b + nth 0#8 t 3 else byte b
    v :: unfilter filter row r (i + 1) ((v :: t).take 4)

/-- The string that a code gives, by the pseudocode of R287, or none when it refuses the code. -/
def stringOf (c : Coder) (k : Nat) : Option (List Nat) :=
  match c.pend with
  | none => if k > 255 then none else some [k]
  | some p =>
    if k < codesDefined c then some (codeString c.dict 4097 k)
    else if k = codesDefined c ∧ codesDefined c < 4096 then
      let x := codeString c.dict 4097 p
      some (x ++ x.take 1)
    else none

/-- One code word of the decoder. -/
def decStep (filter : Bool) (row limit total : Nat) (inp : List Byte) (r : DecRun) : DecRun :=
  let c := r.c
  let bad : DecRun := { r with ended := 3 }
  if c.started = false then
    if 8 * total ≤ c.inPos then { r with ended := 1 }
    else
      let r := { r with mark := (c.inPos / 8, r.out.length), cycles := r.cycles + 16 }
      match getBits inp total c.inPos 9 with
      | some 256 => { r with c := { c with
          started := true, dict := [], pend := none, blockStart := c.inPos, inPos := c.inPos + 9, blockOut := 0, tail := [] } }
      | _ => { bad with mark := r.mark }
  else
    let n := codesDefined c
    let w := codeWidth (if c.pend.isNone then n else min (n + 1) 4096)
    match getBits inp total c.inPos w with
    | none => bad
    | some 257 =>
      let pos := c.inPos + w
      let pad := (8 - pos % 8) % 8
      if getBits inp total pos pad ≠ some 0 ∨ (filter && c.blockOut % 4 != 0) = true then bad
      else { r with c := { c with started := false, inPos := pos + pad, pend := none, dict := [] }, blocks := r.blocks + 1 }
    | some 256 => { r with c := { c with dict := [], pend := none, inPos := c.inPos + w } }
    | some k => match stringOf c k with
      | none => bad
      | some x =>
        if limit < c.blockOut + x.length then bad
        else if r.space < x.length then { r with ended := 2 }
        else
          let y := unfilter filter row x c.blockOut c.tail
          let dict := match c.pend with
            | none => c.dict
            | some p => if n < 4096 then c.dict ++ [(p, nth 0 x 0)] else c.dict
          { r with
            c := { c with dict := dict, pend := some k, inPos := c.inPos + w, blockOut := c.blockOut + x.length,
                          tail := (y.reverse ++ c.tail).take 4 },
            out := y.reverse ++ r.out, space := r.space - x.length, cycles := r.cycles + ceilDiv x.length 8 }

def decLoop (filter : Bool) (row limit total : Nat) (inp : List Byte) : (fuel : Nat) → DecRun → DecRun
  | 0, r => r
  | f + 1, r =>
    if r.ended ≠ 0 then r
    else if inp.length < total ∧ 8 * inp.length < r.c.inPos + 12 then { r with ended := 4 }
    else decLoop filter row limit total inp f (decStep filter row limit total inp r)

/-- A decompressing run from a saved coder into `outBytes` of space (R296), over an input of `total` bytes of which `inp`
can be read. -/
def decompress (filter : Bool) (row limit total : Nat) (inp : List Byte) (c : Coder) (outBytes : Nat) : DecRun :=
  decLoop filter row limit total inp (8 * total + 8)
    ⟨c, [], outBytes, 0, ((if c.started then c.blockStart else c.inPos) / 8, 0), 0, 0⟩

/-- One whole block that must give exactly `n` bytes (R219), and the CORE cycles that its decoding takes. -/
def decodeBlock (filter : Bool) (row n : Nat) (inp : List Byte) : Option (List Byte) × Nat :=
  let r := decompress filter row n inp.length inp {} n
  (if r.ended = 1 ∧ r.blocks = 1 ∧ r.out.length = n then some r.out.reverse else none, r.cycles)

end Sys2Proof.Machine
end

