-- ==== Sys2Proof/Machine/Coding.lean ====
section
/-! DEFINITION. The Welond line code and its frames (spec/13 R342, R345 to R352, R354, R356, R359): what leaves a lane for a
block, and what a receiver makes of it. -/

namespace Sys2Proof.Machine

/-! ### Rates and widths (R342, R356, R359) -/

/-- Bits per second of a lane at a rate code (R342). -/
def laneRate (code : Nat) : Nat :=
  nth 0 [10312500000, 25781250000, 28125000000, 3125000000, 6250000000, 10000000000] code

/-- Codes 3 to 5 are C-mode. -/
def cMode (code : Nat) : Bool := decide (3 ≤ code)

/-- The largest power of two, from 8, 4, 2 and 1, that does not exceed a number of lanes; 0 for none (R356). -/
def widthOf (n : Nat) : Nat := if 8 ≤ n then 8 else if 4 ≤ n then 4 else if 2 ≤ n then 2 else if 1 ≤ n then 1 else 0

/-- Lanes of a mask. -/
def laneCount (mask : Nat) : Nat := (bitsOf 8 mask).length

/-- The used lanes of a direction: the `w` lowest-numbered working lanes (R349). -/
def usedLanes (mask w : Nat) : List Nat := (bitsOf 8 mask).take w

/-- The used lane of block `j` of a direction's stream (R349). -/
def laneOfBlock (mask w j : Nat) : Nat := nth 0 (usedLanes mask w) (j % w)

/-- Mirror capacity of a direction in bytes per second, as a fraction (R359). -/
def capacity (w code : Nat) : Nat × Nat :=
  if cMode code then (w * laneRate code * 63, 640) else (w * laneRate code * 945, 8184)

/-- Ticks of `n` block slots of an S-mode or C-mode lane, without stuffing, rounded down (R345, R350). -/
def slotsT (code n : Nat) : Ticks :=
  if laneRate code = 0 then 0 else n * (if cMode code then 80 else 66) * 24000000000 / laneRate code

/-! ### S-mode (R345 to R348) -/

/-- One scrambled bit from a data bit and the scrambled bits sent before it, newest first (R346). -/
def scrambleBit (past : List Bool) (d : Bool) : Bool := xor d (xor (nth false past 38) (nth false past 57))

/-- Scramble payload bits; `past` are the scrambled bits sent before, newest first. -/
def scramble : (past : List Bool) → List Bool → List Bool
  | _, [] => []
  | past, d :: r => let x := scrambleBit past d; x :: scramble ((x :: past).take 58) r

/-- The receiver's inverse, on the received bits (R346). -/
def descramble : (past : List Bool) → List Bool → List Bool
  | _, [] => []
  | past, x :: r => scrambleBit past x :: descramble ((x :: past).take 58) r

/-- Insert a bit of the opposite value after every run of 30 equal bits (R347); `run` bits equal to `last` came before. The
stream's last bit and its run follow. -/
def stuff : (last : Bool) → (run : Nat) → List Bool → List Bool × Bool × Nat
  | last, run, [] => ([], last, run)
  | last, run, b :: r =>
    let n := if b = last then run + 1 else 1
    if n = 30 then
      let x := stuff (!b) 1 r
      (b :: (!b) :: x.1, x.2)
    else
      let x := stuff b n r
      (b :: x.1, x.2)

/-- A block of 66 bits: its header and its payload, bit 0 first (R345). -/
def blockBits (control : Bool) (payload : List Bool) : List Bool := control :: (!control) :: payload

def headerValid (a b : Bool) : Bool := xor a b

/-- One header, or one character (R348, R350): 16 invalid ones of the last 64 lose the lock, 64 consecutive valid headers give
it. -/
def headerStep (k : BlockLock) (valid : Bool) : BlockLock :=
  let run := if valid then k.run + 1 else 0
  let last := (valid :: k.last).take 64
  { locked := if k.locked then decide ((last.filter (fun v => !v)).length < 16) else decide (64 ≤ run), run := run, last := last }

/-! ### C-mode: 8b/10b (R350; PRESUMED: the code of Widmer and Franaszek; notes/assumptions/131.md) -/

/-- Bits a to i of D.0 to D.31 and of K.28 at negative disparity, a first. -/
def sixBits : List Nat :=
  [0b100111, 0b011101, 0b101101, 0b110001, 0b110101, 0b101001, 0b011001, 0b111000,
   0b111001, 0b100101, 0b010101, 0b110100, 0b001101, 0b101100, 0b011100, 0b010111] ++
  [0b011011, 0b100011, 0b010011, 0b110010, 0b001011, 0b101010, 0b011010, 0b111010,
   0b110011, 0b100110, 0b010110, 0b110110, 0b001110, 0b101110, 0b011110, 0b101011]

/-- Bits f to j of the data characters' upper three bits at negative disparity. -/
def fourBits : List Nat := [0b1011, 0b1001, 0b0101, 0b1100, 0b1101, 0b1010, 0b0110, 0b1110]

/-- Bits of a number, most significant first. -/
def bitsDown (w n : Nat) : List Bool := (bitList w n).reverse

def ones (l : List Bool) : Nat := (l.filter (fun b => b)).length

/-- A part of a character at a running disparity (true: positive): complemented there when it is not balanced, or is one of the
two balanced parts that have two forms; and the disparity after it. -/
def codePart (rd alternates : Bool) (l : List Bool) : List Bool × Bool :=
  let uneven := 2 * ones l != l.length
  (if rd && (uneven || alternates) then l.map (fun b => !b) else l, if uneven then !rd else rd)

/-- A character: a data byte, or K28.1 or K28.5 by its byte, and the disparity after it. -/
def encodeChar (rd k : Bool) (b : Nat) : List Bool × Bool :=
  let x := b % 32
  let y := b / 32 % 8
  if k then
    let l := bitsDown 6 0b001111 ++ bitsDown 4 (if y = 1 then 0b1001 else 0b1010)
    (if rd then l.map (fun b => !b) else l, !rd)
  else
    let p := codePart rd (x == 7) (bitsDown 6 (nth 0 sixBits x))
    let seven := if p.2 then x == 11 || x == 13 || x == 14 else x == 17 || x == 18 || x == 20
    let q := codePart p.2 (y == 3) (bitsDown 4 (if y = 7 && seven then 0b0111 else nth 0 fourBits y))
    (p.1 ++ q.1, q.2)

def k281 : Nat := 0x3C
def k285 : Nat := 0xBC
def d215 : Nat := 0xB5

/-- The character that ten bits are at a running disparity. -/
def decodeChar (rd : Bool) (l : List Bool) : Option (Bool × Nat) :=
  if (encodeChar rd true k285).1 = l then some (true, k285)
  else if (encodeChar rd true k281).1 = l then some (true, k281)
  else ((List.range 256).find? (fun b => (encodeChar rd false b).1 == l)).map (fun b => (false, b))

/-! ### What leaves a lane (R345 to R350) -/

def byteBits (l : List Byte) : List Bool := l.flatMap (fun b => bitList 8 b.toNat)

/-- A block of the stream: its mark as a control block, and its bytes. -/
abbrev LineBlock := Bool × List Byte

def sendS (t : LaneTx) (b : LineBlock) : List Bool × LaneTx :=
  let x := scramble t.past (byteBits b.2)
  let r := stuff t.last t.run (blockBits b.1 x)
  (r.1, { t with past := (x.reverse ++ t.past).take 58, last := r.2.1, run := r.2.2 })

def sendChar (t : LaneTx) (k : Bool) (b : Nat) : List Bool × LaneTx :=
  let x := encodeChar t.disparity k b
  (x.1, { t with disparity := x.2, since := if k && b == k285 then 0 else t.since + 1 })

def sendChars : LaneTx → List (Bool × Nat) → List Bool × LaneTx
  | t, [] => ([], t)
  | t, c :: r =>
    let x := sendChar t c.1 c.2
    let y := sendChars x.2 r
    (x.1 ++ y.1, y.2)

/-- The pair that is IDLE and ALIGN in C-mode. -/
def pairChars : List (Bool × Nat) := [(true, k285), (false, d215)]

/-- A block in C-mode: a pair comes before it where more than 255 characters would pass without a K28.5. -/
def sendC (t : LaneTx) (b : LineBlock) : List Bool × LaneTx :=
  let l := b.2.map (fun x => (false, x.toNat))
  if b.1 && (leAt b.2 0 1 ≤ 1) then sendChars t pairChars
  else
    let l := if b.1 then (true, k281) :: l else l
    sendChars t (if t.since + l.length < 256 then l else pairChars ++ l)

/-- One block at a rate code. -/
def sendOne (code : Nat) (t : LaneTx) (b : LineBlock) : List Bool × LaneTx := if cMode code then sendC t b else sendS t b

/-- The blocks of a lane, in order. -/
def sendAll (code : Nat) : LaneTx → List LineBlock → List Bool × LaneTx
  | t, [] => ([], t)
  | t, b :: r =>
    let x := sendOne code t b
    let y := sendAll code x.2 r
    (x.1 ++ y.1, y.2)

/-- How many blocks of a list `budget` bits of a lane hold, and their bits. -/
def blocksFit (code : Nat) : LaneTx → (budget : Nat) → List LineBlock → Nat × Nat
  | _, _, [] => (0, 0)
  | t, budget, b :: r =>
    let x := sendOne code t b
    if budget < x.1.length then (0, 0)
    else
      let y := blocksFit code x.2 (budget - x.1.length) r
      (y.1 + 1, y.2 + x.1.length)

/-- The next bits of PRBS31, x^31 + x^28 + 1 (R353); `past` holds the last 31, newest first. -/
def prbsRun : (n : Nat) → (past : List Bool) → List Bool × List Bool
  | 0, p => ([], p)
  | n + 1, p =>
    let b := xor (nth false p 30) (nth false p 27)
    let r := prbsRun n ((b :: p).take 31)
    (b :: r.1, r.2)

/-- The pattern of TRAIN: `n` bits of PRBS31, unscrambled and unstuffed, or as many pairs K28.5, D21.5 as they hold (R353). -/
def patternBits (code n : Nat) (t : LaneTx) : List Bool × LaneTx :=
  if cMode code then sendChars t (List.replicate (n / 20) pairChars).flatten
  else
    let r := prbsRun n t.prbs
    (r.1, { t with prbs := r.2 })

/-! ### What a receiver makes of a lane's bits (R346 to R348, R350, R353) -/

/-- A receiver with the blocks it has given and its errors: invalid headers or characters, wrong stuffed bits. -/
structure RxRun where
  lane : LaneRx
  blocks : List LineBlock
  invalid : Nat
  stuffErr : Nat
  deriving DecidableEq, Repr

/-- Clean PRBS31 bits, or pattern pairs, that give bit lock (R353). -/
def lockClean (code : Nat) : Nat := if cMode code then 1024 else 2 ^ 20

/-- One more bit of PRBS31, x^31 + x^28 + 1, before bit lock. -/
def prbsBit (r : LaneRx) (b : Bool) : LaneRx :=
  let good := r.prbs.length == 31 && b == xor (nth false r.prbs 30) (nth false r.prbs 27)
  let clean := if good then r.clean + 1 else 0
  { r with prbs := (b :: r.prbs).take 31, clean := clean, bit := decide (lockClean 0 ≤ clean) }

/-- A payload bit, or a header's, of the de-stuffed stream. -/
def frameBit (x : RxRun) (b : Bool) : RxRun :=
  let part := x.lane.part ++ [b]
  if part.length < 66 then { x with lane := { x.lane with part := part } }
  else
    let valid := headerValid (nth false part 0) (nth false part 1)
    let lock := headerStep x.lane.lock valid
    let payload := part.drop 2
    if !valid && !x.lane.lock.locked then { x with lane := { x.lane with part := part.drop 1, lock := lock }, invalid := x.invalid + 1 }
    else
      let data := (packBits 9 (descramble x.lane.past payload)).1
      let lane := { x.lane with part := [], lock := lock, past := (payload.reverse ++ x.lane.past).take 58 }
      if valid then { x with lane := lane, blocks := x.blocks ++ (if x.lane.lock.locked then [(nth false part 0, data)] else []) }
      else { x with lane := lane, invalid := x.invalid + 1 }

/-- One bit of an S-mode lane: PRBS31 up to bit lock, then de-stuffed. -/
def bitS (x : RxRun) (b : Bool) : RxRun :=
  let r := x.lane
  if r.bit = false then { x with lane := prbsBit r b }
  else if r.due then
    { x with lane := { r with last := b, run := 1, due := false }, stuffErr := x.stuffErr + b2n (b == r.last) }
  else
    let n := if b = r.last then r.run + 1 else 1
    frameBit { x with lane := { r with last := b, run := n, due := n == 30 } } b

/-- The disparity after ten bits that are no character. -/
def disparityOf (rd : Bool) (l : List Bool) : Bool := if 5 < ones l then true else if ones l < 5 then false else rd

/-- A valid character joins what is being received. -/
def takeChar (x : RxRun) (k : Bool) (b : Nat) : RxRun :=
  let r := x.lane
  if k then
    if b = k285 then { x with lane := { r with comma := r.comma + 1, await := true, group := none } }
    else { x with lane := { r with group := some (true, []), await := false } }
  else if r.await then
    let clean := if b = d215 then r.clean + 1 else 0
    { x with lane := { r with await := false, clean := clean, bit := r.bit || decide (lockClean 3 ≤ clean) } }
  else
    let g := r.group.getD (false, [])
    let l := g.2 ++ [byte b]
    if l.length < 8 then { x with lane := { r with group := some (g.1, l), clean := 0 } }
    else { x with lane := { r with group := none, clean := 0 }, blocks := x.blocks ++ (if r.lock.locked then [(g.1, l)] else []) }

/-- One bit of a C-mode lane: ten at the alignment are a character; without lock a K28.5 anywhere gives the alignment. -/
def bitC (x : RxRun) (b : Bool) : RxRun :=
  let r := x.lane
  let part := r.part ++ [b]
  let win := (r.win ++ [b]).drop (r.win.length - 9)
  let comma (l : List Bool) : Bool := l == (encodeChar false true k285).1 || l == (encodeChar true true k285).1
  if !r.lock.locked && comma win && part.length != 10 then
    { x with lane := { r with part := [], win := win, comma := 1, await := true, group := none, clean := 0,
                              disparity := disparityOf r.disparity win } }
  else if part.length < 10 then { x with lane := { r with part := part, win := win } }
  else
    let c := decodeChar r.disparity part
    let lock := headerStep r.lock c.isSome
    let lane := { r with part := [], win := win }
    match c with
    | none => { x with
        lane := { lane with lock := { lock with locked := r.lock.locked && lock.locked }, comma := 0, clean := 0, await := false,
                            group := none, disparity := disparityOf r.disparity part },
        invalid := x.invalid + 1 }
    | some (k, v) =>
      let y := takeChar { x with lane := { lane with disparity := (encodeChar r.disparity k v).2 } } k v
      { y with lane := { y.lane with lock := { lock with locked := if r.lock.locked then lock.locked else decide (4 ≤ y.lane.comma) } } }

/-- The bits that reach a receiver at a rate code. -/
def receiveBits (code : Nat) (r : LaneRx) (bits : List Bool) : RxRun :=
  bits.foldl (if cMode code then bitC else bitS) ⟨r, [], 0, 0⟩

/-- The lane has bit lock and block or symbol lock. -/
def laneReady (r : LaneRx) : Bool := r.bit && r.lock.locked

/-! ### Control blocks and packets (R351, R352) -/

/-- A control block: its type, bytes 1 to 6, and the CRC of code 3 over bytes 0 to 6 (R351). -/
def controlBlock (type : Nat) (body : List Byte) : List Byte :=
  let l := byte type :: slice body 0 6
  l ++ [byte (crc 3 l)]

/-- A received control block passes (R351). -/
def controlGood (l : List Byte) : Bool :=
  [0, 1, 2, 3, 0x10, 0x11].contains (leAt l 0 1) && leAt l 7 1 == crc 3 (l.take 7)

def idleBlock : List Byte := controlBlock 0 []
def alignBlock : List Byte := controlBlock 1 []
def fenceBlock (groups origin hops seq : Nat) : List Byte :=
  controlBlock 2 [byte groups, byte (origin % 4 + 4 * (hops % 4)), byte seq]
def widthBlock (mask width seq : Nat) : List Byte := controlBlock 3 [byte mask, byte width, byte seq]

/-- The blocks of a packet, each with its mark as a control block (R352). -/
def packetBlocks (channel dest src : Nat) (payload : List Byte) : List LineBlock :=
  [(true, controlBlock 0x10 (byte (channel % 4 + 4 * (dest % 4) + 16 * (src % 4)) :: leBytes 2 payload.length))] ++
    ((chunks 8 payload.length payload).map (fun c => (false, slice c 0 8))) ++
    [(true, controlBlock 0x11 (leBytes 4 (crc 1 payload)))]

/-- A packet's own blocks of those that came: IDLE, ALIGN, FENCE and WIDTH blocks may stand among them, and a control block that fails
its CRC or has a reserved type is discarded (R351, R352). -/
def packetOnly (l : List LineBlock) : List LineBlock := l.filter (fun b => !(b.1 && (decide (leAt b.2 0 1 ≤ 3) || !controlGood b.2)))

/-- The payload that a packet's blocks carry; none when the EOP fails or the blocks are out of order (R352). -/
def packetPayload (l : List LineBlock) : Option (List Byte) :=
  match packetOnly l with
  | (true, sop) :: r =>
    let n := leAt sop 2 2
    let data := (r.takeWhile (fun b => !b.1))
    let p := (data.flatMap (·.2)).take n
    if leAt sop 0 1 = 0x10 ∧ controlGood sop = true ∧ 1 ≤ n ∧ n ≤ 8192 ∧ data.length = ceilDiv n 8 then
      match r.drop data.length with
      | [(true, eop)] => if leAt eop 0 1 = 0x11 ∧ controlGood eop = true ∧ leAt eop 1 4 = crc 1 p then some p else none
      | _ => none
    else none
  | _ => none

/-- Byte 1 of the SOP: CHANNEL, DEST and SRC; a reserved bit that is not 0 (R7, R351). -/
def sopByte (l : List LineBlock) : Nat :=
  match packetOnly l with
  | (_, sop) :: _ => leAt sop 1 1
  | [] => 0

def sopChannel (l : List LineBlock) : Nat := sopByte l % 4
def sopDest (l : List LineBlock) : Nat := sopByte l / 4 % 4
def sopSrc (l : List LineBlock) : Nat := sopByte l / 16 % 4
def sopReserved (l : List LineBlock) : Bool := decide (64 ≤ sopByte l)

/-- The capability message of R354. -/
def capabilityBytes (m : Capability) : List Byte :=
  [1#8, 1#8, byte (m.rate % 8), byte (m.device % 4 + 4 * (m.ring % 4) + 16 * b2n m.ack), byte m.fitted, byte m.rxLocked,
    byte (m.link % 2), byte m.fenceProp] ++
    leBytes 4 m.wall ++ leBytes 8 m.tideCount ++ leBytes 2 m.stepping ++ leBytes 2 m.cmdset ++ zeros 8

/-- What a capability message says; none when a reserved field of it is not 0 (R7, R354). -/
def capabilityOf (l : List Byte) : Option Capability :=
  let b (i : Nat) : Nat := leAt l i 1
  if l.length = 32 ∧ b 0 = 1 ∧ b 2 < 8 ∧ b 3 < 32 ∧ b 6 < 2 ∧ leAt l 24 8 = 0 then
    some ⟨b 1, b 2, b 3 % 4, b 3 / 4 % 4, (b 3).testBit 4, b 4, b 5, b 6, b 7, leAt l 8 4, leAt l 12 8, leAt l 20 2, leAt l 22 2⟩
  else none

end Sys2Proof.Machine
end

