-- ==== Sys2Proof/Machine/Line.lean ====
section
/-! DEFINITION. The lanes of the Welond links (spec/13 R336, R345 to R352): blocks that leave on the used lanes, and bits that
reach a receiver. -/

namespace Sys2Proof.Machine

/-- Lanes fitted at both ends and locked at a receiver (R356). -/
def goodLanes (w : Wel) (locked : Nat) : Nat := w.fitted &&& w.partnerFitted &&& locked

/-- Entry of a lane in the order of R338: kind 1 Ethernet, 2 Welond. -/
def laneEntry (kind lane : Nat) : Nat := if kind = 1 then lane else 16 + lane

/-- Bits at the balls of a lane whose wires may be swapped on the board (R338). -/
def atBalls (swapped : Bool) (l : List Bool) : List Bool := if swapped then l.map (fun b => !b) else l

/-! ### Sending (R345 to R350, R352) -/

/-- What the transmitters of a link send (R353): nothing, the pattern of TRAIN, or blocks, IDLE when nothing else is due. -/
inductive Wire where
  | silent
  | pattern
  | blocks
  deriving DecidableEq, Repr

/-- An end keeps its pattern for 1 ms after its own bit lock, then it sends blocks. -/
def wireOf (s : State) (w : Wel) : Wire :=
  match w.st with
  | .disabled => .silent
  | .detect => .silent
  | .absent => .silent
  | .train => .pattern
  | .lock => if w.bitAt.elim false (fun t => decide (t + msT ≤ s.ref)) then .blocks else .pattern
  | .exchange => if w.bitAt.elim false (fun t => decide (t + msT ≤ s.ref)) then .blocks else .pattern
  | .active => .blocks
  | .foreign => .blocks

def State.laneTx (s : State) (l i : Nat) : LaneTx := tget {} s.lineTx (8 * l + i)
def State.setLaneTx (s : State) (l i : Nat) (t : LaneTx) : State := { s with lineTx := tset s.lineTx (8 * l + i) t }

/-- The coders of a link's lanes stand anywhere: the scrambler has no defined initial state (R346), and blocks that the spec does
not lay out may have passed (notes/assumptions/100.md). -/
def freeLine (s : State) (l : Nat) : State :=
  let s := (List.range 8).foldl (fun s i =>
    let (b, s) := s.drawBytes 8
    let (last, s) := s.drawBool
    let (run, s) := drawWithin s 1 29
    let (d, s) := s.drawBool
    let (n, s) := drawWithin s 0 255
    s.setLaneTx l i { s.laneTx l i with
      past := (byteBits b).take 58, last := last, run := run.toNat, disparity := d, since := n.toNat }) s
  let (n, s) := drawWithin s 0 16383
  s.setWel l { s.wel l with slot := n.toNat, lineFrom := s.welT, sent := 0, patSent := 0, mixed := false }

/-- Bits leave on one lane. -/
def emitLane (s : State) (l i : Nat) (bits : List Bool) (t : LaneTx) : State :=
  (s.setLaneTx l i t).emit (.line l i (atBalls (tget ({} : LaneEq) s.laneEq (laneEntry 2 (8 * l + i))).txInvert bits))

/-- Blocks go out on one lane. -/
def sendLane (s : State) (l i : Nat) (bs : List LineBlock) : State :=
  let (bits, t) := sendAll (s.wel l).rateCode (s.laneTx l i) bs
  emitLane s l i bits t

/-- `n` bits of the pattern of TRAIN go out on one lane; where its PRBS31 begins, the spec leaves open. -/
def sendPattern (s : State) (n l i : Nat) : State :=
  let s := if (s.laneTx l i).prbs = [] then
      let (b, s) := s.drawBytes 4
      s.setLaneTx l i { s.laneTx l i with prbs := true :: (byteBits b).take 30 }
    else s
  let (bits, t) := patternBits (s.wel l).rateCode n (s.laneTx l i)
  emitLane s l i bits t

def idle : LineBlock := (true, idleBlock)
def align : LineBlock := (true, alignBlock)

/-- The next `n` block slots of a direction of width `w` from slot `k` on, each a row with one block for each used lane: ALIGN on every
lane where it is due (`now`) and in every 16,384th slot, else the next blocks of `due`, and IDLE after them (R349). -/
def slotRows (w : Nat) : (n k : Nat) → (now : Bool) → (due : List LineBlock) → List (List LineBlock)
  | 0, _, _, _ => []
  | n + 1, k, now, due =>
    if now || k % 16384 == 0 then List.replicate w align :: slotRows w n (k + 1) false due
    else (List.range w).map (fun i => nth idle due i) :: slotRows w n (k + 1) false (due.drop w)

/-- Bits that a lane of a link has had time for since they count. -/
def wireBits (s : State) (w : Wel) : Nat := (s.welT - w.lineFrom) * laneRate w.rateCode / 24000000000

/-- Rows go out on lanes. -/
def sendRows (s : State) (l : Nat) (lanes : List Nat) (rows : List (List LineBlock)) : State :=
  lanes.zipIdx.foldl (fun s e => sendLane s l e.1 (rows.map (fun r => nth idle r e.2))) s

/-- The lanes fitted at both ends that the partner has lost carry the pattern of TRAIN beside the traffic (R358). -/
def retrainLost (s : State) (l : Nat) : State :=
  let w := s.wel l
  let total := wireBits s w / 20 * 20
  let lost := bitsOf 8 (w.fitted &&& w.partnerFitted &&& (255 ^^^ w.txLocked % 256))
  let s := lost.foldl (fun s i => sendPattern s (total - w.patSent) l i) s
  s.setWel l { s.wel l with patSent := total }

/-- The slots of an ACTIVE link for which there has been time: control blocks that are due first, then the packets' blocks, then IDLE
(R349, R352). -/
def sendSlots (s : State) (l : Nat) : State :=
  let w := s.wel l
  match usedLanes (goodLanes w w.txLocked) w.txWidth with
  | [] => s
  | i :: r =>
    let lanes := i :: r
    let budget := wireBits s w - w.sent
    let rows := slotRows lanes.length (budget / 20) w.slot w.alignDue (w.ctl ++ w.queue)
    let (n, bits) := blocksFit w.rateCode (s.laneTx l i) budget (rows.map (fun x => nth idle x 0))
    let out := rows.take n
    let gone := (out.filter (fun x => x != List.replicate lanes.length align)).length * lanes.length
    let s := sendRows s l lanes out
    s.setWel l { s.wel l with
      slot := (w.slot + n) % 16384, sent := w.sent + bits, alignDue := w.alignDue && n == 0,
      ctl := w.ctl.drop gone, queue := w.queue.drop (gone - w.ctl.length) }

/-- Before a width stands, every sensing lane carries IDLE (R353). -/
def sendIdle (s : State) (l : Nat) : State :=
  let w := s.wel l
  match bitsOf 8 w.sensing with
  | [] => s
  | i :: r =>
    let budget := wireBits s w - w.sent
    let (n, bits) := blocksFit w.rateCode (s.laneTx l i) budget (List.replicate (budget / 20) idle)
    let s := sendRows s l (i :: r) (List.replicate n (List.replicate (r.length + 1) idle))
    s.setWel l { s.wel l with sent := w.sent + bits }

/-- What a link's lanes have carried since it was last looked at leaves (R349, R353, R358). -/
def pumpLine (s : State) (l : Nat) : State :=
  match wireOf s (s.wel l) with
  | .silent => s
  | .pattern =>
    let w := s.wel l
    let total := wireBits s w / 20 * 20
    let s := (bitsOf 8 w.sensing).foldl (fun s i => sendPattern s (total - w.sent) l i) s
    s.setWel l { s.wel l with sent := total }
  | .blocks =>
    let s := if (s.wel l).mixed then freeLine s l else s
    if (s.wel l).st = .active then sendSlots (retrainLost s l) l else sendIdle s l

/-- Blocks of a packet wait for their slots. -/
def sendBlocks (s : State) (l : Nat) (bs : List LineBlock) : State :=
  let s := pumpLine s l
  s.setWel l { s.wel l with queue := (s.wel l).queue ++ bs }

/-- A control block that is due leaves at the next block boundary, ahead of any packet block (R351, R352). -/
def sendControl (s : State) (l : Nat) (b : List Byte) : State :=
  let s := pumpLine (s.emit (.block l b)) l
  s.setWel l { s.wel l with ctl := (s.wel l).ctl ++ [(true, b)] }

/-- ALIGN on every used lane in one slot (R349, R357). -/
def sendAlign (s : State) (l : Nat) : State :=
  let s := s.emit (.block l alignBlock)
  s.setWel l { s.wel l with alignDue := true }

/-- A packet whose payload the spec lays out leaves an ACTIVE link; in EXCHANGE no width stands yet, and its lanes are open. -/
def sendPacket (s : State) (l channel dest src : Nat) (payload : List Byte) : State :=
  let s := s.emit (.packet l channel dest src payload)
  if (s.wel l).st = .active then sendBlocks s l (packetBlocks channel dest src payload)
  else s.setWel l { s.wel l with mixed := true }

/-! ### Receiving (R346 to R348, R350) -/

def State.laneRx (s : State) (l i : Nat) : LaneRx := tget {} s.lineRx (8 * l + i)

/-- Bits that a lane's balls bring go through its receiver: errors count, and what the receiver gives is answered. -/
def lineIn (s : State) (l i : Nat) (bits : List Bool) : List LineBlock × State :=
  let k := 8 * l + i
  let w := s.wel l
  let x := receiveBits w.rateCode (s.laneRx l i) (atBalls (tget ({} : LaneEq) s.laneEq (laneEntry 2 k)).rxInvert bits)
  (x.blocks, { s with lineRx := tset s.lineRx k x.lane }.setWel l { w with
    hdrInvalid := satAdd 32 w.hdrInvalid x.invalid, stuffErr := satAdd 32 w.stuffErr x.stuffErr })

/-- A packet is discarded and counted (R352). -/
def countBadPacket (s : State) (l : Nat) : State := s.setWel l { s.wel l with pktBad := sat32 (s.wel l).pktBad }

/-- Blocks that a lane has brought wait for those of the other used lanes (R349). -/
def holdBlocks (s : State) (l i : Nat) (bs : List LineBlock) : State :=
  { s with lineRx := tset s.lineRx (8 * l + i) { s.laneRx l i with held := (s.laneRx l i).held ++ bs } }

/-- The first of them is taken up. -/
def popBlock (s : State) (l i : Nat) : State :=
  { s with lineRx := tset s.lineRx (8 * l + i) { s.laneRx l i with held := (s.laneRx l i).held.drop 1 } }

/-- A lane's receiver starts again. -/
def dropLane (s : State) (l i : Nat) : State := { s with lineRx := tdel s.lineRx (8 * l + i) }

end Sys2Proof.Machine
end

