-- ==== Sys2Proof/Machine/Fences.lean ====
section
/-! DEFINITION. Fences (spec/03 R91 to R99): FENCE_N, HB_FENCE, the FENCE command (spec/16 R439, R440), and the FENCE blocks on
Welond that they cause (spec/13 R364, R366). -/

namespace Sys2Proof.Machine

/-- Groups held on at least one head, from any source (R93). -/
def activeGroups (s : State) : Nat := s.heads.foldl (fun m e => m ||| headGroups s.fences e.2) 0 % 256

/-- HB_FENCE as it reads (R93). -/
def hbFence (s : State) : Nat := s.fences.ballMap * 2 ^ 24 + activeGroups s * 2 ^ 16 + s.fences.sw

/-- Groups that this device sends on Welond (R364). -/
def ownFences (s : State) : Nat := (ballGroups s.fences ||| s.fences.sw) &&& s.ring.fenceProp

/-- Send a FENCE block on one link (R351, R364). -/
def sendFence (s : State) (l groups origin hops : Nat) : State :=
  let w := s.wel l
  if w.st = .active then
    sendControl (s.setWel l { w with seq := (w.seq + 1) % 256 }) l (fenceBlock groups origin hops w.seq)
  else s

/-- Change the fence sources at this device, effective in the gauges from time `t`; a change of what goes out on Welond
is sent at once (R364). -/
def changeFences (s : State) (f : Fences) (t : Ticks) : State :=
  let old := ownFences s
  let s := setFences s f t
  if ownFences s = old then s
  else (List.range 2).foldl (fun s l => sendFence s l (ownFences s) s.ring.device 0) s

/-- PAN time of a change that the gauges hold from time `t` on, `n` PAN cycles after it (R97 to R99). -/
def changeTime (s : State) (t : Ticks) (n : Nat) : Ticks := s.pt + (t - n * panT - s.now)

/-- FENCE events for the groups of origins that changed (R97, R424). -/
def postOrigins (s : State) (t : Ticks) (old : Tab Nat) : State :=
  s.fences.wel.foldl (fun s e =>
    if tget 0 old e.1 = e.2 then s else postFence s t 4 e.2 0 0xFF e.1) s

/-- The fences with software fences set and released (R93, R366): a group in both masks ends set. -/
def softly (f : Fences) (set release : Nat) : Fences :=
  let keep := 255 ^^^ (release % 256)
  { f with sw := (f.sw &&& keep) ||| set % 256, wel := tmap (fun _ g => g &&& keep) f.wel }

/-- Set and release software fences, visible at fence distribution at time `t` and in the gauges four cycles on (R98, R99). -/
def softFences (s : State) (set release : Nat) (t : Ticks) : State :=
  let f := s.fences
  let f' := softly f set release
  if f' = f then s
  else
    let at_ := changeTime s t 0
    let s := changeFences s f' (t + 4 * panT)
    let s := if f'.sw = f.sw then s else postFence s at_ 1 f'.sw 0 0xFF 0
    postOrigins s at_ f.wel

/-- A write of HB_FENCE (R93), which crosses into PAN. -/
def writeHbFence (value : BitVec 32) (s : State) : State :=
  let set := value.toNat % 256
  let release := field value.toNat 8 8
  if !hostUp s || softly s.fences set release == s.fences then s
  else
    let (t, s) := crossToPan s
    softFences s set release t

/-- SW_FENCE: a write of HB_FENCE with bits in SW_FENCE. -/
def execSwFence (value : BitVec 32) (s : State) : Host.Outcome State Fault Refusal := .next (writeHbFence value s)

/-- SW_RELEASE: a write of HB_FENCE with bits in SW_RELEASE. -/
def execSwRelease (value : BitVec 32) (s : State) : Host.Outcome State Fault Refusal := .next (writeHbFence value s)

/-- The ball or its map changes: the groups that FENCE_N holds change with it, and the event names them (R91, R97). -/
def ballChange (s : State) (f : Fences) (t at_ : Ticks) : State :=
  let old := ballGroups s.fences
  let s := changeFences s f t
  if ballGroups f = old then s else postFence s at_ 0 (ballGroups f) 0 0xFF 0

/-- FENCE_N_CAPTURE (R94, R98): the capture edge is cycle 0, and the gauges hold the fence from cycle 7. Before the release of the
main die the ball is low without effect, and it acts from the release (R540). -/
def execFenceNCapture (s : State) : Host.Outcome State Fault Refusal :=
  if s.fences.ballLow then .next s
  else if released s then .next (ballChange s { s.fences with ballLow := true } (s.now + 7 * panT) s.pt)
  else .next { s with fences := { s.fences with ballLow := true } }

/-- FENCE_N_RELEASE (R96): its groups leave each head at its next flip. -/
def execFenceNRelease (s : State) : Host.Outcome State Fault Refusal :=
  if s.fences.ballLow = false then .next s
  else if released s then .next (ballChange s { s.fences with ballLow := false } s.now s.pt)
  else .next { s with fences := { s.fences with ballLow := false } }

/-- The changes of a FENCE command become visible at fence distribution at time `t`. -/
def takeFences (s : State) (p : FenceP) (t : Ticks) : State :=
  let s := softFences s p.set p.release t
  if p.mapEn then ballChange s { s.fences with ballMap := p.ballMap % 256 } (t + 4 * panT) (changeTime s t 0) else s

/-- FENCE (R439, R440): it completes when its changes are visible, 2 or 3 PAN cycles on; the record of a bed has no completion
to wait for. -/
def cmdFence (c : Caller) (p : FenceP) (s : State) : Reply :=
  if p.set &&& p.release ≠ 0 then refuse s stBadParam
  else if p.release ≠ 0 ∧ callerRole s c < 1 then refuse s stRoleDenied
  else if p.mapEn = true ∧ callerRole s c < 2 then refuse s stRoleDenied
  else if p.mapEn = false ∧ p.ballMap ≠ 0 then refuse s stBadParam
  else
    let (t, s) := crossToPan s
    match c.via with
    | .image _ => ok (takeFences s p t)
    | _ => ⟨{ s with fenceRuns := s.fenceRuns ++ [⟨c, p, t⟩] }, stPending, []⟩

/-- The FENCE commands whose changes are visible now complete, with HB_FENCE as it stands (R439); one past its bound takes no effect
(R432). -/
def finishFences (s : State) : State :=
  let (due, later) := s.fenceRuns.partition (fun r => decide ((r.at_ : Int) ≤ s.now))
  due.foldl (fun s r =>
    if overdue s r.c 0x0F03 then faultRunning s r.c 0x0F03
    else
      let s := takeFences s r.p r.at_
      finishRunning s r.c 0x0F03 stOk (leBytes 4 (hbFence s))) { s with fenceRuns := later }

def execFence (c : Caller) (p : FenceP) (s : State) : Host.Outcome State Fault Refusal :=
  .next (command c 0x0F03 (cmdFence c p) s)

end Sys2Proof.Machine
end

