-- ==== Sys2Proof/Machine/Buffers.lean ====
section
/-! DEFINITION. Buffers of contexts and their freshness records: the ring writer's target (spec/07 R208), content values
(spec/02 R66), completion (R46, R51, R52), and LAYER_ADDRESS (spec/05 R154). -/

namespace Sys2Proof.Machine

/-- Count in a context. -/
def bump (s : State) (n : Nat) (f : CtxCounters → CtxCounters) : State :=
  s.setCtx n { s.ctx n with cnt := f (s.ctx n).cnt }

/-! ### The ring writer's target (R208, R115) -/

/-- The complete buffer with the highest SEQ: the fill source. -/
def fillSource (c : Ctx) : Option Nat :=
  (c.bufs.foldl (fun (b : Option (Nat × Nat)) e =>
    if e.2.complete && (match b with | some x => decide (x.2 < e.2.record.seq) | none => true)
    then some (e.1, e.2.record.seq) else b) none).map (·.1)

/-- The target of a frame that begins: not pinned and not already being written; one that has never completed, the
lowest, else the complete one with the lowest SEQ. -/
def chooseTarget (s : State) (n : Nat) : Option Nat :=
  let c := s.ctx n
  let free := (List.range (bufCount c)).filter (fun k => !pinned s n k && !(c.buf k).busy)
  match free.find? (fun k => !(c.buf k).complete) with
  | some k => some k
  | none => minBy (fun k => (c.buf k).record.seq) free

/-- Writing starts in a buffer: it loses its complete mark. -/
def beginBuf (s : State) (n k : Nat) : State :=
  let c := s.ctx n
  s.setCtx n (c.setBuf k { c.buf k with complete := false, ever := false, busy := true })

/-- A buffer whose frame is abandoned counts as one that has never completed (R208). -/
def dropBuf (s : State) (n k : Nat) : State :=
  let c := s.ctx n
  s.setCtx n (c.setBuf k { c.buf k with complete := false, ever := false, busy := false })

/-! ### Content values (R66, R307) -/

/-- Samples of a line of plane 0 that the detector takes. -/
def lineSamples (f : Nat) (l : List Byte) : List Byte :=
  if f = 1 ∨ f = 2 ∨ f = 3 ∨ f = 4 ∨ f = 0x12 ∨ f = 0x13 then l
  else (chunks 4 l.length l).flatMap (fun w =>
    let v := leNat w
    if f = 5 then [byte (field v 16 8)]
    else if f = 6 then leBytes 2 (field v 20 10)
    else if f = 7 ∨ f = 0x10 then [byte (field v 8 8)]
    else leBytes 2 (field v 10 10))

/-- The lines of a buffer that its detector reads: address and bytes, ascending (R307). -/
def sampledLines (c : Ctx) (k : Nat) : List (Nat × Nat) :=
  (List.range (ceilDiv c.p.height 8)).map (fun i => (bufAddr c k + 8 * i * c.p.stride0, c.p.width * fmtBytes c.p.format))

/-- The detector asks for its lines: the first burst one CORE cycle from now, one more each cycle (R307). -/
def askSamples (s : State) (n k : Nat) : State :=
  postRanges s 0x2F idCheck ⟨1, 1⟩ (.detector n) (sampledLines (s.ctx n) k)


/-- The content value of a buffer as the detector's reads give it: none when a read returns poison. -/
def contentValue (s : State) (n k : Nat) : Option Nat × State :=
  let c := s.ctx n
  let (l, bad, s) := (sampledLines c k).foldl (fun (acc, bad, s) a =>
    let (d, b, s) := devRead s idCheck a.1 a.2
    (acc ++ lineSamples c.p.format d, bad || b, s)) (([] : List Byte), false, s)
  (if bad then none else some (crc 1 l), s)

/-! ### Completion (R46, R51, R52, R63) -/

/-- What the writer knows of a buffer at its completion: capture time, alive counter (none: the source gave none),
causes, result of its comparison, and the bindings its context had had when its frame began. -/
structure Done where
  capS : Nat
  capNs : Nat
  alive : Option Nat
  causes : Nat
  good : Option Bool
  binds : Nat
  deriving DecidableEq, Repr

/-- The source binding of a context (R305). -/
def sourceBinding (s : State) (n : Nat) : Option (Nat × Check) :=
  s.checks.find? (fun e => e.2.use == 0 && e.2.object == n)

/-- The binding that guards the alive counter of a frame that began after `binds` bindings (R311, R312, R318). -/
def aliveGuard (s : State) (n binds : Nat) : Option Check :=
  ((sourceBinding s n).map (·.2)).filter (fun k => k.aliveEn && decide (k.serial ≤ binds))

/-- ALIVE and ALIVE_RUN of a buffer, and whether its value is a gap (R41, R52, R312). -/
def judgeAlive (g : Option Check) (c : Ctx) (alive : Option Nat) : Nat × Nat × Bool :=
  match g with
  | none => (0, 0, false)
  | some k =>
    let m := if k.aliveW then 16 else 256
    match c.prev with
    | none => (alive.getD 0 % m, 0, false)
    | some p =>
      let a := alive.getD p.alive % m
      if c.aliveFirst then (a, 0, false)
      else if a = p.alive then (a, min 255 (p.aliveRun + 1), false)
      else (a, 0, a != (p.alive + 1) % m)

/-- CONTENT_RUN of a buffer with content value `v` (R52, R66). -/
def judgeContent (c : Ctx) (v : Option Nat) : Nat :=
  match v, (if c.p.type = 1 then c.prevPic else c.prev), c.prevContent with
  | some a, some p, some b => if !c.contentFirst && a == b then min 255 (p.contentRun + 1) else 0
  | _, _, _ => 0

/-- A buffer completes with a value that its detector computed: COMPARED counts it where there is a value to compare with
(R66, R320). -/
def countSample (s : State) (n : Nat) (v : Option Nat) : State :=
  let c := s.ctx n
  match v, (if c.p.type = 1 then c.prevPic else c.prev), c.prevContent, detectorOf s n with
  | some _, some _, some _, some d => match tfind s.checks d with
    | some x => if c.contentFirst then s else s.setCheck d { x with compared := sat32 x.compared }
    | none => s
  | _, _, _, _ => s

/-- GOOD_RUN of a buffer (R52). -/
def judgeGood (prev : Option FreshRecord) (good : Option Bool) : Nat :=
  let base := (prev.map (·.goodRun)).getD 255
  match good with
  | none => base
  | some true => min 255 (base + 1)
  | some false => 0

/-- R46: the capture time is more than 1 ms later than time `t`. -/
def isFuture (capS capNs : Nat) (t : Ticks) : Bool := decide (t + msT < ofCap capS capNs)

def nextSeq (c : Ctx) : Nat := (c.seqNext + 1) % 2 ^ 32

/-- The freshness record of a buffer of a context that completes now (R51). -/
def makeRecord (s : State) (n : Nat) (d : Done) (content : Option Nat) : FreshRecord × Bool :=
  let c := s.ctx n
  let (a, run, gap) := judgeAlive (aliveGuard s n d.binds) c d.alive
  (⟨d.capNs, d.capS, a, run, judgeContent c content, judgeGood c.prev d.good,
    d.causes ||| (if d.good = some false then 32 else 0) ||| (if isFuture d.capS d.capNs s.tb then 64 else 0),
    nextSeq c⟩, gap)

/-- Admitted mirrors of a context have a newer buffer to send (R361). -/
def offerMirrors (s : State) (n k : Nat) : State :=
  { s with wels := tmap (fun _ w => { w with mirrors := w.mirrors.map (fun m =>
      if m.context == n && m.originDevice == s.ring.device && m.admitted then { m with waiting := some k } else m) }) s.wels }

/-- A buffer completes with a record (R51): complete mark, SEQ, counters, NEVER ended, mirrors. -/
def finishBuf (s : State) (n k : Nat) (r : FreshRecord) (content : Option Nat) (guarded : Bool) : State :=
  let (vis, s) := crossToPan s
  let c := s.ctx n
  let c := c.setBuf k { c.buf k with
    complete := true, ever := true, busy := false, visible := vis, record := r, content := content }
  let c := { c with
    seqNext := nextSeq c, prev := if c.p.type = 1 then c.prev else some r,
    prevPic := if c.p.type = 1 then some r else c.prevPic, prevContent := content, never := false,
    aliveFirst := c.aliveFirst && !guarded, contentFirst := c.contentFirst && content.isNone,
    cnt := if c.p.type = 1 then c.cnt else { c.cnt with
      frames := sat32 c.cnt.frames,
      lossFrames := if r.causes.testBit 0 then sat32 c.cnt.lossFrames else c.cnt.lossFrames } }
  offerMirrors (s.setCtx n c) n k

/-- Complete a buffer by the rules of R52. -/
def completeBuf (s : State) (n k : Nat) (d : Done) (content : Option Nat) : State :=
  let (r, gap) := makeRecord s n d content
  let s := if gap then bump s n (fun x => { x with gap := sat32 x.gap }) else s
  finishBuf s n k r content (aliveGuard s n d.binds).isSome

/-! ### LAYER_ADDRESS (R44, R154, R201) -/

/-- Heads that show a HOST context: a window naming it meets the head, in the shadow or in force. -/
def showingCtx (s : State) (n : Nat) : List Nat :=
  (s.heads.filter (fun e =>
    s.wins.any (fun w => w.2.g.context == some n && winMeets e.2.shadow w.2.g) ||
    e.2.force.slots.any (fun x => x.d.g.context == some n))).map (·.1)

def cmdLayerAddress (p : LayerAddressP) (s : State) : Reply :=
  match openCtx s p.context with
  | none => refuse s stBadParam
  | some c =>
    if isHost c.p = false ∨ c.p.ring ≤ p.buffer ∨ (p.capGiven = true ∧ 1000000000 ≤ p.capNs) then refuse s stBadParam
    else if c.isolated then refuse s stBusy
    else if c.latest.isNone && !demandOk (s.setCtx p.context { c with state := .free }) s then refuse s stBudget
    else
      let heads := (showingCtx s p.context).foldl (fun l h => (withTwin s h).foldl insertAsc l) []
      match (if p.autoCommit then commitFault s heads else none) with
      | some (st, w) => ⟨s, st, leBytes 2 w⟩
      | none =>
        let (v, s) := if (detectorOf s p.context).isSome then contentValue (askSamples s p.context p.buffer) p.context p.buffer else (none, s)
        let poison := (detectorOf s p.context).isSome && v.isNone
        let (capS, capNs) := if p.capGiven then (p.capS, p.capNs) else (timeS s.tb, timeNs s.tb)
        let s := completeBuf (countSample s p.context v) p.context p.buffer ⟨capS, capNs, none, if poison then 4 else 0, none, c.binds⟩ v
        let c := s.ctx p.context
        let s := s.setCtx p.context { c with latest := some (p.buffer, (c.buf p.buffer).record) }
        if p.autoCommit = true ∧ heads ≠ [] then
          let (seq, s) := armCommit s heads
          ok s (leBytes 4 seq)
        else ok s (leBytes 4 0)

def execLayerAddress (c : Caller) (p : LayerAddressP) (s : State) : Host.Outcome State Fault Refusal :=
  .next (command c 0x0403 (cmdLayerAddress p) s)

end Sys2Proof.Machine
end

