-- ==== Sys2Proof/Machine/Checks.lean ====
section
/-! DEFINITION. Check channels and sealed regions (spec/11 R305, R309, R313 to R320). -/

namespace Sys2Proof.Machine

/-! ### Mismatches (R309, R315, R424) -/

/-- One comparison of a channel: `at_` is the SEQ or the frame count. -/
def countCompare (s : State) (n : Nat) (expected computed at_ : Nat) : State :=
  match tfind s.checks n with
  | none => s
  | some k =>
    let k := { k with compared := sat32 k.compared }
    s.setCheck n (if expected = computed then k else { k with
      mismatch := sat32 k.mismatch, lastExpected := expected, lastComputed := computed, lastAt := at_ % 2 ^ 32 })

/-- CHECK_MISMATCH event of time `t`. -/
def postMismatch (s : State) (t : Ticks) (n use region object at_ expected computed : Nat) : State :=
  postHw s 0x03 3 t ([byte n, byte (use + 4 * region)] ++ leBytes 2 object ++ leBytes 4 at_ ++ leBytes 4 expected ++
    leBytes 4 computed)

/-- A source comparison ends (R309): counters, and for a mismatch the event and the CORRECTED error. -/
def endCompare (s : State) (n ctx seq expected computed : Nat) : State :=
  let s := countCompare s n expected computed seq
  if expected = computed then s
  else raiseErr (postMismatch s s.tb n 0 0 ctx seq expected computed) 0x0050 (n + 256 * ctx + 65536 * (seq % 65536))
    expected computed { mask := 0xFFFF, perTide := true }

/-! ### CHECK_BIND (R318) -/

def unbindCheck (n : Nat) (s : State) : Reply :=
  match tfind s.checks n with
  | some k => if k.use = 0 then ok { s with checks := tdel s.checks n } (leBytes 2 n) else refuseFull s stBadParam 6
  | none => refuseFull s stBadParam 6

/-- The context may have a source binding. -/
def bindable (s : State) (ctx : Nat) : Bool :=
  match openCtx s ctx with
  | some c => c.p.type != 3 && (methodOf c.p == 1 || methodOf c.p == 3)
  | none => false

def bindCheck (p : CheckBindP) (s : State) : Reply :=
  match (if p.channel = 0xFFFF then tfree s.checks 256 else some p.channel) with
  | none => refuseFull s stLimit 6
  | some n =>
    if thas s.checks n || (sourceBinding s p.context).isSome then refuseFull s stBusy 6
    else if 255 < n ∨ bindable s p.context = false ∨ (p.crcEn || p.aliveEn) = false then refuseFull s stBadParam 6
    else
      let s := s.setCheck n
        { use := 0, crcEn := p.crcEn, aliveEn := p.aliveEn, aliveW := p.aliveW, object := p.context,
          serial := (s.ctx p.context).binds + 1 }
      let c := s.ctx p.context
      ok (s.setCtx p.context { c with binds := c.binds + 1, aliveFirst := c.aliveFirst || p.aliveEn }) (leBytes 2 n)

def cmdCheckBind (p : CheckBindP) (s : State) : Reply :=
  if p.unbind then unbindCheck p.channel s else bindCheck p s

def execCheckBind (c : Caller) (p : CheckBindP) (s : State) : Host.Outcome State Fault Refusal :=
  .next (command c 0x0901 (cmdCheckBind p) s)

/-! ### SEAL_REGION (R319) -/

/-- The rectangle lies in the active area of the head's timing in the shadow. -/
def sealInside (b : Bank) (p : SealRegionP) : Bool :=
  match b.timing with
  | some t => decide (1 ≤ p.w) && decide (1 ≤ p.h) && decide (p.x + p.w ≤ t.hactive) && decide (p.y + p.h ≤ t.vactive)
  | none => false

def setSeals (s : State) (i : Nat) (t : Tab Seal) : State :=
  let h := s.head i
  s.setHead i { h with shadow := { h.shadow with seals := t } }

/-- Clear the flag of a region; its fence stays until the head's next flip (R96, R316). -/
def rearmSeal (s : State) (i r : Nat) : State :=
  let h := s.head i
  if h.sealFlags.testBit r then
    let flags := h.sealFlags - 2 ^ r
    postFence (s.setHead i { keepFences s.fences h with sealFlags := flags }) s.pt 2 0 flags i 0
  else s

/-- The channel that a region has (R305), be it of a region whose deletion no commit has applied yet. -/
def regionChannel (s : State) (i r : Nat) : Option Nat :=
  (s.checks.find? (fun e => e.2.use == 2 && e.2.object == i && e.2.region == r)).map (·.1)

/-- The channel of a region that is defined: its own, or the lowest free. -/
def sealChannel (s : State) (i r : Nat) : Option Nat :=
  match regionChannel s i r with
  | some n => some n
  | none => tfree s.checks 256

def cmdSealRegion (c : Caller) (p : SealRegionP) (s : State) : Reply :=
  let seals := (s.head p.head).shadow.seals
  let old := tfind seals p.region
  if 2 < p.op then refuse s stBadParam
  else if p.op ≠ 2 ∧ callerRole s c < 2 then refuse s stRoleDenied
  else if p.op = 0 then
    match sealChannel s p.head p.region with
    | none => refuseFull s stLimit 6
    | some n =>
      if 31 < p.head ∨ 7 < p.region ∨ 3 < p.poly ∨ sealInside (s.head p.head).shadow p = false then refuseFull s stBadParam 6
      else
        let s := setSeals s p.head (tset seals p.region ⟨p.x, p.y, p.w, p.h, p.poly, n⟩)
        ok (if thas s.checks n then s else s.setCheck n
          { use := 2, object := p.head, region := p.region, poly := p.poly }) (leBytes 2 n)
  else if 31 < p.head ∨ 7 < p.region ∨ 3 < p.poly then refuseFull s stBadParam 6
  else match old with
    | none => refuseFull s stBadParam 6
    | some r =>
      if p.op = 1 then ok (releaseChannels (setSeals s p.head (tdel seals p.region))) (leBytes 2 r.channel)
      else ok (rearmSeal s p.head p.region) (leBytes 2 r.channel)

def execSealRegion (c : Caller) (p : SealRegionP) (s : State) : Host.Outcome State Fault Refusal :=
  .next (command c 0x0902 (cmdSealRegion c p) s)

/-! ### SEAL_COMPARE (R313 to R317) -/

/-- The states in which comparisons run (R317). -/
def sealRuns (h : Head) : Bool :=
  match h.st with
  | .running | .unplugged | .training | .linkFailed => !blackFrame h
  | _ => false

/-- The channel of a region in force, while it still is that region's (R305). -/
def ownedSeal (s : State) (i r : Nat) (x : Seal) : Option Check :=
  (tfind s.checks x.channel).filter (fun k => k.use == 2 && k.object == i && k.region == r)

/-- A region's comparison that ended at PAN clock `at_` differs: its flag is set then, and the gauges hold it 4 PAN cycles of
fence distribution later (R99, R315). -/
def sealMismatch (s : State) (i r : Nat) (x : Seal) (at_ : Ticks) (blend lane : Nat) : State :=
  let h := s.head i
  let flags := h.sealFlags ||| 2 ^ r
  let h' : Head := { h with sealFlags := flags }
  let s := s.setHead i (stampFences (fenceBits s.fences h) (fenceBits s.fences h') (at_ + 4 * panT) h')
  let s := if flags = h.sealFlags then s else postFence s (tbAt s at_) 2 0 flags i 0
  raiseErr (postMismatch s (tbAt s at_) x.channel 2 r i h.frameCount blend lane) 0x0051 (i + 256 * r) blend lane

/-- A comparison of region `r` of head `i` ends: `fault` is what the hardware between the taps makes the lane tap's CRC differ by. A
frame in which no plain pixel reached the region makes it void (R314). -/
def sealCompare (s : State) (i r : Nat) (x : Seal) (at_ : Ticks) (fault : BitVec 32) : State :=
  let h := s.head i
  let s := s.setHead i { h with sealDone := h.sealDone ||| 2 ^ r }
  let owned := ownedSeal s i r x
  match tfind h.taps r with
  | none =>
    (match owned with
    | some k => s.setCheck x.channel { k with voids := sat32 k.voids }
    | none => s)
  | some reg =>
    let a := crcEnd x.poly reg
    let b := a ^^^ (fault.toNat % 2 ^ crcWidth x.poly)
    let s := if owned.isSome then countCompare s x.channel a b h.frameCount else s
    if a = b then s else sealMismatch s i r x at_ a b

/-- SEAL_COMPARE (R315): 4 PAN cycles after the lane tap takes the region's last pixel, which is 10 PAN cycles before that
pixel reaches the lane adapter output. -/
def execSealCompare (h : Fin 32) (r : Fin 8) (fault : BitVec 32) (s : State) : Host.Outcome State Fault Refusal :=
  let s := pump s h.val
  let x := s.head h.val
  match x.gen, tfind x.force.seals r.val with
  | some t, some g =>
    let last := x.flipT + natRat ((g.y + g.h - 1) * htotal t + (g.x + g.w - 1)) * pixelRat s t
    let at_ := panCycle last - 6 * panT
    if x.phase = .active ∧ sealRuns x = true ∧ x.sealDone.testBit r.val = false ∧ at_ ≤ s.now then
      .next (sealCompare s h.val r.val g at_ fault)
    else .next s
  | _, _ => .next s

/-! ### CHECK_STATS (R320) -/

def cmdCheckStats (channel : Nat) (s : State) : Reply :=
  match tfind s.checks channel with
  | none => refuse s stBadParam
  | some k =>
    let flag := k.use == 2 && (s.head k.object).sealFlags.testBit k.region
    let poly := if k.use = 2 then ((tfind (s.head k.object).force.seals k.region).map (·.poly)).getD k.poly else k.poly
    ok s ([byte (k.use + 4 * b2n flag + 8 * poly), byte k.region] ++ leBytes 2 k.object ++ leBytes 4 k.compared ++
      leBytes 4 k.mismatch ++ leBytes 4 k.voids ++ leBytes 4 k.lastExpected ++ leBytes 4 k.lastComputed ++
      leBytes 4 k.lastAt ++ zeros 4)

def execCheckStats (c : Caller) (channel : Nat) (s : State) : Host.Outcome State Fault Refusal :=
  .next (command c 0x0903 (cmdCheckStats channel) s)

end Sys2Proof.Machine
end

