-- ==== Sys2Proof/Machine/Returns.lean ====
section
/-! DEFINITION. What touches send to the source of a picture: INPUT datagrams (spec/07 R224), Welond touch packets
(spec/18 R478), and the cancel records of R477. -/

namespace Sys2Proof.Machine

/-! ### The way of what another device sends (R363) -/

/-- The ACTIVE link on which what a device sends here arrives (R363): that device sends over its WL_0 when the hops are equal, which
arrives on this device's WL_1 (R343). -/
def linkFrom (s : State) (origin : Nat) : Option Nat :=
  minBy (fun l => hopsVia s (s.wel l).partner origin) ((List.range 2).reverse.filter (fun l => (s.wel l).st == .active))

/-! ### INPUT datagrams (R217, R224) -/

/-- A DESK context with a return channel that is not silent (R201). -/
def returns (c : Ctx) : Bool :=
  c.state == .opened && c.p.type == 2 && c.p.returnPort != 0 && !c.isolated

/-- The own address of a logical port in the family of an address. -/
def ownOf (p : Port) (a : IpAddr) : IpAddr := ⟨a.v6, if a.v6 then p.cfg.ipv6 else p.cfg.ipv4⟩

/-- A touch record in the byte order of R224. -/
def touchBytes (r : TouchRecord) : List Byte :=
  [byte r.contact, byte r.state, byte r.desk, 0#8] ++ beBytes 4 r.x ++ beBytes 4 r.y ++ beBytes 2 r.window ++ zeros 2

/-- A datagram of a return channel: TYPE 2 INPUT or 3 REFRESH, with the device's sequence number, a time and its records; a REFRESH
carries no time (notes/assumptions/121.md). -/
def dgsBytes (stream type seq : Nat) (t : Ticks) (l : List TouchRecord) : List Byte :=
  let head := beBytes 2 0x4447 ++ [byte (16 + type), 0#8] ++ beBytes 2 stream ++ beBytes 2 seq ++ beBytes 4 (timeS t) ++
    beBytes 4 (timeNs t) ++ beBytes 2 l.length ++ [0#8, 0#8]
  let body := l.flatMap touchBytes
  head ++ beBytes 4 (crc 1 (head ++ body)) ++ body

/-- A datagram leaves on the return channel of a stream: from where the stream arrives to the source of its latest valid datagram
(R224). -/
def sendBack (s : State) (n : Nat) (bytes : List Byte) : State :=
  let c := s.ctx n
  match c.srcAddr with
  | some (p, src) => s.emit (.dgs ⟨p, ownOf (s.port p) src, src, c.p.returnPort, c.p.returnPort⟩ bytes)
  | none => s

/-- One INPUT datagram of a stream with the device's next sequence number; `more`: contacts of the stream stay down. A stream from
which no valid datagram has come has nowhere to send it. -/
def sendInput (s : State) (n : Nat) (t : Ticks) (more : Bool) (l : List TouchRecord) : State :=
  let c := s.ctx n
  let bytes := dgsBytes c.p.stream 2 c.dgs.outSeq t l
  if c.srcAddr.isNone then s
  else sendBack (s.setCtx n { c with
    repeats := if more then 0 else 3, lastInput := bytes, dgs := { c.dgs with outSeq := (c.dgs.outSeq + 1) % 65536 } }) n bytes

/-- A stream whose last contact has lifted repeats its final datagram, in each of 3 touch frames (R224). -/
def repeatInput (s : State) (n : Nat) : State :=
  let c := s.ctx n
  if c.repeats = 0 ∨ returns c = false then s
  else sendBack (s.setCtx n { c with repeats := c.repeats - 1 }) n c.lastInput

/-! ### Touch packets (R478) -/

/-- The payload of a touch packet. -/
def touchPayload (context device : Nat) (t : Ticks) (l : List TouchRecord) : List Byte :=
  leBytes 2 context ++ [byte l.length, byte device] ++ leBytes 4 (timeNs t) ++ leBytes 6 (timeS t) ++ zeros 2 ++
    l.flatMap touchBytes

/-- A record of 16 bytes; none when a reserved field is not 0. -/
def touchRecordOf (l : List Byte) : Option TouchRecord :=
  let b (i : Nat) : Nat := leAt l i 1
  if b 1 < 4 ∧ b 2 < 4 ∧ b 3 = 0 ∧ leAt l 14 2 = 0 then
    some ⟨b 0, b 1, b 2, beNat (slice l 4 4), beNat (slice l 8 4), beNat (slice l 12 2)⟩
  else none

/-- What a touch packet from its SOP and payload says; none when it breaks its layout or a reserved field is not 0 (R7, R478). -/
def touchPacketOf (dest : Nat) (l : List Byte) : Option TouchPacket :=
  let n := leAt l 2 1
  let r := (List.range n).filterMap (fun i => touchRecordOf (slice l (16 + 16 * i) 16))
  if l.length = 16 + 16 * n ∧ 1 ≤ n ∧ n ≤ 40 ∧ leAt l 3 1 < 4 ∧ leAt l 14 2 = 0 ∧ r.length = n then
    some ⟨dest, leAt l 0 2, leAt l 3 1, leAt l 4 4, leAt l 8 6, r⟩
  else none

/-- The records of a PEER context leave for its origin in Welond touch packets of at most 40 (R478; notes/assumptions/146.md). -/
def sendTouchPacket (s : State) (n : Nat) (t : Ticks) (l : List TouchRecord) : State :=
  let p := (s.ctx n).p
  match linkTo s p.originDevice with
  | some k => (chunks 40 (l.length / 40 + 1) l).foldl (fun s l =>
      sendPacket s k 2 p.originDevice s.ring.device (touchPayload p.originContext s.ring.device t l)) s
  | none => s

/-! ### Contacts of a source (R476, R477) -/

/-- A contact of a desk is delivered to context `n` and has not ended. -/
def contactOf (n : Nat) (c : Contact) : Bool := c.delivery == .source && (c.ctx.map (·.1)) == some n && c.state != 2

/-- Contacts of a stream stay down, on this device or on another one. -/
def streamDown (s : State) (n : Nat) : Bool :=
  s.desks.any (fun d => d.2.contacts.any (fun c => contactOf n c.2)) || (s.ctx n).remoteDown != []

/-- The records of a touch frame leave for the source of their context (R476). -/
def sendRecords (s : State) (n : Nat) (t : Ticks) (l : List TouchRecord) : State :=
  if l = [] then s
  else if (s.ctx n).p.type = 3 then sendTouchPacket s n t l
  else sendInput s n t (streamDown s n) l

/-- Position of a pixel of a picture in 1/256 pixel along one axis (R475): `w` is the offset in the window in 1/256 wall
pixel, `n` the crop used, `win` the window's size, `full` and `at_` the crop's size and start in the source. -/
def sourcePos (w : Int) (n win k full at_ : Nat) : Nat :=
  (clampI (256 * (at_ : Int)) (256 * ((at_ : Int) + full) - 1) (256 * (at_ : Int) + w * ((n * 65536 / win : Nat) : Int) * k / 65536)).toNat

/-- Source position of a head position on a window, by the head's place and the size of the context's picture (R475). -/
def sourceAt (v : (Nat × Nat) × WinDef × (Nat × Nat)) (hx hy : Int) : Nat × Nat :=
  let ((px, py), d, (width, height)) := v
  let c := cropOf d width height
  let full := if d.l.srcW = 0 then width - d.l.srcX else d.l.srcW
  (sourcePos (hx + 256 * ((px : Int) - d.g.x)) c.w d.g.w (if c.dec then 2 else 1) full c.x,
   sourcePos (hy + 256 * ((py : Int) - d.g.y)) c.h d.g.h 1 c.h c.y)

/-- Head position of a contact by its route entry (R473). -/
def headAt (r : Route) (x y : Int) : Int × Int :=
  (256 * (r.hx : Int) + (x - r.gx) * r.hw * 256 / (r.gw : Int), 256 * (r.hy : Int) + (y - r.gy) * r.hh * 256 / (r.gh : Int))

/-- The bank of the frame shown on a head (R474). -/
def bankShown (h : Head) : Bank := if h.flippedForce then h.force else h.before.getD h.force

/-- The slot of a contact's window on its head, in the frame shown. -/
def contactSlot (s : State) (c : Contact) : Option (Bank × Slot) :=
  match c.route with
  | some (_, r) =>
    let b := bankShown (s.head r.head)
    (b.slots.find? (fun k => k.win == c.win)).map (fun k => (b, k))
  | none => none

/-- How a contact's window lies on its head: as in the frame shown while it stays bound as at the down, else as it last lay. A window
without a context has no picture (notes/assumptions/146.md). -/
def contactView (s : State) (c : Contact) : Option ((Nat × Nat) × WinDef × (Nat × Nat)) :=
  match contactSlot s c, c.ctx with
  | some (b, k), some (n, o) =>
    let x := s.ctx n
    if k.d.g.context == some n && k.opening == some o && x.state == .opened && x.opening == o then
      some (b.place.getD (0, 0), k.d, (x.p.width, x.p.height))
    else c.seen
  | some (b, k), none => some (b.place.getD (0, 0), k.d, (0, 0))
  | none, _ => c.seen

/-- Where a contact lies: the source position on its window, or the head position when it has none (R479). -/
def contactXY (s : State) (c : Contact) : Nat × Nat :=
  match c.route with
  | none => (0, 0)
  | some (_, r) =>
    let (hx, hy) := headAt r c.x c.y
    match contactView s c with
    | some v => if c.win = 0xFFFF then (unsigned 32 hx, unsigned 32 hy) else sourceAt v hx hy
    | none => (unsigned 32 hx, unsigned 32 hy)

/-- The record of a contact for its source. -/
def contactRecord (s : State) (desk n state : Nat) (c : Contact) : TouchRecord :=
  let (x, y) := contactXY s c
  ⟨n, state, desk, x, y, c.win⟩

/-- The contacts delivered to a source that satisfy `p` end there with one record of STATE cancel, and go on to the host ring
with reason 1 (R477). -/
def cancelContacts (s : State) (p : Nat → Nat → Contact → Bool) : State :=
  let hit (d : Nat) (e : Nat × Contact) : Bool := e.2.delivery == .source && e.2.state != 2 && p d e.1 e.2
  let l := s.desks.flatMap (fun d => (d.2.contacts.filter (hit d.1)).map (fun e =>
    ((e.2.ctx.map (·.1)).getD 0, contactRecord s d.1 e.1 3 e.2)))
  let s := { s with desks := tmap (fun d (k : Desk) => { k with
    contacts := k.contacts.map (fun e => if hit d e then (e.1, { e.2 with delivery := .host 1 false }) else e) }) s.desks }
  ((l.map (·.1)).foldl insertAsc []).foldl (fun s n =>
    sendRecords s n s.tb ((l.filter (fun e => e.1 == n)).map (·.2))) s

/-- The contacts of a context that closes or is isolated (R477). -/
def cancelSource (s : State) (n : Nat) : State := cancelContacts s (fun _ _ c => (c.ctx.map (·.1)) == some n)

end Sys2Proof.Machine
end

