-- ==== Sys2Proof/Machine/Contexts.lean ====
section
/-! DEFINITION. Contexts, flow rules and ports (spec/07 R191 to R207, R227, R228): CONTEXT_OPEN, CONTEXT_CLOSE, CONTEXT_STATS,
FLOW_BIND, SOURCE_ISOLATE, SLUICE_SET, and the classifier's rows ETH_FRAME_RECEIVE, ETH_LINK_CHANGE and MGMT_FRAME. -/

namespace Sys2Proof.Machine

/-! ### Mirror requests (R361) -/

/-- What the ring's section declares of a PEER context: its entry, or none with PRIORITY 0 and the rate of its buffers
(R344). -/
def mirrorAsk (s : State) (p : CtxParams) : MirrorAsk :=
  match s.ring.mirrors.find? (fun m => m.originDevice == p.originDevice && m.originContext == p.originContext) with
  | some m => ⟨p.originDevice, s.ring.device, p.originContext, m.compress, m.priority, m.rateKbs, m.compKbs⟩
  | none => ⟨p.originDevice, s.ring.device, p.originContext, false, 0,
      ceilDiv (bufExtent p.format p.height p.plane1 p.stride0 p.stride1 * s.tide.num) (1000 * s.tide.den), 0⟩

/-- A mirror request message on a link (R361). -/
def sendAsk (s : State) (l : Nat) (a : MirrorAsk) : State :=
  sendOpen s l 5 [a.origin, a.device, a.context, b2n a.compress, a.priority, a.rateKbs, a.compKbs]

/-- Ask the origin of a PEER context for it (R361). -/
def requestMirror (s : State) (n : Nat) : State :=
  let c := s.ctx n
  match linkTo s c.p.originDevice with
  | some l => sendAsk s l (mirrorAsk s c.p)
  | none => s

/-- Identity that writes the ring of a context (R362, R387). -/
def ringWriter (s : State) (n : Nat) : Nat :=
  if (s.ctx n).p.type = 3 then 17 + (linkTo s (s.ctx n).p.originDevice).getD 0 else idIngest

/-! ### Multicast groups (R197) -/

def multicast (a : IpAddr) : Bool := if a.v6 then a.addr / 2 ^ 120 == 0xFF else a.addr / 2 ^ 28 == 0xE

/-- The rules that keep groups joined on a port. -/
def joiningRules (s : State) (p : Nat) : List FlowRule :=
  (s.flows.map (·.2)).filter (fun r =>
    r.join && r.port == p && !((s.ctx r.context).isolated && (s.ctx r.context).leave))

/-- Add a rule's wish to what a port wants of its group: any source when one of its rules names none (R197). -/
def addWish (l : List Membership) (r : FlowRule) : List Membership :=
  let add (m : Membership) : Membership :=
    if r.anySrc then { m with any := true }
    else { m with sources := if m.sources.contains r.src then m.sources else m.sources ++ [r.src] }
  if l.any (fun m => m.group == r.dst) then l.map (fun m => if m.group == r.dst then add m else m)
  else l ++ [add ⟨r.dst, false, []⟩]

def groupsWanted (s : State) (p : Nat) : List Membership := (joiningRules s p).foldl addWish []

/-- A membership report of a group from the port's own address (R197). -/
def report (s : State) (p : Nat) (m : Membership) : State := s.emit (.membership p (ownOf (s.port p) m.group) m)

/-- A group that a port no longer wants. -/
def left (want : List Membership) (m : Membership) : Bool := !want.any (fun w => w.group == m.group)

/-- A port reports every group whose joining rules have changed what it wants, and leaves those it no longer wants. -/
def settlePort (s : State) (p : Nat) : State :=
  let want := groupsWanted s p
  let have_ := (s.port p).joined
  if want = have_ then s
  else
    let s := (have_.filter (left want)).foldl (fun s m => report s p ⟨m.group, false, []⟩) s
    let s := (want.filter (fun m => !have_.contains m)).foldl (fun s m => report s p m) s
    s.setPort p { s.port p with joined := want }

def settleGroups (s : State) : State := (List.range 16).foldl settlePort s

/-! ### FLOW_BIND (R194 to R197) -/

/-- What a rule matches on, with the fields that it leaves open set to 0. -/
def matchFields (r : FlowRule) : FlowRule :=
  { r with path := 0, join := false, context := 0, vlan := if r.anyVlan then 0 else r.vlan,
           src := if r.anySrc then ⟨false, 0⟩ else r.src, srcPort := if r.anySport then 0 else r.srcPort }

def flowTarget (s : State) (rule : Nat) : Option Nat := if rule = 0xFFFF then tfree s.flows 1024 else some rule

/-- The context takes flows (R196). -/
def flowContext (s : State) (n : Nat) : Bool :=
  match openCtx s n with
  | some c => !isHost c.p && c.p.type != 3
  | none => false

def flowFields (r : FlowRule) : Bool :=
  decide (r.port < 16) && decide (r.path ≤ 1) && decide (r.vlan < 4096) && decide (r.srcPort < 65536) &&
    decide (r.dstPort < 65536)

def bindFlow (p : FlowBindP) (s : State) : Reply :=
  let r := p.r
  let rules := s.flows.map (·.2)
  match flowTarget s p.rule with
  | none => refuseFull s stLimit 4
  | some n =>
    if rules.any (fun q => q.context == r.context && q.path == r.path) then refuseFull s stLimit 4
    else if r.join && (s.port r.port).joined.all (fun m => m.group != r.dst) && decide (256 ≤ (s.port r.port).joined.length) then
      refuseFull s stLimit 5
    else if thas s.flows n then refuseFull s stBusy 4
    else if 1023 < n ∨ flowContext s r.context = false ∨ flowFields r = false then refuseFull s stBadParam 4
    else if r.path = 1 ∧ rules.any (fun q => q.context == r.context && q.path == 0) = false then
      refuseFull s stBadParam 4
    else if (s.port r.port).exists_ = false ∨ rules.any (fun q => matchFields q == matchFields r) = true then
      refuseFull s stBadParam 4
    else if r.join && !multicast r.dst then refuseFull s stBadParam 4
    else ok (settleGroups { s with flows := tset s.flows n r }) (leBytes 2 n)

def unbindFlow (n : Nat) (s : State) : Reply :=
  if thas s.flows n then ok (settleGroups { s with flows := tdel s.flows n }) (leBytes 2 n)
  else refuseFull s stBadParam 4

def cmdFlowBind (p : FlowBindP) (s : State) : Reply := if p.unbind then unbindFlow p.rule s else bindFlow p s

def execFlowBind (c : Caller) (p : FlowBindP) (s : State) : Host.Outcome State Fault Refusal :=
  .next (command c 0x0503 (cmdFlowBind p) s)

/-! ### CONTEXT_OPEN (R203 to R205) -/

/-- METHOD is one that the type allows (R39). -/
def methodOk (p : CtxParams) : Bool :=
  match p.type with
  | 0 => p.method == 0xF || p.method == 4 || decide (p.method ≤ 2)
  | 1 => p.method == 0xF || decide (p.method ≤ 2)
  | 2 => p.method == 0xF || p.method == 3
  | 3 => p.method == 0xF
  | _ => false

def within (lo hi n : Nat) : Bool := decide (lo ≤ n) && decide (n ≤ hi)

/-- Format and size (R204). -/
def sizeOk (p : CtxParams) : Bool :=
  let box (a b c d : Nat) : Bool := within a b p.width && within c d p.height
  match p.type with
  | 0 => if methodOf p = 4 then fmtDefined p.format && box 16 8192 16 8192
         else within 1 8 p.format && box 16 3840 16 2160
  | 1 => within 1 2 p.format && box 64 8192 64 4320 && p.width % 8 == 0 && p.height % 8 == 0
  | 2 => p.format == 0x10 && box 64 8192 64 8192
  | _ => fmtDefined p.format && box 16 8192 16 8192

/-- The freshness extension's fields (R203, R205). -/
def extOk (p : CtxParams) : Bool :=
  if p.method = 1 then (if p.extForm = 0 then within 1 14 p.extId else within 1 255 p.extId)
  else p.extId == 0 && p.extForm == 0

/-- Bytes of the ring of a context. -/
def ringBytesOf (p : CtxParams) : Nat := if p.type = 1 then p.pitch else p.pitch * p.ring

/-- The ring keeps R119; for CODED, its bitstream ring is whole 4 KiB pages (R203). -/
def ringOk (p : CtxParams) : Bool :=
  if p.type = 1 then decide (0 < p.pitch) && p.pitch % 4096 == 0
  else ringLayoutOk p.format p.width p.height p.base p.pitch p.plane1 p.stride0 p.stride1

/-- Identities that count as the writer of a context's ring (R205). -/
def writersOf (p : CtxParams) : List Nat :=
  if isHost p then List.range 9 else if p.type = 3 then [17, 18] else [idIngest]

/-- Every region of a range lets one of the identities write. -/
def anyWriterFrom (s : State) (ids : List Nat) : (fuel page last : Nat) → Bool
  | 0, _, _ => false
  | f + 1, page, last =>
    if last < page then true
    else match findRegion s.mem.dyke.force page with
      | some (_, r) => ids.any (fun i => grants r i true) && anyWriterFrom s ids f (r.base + r.pages) last
      | none => false

def writable (s : State) (ids : List Nat) (addr n : Nat) : Bool :=
  decide (addr + n ≤ memTop) &&
    anyWriterFrom s ids (s.mem.dyke.force.length + 1) (addr / 4096) ((addr + max n 1 - 1) / 4096)

/-- The number that CONTEXT_OPEN names. -/
def ctxTarget (s : State) (n : Nat) : Option Nat :=
  if n = 0xFFFF then (List.range 192).find? (fun k => (s.ctx k).state == .free) else some n

def codedOpen (s : State) : Nat := (s.ctxs.filter (fun e => e.2.state == .opened && e.2.p.type == 1)).length

/-! ### Mirror admission (R359, R360, R363) -/

/-- One place of the order of admission: before another (R360). -/
def mirrorBefore (a b : Mirror) : Bool :=
  if a.priority ≠ b.priority then decide (b.priority < a.priority)
  else if a.originDevice ≠ b.originDevice then decide (a.originDevice < b.originDevice)
  else decide (a.context < b.context)

def insertMirror (m : Mirror) : List Mirror → List Mirror
  | [] => [m]
  | x :: r => if mirrorBefore m x then m :: x :: r else x :: insertMirror m r

/-- Admit in order what fits in the capacity that remains; `used` is taken already, in units of 1,000 bytes/s. -/
def admitList (cap : Nat × Nat) : (used : Nat) → List Mirror → List Mirror
  | _, [] => []
  | used, m :: r =>
    if (used + m.kbs) * 1000 * cap.2 ≤ cap.1 then { m with admitted := true } :: admitList cap (used + m.kbs) r
    else { m with admitted := false } :: admitList cap used r

/-- The mirror set message of a link (R360): what is held here, and what is held before it of mirrors passed on. -/
def sendMirrorSet (s : State) (l : Nat) : State :=
  let own := ((s.wel l).mirrors.filter (fun m => !m.admitted && !m.lost)).map (fun m => (m.originDevice, m.context))
  let far := (s.wel (1 - l)).remoteHeld.filter (fun e => (s.wel l).mirrors.any (fun m =>
    m.originDevice == e.1 && m.context == e.2 && m.originDevice != s.ring.device))
  sendOpen s l 6 ((own ++ far).flatMap (fun e => [e.1, e.2]))

/-- Admission on a link (R360). -/
def admitMirrors (s : State) (l : Nat) : State :=
  let w := s.wel l
  let sorted := (w.mirrors.filter (fun m => !m.lost)).foldl (fun acc m => insertMirror m acc) []
  sendMirrorSet (s.setWel l { w with mirrors := admitList (capacity w.txWidth w.rateCode) 0 sorted ++ w.mirrors.filter (·.lost) }) l

/-- A mirror of this device whose context is not open. -/
def mirrorLost (s : State) (m : Mirror) : Bool := m.originDevice == s.ring.device && (s.ctx m.context).state != .opened

/-- The mirrors that a link gains or loses as contexts open and close; it admits anew then (R360). -/
def settleMirrors (s : State) : State :=
  (List.range 2).foldl (fun s l =>
    let w := s.wel l
    if w.mirrors.all (fun m => m.lost == mirrorLost s m) then s
    else admitMirrors (s.setWel l { w with mirrors := w.mirrors.map (fun m =>
      if mirrorLost s m then { m with lost := true, admitted := false, waiting := none } else { m with lost := false }) }) l) s

/-- A new opening of a context (R207). -/
def openFresh (s : State) (n : Nat) (p : CtxParams) : State :=
  s.setCtx n { state := .opened, opening := (s.ctx n).opening + 1, p := p }

def cmdContextOpen (q : ContextOpenP) (s : State) : Reply :=
  let p := q.p
  match ctxTarget s q.context with
  | none => refuseFull s stCtxExhausted 0
  | some n =>
    if p.type = 1 ∧ 128 ≤ codedOpen s then refuseFull s stCtxExhausted 0
    else if (s.ctx n).state ≠ .free then refuseFull s stBusy 0
    else if 191 < n ∨ methodOk p = false ∨ p.clockRate ≠ 90000 ∨ sizeOk p = false ∨
        (if p.type = 1 then p.ring != 0 else !within 2 8 p.ring) = true then refuseFull s stBadParam 0
    else if extOk p = false ∨ within 100 1000000 p.timeoutUs = false then refuseFull s stBadParam 0
    else if ringOk p = false then refuseFull s stBadParam 0
    else if writable s (writersOf p) p.base (ringBytesOf p) = false then refuseFull s stDykeDenied 0
    else
      let s := settleMirrors (openFresh s n p)
      ok (if p.type = 3 then requestMirror s n else s) (leBytes 2 n)

def execContextOpen (c : Caller) (p : ContextOpenP) (s : State) : Host.Outcome State Fault Refusal :=
  .next (command c 0x0501 (cmdContextOpen p) s)

/-! ### CONTEXT_CLOSE (R206, R252, R280) and isolation (R201, R202) -/

/-- The frame in progress of a context is abandoned; its packets still to come are discarded, and the ring takes its bytes back
(R208, R215). -/
def abandonFrame (s : State) (n : Nat) : State :=
  let c := s.ctx n
  match c.frame with
  | some f =>
    let back := if f.done then 0 else f.size
    let s := if f.done || f.abandoned then s else match f.target with
      | some k => dropBuf s n k
      | none => s
    let c := s.ctx n
    s.setCtx n { c with
      ringPos := (c.ringPos + c.p.pitch - back) % max 1 c.p.pitch,
      frame := some { f with abandoned := true, target := none, payload := [], rows := [], size := if f.done then f.size else 0 } }
  | none => s

/-- An engine that works on a context abandons its picture (R252). -/
def abandonDecode (s : State) (n : Nat) : State :=
  { s with decs := tmap (fun _ e => if e.work.isSome && e.ctx == n then { e with abandon := true } else e) s.decs }

/-- Encode contexts that tap a context abandon the frame in progress, and the waiting one is let go (R280). -/
def abandonTaps (s : State) (n : Nat) : State :=
  let taps (i : Nat) : Bool := (tfind s.encs i).elim false (fun x => x.p.tapContext && x.p.source == n)
  { s with
    encEngines := tmap (fun _ e => match e.work with
      | some w => if taps w.enc then { e with abandon := true } else e
      | none => e) s.encEngines,
    encs := tmap (fun i e => if taps i then { e with waiting := none, capture := none } else e) s.encs }

def cmdContextClose (n : Nat) (s : State) : Reply :=
  match openCtx s n with
  | none => refuse s stBadParam
  | some _ =>
    if skimBindsContext s n then refuse s stBusy else
    let s := cancelSource s n
    let s := settleGroups { s with flows := s.flows.filter (fun e => e.2.context != n) }
    let s := abandonTaps (abandonDecode (abandonFrame s n) n) n
    let s := { s with checks := s.checks.filter (fun e => !(e.2.use == 0 && e.2.object == n)) }
    let c := s.ctx n
    ok (settleMirrors (releaseContext (s.setCtx n { c with
      state := .awaiting, frame := none, closing := [], aus := [], latest := none, repeats := 0, remoteDown := [],
      dec := { c.dec with waiting := [] } }) n))

def execContextClose (c : Caller) (context : Nat) (s : State) : Host.Outcome State Fault Refusal :=
  .next (command c 0x0502 (cmdContextClose context) s)

/-- An RTCP compound packet of an empty receiver report and a picture-loss indication (R251; PRESUMED: RFC 3550 and RFC 4585 for the
header fields; notes/assumptions/120.md). -/
def pliBytes (n ssrc : Nat) : List Byte :=
  let sender := beBytes 4 (0x4B570000 + n)
  [0x80#8, 201#8] ++ beBytes 2 1 ++ sender ++ [0x81#8, 206#8] ++ beBytes 2 2 ++ sender ++ beBytes 4 ssrc

/-- Where it goes: from the own address of the primary rule's port to the source of the latest valid packet (R251). -/
def pliAddr (s : State) (n : Nat) : UdpAddr :=
  let c := s.ctx n
  let port := ((s.flows.map (·.2)).find? (fun r => r.context == n && r.path == 0)).elim 0 (·.port)
  let dst := c.srcAddr.elim ⟨false, 0⟩ (·.2)
  let p := c.attach.elim 0 (·.rtcpPort)
  ⟨port, ownOf (s.port port) dst, dst, p, p⟩

/-- Picture-loss indication to the source (R251): at most one in 100 ms, to the source of the latest valid packet, from the
port of the primary rule. -/
def sendPli (s : State) (n : Nat) : State :=
  let c := s.ctx n
  let rule := s.flows.any (fun e => e.2.context == n && e.2.path == 0)
  if c.attach.elim 0 (·.rtcpPort) = 0 ∨ c.srcAddr = none ∨ rule = false then s
  else if c.dec.pliAt.elim false (fun t => decide (s.ref < t + 100 * msT)) then s
  else (s.setCtx n { c with dec := { c.dec with pliAt := some s.ref, pliSent := sat32 c.dec.pliSent } }).emit
    (.pli (pliAddr s n) (pliBytes n c.ssrc))

/-- The decoder looks for a random-access access unit again (R250). -/
def seekCtx (s : State) (n : Nat) : State :=
  sendPli (s.setCtx n { s.ctx n with dec := { (s.ctx n).dec with seeking := true } }) n

/-- Isolation (R201). A frame that is complete under R210 and only awaits its copies or its 16 cycles completes all the same (DESIGN
CHOICE: notes/assumptions/152.md). -/
def isolateCtx (n : Nat) (leave : Bool) (s : State) : State :=
  let s := abandonDecode (abandonFrame (cancelSource s n) n) n
  settleGroups (s.setCtx n { s.ctx n with
    isolated := true, leave := leave, repeats := 0, remoteDown := [], lastSeq := none, pathLast := [], past := [], dropped := [],
    frame := (s.ctx n).frame.map (fun f => { f with seen := [] }) })

/-- The end of an isolation: cause NEVER until the next buffer (R202), the DGS stream counts as new (R222, R223), and an
attached context seeks random access (R250, R251). -/
def rejoinCtx (n : Nat) (s : State) : State :=
  let c := s.ctx n
  let s := settleGroups (s.setCtx n { c with
    isolated := false, leave := false, never := true, frame := if c.p.type = 3 then none else c.frame, dgs := { c.dgs with got := [], everSeen := false } })
  if c.attach.isSome then seekCtx s n else s

def cmdSourceIsolate (p : SourceIsolateP) (s : State) : Reply :=
  match openCtx s p.context with
  | none => refuse s stBadParam
  | some c =>
    if c.isolated = p.isolate then ok s
    else if p.isolate then ok (isolateCtx p.context p.leave s)
    else ok (rejoinCtx p.context s)

def execSourceIsolate (c : Caller) (p : SourceIsolateP) (s : State) : Host.Outcome State Fault Refusal :=
  .next (command c 0x0504 (cmdSourceIsolate p) s)

/-! ### CONTEXT_STATS (R227) -/

def cmdContextStats (n : Nat) (s : State) : Reply :=
  match openCtx s n with
  | none => refuse s stBadParam
  | some c =>
    let k := c.cnt
    ok s ([k.frames, k.lossFrames, k.pktLost, k.path0Lost, k.path1Lost, k.dup, k.extBad, k.gap, k.ringFull, k.late,
      k.fast, k.dgsBad, k.unsupported, k.isolatedDrop, k.refreshSent, 0].flatMap (leBytes 4))

def execContextStats (c : Caller) (context : Nat) (s : State) : Host.Outcome State Fault Refusal :=
  .next (command c 0x0505 (cmdContextStats context) s)

/-! ### Token buckets and SLUICE_SET (R199, R200) -/

/-- Capacity of a bucket of `n` bytes, and what a frame of `n` bytes takes, in bits × 24,000,000. -/
def tokens (n : Nat) : Nat := n * 8 * 24000000

/-- Both buckets of a port filled up to now. -/
def fillBuckets (p : Port) (now : Ticks) : Port :=
  let dt := now - p.tokensAt
  { p with sluiceTokens := min (tokens 65536) (p.sluiceTokens + p.rateKbps * dt),
           mgmtTokens := min (tokens 16384) (p.mgmtTokens + 1000 * dt), tokensAt := now }

/-- The port on which a command arrived over the sluice. -/
def viaPort (c : Caller) : Option Nat :=
  match c.via with
  | .sluice p _ _ => some p.val
  | _ => none

def cmdSluiceSet (c : Caller) (p : SluiceSetP) (s : State) : Reply :=
  let q := s.port p.port
  if 15 < p.port ∨ q.exists_ = false ∨ within 1 65535 p.udpPort = false ∨ within 1000 100000 p.rateKbps = false then
    refuse s stBadParam
  else if p.enable = false ∧ viaPort c = some p.port then refuse s stBusy
  else ok (s.setPort p.port
    { fillBuckets q s.net with sluiceEn := p.enable, udpPort := p.udpPort, rateKbps := p.rateKbps })

def execSluiceSet (c : Caller) (p : SluiceSetP) (s : State) : Host.Outcome State Fault Refusal :=
  .next (command c 0x0506 (cmdSluiceSet c p) s)

/-! ### The classifier (R192 to R194, R198) -/

/-- Where the classifier sends a frame. -/
inductive Class where
  | oversize
  | fcsBad
  | sluice
  | time
  | mgmt
  | isolated (context : Nat)
  | media (context : Nat) (path : Nat)
  | discard
  | stray
  deriving DecidableEq, Repr

def ownAddr (p : Port) (a : IpAddr) : Bool := a.addr != 0 && (if a.v6 then a.addr == p.cfg.ipv6 else a.addr == p.cfg.ipv4)

/-- The frame is on the management VLAN, or untagged when that is 0 (R193). -/
def onMgmtVlan (p : Port) (f : EthFrame) : Bool :=
  if p.cfg.mgmtVlan = 0 then f.tags == 0 else f.tags == 1 && f.vlan == p.cfg.mgmtVlan

/-- A rule matches a UDP frame on port `n` (R194). -/
def ruleMatches (r : FlowRule) (n : Nat) (f : EthFrame) (src dst : IpAddr) (sport dport : Nat) : Bool :=
  r.port == n && (r.anyVlan || r.vlan == (if f.tags = 0 then 0 else f.vlan)) && r.dst == dst && r.dstPort == dport &&
    (r.anySrc || r.src == src) && (r.anySport || r.srcPort == sport)

/-- The first row of R193 whose test a frame meets. -/
def classify (s : State) (n : Nat) (f : EthFrame) : Class :=
  let p := s.port n
  if 9216 < f.len then .oversize
  else if f.fcsBad || decide (f.len < 64) then .fcsBad
  else if 2 ≤ f.tags then .stray
  else match f.kind with
    | .pause => .discard
    | .ptpEther => .time
    | .arp => .mgmt
    | .nd _ => .mgmt
    | .groupQuery .. => .mgmt
    | .echo dst => if ownAddr p dst then .mgmt else .stray
    | .other => .stray
    | .udp src dst sport dport _ =>
      if p.sluiceEn && ownAddr p dst && dport == p.udpPort && onMgmtVlan p f then .sluice
      else if dport = 319 ∨ dport = 320 then .time
      else match s.flows.find? (fun e => ruleMatches e.2 n f src dst sport dport) with
        | some e => if (s.ctx e.2.context).isolated then .isolated e.2.context else .media e.2.context e.2.path
        | none => .stray

/-- Media space of a physical port (R198). -/
def mediaSpace : Nat := 928 * 1024

def mediaOf (s : State) (phys : Nat) : List MediaFrame := tget [] s.media phys

/-- The receive stamp at this moment: half-nanoseconds of the time base (R326). -/
def stampNow (s : State) : Nat := s.halves

/-- A media frame enters the media space of its physical port with its stamp, or overruns it. -/
def mediaArrive (s : State) (n : Nat) (f : EthFrame) (ctx path : Nat) : State :=
  let q := mediaOf s (n / 4)
  if mediaSpace < sumNat (q.map (·.len)) + f.len then s.setPort n { s.port n with overrun := sat32 (s.port n).overrun }
  else match f.kind with
    | .udp src _ _ _ l =>
      { s with media := tset s.media (n / 4) (q ++ [⟨n, ctx, (s.ctx ctx).opening, path, src, f.len, stampNow s, l⟩]) }
    | _ => s

/-- Space reserved for the time path in the receive buffer of a physical port (R198). -/
def timeSpace : Nat := 16 * 1024

/-- A frame of the time path waits with its stamp (R326): the receive time at 0.5 ns resolution. One that finds the reserved space
full is dropped (notes/assumptions/104.md). -/
def timeArrive (s : State) (n len : Nat) : State :=
  let used := sumNat ((List.range 4).map (fun i => sumNat ((s.port (n / 4 * 4 + i)).timeIn.map (·.1))))
  if timeSpace < used + len then s
  else s.setPort n { s.port n with timeIn := (s.port n).timeIn ++ [(len, stampNow s)] }

/-- A port that receives: it exists in its port's mode and has link. -/
def portUp (s : State) (n : Nat) : Bool := (s.port n).exists_ && (s.port n).link

/-- ETH_FRAME_RECEIVE (R193). Frames for the sluice, the time path and management go on in SLUICE_DATAGRAM, PTP_RECEIVE and
MGMT_FRAME. -/
def receiveFrame (s : State) (n : Nat) (f : EthFrame) : State :=
  let s := s.setPort n { s.port n with rxFrames := sat32 (s.port n).rxFrames }
  let p := s.port n
  match classify s n f with
  | .oversize => s.setPort n { p with oversize := sat32 p.oversize }
  | .fcsBad => s.setPort n { p with fcsBad := sat32 p.fcsBad }
  | .stray => s.setPort n { p with stray := sat32 p.stray }
  | .isolated c => bump s c (fun k => { k with isolatedDrop := sat32 k.isolatedDrop })
  | .media c path => if memoryRests s then s else mediaArrive s n f c path
  | .sluice => s
  | .time => timeArrive s n f.len
  | .mgmt => s
  | .discard => s

def execEthFrameReceive (port : Fin 16) (f : EthFrame) (s : State) : Host.Outcome State Fault Refusal :=
  if portUp s port.val then .next (receiveFrame s port.val f) else .next s

/-- ETH_LINK_CHANGE (R228): a link that comes up shows that LREF_A is there (R14; notes/assumptions/42.md). -/
def execEthLinkChange (port : Fin 16) (up : Bool) (s : State) : Host.Outcome State Fault Refusal :=
  if released s && (s.port port.val).exists_ then
    let s := if up then { s with clk := { s.clk with lrefA := true } } else s
    .next (s.setPort port.val { s.port port.val with link := up })
  else .next s

/-- What the warden answers: a query with a report of each group joined that it asks for (R197), anything else with a reply. -/
def answerMgmt (s : State) (n : Nat) (k : EthKind) : State :=
  match k with
  | .groupQuery v6 g =>
    ((s.port n).joined.filter (fun m => m.group.v6 == v6 && g.elim true (fun x => x == m.group))).foldl (fun s m => report s n m) s
  | _ => s.emit (.mgmt n k)

/-- MGMT_FRAME (R199): a management frame passes its bucket and is answered by the warden, or is dropped. -/
def execMgmtFrame (port : Fin 16) (f : EthFrame) (s : State) : Host.Outcome State Fault Refusal :=
  if portUp s port.val && classify s port.val f == .mgmt then
    let p := fillBuckets (s.port port.val) s.net
    if tokens f.len ≤ p.mgmtTokens then
      .next (answerMgmt (s.setPort port.val { p with mgmtTokens := p.mgmtTokens - tokens f.len }) port.val f.kind)
    else .next (s.setPort port.val { p with mgmtDrop := sat32 p.mgmtDrop })
  else .next s

/-- The FEC code of a port (R191, R228): mode 0 always runs the RS-FEC of Clause 91. -/
def fecCode (c : PortCfg) : Nat := if c.mode = 0 then 2 else c.fec % 4

/-- The block that LINK_STATE returns for a logical port (R228). -/
def portBlock (p : Port) : List Byte :=
  leBytes 4 (b2n p.link + 2 * (p.cfg.mode % 2) + 4 * fecCode p.cfg) ++ leBytes 4 p.rxFrames ++ leBytes 4 p.fcsBad ++
    leBytes 4 p.oversize ++ leBytes 4 p.stray ++ leBytes 4 p.overrun ++ leBytes 4 p.sluiceRx ++ leBytes 4 p.sluiceDrop ++
    leBytes 4 p.mgmtDrop ++ leBytes 4 p.fecCorr ++ leBytes 4 p.fecUncorr ++ zeros 4

end Sys2Proof.Machine
end

