-- ==== Sys2Proof/Machine/Rtp.lean ====
section
/-! DEFINITION. What a media packet holds: RTP headers and header extensions, the sample row data headers of ST 2110-20, and the
units of coded video (spec/02 R47, spec/07 R209, R214; PRESUMED for the named standards: RFC 3550, RFC 8285, RFC 4175, RFC 7798,
RFC 6184; notes/assumptions/120.md). -/

namespace Sys2Proof.Machine

/-! ### RTP -/

/-- An RTP packet: its payload without padding, and the profile word and data of its header extension. -/
structure Rtp where
  marker : Bool
  type : Nat
  seq : Nat
  ts : Nat
  ssrc : Nat
  ext : Option (Nat × List Byte)
  payload : List Byte
  deriving DecidableEq, Repr

def byteAt (l : List Byte) (i : Nat) : Nat := (nth 0#8 l i).toNat

/-- Read an RTP packet; none when its own lengths or its version do not hold. -/
def readRtp (l : List Byte) : Option Rtp :=
  let at_ := 12 + 4 * (byteAt l 0 % 16)
  let hasExt := (byteAt l 0).testBit 4
  let start := if hasExt then at_ + 4 + 4 * beNat (slice l (at_ + 2) 2) else at_
  let pad := if (byteAt l 0).testBit 5 then byteAt l (l.length - 1) else 0
  if byteAt l 0 / 64 ≠ 2 ∨ l.length < start + pad ∨ ((byteAt l 0).testBit 5 = true ∧ pad = 0) then none
  else some {
    marker := (byteAt l 1).testBit 7, type := byteAt l 1 % 128, seq := beNat (slice l 2 2), ts := beNat (slice l 4 4),
    ssrc := beNat (slice l 8 4), ext := if hasExt then some (beNat (slice l at_ 2), (l.take start).drop (at_ + 4)) else none,
    payload := (l.take (l.length - pad)).drop start }

/-- An RTP packet without CSRC list and padding. -/
def rtpBytes (r : Rtp) : List Byte :=
  [byte (128 + (if r.ext.isSome then 16 else 0)), byte (r.type + (if r.marker then 128 else 0))] ++ beBytes 2 r.seq ++
    beBytes 4 r.ts ++ beBytes 4 r.ssrc ++
    (match r.ext with
      | some (p, d) => beBytes 2 p ++ beBytes 2 (ceilDiv d.length 4) ++ d ++ zeros (4 * ceilDiv d.length 4 - d.length)
      | none => []) ++ r.payload

/-! ### Header extension elements -/

/-- Elements of the one-byte form by ID: a zero byte pads, and ID 0 with a length or ID 15 ends them. -/
def shortElems : (fuel : Nat) → List Byte → List (Nat × List Byte)
  | 0, _ => []
  | _, [] => []
  | f + 1, b :: r =>
    let n := b.toNat % 16 + 1
    if b = 0#8 then shortElems f r
    else if b.toNat / 16 = 0 ∨ b.toNat / 16 = 15 ∨ r.length < n then []
    else (b.toNat / 16, r.take n) :: shortElems f (r.drop n)

/-- Elements of the two-byte form by ID: a zero byte pads. -/
def longElems : (fuel : Nat) → List Byte → List (Nat × List Byte)
  | 0, _ => []
  | _, [] => []
  | f + 1, b :: r =>
    if b = 0#8 then longElems f r
    else match r with
      | [] => []
      | n :: q => if q.length < n.toNat then [] else (b.toNat, q.take n.toNat) :: longElems f (q.drop n.toNat)

/-- The data of the first element of a form (0 one-byte, 1 two-byte) with an ID (R47). -/
def elemOf (form id : Nat) (ext : Option (Nat × List Byte)) : Option (List Byte) :=
  match ext with
  | none => none
  | some (profile, d) =>
    let l := if form = 0 then (if profile = 0xBEDE then shortElems d.length d else [])
      else if profile / 16 = 0x100 then longElems d.length d else []
    (l.find? (fun e => e.1 == id)).map (·.2)

/-- The freshness extension element that data spells (R47). -/
def readElem (d : List Byte) : ExtElem := {
  len := d.length, ver := byteAt d 0 / 16, reg := (byteAt d 0).testBit 3, chk := (byteAt d 0).testBit 2, rsv := byteAt d 0 % 4,
  alive := byteAt d 1, capS := beNat (slice d 2 6), capNs := beNat (slice d 8 4), crc := beNat (slice d 12 4),
  rx := beNat (slice d 16 2), ry := beNat (slice d 18 2), rw := beNat (slice d 20 2), rh := beNat (slice d 22 2) }

/-- The bytes of an element that declares no region (R47). -/
def elemBytes (e : ExtElem) : List Byte :=
  [byte (16 * e.ver + (if e.reg then 8 else 0) + (if e.chk then 4 else 0)), byte e.alive] ++ beBytes 6 e.capS ++
    beBytes 4 e.capNs ++ beBytes 4 e.crc

/-! ### ST 2110-20 (R209) -/

/-- A sample row data header of ST 2110-20 with its pgroup bytes. -/
structure SampleRow where
  fieldBit : Bool
  row : Nat
  offset : Nat
  length : Nat
  data : List Byte
  deriving DecidableEq, Repr

/-- At most `fuel` sample row data headers, without their bytes, and what follows them. -/
def rowHeads : (fuel : Nat) → List Byte → Option (List SampleRow × List Byte)
  | 0, _ => none
  | f + 1, l =>
    if l.length < 6 then none
    else
      let r : SampleRow := ⟨(byteAt l 2).testBit 7, beNat (slice l 2 2) % 32768, beNat (slice l 4 2) % 32768, beNat (slice l 0 2), []⟩
      if (byteAt l 4).testBit 7 then (rowHeads f (l.drop 6)).map (fun e => (r :: e.1, e.2)) else some ([r], l.drop 6)

/-- Give the headers their bytes, in order. -/
def rowData : List SampleRow → List Byte → List SampleRow
  | [], _ => []
  | r :: q, l => { r with data := l.take r.length } :: rowData q (l.drop r.length)

/-- The rows of an ST 2110-20 payload after its extended sequence number: at most 3 (R209). -/
def sampleRows (l : List Byte) : Option (List SampleRow) := (rowHeads 3 (l.drop 2)).map (fun e => rowData e.1 e.2)

/-! ### Coded video (R214): NAL units by the first two bytes of their headers -/

/-- The first two bytes of a NAL unit, of which the second may be missing where its codec's header is one byte. -/
def unitHead (l : List Byte) : Nat := 256 * byteAt l 0 + byteAt l 1

/-- Units of an aggregation packet, whose headers take `least` bytes: each a 16-bit size and the unit; none unless they fill the
payload exactly. -/
def aggregated (least : Nat) : (fuel : Nat) → List Byte → Option (List Nat)
  | _, [] => some []
  | 0, _ => none
  | f + 1, l =>
    let n := beNat (slice l 0 2)
    if n < least ∨ l.length < 2 + n then none
    else (aggregated least f (l.drop (2 + n))).map (unitHead (slice l 2 n) :: ·)

def hevcType (h : Nat) : Nat := field h 9 6
def hevcLayer (h : Nat) : Nat := field h 3 6
def avcType (h : Nat) : Nat := field h 8 5

/-- Units that begin in an HEVC payload; none when the packet is not of a supported kind. A unit may be its header alone (end of
sequence, end of bitstream). DESIGN CHOICE: a packet that carries the DONL field shows it nowhere, and is taken as one without it
(notes/assumptions/139.md). -/
def hevcUnits (l : List Byte) : Option (List Nat) :=
  let h := unitHead l
  if l.length < 2 then none
  else if hevcType h < 48 then some [h]
  else if l.length < 3 then none
  else if hevcType h = 48 then aggregated 2 l.length (l.drop 2)
  else if hevcType h = 49 then
    some (if (byteAt l 2).testBit 7 then [h - 512 * 49 + 512 * (byteAt l 2 % 64)] else [])
  else none

/-- Units that begin in an AVC payload of packetization mode 0 or 1; none when the packet is not of a supported kind. -/
def avcUnits (l : List Byte) : Option (List Nat) :=
  let t := byteAt l 0 % 32
  if l.length < 1 ∨ t = 0 then none
  else if t < 24 then some [unitHead l]
  else if l.length < 2 then none
  else if t = 24 then aggregated 1 l.length (l.drop 1)
  else if t = 28 then
    some (if (byteAt l 1).testBit 7 then [256 * (byteAt l 0 / 32 * 32 + byteAt l 1 % 32) + byteAt l 2] else [])
  else none

end Sys2Proof.Machine
end

