-- ==== Sys2Proof/Machine/Ingest.lean ====
section
/-! DEFINITION. The ring writer (spec/07 R208 to R226, spec/02 R40 to R52): MEDIA_PACKET_PROCESS, FRAME_TIMEOUT,
DGS_TILE_DECODE, FILL_COPY, CHECK_COMPARE_END, DETECTOR_COMPLETE and BUFFER_COMPLETE. -/

namespace Sys2Proof.Machine

/-! ### Serial arithmetic -/

/-- `a` is later than `b` in serial arithmetic of `w` bits. -/
def serialLater (w a b : Nat) : Bool :=
  let d := (a % 2 ^ w + 2 ^ w - b % 2 ^ w) % 2 ^ w
  decide (0 < d) && decide (d < 2 ^ (w - 1))

/-- Numbers from `a` to `b` in serial arithmetic, both counted. -/
def serialSpan (w a b : Nat) : Nat := (b % 2 ^ w + 2 ^ w - a % 2 ^ w) % 2 ^ w + 1

/-! ### Capture times (R40 to R42) and the extension (R47 to R50) -/

/-- R40: the 90 kHz tick that carries a timestamp, latest at or before `stamp` + 1 ms; seconds and nanoseconds. A timestamp that no
tick from time 0 on carries gives tick 0, which is no capture time (DESIGN CHOICE: notes/assumptions/147.md). -/
def mediaCapture (stamp ts : Nat) : Nat × Nat :=
  let x := (stamp + msT) * 90000 / secT
  let n := x - (x + 2 ^ 32 - ts % 2 ^ 32) % 2 ^ 32
  (n / 90000, n % 90000 * 1000000000 / 90000)

/-- A receive stamp of half-nanoseconds with the port's RX_DELAY taken off, in ticks (R326, R327). -/
def portStamp (s : State) (port stamp : Nat) : Nat := 12 * (stamp - (s.port port).cfg.rxDelay)

/-- Bytes, pixels and lines of a pgroup of a format (R209; PRESUMED: SMPTE ST 2110-20; notes/assumptions/26.md). -/
def pgroup (f : Nat) : Nat × Nat × Nat :=
  if f = 1 then (6, 2, 2) else if f = 2 then (15, 4, 2) else if f = 3 then (4, 2, 1) else if f = 4 then (5, 2, 1)
  else if f = 5 ∨ f = 7 then (3, 1, 1) else (15, 4, 1)

/-- R50: what an element must satisfy. -/
def extValid (p : CtxParams) (e : ExtElem) : Bool :=
  let pw := (pgroup p.format).2.1
  e.ver == 1 && e.len == (if e.reg then 24 else 16) && decide (e.capNs < 1000000000) && e.rsv == 0 &&
    (!e.reg || (p.type != 1 && e.rx % pw == 0 && e.rw % pw == 0 && decide (1 ≤ e.rw) && decide (1 ≤ e.rh) &&
      (!fmt420 p.format || (e.ry % 2 == 0 && e.rh % 2 == 0)) &&
      decide (e.rx + e.rw ≤ p.width) && decide (e.ry + e.rh ≤ p.height)))

/-! ### Frames of RTP packets (R208 to R213, R215) -/

/-- Bits of the sequence numbers of a context's packets (R209). -/
def seqBits (c : Ctx) : Nat := if c.p.type = 1 then 16 else 32

/-- Unsupported packets that arrived with numbers from `a` to `b` (notes/assumptions/137.md). -/
def droppedSpan (c : Ctx) (a b : Nat) : Nat :=
  let w := seqBits c
  (c.dropped.filter (fun e => decide (serialSpan w a e.2 ≤ serialSpan w a b))).length

/-- Sequence numbers missing between a frame's first and last packet. -/
def frameMissing (c : Ctx) (f : Frame) : Nat :=
  serialSpan (seqBits c) f.firstSeq f.lastSeq - f.seen.length - droppedSpan c f.firstSeq f.lastSeq

/-- Sequence numbers missing between number `l` and a later one. -/
def gapAfter (c : Ctx) (l seq : Nat) : Nat :=
  if serialLater (seqBits c) seq l then serialSpan (seqBits c) l seq - 2 - droppedSpan c l seq else 0

/-- Sequence numbers missing between the last frame and this one's first packet (R227). -/
def betweenMissing (c : Ctx) (f : Frame) : Nat := c.lastSeq.elim 0 (fun l => gapAfter c l f.firstSeq)

/-- A context with both rules merges two paths (R213). -/
def twoPaths (s : State) (n : Nat) : Bool :=
  s.flows.any (fun e => e.2.context == n && e.2.path == 0) && s.flows.any (fun e => e.2.context == n && e.2.path == 1)

/-- A packet arrives on a path: the numbers it skipped there are that path's own gaps (R213). -/
def pathGap (s : State) (n path seq : Nat) : State :=
  if twoPaths s n then
    let c := s.ctx n
    match tfind c.pathLast path with
    | none => s.setCtx n { c with pathLast := tset c.pathLast path seq }
    | some l =>
      if serialLater (seqBits c) seq l then
        let g := serialSpan (seqBits c) l seq - 2
        let k := c.cnt
        s.setCtx n { c with
          pathLast := tset c.pathLast path seq,
          cnt := if path = 0 then { k with path0Lost := satAdd 32 k.path0Lost g }
            else { k with path1Lost := satAdd 32 k.path1Lost g } }
      else s
  else s

/-- A frame that begins with a packet of sequence number `seq` and stamp `stamp`. -/
def emptyFrame (s : State) (n ts seq stamp : Nat) : Frame :=
  { ts := ts, firstSeq := seq, lastSeq := seq, seen := [], marker := false, target := none, fill := none,
    firstAt := stamp, lastAt := s.ref, ext := none, extBad := false, covered := [], payload := [], rows := [], size := 0,
    nals := [], abandoned := false, done := false, binds := (s.ctx n).binds }

/-- R212: the frame's first packet comes too soon after the reference. -/
def tooFast (c : Ctx) (stamp : Nat) : Bool :=
  match c.fastRef with
  | some r => decide ((stamp - r) * 520 < c.p.width * c.p.height * 24000)
  | none => false

/-- A frame begins in a ring (R208): its target and fill source, or none when every buffer is pinned. A frame that
begins while the one before is still closing fills from the newest complete buffer (DESIGN CHOICE: notes/assumptions/151.md). -/
def takeTarget (s : State) (n : Nat) (f : Frame) : State :=
  match chooseTarget s n with
  | none =>
    let s := bump s n (fun k => { k with ringFull := sat32 k.ringFull })
    s.setCtx n { s.ctx n with frame := some { f with abandoned := true } }
  | some k =>
    let fill := fillSource (s.ctx n)
    let s := beginBuf s n k
    s.setCtx n { s.ctx n with frame := some { f with target := some k, fill := fill } }

/-- The frame before a new one ends. Its sequence numbers stay known while their second copies may come (R213); one that was
dropped or abandoned counts what was missing before it, and its own packets are not missing (R227; notes/assumptions/122.md). -/
def endFrame (s : State) (n : Nat) : State :=
  let c := s.ctx n
  match c.frame with
  | none => s
  | some f =>
    let past := (f.lastAt, f.seen) :: c.past.filter (fun e => decide (s.ref ≤ e.1 + c.p.timeoutUs * usT))
    if f.abandoned && f.seen != [] then
      s.setCtx n { c with
        past := past, lastSeq := some f.lastSeq,
        cnt := { c.cnt with pktLost := satAdd 32 c.cnt.pktLost (betweenMissing c f) } }
    else s.setCtx n { c with past := past }

/-- A RAW frame begins (R208, R212); an access unit needs no target. -/
def beginFrame (s : State) (n ts seq stamp : Nat) : State :=
  let s := endFrame s n
  let c := s.ctx n
  let f := emptyFrame s n ts seq stamp
  if c.p.type = 1 then s.setCtx n { c with frame := some f }
  else if tooFast c stamp then
    s.setCtx n { c with frame := some { f with abandoned := true }, cnt := { c.cnt with fast := sat32 c.cnt.fast } }
  else takeTarget (s.setCtx n { c with fastRef := some stamp }) n f

/-! ### Writing RAW pixels (R209, R118) -/

/-- The 10-bit fields of a pgroup of `n` bytes, first field in the most significant bits. -/
def tenBits (l : List Byte) : List Nat :=
  let v := beNat l
  (List.range (l.length * 8 / 10)).map (fun i => field v (l.length * 8 - 10 * (i + 1)) 10)

/-- Plane 0 lines and plane 1 bytes of one pgroup: (line offset in the pgroup, bytes) and chroma. -/
def unpackGroup (f : Nat) (l : List Byte) : List (Nat × List Byte) × List Byte :=
  let b (i : Nat) : Byte := nth 0#8 l i
  let t := tenBits l
  let h (i : Nat) : List Byte := leBytes 2 (nth 0 t i)
  let word8 (x y z : Byte) : List Byte := [z, y, x, 0#8]
  let word10 (k : Nat) : List Byte := leBytes 4 (nth 0 t k * 2 ^ 20 + nth 0 t (k + 1) * 2 ^ 10 + nth 0 t (k + 2))
  let yword10 (k : Nat) : List Byte := leBytes 4 (nth 0 t (k + 1) * 2 ^ 20 + nth 0 t k * 2 ^ 10 + nth 0 t (k + 2))
  match f with
  | 1 => ([(0, [b 0, b 1]), (1, [b 2, b 3])], [b 4, b 5])
  | 2 => ([(0, h 0 ++ h 1 ++ h 6 ++ h 7), (1, h 2 ++ h 3 ++ h 8 ++ h 9)], h 4 ++ h 5 ++ h 10 ++ h 11)
  | 3 => ([(0, [b 1, b 3])], [b 0, b 2])
  | 4 => ([(0, h 1 ++ h 3)], h 0 ++ h 2)
  | 5 => ([(0, word8 (b 1) (b 0) (b 2))], [])
  | 6 => ([(0, yword10 0 ++ yword10 3 ++ yword10 6 ++ yword10 9)], [])
  | 7 => ([(0, word8 (b 0) (b 1) (b 2))], [])
  | _ => ([(0, word10 0 ++ word10 3 ++ word10 6 ++ word10 9)], [])

/-- Address of byte column `x` bytes of line `y` of plane 0 or 1 of buffer `k`. -/
def planeAddr (c : Ctx) (k : Nat) (chroma : Bool) (y x : Nat) : Nat :=
  bufAddr c k + (if chroma then c.p.plane1 + y * c.p.stride1 else y * c.p.stride0) + x

/-- The writes of a sample row: one per line it covers, and one for its chroma. -/
def rowWrites (c : Ctx) (k : Nat) (r : SampleRow) : List (Nat × List Byte) :=
  let f := c.p.format
  let (pb, _, pl) := pgroup f
  let gs := (chunks pb (r.data.length + 1) r.data).map (unpackGroup f)
  let line (i : Nat) : List Byte := gs.flatMap (fun g => (g.1.filter (fun e => e.1 == i)).flatMap (·.2))
  let lines := (List.range pl).map (fun i => (planeAddr c k false (r.row + i) (r.offset * fmtBytes f), line i))
  if fmtTwoPlane f then
    lines ++ [(planeAddr c k true (if fmt420 f then r.row / 2 else r.row) (r.offset / 2 * 2 * fmtBytes f), gs.flatMap (·.2))]
  else lines

/-- A sample row is one that R209 supports. -/
def rowOk (p : CtxParams) (r : SampleRow) : Bool :=
  let (pb, pw, _) := pgroup p.format
  !r.fieldBit && decide (r.row < p.height) && (!fmt420 p.format || r.row % 2 == 0) && r.offset % pw == 0 &&
    r.length % pb == 0 && r.data.length == r.length && decide (r.offset + r.length / pb * pw ≤ p.width)

/-- The pixels that a sample row covers. -/
def rowCover (p : CtxParams) (r : SampleRow) : List (Nat × Nat × Nat) :=
  let (pb, pw, pl) := pgroup p.format
  (List.range pl).map (fun i => (r.row + i, r.offset, r.length / pb * pw))

/-- Remove the run of `n` from `x` from free runs. -/
def cutRun (x n : Nat) (l : List (Nat × Nat)) : List (Nat × Nat) :=
  l.flatMap (fun r =>
    let a := if r.1 < x then [(r.1, min r.2 (x - r.1))] else []
    let e := r.1 + r.2
    let b := if x + n < e then [(max r.1 (x + n), e - max r.1 (x + n))] else []
    a ++ b)

/-- Uncovered ranges of a frame: line, first pixel, pixels (R211). -/
def uncovered (p : CtxParams) (covered : List (Nat × Nat × Nat)) : List (Nat × Nat × Nat) :=
  (List.range p.height).flatMap (fun y =>
    ((covered.filter (fun e => e.1 == y)).foldl (fun l e => cutRun e.2.1 e.2.2 l) [(0, p.width)]).map
      (fun r => (y, r.1, r.2)))

/-! ### Frame completion (R41, R210, R211, R308) -/

/-- The binding that compares a frame that began after `binds` bindings of its context (R308, R318). -/
def chosenBinding (s : State) (n binds : Nat) : Option (Nat × Check) :=
  (sourceBinding s n).filter (fun b => b.2.crcEn && decide (b.2.serial ≤ binds))

/-- The check channel of that binding. -/
def compareBinding (s : State) (n binds : Nat) : Option Check :=
  (chosenBinding s n binds).map (·.2)

/-- Insert by serial order from `first`. -/
def seqOrder (w first : Nat) (l : List (Nat × List Byte)) : List (Nat × List Byte) :=
  l.foldr (fun e r => insertBy (fun (x : Nat × List Byte) => (x.1 + 2 ^ w - first) % 2 ^ w) e r) []

/-- The pgroup bytes at pixel `x` of row `y`. -/
def groupAt (p : CtxParams) (rows : List (Nat × Nat × List Byte)) (y x : Nat) : List Byte :=
  let (pb, pw, _) := pgroup p.format
  match rows.find? (fun r => r.1 == y && decide (r.2.1 ≤ x) && decide (x < r.2.1 + r.2.2.length / pb * pw)) with
  | some r => slice r.2.2 ((x - r.2.1) / pw * pb) pb
  | none => []

/-- The bytes that the check of an element covers (R49). -/
def coveredBytes (c : Ctx) (f : Frame) (e : ExtElem) : List Byte :=
  if e.reg then
    let (_, pw, pl) := pgroup c.p.format
    (List.range (e.rh / pl)).flatMap (fun i =>
      (List.range (e.rw / pw)).flatMap (fun j => groupAt c.p f.rows (e.ry + i * pl) (e.rx + j * pw)))
  else (seqOrder (seqBits c) f.firstSeq f.payload).flatMap (·.2)

/-- Capture time, alive value and causes that a frame's method gives (R40 to R42). Without an extension the capture time is that of
the context's previous buffer; `keptTimes` takes it again when the buffer completes. -/
def frameTimes (c : Ctx) (f : Frame) : Nat × Nat × Option Nat × Nat :=
  if methodOf c.p = 0 then ((mediaCapture f.firstAt f.ts).1, (mediaCapture f.firstAt f.ts).2, none, 0)
  else if methodOf c.p = 1 then
    match f.ext with
    | some e => (e.capS, e.capNs, some e.alive, 0)
    | none => match c.prev with
      | some p => (p.capS, p.capNs, none, 16)
      | none => (0, 0, none, 16)
  else (timeS f.firstAt, timeNs f.firstAt, none, 0)

/-- The comparison of a frame, when one is made: expected and computed value (R308). -/
def frameCompare (s : State) (n : Nat) (f : Frame) (loss : Bool) : Option (Nat × Nat) :=
  match f.ext, compareBinding s n f.binds with
  | some e, some _ =>
    if loss || !e.chk || methodOf (s.ctx n).p != 1 then none else some (e.crc, crc 1 (coveredBytes (s.ctx n) f e))
  | _, _ => none

/-- The frame of a context is complete: what arrives of it later is a second copy or late. -/
def frameDone (s : State) (n : Nat) (f : Frame) (lost : Nat) : State :=
  let c := s.ctx n
  s.setCtx n { c with
    frame := some { f with done := true, payload := [], rows := [] }, lastSeq := some f.lastSeq,
    dropped := c.dropped.filter (fun e =>
      serialLater (seqBits c) e.2 f.lastSeq || decide (s.ref ≤ e.1 + c.p.timeoutUs * usT)),
    cnt := { c.cnt with pktLost := satAdd 32 c.cnt.pktLost lost } }

/-- When the frame's latest packet passed the channel: at the end of R225's depacketize and unpack stage (R306). -/
def passed (f : Frame) : Ticks := f.lastAt + 28 * coreT

/-- A RAW frame completes (R210, R211): its buffer waits for copies, comparison and detector. -/
def completeRaw (s : State) (n : Nat) (f : Frame) : State :=
  let c := s.ctx n
  let gaps := uncovered c.p f.covered
  let miss := frameMissing c f
  let loss := gaps != [] || decide (0 < miss)
  let (capS, capNs, alive, causes) := frameTimes c f
  let k : Closing := {
    target := f.target.getD 0, fill := f.fill, capNs := capNs, capS := capS, alive := alive, binds := f.binds,
    checkAt := passed f, at_ := s.ref, causes := causes ||| b2n loss, gaps := gaps, tiles := [],
    comparing := frameCompare s n f loss, good := none, content := none, zeroDirty := false, poison := false, peer := none,
    dgsFrame := none }
  let s := frameDone s n f (miss + betweenMissing c f)
  s.setCtx n { s.ctx n with closing := (s.ctx n).closing ++ [k] }

/-- The record of an access unit, judged in decode order (R237): ALIVE, ALIVE_RUN and GOOD_RUN. -/
def auRecord (s : State) (n : Nat) (f : Frame) (capS capNs : Nat) (alive : Option Nat) (causes : Nat) :
    FreshRecord × Bool :=
  let c := s.ctx n
  let (a, run, gap) := judgeAlive (aliveGuard s n f.binds) c alive
  (⟨capNs, capS, a, run, 0, judgeGood c.prev none, causes, c.auSeq⟩, gap)

/-- A sequence number within an access unit is missing (R215): between its packets, before the first, or at its end, where neither
its marker nor the number that follows its last packet has come (notes/assumptions/138.md). -/
def auLoss (c : Ctx) (f : Frame) : Bool :=
  decide (0 < frameMissing c f) || decide (0 < betweenMissing c f) || !f.marker

/-- An access unit completes in the bitstream ring (R215). -/
def completeAu (s : State) (n : Nat) (f : Frame) : State :=
  let c := s.ctx n
  let miss := frameMissing c f
  let loss := auLoss c f
  let (capS, capNs, alive, causes) := frameTimes c f
  let causes := causes ||| b2n loss ||| (if isFuture capS capNs s.tb then 64 else 0)
  let (r, gap) := auRecord s n f capS capNs alive causes
  let dt := if s.now ≤ s.tide.lastNow then s.tide.taken - 1 else s.tide.taken
  let ix := if c.dec.arrivals.1 = dt then c.dec.arrivals.2 + 1 else 1
  let au : AccessUnit := {
    seq := c.auSeq, size := f.size, doneAt := s.ref, doneTide := dt, capNs := capNs, capS := capS,
    causes := causes, alive := r.alive, aliveRun := r.aliveRun, goodRun := r.goodRun, nals := f.nals,
    pos := (c.ringPos + c.p.pitch - f.size) % max 1 c.p.pitch, comparing := frameCompare s n f loss, checkAt := passed f, binds := f.binds, tideIx := ix }
  let s := frameDone s n f (miss + betweenMissing c f)
  let c := s.ctx n
  s.setCtx n { c with
    aus := c.aus ++ [au], dec := { c.dec with arrivals := (dt, ix) }, auSeq := (c.auSeq + 1) % 2 ^ 32, prev := some r,
    aliveFirst := c.aliveFirst && (aliveGuard s n f.binds).isNone,
    cnt := { c.cnt with
      frames := sat32 c.cnt.frames, gap := if gap then sat32 c.cnt.gap else c.cnt.gap,
      lossFrames := if loss then sat32 c.cnt.lossFrames else c.cnt.lossFrames } }

/-- The frame in progress of a context completes. -/
def completeFrame (s : State) (n : Nat) : State :=
  match (s.ctx n).frame with
  | some f => if f.done || f.abandoned then s else if (s.ctx n).p.type = 1 then completeAu s n f else completeRaw s n f
  | none => s

/-! ### RTP packets -/

/-- The end of the frame in progress is known where the packet that ends it follows its last packet without a gap. -/
def noteEnd (s : State) (n seq : Nat) : State :=
  let c := s.ctx n
  s.setCtx n { c with frame := c.frame.map (fun f =>
    { f with marker := f.marker || (serialLater (seqBits c) seq f.lastSeq && gapAfter c f.lastSeq seq == 0) }) }

/-- The frame that a packet belongs to is in progress, begun if need be (R210); none for a packet of an earlier frame. -/
def frameFor (s : State) (n ts seq stamp : Nat) : Option State :=
  match (s.ctx n).frame with
  | none => some (beginFrame s n ts seq stamp)
  | some f =>
    if f.ts = ts then some s
    else if serialLater 32 ts f.ts then some (beginFrame (completeFrame (noteEnd s n seq) n) n ts seq stamp)
    else none

/-- A packet of an earlier frame: the second copy of one that came, or late (R213, R227). -/
def earlierPacket (s : State) (n seq : Nat) : State :=
  if (s.ctx n).past.any (fun e => e.2.contains seq) then bump s n (fun k => { k with dup := sat32 k.dup })
  else bump s n (fun k => { k with late := sat32 k.late })

/-- A frame notes the sequence number of a packet. -/
def noteSeq (c : Ctx) (f : Frame) (now : Ticks) (seq : Nat) : Frame :=
  let w := seqBits c
  { f with
    firstSeq := if serialLater w f.firstSeq seq then seq else f.firstSeq,
    lastSeq := if serialLater w seq f.lastSeq then seq else f.lastSeq, seen := seq :: f.seen, lastAt := now }

/-- The freshness extension of a packet (R47, R48). -/
def packetElem (c : Ctx) (r : Rtp) : Option ExtElem :=
  if r.marker && methodOf c.p == 1 then (elemOf c.p.extForm c.p.extId r.ext).map readElem else none

/-- A packet joins the frame in progress. -/
def joinFrame (c : Ctx) (f : Frame) (now : Ticks) (seq : Nat) (r : Rtp) (keep : Bool) : Frame × Bool :=
  let e := packetElem c r
  let bad := e.elim false (fun x => !extValid c.p x)
  ({ noteSeq c f now seq with
    marker := f.marker || r.marker,
    ext := if bad then f.ext else (if e.isSome then e else f.ext), extBad := f.extBad || bad,
    payload := if keep then f.payload ++ [(seq, r.payload)] else f.payload }, bad)

/-- The frame is whole: its marker is there and nothing between its first packet and the marker is missing (R210). -/
def whole (c : Ctx) (f : Frame) : Bool := f.marker && frameMissing c f == 0

def countBadExt (s : State) (n : Nat) (bad : Bool) : State :=
  if bad then bump s n (fun k => { k with extBad := sat32 k.extBad }) else s

/-- A packet of a complete or abandoned frame, or a second copy (R213, R227); none when it is new. -/
def staleCopy (s : State) (n : Nat) (f : Frame) (seq : Nat) : Option State :=
  if f.seen.contains seq then some (bump s n (fun k => { k with dup := sat32 k.dup }))
  else if f.done then some (bump s n (fun k => { k with late := sat32 k.late }))
  else if f.abandoned then some (s.setCtx n { s.ctx n with frame := some (noteSeq (s.ctx n) f s.ref seq) })
  else none

/-- The packet's comparison needs its bytes kept (R49, R306). -/
def keepsBytes (s : State) (n : Nat) (f : Frame) : Bool :=
  methodOf (s.ctx n).p == 1 && (compareBinding s n f.binds).isSome

/-- The memory class of a context's ring writer: its primary port's, or its link's (R28, R362). -/
def ringClass (s : State) (n : Nat) : Nat :=
  if (s.ctx n).p.type = 3 then 0x33 + (ringWriter s n - 17)
  else 0x20 + (((s.flows.map (·.2)).find? (fun r => r.context == n && r.path == 0)).elim 0 (·.port)) / 4

/-- Writes that follow each other, each with its address. -/
def putLines (s : State) (cls ident : Nat) (i : Issue) (p : Purpose) (ws : List (Nat × List Byte)) : State :=
  (ws.foldl (fun (s, i) w =>
    ((classWrite s cls ident w.1 w.2 p i).2, { i with first := i.first + i.pace * (linesOf w.1 w.2.length).length })) (s, i)).1

/-- R225: the first burst of a packet is visible 36 CORE cycles after the packet is, later ones follow one per CORE cycle. -/
def packetIssue : Issue := { first := 36, pace := 1 }

/-- The ring writer writes what one packet on physical port `eth` brings. -/
def putRing (s : State) (eth : Nat) (p : Purpose) (ws : List (Nat × List Byte)) : State :=
  putLines s (0x20 + eth) idIngest packetIssue p ws

/-- A supported RAW packet (R209 to R213). -/
def rawPacket (s : State) (n eth seq stamp : Nat) (r : Rtp) (rows : List SampleRow) : State :=
  match frameFor s n r.ts seq stamp with
  | none => earlierPacket s n seq
  | some s =>
    let c := s.ctx n
    match c.frame with
    | none => s
    | some f => match staleCopy s n f seq with
      | some s => s
      | none =>
        let keep := keepsBytes s n f
        let (g, bad) := joinFrame c f s.ref seq r keep
        let g := { g with covered := g.covered ++ rows.flatMap (rowCover c.p),
                          rows := if keep then g.rows ++ rows.map (fun r => (r.row, r.offset, r.data)) else g.rows }
        let s := match f.target with
          | some k => putRing s eth (.ring n k) (rows.flatMap (rowWrites c k))
          | none => s
        let s := countBadExt (s.setCtx n { s.ctx n with frame := some g }) n bad
        if whole c g then completeFrame s n else s

/-- Bytes of access units that the decoder has not read yet (R215). -/
def ringUsed (s : State) (n : Nat) : Nat :=
  sumNat ((s.ctx n).aus.map (·.size)) +
    sumNat (s.decs.map (fun e => match e.2.work with
      | some p => if e.2.ctx = n then p.au.size else 0
      | none => 0))

/-- Bytes go into the bitstream ring; the spec gives no layout, so the bytes themselves are free
(notes/assumptions/27.md). -/
def ringWrite (s : State) (n eth len : Nat) : State :=
  let c := s.ctx n
  let (l, s) := s.drawBytes len
  let first := min len (c.p.pitch - c.ringPos)
  let s := putRing s eth .plain [(c.p.base + c.ringPos, l.take first), (c.p.base, l.drop first)]
  s.setCtx n { s.ctx n with ringPos := (c.ringPos + len) % max 1 c.p.pitch }

/-- A supported CODED packet (R214, R215) in which the units `nals` begin. -/
def codedPacket (s : State) (n eth stamp : Nat) (r : Rtp) (nals : List Nat) : State :=
  match frameFor s n r.ts r.seq stamp with
  | none => earlierPacket s n r.seq
  | some s =>
    let c := s.ctx n
    match c.frame with
    | none => s
    | some f => match staleCopy s n f r.seq with
      | some s => s
      | none =>
        let len := r.payload.length
        if c.p.pitch < ringUsed s n + f.size + len then
          let s := bump s n (fun k => { k with ringFull := sat32 k.ringFull })
          abandonFrame (s.setCtx n { s.ctx n with frame := some (noteSeq c f s.ref r.seq) }) n
        else
          let (g, bad) := joinFrame c f s.ref r.seq r (keepsBytes s n f)
          let g := { g with size := f.size + len, nals := f.nals ++ nals }
          let s := ringWrite s n eth len
          let s := countBadExt (s.setCtx n { s.ctx n with frame := some g }) n bad
          if whole c g then completeFrame s n else s

def unsupportedPacket (s : State) (n : Nat) : State := bump s n (fun k => { k with unsupported := sat32 k.unsupported })

/-- A packet with this number has come before. -/
def delivered (c : Ctx) (seq : Nat) : Bool :=
  c.frame.elim false (fun f => f.seen.contains seq) || c.past.any (fun e => e.2.contains seq) || c.dropped.any (fun e => e.2 == seq)

/-- An unsupported packet whose number is known: its path has delivered it, so it is not lost, and its second copy counts in DUP
(R213). It neither begins nor ends a frame (notes/assumptions/137.md). -/
def unsupportedSeq (s : State) (n path seq : Nat) : State :=
  let s := pathGap s n path seq
  let c := s.ctx n
  if delivered c seq then bump s n (fun k => { k with dup := sat32 k.dup })
  else unsupportedPacket (s.setCtx n { c with dropped := (s.ref, seq) :: c.dropped }) n

/-! ### The Desk Graphics Stream (R216 to R223) -/

/-- REFRESH to the PC, at most once in 100 ms (R223). -/
def sendRefresh (s : State) (n : Nat) : State :=
  let c := s.ctx n
  let d := c.dgs
  if c.p.returnPort = 0 ∨ c.isolated = true ∨ c.srcAddr = none ∨ d.refreshAt.elim false (fun t => decide (s.ref < t + 100 * msT)) then s
  else sendBack (s.setCtx n { c with
    dgs := { d with refreshAt := some s.ref, outSeq := (d.outSeq + 1) % 65536 },
    cnt := { c.cnt with refreshSent := sat32 c.cnt.refreshSent } }) n (dgsBytes c.p.stream 3 d.outSeq 0 [])

def tilesX (p : CtxParams) : Nat := ceilDiv p.width 64
def tilesY (p : CtxParams) : Nat := ceilDiv p.height 64
def tileCount (p : CtxParams) : Nat := tilesX p * tilesY p

/-- The header of a DGS datagram (R217). -/
structure DgsHead where
  type : Nat
  enc : Nat
  frame : Nat
  capS : Nat
  capNs : Nat
  tile : Nat
  piece : Nat
  last : Nat
  unit : Nat
  deriving DecidableEq, Repr

/-- The 48-bit seconds nearest to the time base whose low 32 bits are given (R217). -/
def nearestSeconds (now low : Nat) : Nat :=
  let b := now / 2 ^ 32 * 2 ^ 32 + low
  let up := if b + 2 ^ 31 < now then b + 2 ^ 32 else b
  if now + 2 ^ 31 < b ∧ 2 ^ 32 ≤ b then b - 2 ^ 32 else up

def dgsHead (l : List Byte) : DgsHead :=
  let b (i : Nat) : Nat := (nth 0#8 l i).toNat
  ⟨b 2 % 16, b 3 % 16, beNat (slice l 6 2), beNat (slice l 8 4), beNat (slice l 12 4), beNat (slice l 16 2), b 18 / 16,
    b 18 % 16, b 19⟩

/-- R218, the cases that the datagram alone shows; a FRAME_END has a payload of 8 bytes. -/
def dgsBad (p : CtxParams) (l : List Byte) : Bool :=
  let h := dgsHead l
  decide (l.length < 24) || crc 1 (l.take 20 ++ l.drop 24) != beNat (slice l 20 4) || beNat (slice l 0 2) != 0x4447 ||
    (nth 0#8 l 2).toNat / 16 != 1 || (nth 0#8 l 3).toNat / 16 != 0 || decide (1 < h.type) ||
    (h.type == 0 && decide (tileCount p ≤ h.tile)) || decide (h.last < h.piece) || decide (2 < h.enc) ||
    decide (1000000000 ≤ h.capNs) ||
    (h.type == 1 && (l.length != 32 || (nth 0#8 l 25).toNat / 2 != 0 || beNat (slice l 26 2) != 0))

/-- Lines of a tile that lie in the buffer: address and byte offset in the tile's 16,384 bytes, and length (R216). -/
def tileLines (c : Ctx) (k tile : Nat) : List (Nat × Nat × Nat) :=
  let x := tile % tilesX c.p * 64
  let y := tile / tilesX c.p * 64
  let n := min 64 (c.p.width - x)
  (List.range (min 64 (c.p.height - y))).map (fun i => (planeAddr c k false (y + i) (4 * x), 256 * i, 4 * n))

/-- A decoded tile is written: a raw one by the ring writer, a compressed one by its crystallizer lane (R219, R293). -/
def writeTile (s : State) (n k cls ident tile : Nat) (data : List Byte) : State :=
  putLines s cls ident (if ident = idIngest then packetIssue else {}) (.ring n k)
    ((tileLines (s.ctx n) k tile).map (fun r => (r.1, slice data r.2.1 r.2.2)))

/-- Tiles of the frame in progress that have been received whole. -/
def wholeTiles (d : DgsSt) : List Tile := d.tiles.filter (·.decoded)

/-- The check of FRAME_END, when one is made (R220, R308). -/
def dgsCompare (s : State) (n : Nat) (f : Frame) (loss : Bool) : Option (Nat × Nat) :=
  let d := (s.ctx n).dgs
  match d.ended.bind (·.check), compareBinding s n f.binds with
  | some e, some _ =>
    if loss then none
    else
      let l := (wholeTiles d).foldr (fun t r => insertBy (fun (x : Tile) => x.tile) t r) []
      some (e, crc 1 (l.flatMap (fun t => t.pieces.flatMap (·.2))))
  | _, _ => none

/-- Tiles to copy from the fill source (R222): those that a frame after the target's last completion delivered and
this frame did not. -/
def catchUp (c : Ctx) (k frame : Nat) : List Nat :=
  (c.dgs.tileFrame.filter (fun e => e.2 != frame && (c.buf k).dgsFrame.elim true (fun f => decide (f < e.2)))).map (·.1)

/-- A DGS frame completes (R221, R222). -/
def completeDgs (s : State) (n : Nat) (f : Frame) : State :=
  let c := s.ctx n
  let d := c.dgs
  let got := (wholeTiles d).length
  let short := d.ended.elim 0 (fun e => e.count - got)
  let never := (List.range (tileCount c.p)).any (fun t => !d.got.contains t)
  let loss := d.ended.isNone || decide (0 < short) || never
  let (capS, capNs) := match d.ended with
    | some e => (e.capS, e.capNs)
    | none => (d.firstCapS, d.firstCapNs)
  let zero := (d.ended.elim false (fun e => e.count == 0)) && got == 0
  let target := f.target.getD 0
  let k : Closing := {
    target := target, fill := f.fill, capNs := capNs, capS := capS, alive := d.ended.map (·.alive), binds := f.binds,
    checkAt := max (passed f) d.decodedAt, at_ := s.ref, causes := b2n loss, gaps := [], tiles := catchUp c target d.frameIx,
    comparing := dgsCompare s n f loss, good := none, content := none, zeroDirty := zero, poison := false, peer := none,
    dgsFrame := some d.frameIx }
  let s := frameDone s n f short
  let c := s.ctx n
  s.setCtx n { c with closing := c.closing ++ [k], dgs := { c.dgs with tiles := [], ended := none } }

/-- The frame in progress of any context completes. -/
def completeAny (s : State) (n : Nat) : State :=
  if (s.ctx n).p.type = 2 then
    match (s.ctx n).frame with
    | some f => if f.done || f.abandoned then s else completeDgs s n f
    | none => s
  else completeFrame s n

/-- FRAME_END has arrived and its counted tiles are whole (R221). -/
def dgsWhole (d : DgsSt) : Bool := d.ended.elim false (fun e => decide (e.count ≤ (wholeTiles d).length))

def dgsCheck (s : State) (n : Nat) : State :=
  match (s.ctx n).frame with
  | some f => if !f.done && !f.abandoned && dgsWhole (s.ctx n).dgs then completeDgs s n f else s
  | none => s

def badDgs (s : State) (n : Nat) : State := bump s n (fun k => { k with dgsBad := sat32 k.dgsBad })

def setDgs (s : State) (n : Nat) (d : DgsSt) : State := s.setCtx n { s.ctx n with dgs := d }

def setTile (l : List Tile) (t : Tile) : List Tile :=
  if l.any (fun x => x.tile == t.tile) then l.map (fun x => if x.tile == t.tile then t else x) else l ++ [t]

/-- A tile of the frame in progress is there in decoded form (R219, R222). -/
def tileDecoded (s : State) (n cls ident : Nat) (f : Frame) (t : Tile) (data : List Byte) : State :=
  let s := match f.target with
    | some k => writeTile s n k cls ident t.tile data
    | none => s
  let keep := (compareBinding s n f.binds).isSome
  let d := (s.ctx n).dgs
  setDgs s n { d with
    tiles := setTile d.tiles { t with decoded := true, pieces := if keep then [(0, data)] else [] },
    tileFrame := tset d.tileFrame t.tile d.frameIx, got := insertAsc d.got t.tile }

/-- A tile's data is malformed: it counts as not received (R219). -/
def tileFailed (s : State) (n : Nat) (t : Tile) : State :=
  let d := (s.ctx n).dgs
  badDgs (setDgs s n { d with tiles := setTile d.tiles { t with bad := true, pieces := [] } }) n

/-- The pieces of a tile in order. -/
def tileData (t : Tile) : List Byte :=
  (t.pieces.foldr (fun e r => insertBy (fun (x : Nat × List Byte) => x.1) e r) []).flatMap (·.2)

/-- Every piece has its length (R219). -/
def piecesOk (t : Tile) : Bool :=
  t.pieces.all (fun e => if e.1 = t.last then decide (1 ≤ e.2.length) && decide (e.2.length ≤ t.unit * 64)
    else e.2.length == t.unit * 64)

/-- A piece of a tile joins the frame in progress (R219). -/
def tilePiece (s : State) (n eth : Nat) (f : Frame) (h : DgsHead) (data : List Byte) : State :=
  let d := (s.ctx n).dgs
  let t := (d.tiles.find? (fun x => x.tile == h.tile)).getD ⟨h.tile, h.enc, h.last, h.unit, [], false, false, 0⟩
  if t.decoded || t.bad || t.pieces.any (fun e => e.1 == h.piece) then s
  else
    let t := { t with pieces := t.pieces ++ [(h.piece, data)], wholeAt := s.ref }
    let s := setDgs s n { d with tiles := setTile d.tiles t }
    if t.pieces.length ≤ t.last then s
    else if !piecesOk t then tileFailed s n t
    else if t.enc = 0 then
      (if (tileData t).length = 16384 then tileDecoded s n (0x20 + eth) idIngest f t (tileData t) else tileFailed s n t)
    else s

/-- A DGS frame begins (R221). -/
def beginDgs (s : State) (n stamp : Nat) (h : DgsHead) : State :=
  let c := s.ctx n
  let s := s.setCtx n { c with dgs := { c.dgs with
    tiles := [], decodedAt := 0, ended := none, geometry := [], frameIx := c.dgs.frameIx + 1, firstCapS := nearestSeconds (timeS s.tb) h.capS, firstCapNs := h.capNs } }
  takeTarget s n (emptyFrame s n h.frame 0 stamp)

/-- The frame of a valid datagram (R221); none when it is of an earlier frame. -/
def dgsFrameFor (s : State) (n stamp : Nat) (h : DgsHead) : Option State :=
  match (s.ctx n).frame with
  | none => some (beginDgs s n stamp h)
  | some f =>
    if f.ts = h.frame then some s
    else if serialLater 16 h.frame f.ts then some (beginDgs (completeAny s n) n stamp h)
    else none

/-- LAST and UNIT of a TILE datagram differ from those of an earlier piece of its tile in the frame in progress (R218). -/
def otherCut (c : Ctx) (h : DgsHead) : Bool :=
  h.type == 0 && c.frame.elim false (fun f => f.ts == h.frame) &&
    (tfind c.dgs.geometry h.tile).elim false (fun g => g != (h.last, h.unit))

/-- A valid datagram of the frame in progress. -/
def dgsJoin (s : State) (n eth : Nat) (h : DgsHead) (payload : List Byte) : State :=
  let s := if h.type = 0 then
      setDgs s n { (s.ctx n).dgs with geometry := tset (s.ctx n).dgs.geometry h.tile (h.last, h.unit) }
    else s
  match (s.ctx n).frame with
  | none => s
  | some f =>
    if f.done || f.abandoned then s
    else
      let f := { f with lastAt := s.ref }
      let s := s.setCtx n { s.ctx n with frame := some f }
      if h.type = 0 then dgsCheck (tilePiece s n eth f h payload) n
      else
        let e : DgsEnd := ⟨h.tile, (nth 0#8 payload 0).toNat,
          if (nth 0#8 payload 1).toNat % 2 = 1 then some (beNat (slice payload 4 4)) else none,
          nearestSeconds (timeS s.tb) h.capS, h.capNs⟩
        dgsCheck (setDgs s n { (s.ctx n).dgs with ended := some e }) n

/-- A datagram of a DESK context's flow (R216 to R221, R223). One of another STREAM that fails R218 is
counted in this context (DESIGN CHOICE: notes/assumptions/150.md). -/
def dgsDatagram (s : State) (n port : Nat) (src : IpAddr) (stamp : Nat) (l : List Byte) : State :=
  let c := s.ctx n
  let bad := dgsBad c.p l || otherCut c (dgsHead l)
  if beNat (slice l 4 2) ≠ c.p.stream ∧ dgsBad c.p l = false then s
  else if bad then badDgs s n
  else
    let s := s.setCtx n { c with srcAddr := some (port, src), dgs := { c.dgs with everSeen := true } }
    let s := if c.dgs.everSeen then s else sendRefresh s n
    match dgsFrameFor s n stamp (dgsHead l) with
    | none => bump s n (fun k => { k with late := sat32 k.late })
    | some s => dgsJoin s n (port / 4) (dgsHead l) (l.drop 24)

/-! ### MEDIA_PACKET_PROCESS (R225) -/

/-- The frame leaves the media space of its physical port (R198). -/
def popMedia (s : State) (eth : Nat) : State := { s with media := tset s.media eth ((mediaOf s eth).drop 1) }

/-- The units that a CODED packet begins, or none when its codec does not support it (R214). A context that no engine's codec is
known for yet takes every packet as it is (notes/assumptions/123.md). -/
def packetUnits (c : Ctx) (l : List Byte) : Option (List Nat) :=
  match c.attach with
  | some a => if a.codec = 0 then hevcUnits l else avcUnits l
  | none => some []

/-- An RTP packet reaches its RAW or CODED context (R209, R214). What an unsupported packet does to
its frame is a DESIGN CHOICE (notes/assumptions/137.md). -/
def rtpPacket (s : State) (n : Nat) (m : MediaFrame) (stamp : Nat) (r : Rtp) : State :=
  let c := s.ctx n
  if c.p.type = 0 then
    let seq := 65536 * beNat (slice r.payload 0 2) + r.seq
    match sampleRows r.payload with
    | none => if r.payload.length < 2 then unsupportedPacket s n else unsupportedSeq s n m.path seq
    | some rows =>
      if !rows.all (rowOk c.p) then unsupportedSeq s n m.path seq
      else rawPacket (pathGap s n m.path seq) n (m.port / 4) seq stamp r rows
  else match packetUnits c r.payload with
    | none => unsupportedSeq s n m.path r.seq
    | some nals =>
      let s := s.setCtx n { c with srcAddr := some (m.port, m.src), ssrc := r.ssrc }
      codedPacket (pathGap s n m.path r.seq) n (m.port / 4) stamp r nals

/-- A media frame reaches the ring writer of its context. What is no RTP packet is unsupported (notes/assumptions/120.md). -/
def processPacket (s : State) (m : MediaFrame) : State :=
  let n := m.ctx
  let stamp := portStamp s m.port m.stamp
  if (s.ctx n).p.type = 2 then dgsDatagram s n m.port m.src stamp m.payload
  else match readRtp m.payload with
    | none => unsupportedPacket s n
    | some r => rtpPacket s n m stamp r

/-- MEDIA_PACKET_PROCESS: the oldest frame of a physical port's media space reaches its ring writer. One of a context that has been
isolated or closed meanwhile is discarded there (R201). -/
def execMediaPacketProcess (eth : Fin 4) (s : State) : Host.Outcome State Fault Refusal :=
  match mediaOf s eth.val with
  | [] => .next s
  | m :: _ =>
    let c := s.ctx m.ctx
    let s := popMedia s eth.val
    if c.state = .opened ∧ c.opening = m.opening ∧ c.isolated = false ∧ memoryRests s = false then .next (processPacket s m)
    else .next s

/-- FRAME_TIMEOUT (R210, R221). -/
def execFrameTimeout (ctx : Fin 192) (s : State) : Host.Outcome State Fault Refusal :=
  let c := s.ctx ctx.val
  match c.frame with
  | some f =>
    if !f.done && !f.abandoned && decide (f.lastAt + c.p.timeoutUs * usT ≤ s.ref) then .next (completeAny s ctx.val)
    else .next s
  | none => .next s

/-- The crystallizer lane of a use that is free first (R292): 0 ingest, 1 Welond. A lane whose job still runs after a bed has given it
another use takes no other work. -/
def useLane (s : State) (use : Nat) : Option Nat :=
  minBy (fun l => (s.lane l).freeAt) ((List.range 16).filter (fun l => (s.lane l).use == use && (s.lane l).job.isNone))

/-- Work that is there since `since` and takes `cycles` takes the lane of its use that is free first, which codes nothing else
meanwhile (R292): when it ends; none when the bed gives that use no lane. -/
def laneEnd (s : State) (use : Nat) (since : Ticks) (cycles : Nat) : Option (Ticks × State) :=
  (useLane s use).map (fun l =>
    let t := max since (s.lane l).freeAt + cycles * coreT
    (t, s.setLane l { s.lane l with freeAt := t }))

/-- The same, once the work has ended. -/
def laneDone (s : State) (use : Nat) (since : Ticks) (cycles : Nat) : Option State :=
  match laneEnd s use since cycles with
  | some (t, s') => if t ≤ s.ref then some s' else none
  | none => none

/-- DGS_TILE_DECODE (R219): a compressed tile with all its pieces leaves its crystallizer lane. -/
def execDgsTileDecode (ctx : Fin 192) (tile : Nat) (s : State) : Host.Outcome State Fault Refusal :=
  let n := ctx.val
  let c := s.ctx n
  match c.frame, c.dgs.tiles.find? (fun t => t.tile == tile) with
  | some f, some t =>
    if f.done || f.abandoned || t.decoded || t.bad || t.enc == 0 || decide (t.pieces.length ≤ t.last) then .next s
    else
      let (data, cycles) := decodeBlock (t.enc == 2) 64 16384 (tileData t)
      match (laneEnd s 0 t.wholeAt cycles).filter (fun e => decide (e.1 ≤ s.ref)), data with
      | none, _ => .next s
      | some (at_, s), some data =>
        let s := tileDecoded s n 0x2E idCrys f t data
        .next (dgsCheck (setDgs s n { (s.ctx n).dgs with decodedAt := max at_ (s.ctx n).dgs.decodedAt }) n)
      | some (_, s), none => .next (dgsCheck (tileFailed s n t) n)
  | _, _ => .next s

/-! ### FILL_COPY (R211, R222) -/

/-- Change the first closing frame that satisfies `p`. -/
def modClosing (p : Closing → Bool) (f : Closing → Closing) : List Closing → List Closing
  | [] => []
  | k :: r => if p k then f k :: r else k :: modClosing p f r

/-- The ring writer of a context copies bytes into buffer `k`; a poisoned burst is stored as poison (R211). The answer is whether
one was. -/
def copyBytes (s : State) (n k src dst len : Nat) : Bool × State :=
  let (l, s) := classPieces s (ringClass s n) (ringWriter s n) src len (.ring n k)
  l.foldl (fun (bad, s) p =>
    let at_ := dst + (p.addr - src)
    let (_, s) := classWrite s (ringClass s n) (ringWriter s n) at_ p.data (.ring n k)
    if p.poison then (true, (linesOf at_ p.data.length).foldl (fun s x => poisonLine s x.1) s) else (bad, s)) (false, s)

/-- The ring writer of a context fills bytes of buffer `k` with black. -/
def putBlack (s : State) (n k dst : Nat) (l : List Byte) : State :=
  (classWrite s (ringClass s n) (ringWriter s n) dst l (.ring n k)).2

/-- Black of a format over `n` pixels: plane 0 bytes and plane 1 bytes (R211). -/
def blackLine (f n : Nat) : List Byte × List Byte :=
  if fmtTwoPlane f then
    (zeros (n * fmtBytes f), (List.replicate (ceilDiv n 2 * 2) (if fmtBytes f = 1 then [0x80#8] else leBytes 2 512)).flatten)
  else if f = 5 then ((List.replicate n (leBytes 4 0x8080)).flatten, [])
  else if f = 6 then ((List.replicate n (leBytes 4 (512 * 1024 + 512))).flatten, [])
  else (zeros (n * fmtBytes f), [])

/-- The byte ranges of an uncovered range: chroma or not, line, byte column, bytes. -/
def gapRanges (f : Nat) (g : Nat × Nat × Nat) : List (Bool × Nat × Nat × Nat) :=
  let b := fmtBytes f
  [(false, g.1, g.2.1 * b, g.2.2 * b)] ++
    (if fmt420 f then (if g.1 % 2 = 0 then [(true, g.1 / 2, g.2.1 / 2 * 2 * b, ceilDiv g.2.2 2 * 2 * b)] else [])
     else if fmt422 f then [(true, g.1, g.2.1 / 2 * 2 * b, ceilDiv g.2.2 2 * 2 * b)] else [])

/-- Fill one uncovered range. -/
def fillGap (n : Nat) (k : Closing) (acc : Bool × State) (g : Nat × Nat × Nat) : Bool × State :=
  let c := acc.2.ctx n
  (gapRanges c.p.format g).foldl (fun (bad, s) r =>
    let dst := planeAddr c k.target r.1 r.2.1 r.2.2.1
    match k.fill with
    | some q =>
      let (b, s) := copyBytes s n k.target (planeAddr c q r.1 r.2.1 r.2.2.1) dst r.2.2.2
      (bad || b, s)
    | none =>
      let black := blackLine c.p.format g.2.2
      (bad, putBlack s n k.target dst ((if r.1 then black.2 else black.1).take r.2.2.2))) acc

/-- Copy one tile from the fill source. -/
def fillTile (n : Nat) (k : Closing) (acc : Bool × State) (t : Nat) : Bool × State :=
  let c := acc.2.ctx n
  match k.fill with
  | none => acc
  | some q =>
    ((tileLines c k.target t).zip (tileLines c q t)).foldl (fun (bad, s) e =>
      let (b, s) := copyBytes s n k.target e.2.1 e.1.1 e.1.2.2
      (bad || b, s)) acc

/-- Byte `o` of a buffer that is black. -/
def blackAt (p : CtxParams) (o : Nat) : Byte :=
  let f := p.format
  if fmtTwoPlane f then
    if o < p.plane1 then 0#8 else if fmtBytes f = 1 then 0x80#8 else if o % 2 = 0 then 0#8 else 2#8
  else if f = 5 then nth 0#8 (leBytes 4 0x8080) (o % 4)
  else if f = 6 then nth 0#8 (leBytes 4 (512 * 1024 + 512)) (o % 4)
  else 0#8

/-- Fill a byte range of a PEER buffer (R362). -/
def fillRange (n : Nat) (k : Closing) (acc : Bool × State) (g : Nat × Nat) : Bool × State :=
  let s := acc.2
  let c := s.ctx n
  let dst := bufAddr c k.target + g.1
  match k.fill with
  | some q =>
    let (b, s) := copyBytes s n k.target (bufAddr c q + g.1) dst g.2
    (acc.1 || b, s)
  | none => (acc.1, putBlack s n k.target dst ((List.range g.2).map (fun i => blackAt c.p (g.1 + i))))

/-- A closing frame with copies to make. -/
def needsCopy (k : Closing) : Bool := k.gaps != [] || k.tiles != [] || k.ranges != []

/-- The media space of the ports of a context's rules leaves room for copies (R211). -/
def copyRoom (s : State) (n : Nat) : Bool :=
  (s.flows.filter (fun e => e.2.context == n)).all (fun e => decide (sumNat ((mediaOf s (e.2.port / 4)).map (·.len)) < 65536))

def fillCopy (s : State) (n : Nat) (k : Closing) : State :=
  let (bad, s) := k.ranges.foldl (fillRange n k) (k.tiles.foldl (fillTile n k) (k.gaps.foldl (fillGap n k) (false, s)))
  let c := s.ctx n
  s.setCtx n { c with closing := modClosing needsCopy (fun k =>
    { k with gaps := [], tiles := [], ranges := [], at_ := s.ref, causes := k.causes ||| (if bad then 4 else 0) }) c.closing }

/-- FILL_COPY: the oldest frame that needs copies gets them. -/
def execFillCopy (ctx : Fin 192) (s : State) : Host.Outcome State Fault Refusal :=
  let n := ctx.val
  match (s.ctx n).closing.find? needsCopy with
  | some k => if copyRoom s n then .next (fillCopy s n k) else .next s
  | none => .next s

/-! ### Comparison, detector and completion (R226, R307, R309) -/

/-- The end of the oldest comparison of a frame: `i` frames of the context complete before its buffer. -/
def closeCompare (s : State) (n i : Nat) (k : Closing) (e : Nat × Nat) : State :=
  let seq := ((s.ctx n).seqNext + 1 + i) % 2 ^ 32
  let b := chosenBinding s n k.binds
  let good := b.map (fun _ => e.1 == e.2)
  let s := match b with
    | some b => endCompare s b.1 n seq e.1 e.2
    | none => s
  let c := s.ctx n
  s.setCtx n { c with closing := modClosing (fun x => x.comparing.isSome) (fun x =>
    { x with comparing := none, good := good, at_ := max x.at_ (x.checkAt + 24 * coreT) }) c.closing }

/-- Access units of a context whose comparison may still run: in the ring, at an engine, or decoded (R237). -/
def openAus (s : State) (n : Nat) : List AccessUnit :=
  (s.ctx n).dec.waiting.map (·.au) ++
    s.decs.flatMap (fun e => if e.2.ctx = n then (e.2.work.map (·.au)).toList else []) ++ (s.ctx n).aus

/-- Change them. -/
def mapAus (s : State) (n : Nat) (f : AccessUnit → AccessUnit) : State :=
  let g (p : Picture) : Picture :=
    { p with au := f p.au, causes := p.causes ||| (f p.au).causes }
  let s := { s with decs := tmap (fun _ (e : DecEngine) => if e.ctx = n then { e with work := e.work.map g } else e) s.decs }
  let c := s.ctx n
  s.setCtx n { c with aus := c.aus.map f, dec := { c.dec with waiting := c.dec.waiting.map g } }

/-- The end of the comparison of an access unit: CHECK_BAD, and GOOD_RUN in decode order (R237, R309). -/
def auCompare (s : State) (n : Nat) (a : AccessUnit) (e : Nat × Nat) : State :=
  match chosenBinding s n a.binds with
  | none => mapAus s n (fun x => if x.seq = a.seq then { x with comparing := none } else x)
  | some b =>
    let s := endCompare s b.1 n a.seq e.1 e.2
    let good := e.1 == e.2
    let run := if good then min 255 (a.goodRun + 1) else 0
    let s := mapAus s n (fun x =>
      if x.seq = a.seq then
        { x with comparing := none, goodRun := run, causes := if good then x.causes else x.causes ||| 32 }
      else if serialLater 32 x.seq a.seq then { x with goodRun := run } else x)
    s.setCtx n { s.ctx n with prev := (s.ctx n).prev.map (fun r => { r with goodRun := run }) }

/-- CHECK_COMPARE_END (R309): 24 CORE cycles after the last covered byte and the expected value. -/
def execCheckCompareEnd (ctx : Fin 192) (s : State) : Host.Outcome State Fault Refusal :=
  let n := ctx.val
  let c := s.ctx n
  match c.closing.findIdx? (fun k => k.comparing.isSome), (openAus s n).find? (fun a => a.comparing.isSome) with
  | some i, _ => match c.closing[i]? with
    | some k => match k.comparing with
      | some e => if k.checkAt + 24 * coreT ≤ s.ref then .next (closeCompare s n i k e) else .next s
      | none => .next s
    | none => .next s
  | none, some a => match a.comparing with
    | some e => if a.checkAt + 24 * coreT ≤ s.ref then .next (auCompare s n a e) else .next s
    | none => .next s
  | none, none => .next s

/-- No write of a buffer is still on its way to memory (R226). -/
def ringQuiet (s : State) (n k : Nat) : Bool := !outstanding s (fun p => p == .ring n k)

/-- The detector has still to give a value for a closing frame's buffer: one is taken, and the frame is not one of no tiles
(R66). -/
def detecting (s : State) (n : Nat) (k : Closing) : Bool := (detectorOf s n).isSome && !k.detected && !k.zeroDirty

/-- A closing frame whose writes are done and whose detector reads are not. -/
def detectorTurn (s : State) (n : Nat) (k : Closing) : Bool := detecting s n k && !needsCopy k && ringQuiet s n k.target

/-- A decoded picture whose detector reads have not ended. -/
def pictureTurn (s : State) (n : Nat) (p : Picture) : Bool := (detectorOf s n).isSome && !p.detected

/-- Change the first waiting picture that satisfies `p`. -/
def modPicture (p : Picture → Bool) (f : Picture → Picture) : List Picture → List Picture
  | [] => []
  | k :: r => if p k then f k :: r else k :: modPicture p f r

def modWaiting (s : State) (n : Nat) (p : Picture → Bool) (f : Picture → Picture) : State :=
  let c := s.ctx n
  s.setCtx n { c with dec := { c.dec with waiting := modPicture p f c.dec.waiting } }

/-- The detector's requests follow the last write of the oldest frame or decoded picture that waits for it (R307). -/
def startDetector (s : State) (n : Nat) : State :=
  match (s.ctx n).closing.find? (detectorTurn s n), (s.ctx n).dec.waiting.find? (pictureTurn s n) with
  | some k, _ =>
    if k.reading then s
    else
      let c := s.ctx n
      askSamples (s.setCtx n { c with closing := modClosing (detectorTurn s n) (fun k => { k with reading := true }) c.closing }) n k.target
  | none, some p =>
    if p.reading then s
    else askSamples (modWaiting s n (pictureTurn s n) (fun p => { p with reading := true })) n p.buffer
  | none, none => s

/-- DETECTOR_COMPLETE (R307): the detector's reads of the oldest frame end. -/
def detectorComplete (s : State) (n : Nat) (k : Closing) : State :=
  let turn := detectorTurn s n
  let (v, s) := contentValue s n k.target
  let c := s.ctx n
  s.setCtx n { c with closing := modClosing turn (fun k =>
    { k with detected := true, content := v, at_ := s.ref, causes := k.causes ||| (if v.isNone then 4 else 0) }) c.closing }

/-- The detector's reads of the oldest decoded picture end. -/
def pictureDetected (s : State) (n : Nat) (p : Picture) : State :=
  let turn := pictureTurn s n
  let (v, s) := contentValue s n p.buffer
  modWaiting s n turn (fun p =>
    { p with detected := true, content := v, endAt := s.ref, causes := p.causes ||| (if v.isNone then 4 else 0) })

/-- DETECTOR_COMPLETE. Reads that have not been asked for are asked for first. -/
def execDetectorComplete (ctx : Fin 192) (s : State) : Host.Outcome State Fault Refusal :=
  let n := ctx.val
  let late := outstanding s (fun p => p == .detector n)
  match (s.ctx n).closing.find? (detectorTurn s n), (s.ctx n).dec.waiting.find? (pictureTurn s n) with
  | some k, _ =>
    if k.reading = false then .next (startDetector s n) else if late then .next s else .next (detectorComplete s n k)
  | none, some p =>
    if p.reading = false then .next (startDetector s n) else if late then .next s else .next (pictureDetected s n p)
  | none, none => .next s

/-- A closing frame whose buffer may complete (R226). -/
def readyToComplete (s : State) (n : Nat) (k : Closing) : Bool :=
  !needsCopy k && ringQuiet s n k.target && k.comparing.isNone && !detecting s n k && decide (k.at_ + 16 * coreT ≤ s.ref)

/-- Remove the first closing frame that satisfies `p`. -/
def dropClosing (p : Closing → Bool) : List Closing → List Closing
  | [] => []
  | k :: r => if p k then r else k :: dropClosing p r

/-- Capture time of a buffer that completes: without an extension it is the previous buffer's, as its ALIVE is (R41). -/
def keptTimes (c : Ctx) (k : Closing) : Nat × Nat :=
  if k.causes.testBit 4 then c.prev.elim (0, 0) (fun p => (p.capS, p.capNs)) else (k.capS, k.capNs)

/-- A buffer completes (R226, R51); a PEER buffer keeps its origin's record but for LOSS and POISON (R45, R362). -/
def bufferComplete (s : State) (n : Nat) (k : Closing) : State :=
  let c := s.ctx n
  let s := s.setCtx n { c with closing := dropClosing (readyToComplete s n) c.closing }
  let repeated := k.zeroDirty && (detectorOf s n).isSome
  let content := if repeated then c.prevContent else k.content
  let s := if repeated then s else countSample s n content
  let s := match k.peer with
    | some r => finishBuf s n k.target { r with causes := r.causes ||| k.causes } content false
    | none => completeBuf s n k.target ⟨(keptTimes c k).1, (keptTimes c k).2, k.alive, k.causes, k.good, k.binds⟩ content
  let c := s.ctx n
  let s := s.setCtx n (c.setBuf k.target { c.buf k.target with dgsFrame := k.dgsFrame })
  if c.p.type = 2 ∧ k.causes.testBit 0 = true then sendRefresh s n else s

/-- BUFFER_COMPLETE. -/
def execBufferComplete (ctx : Fin 192) (s : State) : Host.Outcome State Fault Refusal :=
  match (s.ctx ctx.val).closing.find? (readyToComplete s ctx.val) with
  | some k => if (s.ctx ctx.val).state = .opened then .next (bufferComplete s ctx.val k) else .next s
  | none => .next s

end Sys2Proof.Machine
end

