-- ==== Sys2Proof/Machine/Lanes.lean ====
section
/-! DEFINITION. Serial lanes (spec/13 R336 to R341, spec/06 R182, R189, R190, spec/07 R228): LINK_STATE, EQ_TABLE_QUERY,
EYE_SCAN and EYE_DONE. -/

namespace Sys2Proof.Machine

/-! ### Receiver lanes (R336, R339) -/

/-- An Ethernet lane has bit lock while its port has link (R191; notes/assumptions/40.md). -/
def ethLocked (s : State) (lane : Nat) : Bool :=
  if (s.port (lane / 4 * 4)).cfg.mode = 0 then (s.port (lane / 4 * 4)).link else (s.port lane).link

def laneLocked (s : State) (kind lane : Nat) : Bool :=
  if kind = 1 then ethLocked s lane else (s.laneRx (lane / 8) (lane % 8)).bit

/-- The receiver adapts (R339): any CTLE code and taps within the table's bounds; CLAMPED only when a value is at a bound. -/
def adaptLane (s : State) (i : Nat) : State :=
  let e := tget {} s.laneEq i
  let lim : Int := e.dfeLimit
  let (c, s) := drawWithin s e.ctleMin e.ctleMax
  let (taps, s) := (List.range 5).foldl (fun (l, s) _ =>
    let (t, s) := drawWithin s (-lim) lim
    (l ++ [t], s)) (([] : List Int), s)
  let (held, s) := s.drawBool
  let atBound := c == e.ctleMin || c == e.ctleMax || taps.any (fun t => t == lim || t == -lim)
  s.setRxLane i { s.rxLane i with ctle := c.toNat, dfe := taps, clamped := atBound && held }

/-! ### EQ_TABLE_QUERY (R182, R190, R338, R341) -/

def dplBytes (e : DplEq) : List Byte :=
  leBytes 2 e.allowedLv ++ [byte (e.startSwing % 4 + 4 * (e.startPre % 4) + 16 * (e.startPreset % 16)), 0#8] ++
    leBytes 2 e.allowedPreset ++ zeros 2

def laneEqBytes (e : LaneEq) : List Byte :=
  [byte (e.txPre % 32), byte (e.txMain % 64), byte (e.txPost % 32 + 32 * b2n e.txInvert + 64 * b2n e.rxInvert),
    byte (e.ctleMin % 16 + 16 * (e.ctleMax % 16)), byte (e.dfeLimit % 64), 0#8, 0#8, 0#8]

def rxBytes (r : RxLane) : List Byte :=
  [byte (r.ctle % 16 + 16 * b2n r.clamped)] ++ (List.range 5).map (fun i => byte (unsigned 8 (nth 0 r.dfe i))) ++ zeros 2

def cmdEqTableQuery (p : KindIndexP) (s : State) : Reply :=
  if 2 < p.kind then refuse s stBadParam
  else if p.kind = 0 then
    if 63 < p.index then refuse s stBadParam
    else ok s (dplBytes (tget {} s.dpl p.index) ++ leBytes 4 (tget 0 s.clamps p.index))
  else if 15 < p.index then refuse s stBadParam
  else
    let i := laneEntry p.kind p.index
    let s := adaptLane s i
    ok s (laneEqBytes (tget {} s.laneEq i) ++ rxBytes (s.rxLane i))

def execEqTableQuery (c : Caller) (p : KindIndexP) (s : State) : Host.Outcome State Fault Refusal :=
  .next (command c 0x0B03 (cmdEqTableQuery p) s)

/-! ### EYE_SCAN (R340) -/

/-- Points on an axis. -/
def axisPoints (lo hi : Int) (step : Nat) : Nat := (hi - lo).toNat / step + 1

def eyePoints (p : EyeScanP) : Nat := axisPoints p.phaseLo p.phaseHi p.step * axisPoints p.voltLo p.voltHi p.step

/-- The fields' ranges (R340; notes/assumptions/40.md). -/
def eyeFields (p : EyeScanP) : Bool :=
  decide (p.lane ≤ 15) && decide (-127 ≤ p.phaseLo) && decide (p.phaseLo ≤ p.phaseHi) && decide (p.phaseHi ≤ 127) &&
    decide (-63 ≤ p.voltLo) && decide (p.voltLo ≤ p.voltHi) && decide (p.voltHi ≤ 63) && within 1 15 p.step &&
    within 16 40 p.dwell

def cmdEyeScan (p : EyeScanP) (s : State) : Reply :=
  let i := laneEntry p.kind p.lane
  if p.kind ≠ 1 ∧ p.kind ≠ 2 then refuse s stBadParam
  else if p.lane ≤ 15 ∧ (s.rxLane i).scan.isSome = true then refuse s stBusy
  else if eyeFields p = false ∨ laneLocked s p.kind p.lane = false then refuse s stBadParam
  else if writable s [idWarden] p.resultBase (4 * eyePoints p) = false then refuse s stDykeDenied
  else ok (s.setRxLane i { s.rxLane i with scan := some p }) (leBytes 4 (eyePoints p))

def execEyeScan (c : Caller) (p : EyeScanP) (s : State) : Host.Outcome State Fault Refusal :=
  .next (command c 0x0B02 (cmdEyeScan p) s)

/-- The results of a scan (R340): one saturating count for each point, in order. -/
def eyeResults (p : EyeScanP) (counts : List Nat) : List Byte :=
  (List.range (eyePoints p)).flatMap (fun k => leBytes 4 (satAdd 32 (nth 0 counts k) 0))

/-- EYE_DONE: `counts` are the error counts of the points. -/
def execEyeDone (kind : Nat) (lane : Fin 16) (counts : List Nat) (s : State) : Host.Outcome State Fault Refusal :=
  let i := laneEntry kind lane.val
  if kind ≠ 1 ∧ kind ≠ 2 then .next s
  else match (s.rxLane i).scan with
    | none => .next s
    | some p =>
      let s := wardenWrite s p.resultBase (eyeResults p counts)
      let s := s.setRxLane i { s.rxLane i with scan := none }
      .next (postFw s 0x31 1 none ([byte kind, byte lane.val, 0#8, 0#8, byte (eyePoints p)]))

/-! ### LINK_STATE (R189, R228, R368) -/

def linkBlock (l : Link) : List Byte :=
  [byte (l.link % 8 + 16 * (l.reason % 16)), byte (l.rate % 8 + 16 * (l.lanes % 8)),
    byte (l.sinkRate % 8 + 16 * (l.sinkLanes % 8) + 128 * b2n l.asyncCap), 0#8] ++
    leBytes 2 l.fmin ++ leBytes 2 l.fmax ++ leBytes 4 l.trainCount ++ leBytes 4 l.failCount ++
    (List.range 4).map (fun i => byte (nth 0 l.eq i))

def welCode : WelState → Nat
  | .disabled => 0
  | .detect => 1
  | .train => 2
  | .lock => 3
  | .exchange => 4
  | .active => 5
  | .absent => 6
  | .foreign => 7

/-- Mirrors held in the sending direction. -/
def heldCount (w : Wel) : Nat := (w.mirrors.filter (fun m => !m.admitted && !m.lost)).length

def welBlock (w : Wel) : List Byte :=
  [byte (welCode w.st + 16 * w.reason), byte (w.rate % 8), byte (w.txWidth % 16 + 16 * (w.rxWidth % 16)),
    byte (w.partner % 4 + 4 * b2n w.partnerValid), byte w.rxLocked, byte w.txLocked, byte (heldCount w), 0#8] ++
    leBytes 4 (unsigned 32 w.tideSkew) ++ leBytes 4 w.trainAttempts ++ leBytes 4 w.narrowings ++
    leBytes 4 w.hdrInvalid ++ leBytes 4 w.stuffErr ++ leBytes 4 w.ctrlBad ++ leBytes 4 w.pktBad ++ zeros 4

/-- Codewords that a port's FEC has corrected or given up since the last look (R228; notes/assumptions/41.md). -/
def fecErrors (s : State) (n : Nat) : State :=
  let p := s.port n
  if p.link = false ∨ fecCode p.cfg = 0 then s
  else
    let (a, s) := s.drawNat
    let (b, s) := s.drawNat
    s.setPort n { p with fecCorr := satAdd 32 p.fecCorr a, fecUncorr := satAdd 32 p.fecUncorr b }

def cmdLinkState (p : KindIndexP) (s : State) : Reply :=
  match p.kind with
  | 0 => if 31 < p.index then refuse s stBadParam else if s.power.state ≠ 0 then refuse s stBusy else ok s (linkBlock (s.head p.index).link)
  | 1 =>
    if 15 < p.index ∨ (s.port p.index).exists_ = false then refuse s stBadParam
    else
      let s := fecErrors s p.index
      ok s (portBlock (s.port p.index))
  | 2 => if 1 < p.index then refuse s stBadParam else ok s (welBlock (s.wel p.index))
  | _ => refuse s stBadParam

def execLinkState (c : Caller) (p : KindIndexP) (s : State) : Host.Outcome State Fault Refusal :=
  .next (command c 0x0B01 (cmdLinkState p) s)

end Sys2Proof.Machine
end

