-- ==== Sys2Proof/Machine/Welond.lean ====
section
/-! DEFINITION. The Welond links (spec/13 R353 to R368): bring-up, widths, fences, tides, and the mirrors' admission. -/

namespace Sys2Proof.Machine

/-! ### Widths (R356) -/

def rxWidthNow (w : Wel) : Nat := widthOf (laneCount (goodLanes w w.rxLocked))
def txWidthNow (w : Wel) : Nat := widthOf (laneCount (goodLanes w w.txLocked))

/-! ### PEER contexts (R361) -/

/-- Ask again for every PEER context (R361). -/
def requestPeers (s : State) : State :=
  (s.ctxs.map (·.1)).foldl (fun s n =>
    if (s.ctx n).state = .opened ∧ (s.ctx n).p.type = 3 then requestMirror s n else s) s

/-! ### States (R353) -/

/-- PEER frames in progress lose their packets with the link. -/
def dropPeerFrames (s : State) (l : Nat) : State :=
  (s.ctxs.map (·.1)).foldl (fun s n =>
    let c := s.ctx n
    if c.state = .opened ∧ c.p.type = 3 ∧ linkFrom s c.p.originDevice = some l then
      match c.frame with
      | some f =>
        let s := match f.target with
          | some k => dropBuf s n k
          | none => s
        s.setCtx n { s.ctx n with frame := none }
      | none => s
    else s) s

/-- The receivers of a link's lanes start again. -/
def unlockLanes (s : State) (l : Nat) : State := (List.range 8).foldl (fun s i => dropLane s l i) s

/-- What a link forgets when its lanes stop carrying traffic. -/
def idleWel (w : Wel) (st : WelState) (now : Ticks) : Wel :=
  { w with
    st := st, txWidth := 0, rxWidth := 0, partnerValid := false, rxLocked := 0, txLocked := 0, adapted := 0, skewRun := 0,
    exchange := none, capAt := none, bitAt := none, narrowAt := none, txWiden := false, rxWiden := false, laneTries := [],
    lastTide := none, mirrors := [], remoteHeld := [], since := now, mixed := true, ctl := [], queue := [], alignDue := false,
    sent := 0, patSent := 0 }

/-- A link stops: it enters a state, and PEER contexts that were reached over it are asked for over the other link. -/
def stopWel (s : State) (l : Nat) (st : WelState) : State :=
  let was := (s.wel l).st = .active
  let s := if was then dropPeerFrames s l else s
  let s := unlockLanes (s.setWel l { idleWel (s.wel l) st s.ref with lineFrom := s.welT }) l
  if was then requestPeers s else s

/-- ABSENT with a reason (R353). -/
def enterAbsent (s : State) (l reason : Nat) : State :=
  let s := stopWel s l .absent
  s.setWel l { s.wel l with reason := reason, rate := 7, attempts := 8 }

/-- The next attempt, or ABSENT after the eighth (R353). -/
def startAttempt (s : State) (l : Nat) : State :=
  if 8 ≤ (s.wel l).attempts then enterAbsent s l 6
  else
    let s := stopWel s l .train
    let w := s.wel l
    s.setWel l { w with rate := w.rateCode, attempts := w.attempts + 1, trainAttempts := sat32 w.trainAttempts }

/-- An attempt made from ABSENT: it is followed by no other at once. -/
def retryAttempt (s : State) (l : Nat) : State :=
  let s := s.setWel l { s.wel l with attempts := 7 }
  startAttempt s l

/-- The link leaves ACTIVE (R357). -/
def leaveActive (s : State) (l : Nat) : State :=
  startAttempt (s.setWel l { s.wel l with attempts := 0 }) l

/-- Termination may be sensed: the link is enabled, the main die runs and LREF_B is there. -/
def canSense (s : State) (l : Nat) : Bool := released s && (s.wel l).enable && s.clk.lrefB

/-- WELOND_DETECT (R353): every 100 ms the fitted lanes are sensed. -/
def execWelondDetect (l : Fin 2) (sensing : Nat) (s : State) : Host.Outcome State Fault Refusal :=
  let w := s.wel l.val
  let due := w.sensedAt.elim true (fun t => decide (t + 100 * msT ≤ s.ref))
  let m := sensing &&& w.fitted
  if canSense s l.val = false ∨ due = false then .next s
  else
    let s' := s.setWel l.val { w with sensing := m, sensedAt := some s.ref }
    match w.st with
    | .detect => if m = 0 then .next s' else .next (startAttempt s' l.val)
    | .absent => if m ≠ 0 ∧ w.sensing = 0 then .next (retryAttempt s' l.val) else .next s'
    | _ => .next s

/-- RECEIVER_ADAPTED (R353): the receivers of these lanes have adapted. -/
def execReceiverAdapted (l : Fin 2) (lanes : Nat) (s : State) : Host.Outcome State Fault Refusal :=
  let w := s.wel l.val
  if w.st ≠ .train then .next s
  else
    let a := w.adapted ||| (lanes &&& w.sensing)
    let s := (bitsOf 8 (lanes &&& w.sensing)).foldl (fun s i => adaptLane s (laneEntry 2 (8 * l.val + i))) s
    .next (s.setWel l.val { w with adapted := a, st := if a = w.sensing then .lock else .train })

/-- WELOND_ATTEMPT_TIMEOUT (R353): 20 ms of an attempt, 10 ms of EXCHANGE. -/
def execWelondAttemptTimeout (l : Fin 2) (s : State) : Host.Outcome State Fault Refusal :=
  let w := s.wel l.val
  let late := match w.st with
    | .train => decide (w.since + 20 * msT ≤ s.ref)
    | .lock => decide (w.since + 20 * msT ≤ s.ref)
    | .exchange => w.exchange.elim false (fun t => decide (t + 10 * msT ≤ s.ref))
    | _ => false
  if late then .next (startAttempt s l.val) else .next s

/-- WELOND_RETRY (R353): in ABSENT a new attempt while termination is sensed, in FOREIGN another EXCHANGE. An attempt needs
LREF_B, so that one made means that it is back (notes/assumptions/42.md). -/
def execWelondRetry (l : Fin 2) (sensing : Nat) (s : State) : Host.Outcome State Fault Refusal :=
  let w := s.wel l.val
  let m := sensing &&& w.fitted
  if released s = false ∨ w.enable = false ∨ s.ref < w.since + 1000 * msT then .next s
  else match w.st with
    | .absent =>
      if m = 0 then .next (s.setWel l.val { w with sensing := 0, since := s.ref })
      else
        let s := { s with clk := { s.clk with lrefB := true } }
        .next (retryAttempt (s.setWel l.val { w with sensing := m }) l.val)
    | .foreign => .next (s.setWel l.val { w with since := s.ref, exchange := some s.ref, capAt := none })
    | _ => .next s

/-- WELOND_TERMINATION_LOST (R353). -/
def execWelondTerminationLost (l : Fin 2) (s : State) : Host.Outcome State Fault Refusal :=
  let w := s.wel l.val
  if w.st = .train ∨ w.st = .lock ∨ w.st = .exchange then
    .next (enterAbsent (s.setWel l.val { w with sensing := 0 }) l.val 5)
  else .next s

/-! ### Capability messages (R354, R355) -/

/-- The wall id of the bed in force. -/
def wallId (s : State) : Nat := s.cfg.wall

/-- The message that a link sends now. -/
def ownCapability (s : State) (l : Nat) : Capability :=
  let w := s.wel l
  { ver := 1, rate := w.rateCode, device := s.ring.device, ring := s.ring.ring, ack := w.partnerValid, fitted := w.fitted,
    rxLocked := w.rxLocked, link := l, fenceProp := s.ring.fenceProp, wall := wallId s, tideCount := s.tide.count,
    stepping := 0x4201, cmdset := 0x0302 }

/-- A link exchanges capability messages: in EXCHANGE, and in FOREIGN for 10 ms of each repeat. -/
def exchanging (s : State) (w : Wel) : Bool :=
  (w.st == .exchange && wireOf s w == .blocks) || (w.st == .foreign && w.exchange.elim false (fun t => decide (s.ref < t + 10 * msT)))

/-- CAPABILITY_SEND: every 10 µs. -/
def execCapabilitySend (l : Fin 2) (s : State) : Host.Outcome State Fault Refusal :=
  let w := s.wel l.val
  if exchanging s w && w.capAt.elim true (fun t => decide (t + 10 * usT ≤ s.ref)) then
    .next (sendPacket (s.setWel l.val { w with capAt := some s.ref }) l.val 3 w.partner s.ring.device
      (capabilityBytes (ownCapability s l.val)))
  else .next s

/-- The first check of R355 that fails, as its reason; 0 when all pass. -/
def foreignReason (s : State) (w : Wel) (m : Capability) : Nat :=
  if m.wall ≠ wallId s then 1
  else if m.device = s.ring.device then 2
  else if m.rate ≠ w.rateCode then 3
  else if m.ring ≠ s.ring.ring then 4
  else 0

/-- Tide counts that differ by more than `n` (R355, R367). -/
def checkCounts (s : State) (l count n : Nat) : State :=
  if s.tide.count + n < count ∨ count + n < s.tide.count then raiseErr s 0x0061 l (count % 2 ^ 32) (s.tide.count % 2 ^ 32)
  else s

/-- The link enters ACTIVE (R355, R356, R360, R361). -/
def enterActive (s : State) (l count : Nat) : State :=
  let w := s.wel l
  let w := { w with
    st := .active, reason := 0, attempts := 0, exchange := none, capAt := none, since := s.ref,
    txWidth := txWidthNow w, rxWidth := rxWidthNow w }
  let s := s.setWel l w
  if w.txWidth = 0 ∨ w.rxWidth = 0 then leaveActive s l
  else requestPeers (admitMirrors (checkCounts s l count 1) l)

/-- A capability message has come. -/
def takeCapability (s : State) (l : Nat) (m : Capability) : State :=
  let w := s.wel l
  let w := { w with partner := m.device % 4, partnerValid := true, partnerFitted := m.fitted, txLocked := m.rxLocked }
  let s := s.setWel l w
  let r := foreignReason s w m
  if r ≠ 0 then
    s.setWel l { w with
      st := .foreign, reason := r, exchange := if w.st = .foreign then w.exchange else none,
      since := if w.st = .foreign then w.since else s.ref }
  else if m.ack then enterActive s l m.tideCount
  else s

/-! ### Narrowing and widening (R356 to R358) -/

/-- WELOND_CHANGE (R358). -/
def postChange (s : State) (l : Nat) : State :=
  let w := s.wel l
  postFw s 0x32 1 none [byte l, byte (welCode w.st), byte (w.txWidth % 16 + 16 * (w.rxWidth % 16)), byte (heldCount w)]

/-- A direction has changed its width: counted, mirrors admitted anew when it is the sending one, and the event. -/
def countChange (s : State) (l : Nat) (sending : Bool) : State :=
  let s := s.setWel l { s.wel l with narrowings := sat32 (s.wel l).narrowings }
  postChange (if sending then admitMirrors s l else s) l

/-- A WIDTH block on a link (R351, R357): the lanes locked here and the width they give. -/
def sendWidth (s : State) (l : Nat) : State :=
  let w := s.wel l
  sendControl (s.setWel l { w with seq := (w.seq + 1) % 256 }) l (widthBlock w.rxLocked (rxWidthNow w) w.seq)

/-- What arrives on a link in order ends a narrowing of its receiving direction (R357; notes/assumptions/43.md). -/
def heard (s : State) (l : Nat) : State := s.setWel l { s.wel l with narrowAt := none }

/-- A lane has lost its lock (R357): its receiver starts again. -/
def laneLost (s : State) (l lane : Nat) : State :=
  let w := s.wel l
  let s := dropLane s l lane
  let used := (usedLanes (goodLanes w w.rxLocked) w.rxWidth).contains lane
  let w := { w with rxLocked := w.rxLocked &&& (255 ^^^ 1 <<< lane), laneTries := tset w.laneTries lane (0, s.ref) }
  let s := s.setWel l w
  if w.st ≠ .active then s
  else if rxWidthNow w = 0 then leaveActive s l
  else if used = false then s
  else
    let s := sendWidth s l
    let old := (s.wel l).rxWidth
    let s := s.setWel l { s.wel l with
      narrowAt := some s.ref, rxWidth := min old (rxWidthNow w), rxWiden := decide (old < rxWidthNow w) }
    if rxWidthNow w < old then countChange s l false else s

/-- NARROWING_TIMEOUT (R357). -/
def execNarrowingTimeout (l : Fin 2) (s : State) : Host.Outcome State Fault Refusal :=
  match (s.wel l.val).st, (s.wel l.val).narrowAt with
  | .active, some t => if t + 2 * usT ≤ s.ref then .next (leaveActive s l.val) else .next s
  | _, _ => .next s

/-- The sending direction takes the width of the lanes that the partner has locked: at once when it narrows or its lanes
change, after the next tide when it widens (R357, R358). -/
def takeWidth (s : State) (l mask : Nat) : State :=
  let s := pumpLine s l
  let w := s.wel l
  let lanes := usedLanes (goodLanes w w.txLocked) w.txWidth
  let w' := { w with txLocked := mask }
  let n := txWidthNow w'
  let s := s.setWel l { w' with txWidth := min w.txWidth n, txWiden := decide (w.txWidth < n) }
  if n = 0 then leaveActive s l
  else
    let w := s.wel l
    let s := if usedLanes (goodLanes w mask) w.txWidth = lanes then s else sendAlign s l
    if w.txWidth < lanes.length then countChange s l true else s

/-- A control block that fails its CRC is discarded and counted (R351). -/
def badBlock (s : State) (l : Nat) : State := s.setWel l { s.wel l with ctrlBad := sat32 (s.wel l).ctrlBad }

/-- Attempts of a lane that have ended, and when the last one of them did or the lane lost its lock; a lane that has not had a lock on
this ACTIVE link counts from the link's entry to ACTIVE (R358). -/
def laneTry (w : Wel) (lane : Nat) : Nat × Ticks := (tfind w.laneTries lane).getD (0, w.since)

/-- The attempt in progress began: at once after the loss or the attempt before, and every 1 s after the eighth (R358). -/
def tryBegan (w : Wel) (lane : Nat) : Ticks := (laneTry w lane).2 + (if (laneTry w lane).1 < 8 then 0 else 980 * msT)

/-- A lane is retrained now. -/
def retrainDue (s : State) (w : Wel) (lane : Nat) : Bool := decide (tryBegan w lane ≤ s.ref)

/-- LANE_RETRAIN (R358): `bits` are those that a background attempt brought; one that has not locked the lane ends after 20 ms. -/
def execLaneRetrain (l : Fin 2) (lane : Fin 8) (bits : List Bool) (s : State) : Host.Outcome State Fault Refusal :=
  let w := s.wel l.val
  if w.st ≠ .active ∨ w.fitted.testBit lane.val = false ∨ w.rxLocked.testBit lane.val = true ∨
      retrainDue s w lane.val = false then .next s
  else
    let s := (lineIn (dropLane s l.val lane.val) l.val lane.val bits).2
    let w := s.wel l.val
    if laneReady (s.laneRx l.val lane.val) then
      let s := adaptLane s (laneEntry 2 (8 * l.val + lane.val))
      let w := { w with rxLocked := w.rxLocked ||| 1 <<< lane.val, laneTries := tdel w.laneTries lane.val }
      let w := { w with rxWiden := decide (w.rxWidth < rxWidthNow w) }
      .next (sendWidth (s.setWel l.val w) l.val)
    else if tryBegan w lane.val + 20 * msT ≤ s.ref then
      .next (s.setWel l.val { w with laneTries := tset w.laneTries lane.val ((laneTry w lane.val).1 + 1, s.ref) })
    else .next s

/-- WELOND_WIDEN (R358): the sending direction widens after this device's tide. -/
def widenTx (s : State) (l : Nat) : State :=
  if (s.wel l).st = .active ∧ (s.wel l).txWiden = true then
    let s := pumpLine s l
    let w := s.wel l
    let s := s.setWel l { w with txWiden := false, txWidth := max w.txWidth (txWidthNow w) }
    if w.txWidth < (s.wel l).txWidth then countChange (sendAlign s l) l true else s
  else s

/-- The receiving direction widens with the partner's tide. -/
def widenRx (s : State) (l : Nat) : State :=
  let w := s.wel l
  if w.rxWiden then
    let s := s.setWel l { w with rxWiden := false, rxWidth := max w.rxWidth (rxWidthNow w) }
    if w.rxWidth < (s.wel l).rxWidth then countChange s l false else s
  else s

/-! ### Fences (R364, R366) -/

/-- A FENCE block has come (R364): the groups of its origin are held, and it goes on while hops remain. -/
def takeFence (s : State) (l : Nat) (block : List Byte) : State :=
  let groups := leAt block 1 1
  let origin := leAt block 2 1 % 4
  let hops := leAt block 2 1 / 4 % 4
  let s := heard s l
  let s := if hops + 1 < s.ring.ring then sendFence s (1 - l) groups origin (hops + 1) else s
  let old := s.fences.wel
  if tget 0 old origin = groups then { s with fences := { s.fences with wel := tset old origin groups } }
  else
    let (t, s) := softFenceTime s
    postOrigins (setFences s { s.fences with wel := tset old origin groups } t) (changeTime s t 4) old

/-! ### Bits on a lane (R346 to R351) -/

/-- A block that a receiver gives (R351): one that fails its CRC or has a reserved type is counted, and on an ACTIVE link the others
have their effect; a FENCE block with a reserved bit that is not 0 is discarded (R7; notes/assumptions/130.md). The blocks of packets
belong to the rows of their messages. -/
def takeBlock (s : State) (l : Nat) (b : LineBlock) : State :=
  if b.1 = false then s
  else if controlGood b.2 = false then badBlock s l
  else if (s.wel l).st ≠ .active then s
  else match leAt b.2 0 1 with
    | 1 => heard s l
    | 2 => if leAt b.2 2 1 < 16 then takeFence s l b.2 else s
    | 3 => takeWidth (heard s l) l (leAt b.2 1 1)
    | _ => s

/-- A link's receivers work: bits of the pattern, of IDLE or of traffic come. -/
def receiving (w : Wel) : Bool := w.st == .lock || w.st == .exchange || w.st == .active || w.st == .foreign

/-- The used lanes of a receiving direction, while the link is ACTIVE (R349). -/
def rxLanes (w : Wel) : List Nat := if w.st = .active then usedLanes (goodLanes w w.rxLocked) w.rxWidth else []

/-- The next row of the stream, when every used lane has brought its block of it; where some lanes have come to ALIGN, the others go on
to it (R349). The blocks have their effect in order. -/
def mergeRow (s : State) (l : Nat) : Option State :=
  let heads := (rxLanes (s.wel l)).map (fun i => (i, (s.laneRx l i).held.head?))
  let marks (e : Nat × Option LineBlock) : Bool := e.2 == some align
  if heads = [] ∨ heads.any (fun e => e.2.isNone) = true then none
  else
    let row := if heads.all marks then heads else heads.filter (fun e => !marks e)
    some (row.foldl (fun s e => e.2.elim s (fun b => takeBlock (popBlock s l e.1) l b)) s)

def mergeRows : (n : Nat) → State → (l : Nat) → State
  | 0, s, _ => s
  | n + 1, s, l => match mergeRow s l with
    | some s => mergeRows n s l
    | none => s

/-- Blocks that a lane gives: those of one of several used lanes are deskewed and merged with the others' first (R349;
notes/assumptions/140.md). -/
def takeBlocks (s : State) (l lane : Nat) (bs : List LineBlock) : State :=
  let lanes := rxLanes (s.wel l)
  if lanes.length ≤ 1 ∨ lanes.contains lane = false then bs.foldl (fun s b => takeBlock s l b) s
  else
    let s := holdBlocks s l lane bs
    mergeRows (sumNat (lanes.map (fun i => (s.laneRx l i).held.length))) s l

/-- Bits come on a lane that is locked: what they bring has its effect, in order, and the lane may lose its lock. -/
def lockedLane (s : State) (l lane : Nat) (bits : List Bool) : State :=
  if receiving (s.wel l) && (s.wel l).rxLocked.testBit lane then
    let (bs, s) := lineIn s l lane bits
    let s := takeBlocks s l lane bs
    if (s.wel l).rxLocked.testBit lane && !laneReady (s.laneRx l lane) then laneLost s l lane else s
  else s

/-- WELOND_LOCK (R353): bits come on a sensing lane that is not locked yet; bit lock and then block or symbol lock lock it, and the
first lane of an attempt starts EXCHANGE. The first bit lock of an attempt is noted. -/
def execWelondLock (l : Fin 2) (lane : Fin 8) (bits : List Bool) (s : State) : Host.Outcome State Fault Refusal :=
  let w := s.wel l.val
  if (w.st ≠ .lock ∧ w.st ≠ .exchange) ∨ w.sensing.testBit lane.val = false ∨ w.rxLocked.testBit lane.val = true then .next s
  else
    let s := (lineIn s l.val lane.val bits).2
    let w := s.wel l.val
    let w := { w with bitAt := if (s.laneRx l.val lane.val).bit && w.bitAt.isNone then some s.ref else w.bitAt }
    if laneReady (s.laneRx l.val lane.val) then
      .next (s.setWel l.val { w with
        rxLocked := w.rxLocked ||| 1 <<< lane.val, st := .exchange,
        exchange := if w.st = .lock then some s.ref else w.exchange })
    else .next (s.setWel l.val w)

/-- WELOND_LANE_LOCK_LOSS (R348, R350, R357): `bits` are those in which a locked lane loses its lock. -/
def execWelondLaneLockLoss (l : Fin 2) (lane : Fin 8) (bits : List Bool) (s : State) : Host.Outcome State Fault Refusal :=
  .next (lockedLane s l.val lane.val bits)

/-- WIDTH_BLOCK_RECEIVE (R351, R357): the bits of a lane up to a WIDTH block. -/
def execWidthBlockReceive (l : Fin 2) (lane : Fin 8) (bits : List Bool) (s : State) : Host.Outcome State Fault Refusal :=
  .next (lockedLane s l.val lane.val bits)

/-- FENCE_BLOCK_RECEIVE (R351, R364): the bits of a lane up to a FENCE block. -/
def execFenceBlockReceive (l : Fin 2) (lane : Fin 8) (bits : List Bool) (s : State) : Host.Outcome State Fault Refusal :=
  .next (lockedLane s l.val lane.val bits)

/-! ### Packets (R351, R352) -/

/-- The blocks of a packet come, from its SOP to its EOP, with the control blocks among them: those that fail are counted, the others
have their effect. A packet that fails is counted, and one of another channel, or with a reserved bit that is not 0 (R7), says
nothing. -/
def packetIn (s : State) (l channel : Nat) (blocks : List LineBlock) : Option (List Byte) × State :=
  let s := blocks.foldl (fun s b => takeBlock s l b) s
  match packetPayload blocks with
  | none => (none, countBadPacket s l)
  | some p => (if sopReserved blocks || sopChannel blocks != channel then none else some p, s)

/-- CAPABILITY_RECEIVE (R352, R354, R355): the blocks of a packet of channel 3. -/
def execCapabilityReceive (l : Fin 2) (blocks : List (Bool × List Byte)) (s : State) : Host.Outcome State Fault Refusal :=
  if (s.wel l.val).st ≠ .exchange ∧ (s.wel l.val).st ≠ .foreign then .next s
  else match packetIn s l.val 3 blocks with
    | (none, s) => .next s
    | (some payload, s) => match capabilityOf payload with
      | none => .next s
      | some m => if m.ver = 1 then .next (takeCapability s l.val m) else .next s

/-- FENCE_BLOCK_PERIODIC: once every 1,024 block slots. -/
def execFenceBlockPeriodic (l : Fin 2) (s : State) : Host.Outcome State Fault Refusal :=
  let w := s.wel l.val
  if w.st = .active ∧ w.fenceAt + slotsT w.rateCode 1024 ≤ s.welT then
    .next (sendFence (s.setWel l.val { w with fenceAt := s.welT }) l.val (ownFences s) s.ring.device 0)
  else .next s

/-! ### Tide messages (R367) -/

/-- Each ACTIVE link sends a tide message, with the PAN time at which it departs, and its sending direction widens if it may (R358, R367). -/
def tideMessages (s : State) : State :=
  (List.range 2).foldl (fun s l =>
    let w := s.wel l
    if w.st = .active then
      let e := w.lastTide.elim [] (fun x => [x.1, x.2])
      widenTx (sendOpen s l 4 ([s.tide.count, s.pt] ++ e)) l
    else s) s

/-- TIDE_MESSAGE_RECEIVE: `echo` is the departure and arrival, at the partner, of the last message that it received from
here. The difference is the outward delay less the delay back (notes/assumptions/44.md). -/
def execTideMessageReceive (l : Fin 2) (blocks : List (Bool × List Byte)) (count depart : Nat) (echo : Option (Nat × Nat)) (s : State) :
    Host.Outcome State Fault Refusal :=
  if (s.wel l.val).st ≠ .active then .next s
  else match packetIn s l.val 3 blocks with
  | (none, s) => .next s
  | (some _, s) =>
    let s := widenRx (heard s l.val) l.val
    let w := { s.wel l.val with lastTide := some (depart, s.pt) }
    let s := match echo with
      | none => s.setWel l.val w
      | some (d, a) =>
        let diff : Int := ((a : Int) - d) - ((s.pt : Int) - depart)
        let run := if 2 * (usT : Int) < diff ∨ diff < -(2 * (usT : Int)) then w.skewRun + 1 else 0
        let skew := roundHalfUp diff (2 * nsT)
        let s := s.setWel l.val { w with tideSkew := skew, skewRun := run }
        if 3 ≤ run then raiseErr s 0x0060 l.val (unsigned 32 skew) 0 else s
    .next (checkCounts s l.val count 0)

end Sys2Proof.Machine
end

