-- ==== Sys2Proof/Machine/Mirrors.lean ====
section
/-! DEFINITION. Mirrors on Welond (spec/13 R360 to R363): requests, mirror sets, the sending of buffers, and their reception or
forwarding. -/

namespace Sys2Proof.Machine

/-! ### Requests (R361, R363) -/

/-- The mirror that a request asks for. -/
def askedMirror (a : MirrorAsk) : Mirror :=
  ⟨a.device, a.context, a.origin, a.compress, a.priority, if a.compress then a.compKbs else a.rateKbs, false, none, false⟩

def sameMirror (a b : Mirror) : Bool :=
  a.device == b.device && a.context == b.context && a.originDevice == b.originDevice

/-- A mirror joins a link; one that is asked for again keeps its buffer. -/
def addMirror (s : State) (l : Nat) (m : Mirror) : State :=
  let w := s.wel l
  let old := (w.mirrors.find? (sameMirror m)).bind (·.waiting)
  let others := w.mirrors.filter (fun x => !sameMirror m x)
  admitMirrors (s.setWel l { w with mirrors := others ++ [{ m with waiting := old, lost := mirrorLost s m }] }) l

/-- What a device sends to another passes through this one (R363): forwards over each WL_0 when the hops are equal (R343). -/
def onPath (s : State) (origin dest : Nat) : Bool :=
  let n := s.ring.ring + 1
  let d := s.ring.device
  let ahead (a b : Nat) : Nat := (b + n - a % n) % n
  if ahead origin dest ≤ ahead dest origin then decide (ahead origin d ≤ ahead origin dest)
  else decide (ahead d origin ≤ ahead dest origin)

/-- A link leads to a device in no more hops than to another. -/
def leadsTo (s : State) (l dest other : Nat) : Bool :=
  decide (hopsVia s (s.wel l).partner dest ≤ hopsVia s (s.wel l).partner other)

/-- MIRROR_REQUEST: a mirror of this device is sent towards the device that asks, and the request goes on over the link that the data
takes, when it came over the other one, so that the devices on the data's way learn of it (DESIGN CHOICE:
notes/assumptions/141.md). Another device's mirror is asked for further on, and its demand counts on the link on which its data
leaves. -/
def execMirrorRequest (l : Fin 2) (blocks : List (Bool × List Byte)) (a : MirrorAsk) (s : State) : Host.Outcome State Fault Refusal :=
  if (s.wel l.val).st ≠ .active then .next s
  else match packetIn s l.val 3 blocks with
  | (none, s) => .next s
  | (some _, s) =>
    let s := heard s l.val
    if a.origin = s.ring.device then
      let k := (linkTo s a.device).getD l.val
      let s := addMirror s k (askedMirror a)
      .next (if k = l.val then s else sendAsk s k a)
    else if a.device = s.ring.device then .next s
    else
      let out := if leadsTo s l.val a.device a.origin then l.val else 1 - l.val
      let s := if onPath s a.origin a.device then addMirror s out (askedMirror a) else s
      if (s.wel (1 - l.val)).st = .active then .next (sendAsk s (1 - l.val) a) else .next s

/-! ### Mirror sets (R360) -/

/-- A PEER context's mirror is held, or admitted again: then NEVER stays until its next buffer (R360). -/
def setHeld (s : State) (n : Nat) (held : Bool) : State :=
  let c := s.ctx n
  if c.mirrorHeld = held then s
  else s.setCtx n { c with mirrorHeld := held, never := c.never || c.mirrorHeld }

/-- MIRROR_SET_RECEIVE: `held` are the mirrors held, by origin device and context. -/
def execMirrorSetReceive (l : Fin 2) (blocks : List (Bool × List Byte)) (held : List (Nat × Nat)) (s : State) :
    Host.Outcome State Fault Refusal :=
  if (s.wel l.val).st ≠ .active then .next s
  else match packetIn s l.val 3 blocks with
  | (none, s) => .next s
  | (some _, s) =>
    let s := heard s l.val
    let s := s.setWel l.val { s.wel l.val with remoteHeld := held }
    let s := (s.ctxs.map (·.1)).foldl (fun s n =>
      let p := (s.ctx n).p
      if (s.ctx n).state = .opened ∧ p.type = 3 ∧ linkFrom s p.originDevice = some l.val then
        setHeld s n (held.contains (p.originDevice, p.originContext))
      else s) s
    let passed := (s.wel (1 - l.val)).mirrors.any (fun m => m.originDevice != s.ring.device)
    if passed && (s.wel (1 - l.val)).st == .active then .next (sendMirrorSet s (1 - l.val)) else .next s

/-! ### Sending (R361) -/

/-- Bytes of a buffer of a context. -/
def bufBytes (p : CtxParams) : Nat := bufExtent p.format p.height p.plane1 p.stride0 p.stride1

/-- The crystallizer's settings for a mirrored buffer of `n` bytes (R361). -/
def mirrorCoder (p : CtxParams) (n : Nat) : CrysParams :=
  ⟨false, p.format == 0x10 || p.format == 0x11, false, 64, p.width, 0, n, 2 * n + 65536, 0, 0, 0, 0⟩

/-- What a mirror sends of a buffer: its bytes, read under the link's identity, or coded by a crystallizer lane of the Welond use
since the buffer completed, and read under the crystallizer's (R292, R293); none while the lane has not done so
(notes/assumptions/45.md). -/
def mirrorBytes (s : State) (l n k : Nat) (coded : Bool) : Option (List Byte × State) :=
  let c := s.ctx n
  let len := bufBytes c.p
  if coded then
    let (d, _, s) := classRead s 0x2E idCrys (bufAddr c k) len
    let r := compress (mirrorCoder c.p len) [] d {} (2 * len + 65536)
    (laneDone s 1 (c.buf k).visible (len + 16 * r.blocks)).map (fun s => (r.out.reverse, s))
  else
    let (d, _, s) := classRead s (0x33 + l) (17 + l) (bufAddr c k) len
    some (d, s)

def recordFields (r : FreshRecord) : List Nat :=
  [r.capNs, r.capS, r.alive, r.aliveRun, r.contentRun, r.goodRun, r.causes, r.seq]

/-- The packets of a buffer, 8,192 bytes each, then its record: DEST, SRC, context, then offset and bytes, or the record. -/
def sendBuffer (s : State) (l : Nat) (m : Mirror) (data : List Byte) (r : FreshRecord) : State :=
  let s := ((chunks 8192 data.length data).zipIdx).foldl (fun s e =>
    sendOpen s l 9 ([m.device, s.ring.device, m.context, 0, 8192 * e.2] ++ e.1.map (·.toNat))) s
  sendOpen s l 9 ([m.device, s.ring.device, m.context, 1] ++ recordFields r)

/-- A mirror whose buffer waits sends it, and its pin ends. -/
def sendMirror (s : State) (l : Nat) (m : Mirror) (k : Nat) : State :=
  match mirrorBytes s l m.context k m.compress with
  | none => s
  | some (data, t) =>
    let t := sendBuffer t l m data ((s.ctx m.context).buf k).record
    let w := t.wel l
    t.setWel l { w with mirrors := w.mirrors.map (fun x => if sameMirror m x then { x with waiting := none } else x) }

/-- MIRROR_BUFFER_SEND: the buffer that waits leaves. -/
def execMirrorBufferSend (l : Fin 2) (context : Fin 192) (s : State) : Host.Outcome State Fault Refusal :=
  let w := s.wel l.val
  let waits (m : Mirror) : Bool := m.context == context.val && m.originDevice == s.ring.device && m.waiting.isSome
  match w.st, w.mirrors.find? waits with
  | .active, some m => .next (m.waiting.elim s (sendMirror s l.val m))
  | _, _ => .next s

/-! ### Receiving (R362) -/

/-- PEER contexts that a mirror feeds. -/
def peersOf (s : State) (origin context : Nat) : List Nat :=
  (s.ctxs.filter (fun e => e.2.state == .opened && e.2.p.type == 3 && !e.2.isolated && e.2.p.originDevice == origin &&
    e.2.p.originContext == context)).map (·.1)

/-- The frame of a PEER context is in progress. -/
def peerFrame (s : State) (n : Nat) : State :=
  if (s.ctx n).frame.isSome then s else takeTarget s n (emptyFrame s n 0 0 s.tb)

/-- The origin sends the context crystallizer-coded. -/
def peerCoded (s : State) (p : CtxParams) : Bool := (mirrorAsk s p).compress

/-- The frame of a PEER context whose record has not come gives up its buffer. -/
def dropPeerFrame (s : State) (n : Nat) : State :=
  match (s.ctx n).frame with
  | some f =>
    let s := match f.target with
      | some k => dropBuf s n k
      | none => s
    s.setCtx n { s.ctx n with frame := none }
  | none => s

/-- A packet's offset does not follow those that came: it is of a later buffer, and the record between was lost (notes/assumptions/142.md). -/
def nextBuffer (c : Ctx) (offset : Nat) : Bool :=
  c.frame.elim false (fun f => f.covered.any (fun e => decide (offset ≤ e.2.1)) || f.payload.any (fun e => decide (offset ≤ e.1)))

/-- A data packet: written to the target, or kept for decoding. -/
def peerData (l : Nat) (s : State) (n offset : Nat) (bytes : List Byte) : State :=
  let s := peerFrame (if nextBuffer (s.ctx n) offset then dropPeerFrame s n else s) n
  let c := s.ctx n
  match c.frame with
  | none => s
  | some f => match f.target with
    | none => s
    | some k =>
      if peerCoded s c.p then s.setCtx n { c with frame := some { f with payload := f.payload ++ [(offset, bytes)] } }
      else
        let b := bytes.take (bufBytes c.p - offset)
        let s := (classWrite s (0x33 + l) (17 + l) (bufAddr c k + offset) b (.ring n k)).2
        s.setCtx n { s.ctx n with frame := some { f with covered := f.covered ++ [(0, offset, b.length)] } }

/-- The byte ranges from `at_` up to `n` that no packet covers. -/
def uncoveredFrom : (l : List (Nat × Nat)) → (at_ n : Nat) → List (Nat × Nat)
  | [], at_, n => if at_ < n then [(at_, n - at_)] else []
  | (o, k) :: r, at_, n => (if at_ < o then [(at_, o - at_)] else []) ++ uncoveredFrom r (max at_ (o + k)) n

/-- What a coded buffer's packets give from its start: the bytes that whole blocks decode to, and the CORE cycles of a lane. -/
def decodedPeer (p : CtxParams) (l : List (Nat × List Byte)) : List Byte × Nat :=
  let sorted := l.foldl (fun acc e => insertBy (fun (x : Nat × List Byte) => x.1) e acc) []
  let stream := sorted.foldl (fun (acc : List Byte) e => if e.1 = acc.length then acc ++ e.2 else acc) []
  let q := mirrorCoder p 0
  let r := decompress q.filter q.row 65536 stream.length stream {} (bufBytes p)
  (if r.ended = 1 then r.out.reverse else (r.out.reverse).take r.mark.2, r.cycles)

/-- A lane of the Welond use decodes what has come of a coded buffer, which is written under the link's identity (R292, R362), and
when that ends; without such a lane nothing of it is there. -/
def peerDecode (s : State) (l n k : Nat) (f : Frame) : List Byte × Ticks × State :=
  let c := s.ctx n
  let (data, cycles) := decodedPeer c.p f.payload
  match laneEnd s 1 s.ref cycles with
  | none => ([], s.ref, s)
  | some (t, s) => (data, t, (classWrite s (0x33 + l) (17 + l) (bufAddr c k) data (.ring n k)).2)

/-- The record of a buffer (R362): what is missing is copied or black and the buffer bears LOSS; it completes as R226 gives. -/
def peerRecord (l : Nat) (s : State) (n : Nat) (r : FreshRecord) : State :=
  let s := peerFrame s n
  let c := s.ctx n
  match c.frame with
  | none => s
  | some f =>
    let s := s.setCtx n { c with frame := none }
    match f.target with
    | none => s
    | some k =>
      let coded := peerCoded s c.p
      let (data, end_, s) := if coded then peerDecode s l n k f else ([], s.ref, s)
      let have_ := if coded then [(0, data.length)]
        else f.covered.foldl (fun acc e => insertBy (fun (x : Nat × Nat) => x.1) e.2 acc) []
      let miss := uncoveredFrom have_ 0 (bufBytes c.p)
      let q : Closing := {
        target := k, fill := f.fill, capNs := r.capNs, capS := r.capS, alive := none, binds := f.binds,
        checkAt := end_, at_ := end_, causes := b2n (miss != []), gaps := [], tiles := [], comparing := none, good := none,
        content := none, zeroDirty := false, poison := false, peer := some r,
        dgsFrame := none, ranges := miss }
      s.setCtx n { s.ctx n with closing := (s.ctx n).closing ++ [q] }

/-- A packet for another device (R363): passed on, unless its mirror is held on the other link. -/
def forwardPacket (s : State) (l : Nat) (p : MirrorPacket) : State :=
  let w := s.wel (1 - l)
  let held := w.mirrors.any (fun m => m.device == sopDest p.blocks && m.originDevice == sopSrc p.blocks &&
    m.context == p.originContext && !m.admitted)
  if w.st ≠ .active ∨ held then s
  else sendBlocks (s.emit (.passed (1 - l) (packetOnly p.blocks))) (1 - l) (packetOnly p.blocks)

/-- MIRROR_PACKET_RECEIVE: a packet whose EOP fails or whose blocks are out of order is counted (R352). -/
def execMirrorPacketReceive (l : Fin 2) (p : MirrorPacket) (s : State) : Host.Outcome State Fault Refusal :=
  if (s.wel l.val).st ≠ .active then .next s
  else match packetIn s l.val 0 p.blocks with
  | (none, s) => .next s
  | (some _, s) =>
    let s := heard s l.val
    if sopDest p.blocks ≠ s.ring.device then .next (forwardPacket s l.val p)
    else
      let ns := peersOf s (sopSrc p.blocks) p.originContext
      match p.body with
      | .data o b => .next (ns.foldl (fun s n => peerData l.val s n o b) s)
      | .record r => .next (ns.foldl (fun s n => peerRecord l.val s n r) s)

end Sys2Proof.Machine
end

