-- ==== Sys2Proof/Machine/Sessions.lean ====
section
/-! DEFINITION. Sessions (spec/15 R408 to R417) and the debug port (spec/16 R441, R442, spec/15 R411, spec/14 R393): HELLO, PROVE,
CLOSE, ROLE_QUERY, DEBUG_UNLOCK, the debug port's rows, and the expiry of sessions, tokens and approvals. -/

namespace Sys2Proof.Machine

/-! ### HELLO and PROVE (R412, R413, R426) -/

/-- HELLO and PROVE need no session, and their responses carry no tag. Over the sluice they are dropped while 16 commands are
visible (R430). -/
def openCommand (c : Caller) (code : Nat) (run : State → Reply) (s : State) : State :=
  match c.via with
  | .image _ => s
  | .sluice p _ _ =>
    if released s && decide (16 ≤ s.running.length) then sluiceDropped s p.val
    else arrive c code s (fun s => complete c code none (run s))
  | _ => arrive c code s (fun s => complete c code none (run s))

def boundTo (s : State) (b : Binding) : Bool := s.sessions.any (fun e => e.2.binding == b)

/-- Slots that a transport may take (R408). -/
def slotLimit (s : State) : Via → Nat
  | .sluice .. => 8
  | _ => 8 - s.cfg.sluiceReserve

def isMailbox : Via → Bool
  | .mailbox _ => true
  | _ => false

/-- HELLO (R412). LIMIT_REACHED on a mailbox that holds a session already is no refusal for want of a slot, and the sessions' counter
of R458 does not rise (DESIGN CHOICE: the spec does not say; notes/assumptions/145.md). -/
def cmdHello (c : Caller) (p : HelloP) (s : State) : Reply :=
  match bindingOf c.via with
  | none => refuse s stNotAuth
  | some b =>
    if isMailbox c.via && boundTo s b then refuse s stLimit
    else match tfree s.sessions (slotLimit s c.via) with
      | none => refuseFull s stLimit 9
      | some n =>
        if 7 < p.keySlot then refuse s stBadParam
        else if s.ref < (s.keySlot p.keySlot).until_ then refuse s stBusy
        else if (s.keySlot p.keySlot).key = none then refuse s stBadParam
        else
          let (nd, s) := s.drawBytes 16
          let s := s.setSession n
            { isOpen := false, keySlot := p.keySlot, binding := b, nc := slice p.nc 0 16, nd := nd, at_ := s.ref }
          ok s ([byte n, 0#8, 0#8, 0#8] ++ nd)

def execHello (c : Caller) (p : HelloP) (s : State) : Host.Outcome State Fault Refusal :=
  .next (openCommand c 0x0101 (cmdHello c p) s)

/-- The client's proof, the device's proof, and the session key (R413). -/
def proofOf (k nc nd : List Byte) (slot key : Nat) : List Byte :=
  hmacSha256 k (labelGwj 0x43 ++ nc ++ nd ++ [byte slot, byte key])
def deviceProof (k nc nd : List Byte) (slot key : Nat) : List Byte :=
  hmacSha256 k (labelGwj 0x44 ++ nd ++ nc ++ [byte slot, byte key])
def sessionKey (k nc nd : List Byte) (slot : Nat) : List Byte := hkdf32 k (nc ++ nd) (labelGwj 0x53 ++ [byte slot])

/-- Back-off after one more failure, in seconds (R413). -/
def nextBackoff (b : Nat) : Nat := if b = 0 then 1 else min 64 (2 * b)

/-- A wrong proof: the slot is freed and the key slot backs off. -/
def proofFailed (s : State) (slot key : Nat) : State :=
  let s := endSession s slot 5
  let k := s.keySlot key
  let b := nextBackoff k.backoff
  s.setKeySlot key { k with backoff := b, until_ := s.ref + b * secT }

/-- The session opens. -/
def openSlot (s : State) (slot : Nat) (x : Session) (k : List Byte) (claim : Bool) : State :=
  let s := s.setSession slot { x with
    isOpen := true, key := sessionKey k x.nc x.nd slot, lastSeq := 0, badTags := 0, at_ := s.ref }
  let s := s.setKeySlot x.keySlot { s.keySlot x.keySlot with backoff := 0, until_ := 0 }
  let s := if claim then { s with hwbIdent := 1 + slot } else s
  postSession s slot x.keySlot 0 (transportOf x.binding)

def proveResponse (s : State) (slot : Nat) (x : Session) (k : List Byte) : List Byte :=
  deviceProof k x.nc x.nd slot x.keySlot ++ [byte (roleOfKey s x.keySlot), 0#8, 0#8, 0#8] ++ leBytes 2 s.cfg.idleS ++ zeros 2

def cmdProve (c : Caller) (p : ProveP) (s : State) : Reply :=
  match tfind s.sessions c.slot with
  | none => refuse s stNotAuth
  | some x =>
    let late := decide (x.at_ + 1 * secT ≤ s.ref)
    if x.isOpen || some x.binding != bindingOf c.via || late then refuse s stNotAuth
    else
      let k := ((s.keySlot x.keySlot).key).getD []
      if p.proof ≠ proofOf k x.nc x.nd c.slot x.keySlot then ⟨proofFailed s c.slot x.keySlot, stBadTag, []⟩
      else if p.claimHwb && (!isMailbox c.via || s.hwbIdent != 0) then refuse s stBusy
      else ok (openSlot s c.slot x k p.claimHwb) (proveResponse s c.slot x k)

def execProve (c : Caller) (p : ProveP) (s : State) : Host.Outcome State Fault Refusal :=
  .next (openCommand c 0x0102 (cmdProve c p) s)

/-! ### CLOSE and ROLE_QUERY (R416, R417) -/

def cmdClose (c : Caller) (s : State) : Reply := ok (endSession s c.slot 1)

def execClose (c : Caller) (s : State) : Host.Outcome State Fault Refusal := .next (command c 0x0103 (cmdClose c) s)

/-- Bit s set when slot s is open or half-open. -/
def openMask (s : State) : Nat := maskOf ((s.sessions.map (·.1)).filter (fun n => decide (n < 8)))

/-- Whole seconds of idle time left. -/
def idleLeft (s : State) (x : Session) : Nat := (x.at_ + s.cfg.idleS * secT - s.ref) / secT

def cmdRoleQuery (c : Caller) (s : State) : Reply :=
  match tfind s.sessions c.slot with
  | none => refuse s stNotAuth
  | some x =>
    ok s ([byte (c.slot % 8 + 8 * (x.keySlot % 8) + 64 * (roleOfKey s x.keySlot % 4)), byte (transportOf x.binding),
      byte (openMask s), 0#8] ++ leBytes 4 x.lastSeq ++ leBytes 2 (idleLeft s x) ++ zeros 2)

def execRoleQuery (c : Caller) (s : State) : Host.Outcome State Fault Refusal := .next (command c 0x0104 (cmdRoleQuery c) s)

/-! ### Expiries (R412, R416, R418) -/

/-- HALF_OPEN_EXPIRY: 1 s after HELLO. -/
def execHalfOpenExpiry (slot : Fin 8) (s : State) : Host.Outcome State Fault Refusal :=
  match tfind s.sessions slot.val with
  | some x => if !x.isOpen && decide (x.at_ + secT ≤ s.ref) then .next (endSession s slot.val 1) else .next s
  | none => .next s

/-- SESSION_IDLE_TIMEOUT: IDLE_S seconds without an accepted command. -/
def execSessionIdleTimeout (slot : Fin 8) (s : State) : Host.Outcome State Fault Refusal :=
  match tfind s.sessions slot.val with
  | some x =>
    if x.isOpen && decide (x.at_ + s.cfg.idleS * secT ≤ s.ref) then .next (endSession s slot.val 2) else .next s
  | none => .next s

/-- APPROVAL_EXPIRY: 30 s after its creation. -/
def execApprovalExpiry (skim : Nat) (s : State) : Host.Outcome State Fault Refusal :=
  .next (dropApprovals s (fun a => a.skim == skim && decide (a.at_ + 30 * secT ≤ s.ref)) 2)

/-! ### DEBUG_UNLOCK and the debug port (R441, R442) -/

/-- A debug session is open or a token awaits its probe. -/
def debugBusy (s : State) : Bool := s.debug != .closed

def cmdDebugUnlock (c : Caller) (p : DebugUnlockP) (s : State) : Reply :=
  if !isMailbox c.via then (if (s.keySlot 0).key = none then ok s (if p.open_ then zeros 16 else []) else refuse s stRoleDenied)
  else if (s.keySlot 0).key = none then ok s (if p.open_ then zeros 16 else [])
  else if p.open_ then
    if debugBusy s then refuse s stBusy
    else if p.durationS < 60 ∨ 86400 < p.durationS then refuse s stBadParam
    else
      let (t, s) := s.drawBytes 16
      ok { s with debug := .awaiting (leNat t) c.slot p.durationS s.ref } t
  else if p.durationS ≠ 0 then refuse s stBadParam
  else match s.debug with
    | .opened .. => ok (endDebug s c.slot)
    | _ => ok s

def execDebugUnlock (c : Caller) (p : DebugUnlockP) (s : State) : Host.Outcome State Fault Refusal :=
  .next (command c 0x0F04 (cmdDebugUnlock c p) s)

/-- DEBUG_PROBE_TOKEN: the token, little-endian, opens the debug session within 60 s. -/
def execDebugProbeToken (token : BitVec 128) (s : State) : Host.Outcome State Fault Refusal :=
  match s.debug with
  | .awaiting t o d a =>
    if token.toNat = t ∧ s.ref < a + 60 * secT then
      .next (raiseErr { s with debug := .opened o d s.ref } 0x0082 o 1 d)
    else .next s
  | _ => .next s

/-- DEBUG_TOKEN_EXPIRY: 60 s without its token. -/
def execDebugTokenExpiry (s : State) : Host.Outcome State Fault Refusal :=
  match s.debug with
  | .awaiting _ _ _ a => if a + 60 * secT ≤ s.ref then .next { s with debug := .closed } else .next s
  | _ => .next s

/-- DEBUG_SESSION_EXPIRY: DURATION_S seconds. -/
def execDebugSessionExpiry (s : State) : Host.Outcome State Fault Refusal :=
  match s.debug with
  | .opened _ d a => if a + d * secT ≤ s.ref then .next (endDebug s 0xFF) else .next s
  | _ => .next s

/-- DEBUG_ACCESS: an access under the DEBUG identity, best-effort (R28 names no class for it; DESIGN CHOICE,
notes/assumptions/110.md). -/
def execDebugAccess (addr : Nat) (op : MemOp) (s : State) : Host.Outcome State Fault Refusal :=
  if released s = false then .next s
  else match op with
    | .read n =>
      let (l, s) := classPieces s 0x3F 16 addr n
      .next (l.foldl (fun s p =>
        s.emit (if p.denied then .denied 16 p.addr p.data else .burst 16 p.addr p.data p.poison)) s)
    | .write d =>
      let (denied, bad, s) := classStore s 0x3F 16 addr d .plain {}
      .next (if denied then s else s.emit (.acked 16 addr bad))

/-- KEY_PROGRAM: a key slot takes its key once, through a debug port that needs no session or has one (R411). -/
def execKeyProgram (slot : Fin 8) (key : List Byte) (s : State) : Host.Outcome State Fault Refusal :=
  if debugOpen s && (s.keySlot slot.val).key.isNone then
    .next (s.setKeySlot slot.val { s.keySlot slot.val with key := some (slice key 0 32) })
  else .next s

end Sys2Proof.Machine
end

