-- ==== Sys2Proof/Machine/Coded.lean ====
section
/-! DEFINITION. Coded streams as the decode engines take them (spec/08 R229 to R236, R246): which streams are supported, the kinds of
access units, the output process, and the layout of reference slots. PRESUMED from ITU-T H.264 and H.265: NAL unit types, profile
and level codes, MaxDpbMbs, and the output process (notes/assumptions/124.md). -/

namespace Sys2Proof.Machine

/-! ### Access units (R230, R244, R249) -/

/-- The codec of a context (R253): 0 HEVC, 1 AVC. -/
def codecOf (c : Ctx) : Nat := c.attach.elim 0 (·.codec)

/-- The units that the engines decode: those of the base layer or view (R230). -/
def baseUnits (codec : Nat) (l : List Nat) : List Nat :=
  if codec = 0 then l.filter (fun h => hevcLayer h == 0)
  else l.filter (fun h => avcType h != 14 && avcType h != 15 && avcType h != 20)

/-- The first slice of an access unit's picture. -/
def firstSlice (codec : Nat) (u : AccessUnit) : Option Nat :=
  (baseUnits codec u.nals).find? (fun h => if codec = 0 then decide (hevcType h < 32) else within 1 5 (avcType h))

def sliceIs (codec : Nat) (u : AccessUnit) (hevc avc : Nat → Bool) : Bool :=
  (firstSlice codec u).elim false (if codec = 0 then hevc else avc)

/-- A random-access access unit: its first picture is an HEVC IRAP or an AVC IDR picture (R244). -/
def isRandom (codec : Nat) (u : AccessUnit) : Bool :=
  sliceIs codec u (fun h => within 16 23 (hevcType h)) (fun h => avcType h == 5)

/-- An HEVC RASL picture (R249). -/
def isRasl (codec : Nat) (u : AccessUnit) : Bool := sliceIs codec u (fun h => within 8 9 (hevcType h)) (fun _ => false)

/-- A picture that no later one can reference (R244). -/
def nonReference (codec : Nat) (u : AccessUnit) : Bool :=
  sliceIs codec u (fun h => decide (hevcType h < 16) && hevcType h % 2 == 0) (fun h => field h 13 2 == 0)

/-- A picture at which the standard's decoding starts anew: an IDR or BLA picture, or the CRA picture that decoding starts at. -/
def restarts (codec : Nat) (seeking : Bool) (u : AccessUnit) : Bool :=
  sliceIs codec u (fun h => within 16 20 (hevcType h) || (seeking && isRandom codec u)) (fun h => avcType h == 5)

/-! ### Supported streams (R229 to R232, R235) -/

def depthOk (ten : Bool) (d : Nat) : Bool := d == 8 || (ten && d == 10)

def hevcOk (x : StreamSet) : Bool :=
  within 1 3 x.profile && decide (x.level ≤ 180) && x.chroma == 1 && !x.extension && depthOk (x.profile == 2) x.depth &&
    depthOk (x.profile == 2) x.chromaDepth

def avcOk (x : StreamSet) : Bool :=
  ((x.profile == 66 && x.constraint1) || x.profile == 77 || x.profile == 100 || x.profile == 110) && decide (x.level ≤ 52) &&
    (x.chroma == 1 || (x.chroma == 0 && x.profile == 100)) && x.frames && !x.groups && !x.redundant &&
    depthOk (x.profile == 110) x.depth && (x.chroma == 0 || depthOk (x.profile == 110) x.chromaDepth)

/-- MaxDpbMbs of an AVC level; `b`: level_idc 11 stands for level 1b. -/
def maxDpbMbs (level : Nat) (b : Bool) : Nat :=
  if level ≤ 10 ∨ (level = 11 ∧ b = true) then 396 else if level ≤ 11 then 900 else if level ≤ 20 then 2376 else if level ≤ 21 then 4752
  else if level ≤ 30 then 8100 else if level ≤ 31 then 18000 else if level ≤ 32 then 20480 else if level ≤ 41 then 32768
  else if level ≤ 42 then 34816 else if level ≤ 50 then 110400 else 184320

/-- The decoded-picture-buffer size (R235): what the parameter set gives, else MaxDpbFrames. -/
def dpbSize (x : StreamSet) : Nat :=
  x.dpb.getD (min 16 (maxDpbMbs x.level (x.constraint3 && (x.profile == 66 || x.profile == 77)) / max 1 (x.codedW / 16 * (x.codedH / 16))))

/-- The reordering bound (R236). -/
def reorderOf (x : StreamSet) : Nat := x.reorder.getD (dpbSize x)

/-- The engines decode a stream with these parameter sets for a context (R229 to R232, R235). -/
def setOk (p : CtxParams) (a : Attach) (x : StreamSet) : Bool :=
  (if a.codec = 0 then hevcOk x else avcOk x) && x.codedW == p.width && x.codedH == p.height &&
    (p.format != 1 || (x.depth == 8 && (x.chroma == 0 || x.chromaDepth == 8))) && decide (dpbSize x + 2 ≤ a.pool)

/-! ### The output process (R236) -/

def undecided (l : List Picture) : List Picture := l.filter (fun p => p.decided.isNone)

/-- Decide to output the first undecided picture in output order. -/
def decideOne (now : Ticks) (l : List Picture) : List Picture :=
  modPicture (fun p => p.decided.isNone && (undecided l).all (fun q => decide (p.poc ≤ q.poc)))
    (fun p => { p with decided := some now }) l

/-- Decide to output while a condition holds. -/
def bumpWhile (now : Ticks) (cond : List Picture → Bool) : (fuel : Nat) → List Picture → List Picture
  | 0, l => l
  | f + 1, l => if cond l && undecided l != [] then bumpWhile now cond f (decideOne now l) else l

/-- More pictures wait than the reordering bound, or one has waited for the latency bound. -/
def overBound (x : StreamSet) (l : List Picture) : Bool :=
  decide (reorderOf x < (undecided l).length) ||
    (x.latency != 0 && (undecided l).any (fun p => decide (reorderOf x + x.latency - 1 ≤ p.latency)))

/-- Pictures fill the decoded picture buffer, but for that of buffer `own`: references, and those that wait for output. -/
def dpbFull (c : Ctx) (x : StreamSet) (own : Option Nat) (l : List Picture) : Bool :=
  decide (dpbSize x ≤ ((List.range (bufCount c)).filter (fun k =>
    own != some k && !(c.buf k).busy && ((c.buf k).refMark != 0 || (undecided l).any (fun p => p.buffer == k)))).length)

/-- The picture that completes next: the one decided on first, in output order. -/
def nextOut (l : List Picture) : Option Picture :=
  l.foldl (fun (b : Option Picture) p => match p.decided, b with
    | none, _ => b
    | some _, none => some p
    | some t, some q =>
      let u := q.decided.getD 0
      if t < u ∨ (t = u ∧ p.poc < q.poc) then some p else b) none

/-! ### References (R246, R248) -/

/-- Pool buffers of a context that hold references. -/
def refBuffers (c : Ctx) : List Nat := (List.range (bufCount c)).filter (fun k => (c.buf k).refMark != 0)

/-- The nearest reference in output order, the earlier one on a tie (R248). -/
def nearestRef (c : Ctx) (poc : Int) : Option Nat :=
  minBy (fun k => 2 * ((c.buf k).poc - poc).natAbs + b2n (decide (poc < (c.buf k).poc))) (refBuffers c)

/-- The reference of a picture order count, or its replacement when it is missing (R248). -/
def refOf (c : Ctx) (poc : Int) : Option Nat :=
  match (refBuffers c).find? (fun k => (c.buf k).poc == poc) with
  | some k => some k
  | none => nearestRef c poc

/-! ### The marking process of AVC (R233; PRESUMED: ITU-T H.264; notes/assumptions/124.md) -/

/-- FrameNumWrap of a short-term reference, which is its PicNum, for a picture of frame_num `cur`. -/
def frameNumWrap (bits cur : Nat) (b : Buf) : Int := if cur < b.frameNum then (b.frameNum : Int) - 2 ^ bits else b.frameNum

/-- The references that satisfy `p` become unused. -/
def unuse (p : Buf → Bool) (t : Tab Buf) : Tab Buf := tmap (fun _ b => if p b then { b with refMark := 0 } else b) t

/-- A memory management operation on the references of a picture of frame_num `cur`. -/
def runMmco (bits cur : Nat) (t : Tab Buf) : Mmco → Tab Buf
  | .unuseShort d => unuse (fun b => b.refMark == 1 && frameNumWrap bits cur b == (cur : Int) - d - 1) t
  | .unuseLong n => unuse (fun b => b.refMark == 2 && b.longIdx == n) t
  | .makeLong d n =>
    let it (b : Buf) : Bool := b.refMark == 1 && frameNumWrap bits cur b == (cur : Int) - d - 1
    tmap (fun _ b => if it b then { b with refMark := 2, longIdx := n } else b) (unuse (fun b => b.refMark == 2 && b.longIdx == n) t)
  | .limitLong n => unuse (fun b => b.refMark == 2 && decide (n ≤ b.longIdx)) t
  | .clear => unuse (fun _ => true) t
  | .currentLong n => unuse (fun b => b.refMark == 2 && b.longIdx == n) t

/-- The sliding window: with as many references as the parameter set allows, the oldest short-term one becomes unused. -/
def slideWindow (x : StreamSet) (cur : Nat) (t : Tab Buf) : Tab Buf :=
  let w (b : Buf) : Int := frameNumWrap x.frameNumBits cur b
  let short := t.filter (fun e => e.2.refMark == 1)
  if (t.filter (fun e => e.2.refMark != 0)).length < max 1 x.maxRefs then t
  else unuse (fun b => b.refMark == 1 && short.all (fun e => decide (w b ≤ w e.2))) t

/-- The picture's memory management operation 5. -/
def clearsRefs (h : PictureHead) : Bool := h.marking.elim false (·.contains .clear)

/-- The long-term index that the picture itself takes. -/
def ownLong (idr : Bool) (h : PictureHead) : Option Nat :=
  if idr then (if h.long then some 0 else none)
  else (h.marking.getD []).findSome? (fun o => match o with
    | .currentLong n => some n
    | _ => none)

/-- The references that a reference picture leaves, itself not counted. -/
def markAvc (idr : Bool) (h : PictureHead) (t : Tab Buf) : Tab Buf :=
  if idr then unuse (fun _ => true) t
  else match h.marking with
    | none => slideWindow h.set h.frameNum t
    | some l => l.foldl (runMmco h.set.frameNumBits h.frameNum) t

/-- Luma tiles and all tiles of a reference slot (R246). -/
def lumaTiles (p : CtxParams) : Nat := ceilDiv p.width 32 * ceilDiv p.height 8
def slotTiles (p : CtxParams) : Nat := lumaTiles p + ceilDiv p.width 32 * ceilDiv p.height 16

/-- The allocation of a tile, by the stream's bit depth (R246). -/
def tileAlloc (depth : Nat) : Nat := if depth = 8 then 256 else 512

/-- The byte ranges of a slot at `base` that hold the tiles `l` and their headers, with the units that each tile uses. -/
def tileRanges (p : CtxParams) (alloc base : Nat) (units : List Nat) (l : List Nat) : List (Nat × Nat) :=
  l.map (fun t => (base + alloc * t, 64 * nth 1 units t)) ++ l.map (fun t => (base + alloc * slotTiles p + t, 1))

/-- An area within the picture, grown to whole chroma samples. -/
def clipArea (p : CtxParams) (a : Area) : Area :=
  let x := min p.width (a.x / 2 * 2)
  let y := min p.height (a.y / 2 * 2)
  ⟨x, y, min p.width (ceilDiv (a.x + a.w) 2 * 2) - x, min p.height (ceilDiv (a.y + a.h) 2 * 2) - y⟩

/-- Tiles of a slot that hold an area: luma tiles of 32 × 8 samples, chroma tiles of 16 pairs × 8 lines. -/
def areaTiles (p : CtxParams) (a : Area) : List Nat :=
  let a := clipArea p a
  let cols := (List.range (ceilDiv p.width 32)).filter (fun i => decide (32 * i < a.x + a.w) && decide (a.x < 32 * i + 32))
  let rows (n h : Nat) : List Nat := (List.range n).filter (fun j => decide (h * j < a.y + a.h) && decide (a.y < h * j + h))
  (rows (ceilDiv p.height 8) 8).flatMap (fun j => cols.map (fun i => ceilDiv p.width 32 * j + i)) ++
    (rows (ceilDiv p.height 16) 16).flatMap (fun j => cols.map (fun i => lumaTiles p + ceilDiv p.width 32 * j + i))

/-- Lines of an area in a pool buffer: chroma or not, line, byte column, bytes. -/
def areaLines (p : CtxParams) (a : Area) : List (Bool × Nat × Nat × Nat) :=
  let a := clipArea p a
  let b := fmtBytes p.format
  (List.range a.h).map (fun i => (false, a.y + i, a.x * b, a.w * b)) ++
    (List.range (a.h / 2)).map (fun i => (true, a.y / 2 + i, a.x * b, a.w * b))

/-- Mid-grey bytes of a format (R248). -/
def greyBytes (f n : Nat) : List Byte := (List.replicate n (if f = 1 then [0x80#8] else leBytes 2 512)).flatten.take n

/-- `n` samples of free bytes as a context's format stores them (R232): an 8-bit sample v as it is, or as v × 4 under FORMAT 0x02. -/
def storeSamples (f depth : Nat) (l : List Byte) : List Byte :=
  if f = 1 then l
  else if depth = 8 then l.flatMap (fun b => leBytes 2 (4 * b.toNat))
  else (chunks 2 l.length l).flatMap (fun w => leBytes 2 (leNat w % 1024))

end Sys2Proof.Machine
end

