-- ==== Sys2Proof/Machine/Decode.lean ====
section
/-! DEFINITION. The decode engines (spec/08): DECODE_ATTACH, DECODE_PRIORITY, DECODE_STATS, and the rows DECODE_PICTURE_START,
DECODE_PICTURE_END, PICTURE_OUTPUT, DECODE_LAG_DISCARD and PICTURE_ABANDONED. -/

namespace Sys2Proof.Machine

/-! ### Load (R243, R253) -/

/-- The attached contexts, with their parameters. -/
def attachedCtxs (s : State) : List (Nat × CtxParams × Attach) :=
  s.ctxs.filterMap (fun e => if e.2.state = .opened then e.2.attach.map (fun a => (e.1, e.2.p, a)) else none)

/-- t(x) of R243: the CORE cycles of R240. -/
def pictureCost (p : CtxParams) (maxAu : Nat) : Nat := 3072 + ceilDiv (2 * (p.width * p.height)) 3 + maxAu

/-- k(x) of R243: pictures per tide. -/
def picturesPerTide (s : State) (maxRate : Nat) : Nat := ceilDiv (maxRate * s.tide.den) (s.tide.num * 1000)

/-- R243 over a list of attached contexts, at a tide rate. -/
def decodeFits (s : State) (l : List (CtxParams × Attach)) : Bool :=
  let d := 9998 * 100000 * s.tide.den / s.tide.num
  let t (x : CtxParams × Attach) : Nat := pictureCost x.1 x.2.maxAu
  let k (x : CtxParams × Attach) : Nat := picturesPerTide s x.2.maxRate
  let crit := l.filter (fun x => x.2.cls == 2)
  let c := sumNat (crit.map (fun x => k x * t x))
  let m := maxNat (crit.map t)
  let b := maxNat ((l.filter (fun x => x.2.cls != 2)).map t)
  decide (8 * b + c + 8 * m ≤ 8 * d) && crit.all (fun x => decide (b + k x * t x ≤ d))

/-- The sum of R253 in luma samples per 1,000 seconds. -/
def pixelLoad (l : List (CtxParams × Attach)) : Nat := sumNat (l.map (fun x => x.2.maxRate * (x.1.width * x.1.height)))

/-! ### Reference slots (R245, R246) -/

/-- Bytes that a reference slot needs (R246). -/
def refSlotBytes (p : CtxParams) : Nat :=
  slotTiles p * tileAlloc (if p.format = 1 then 8 else 10) + 64 * ceilDiv (slotTiles p) 64

/-- PRIORITY as commands have left it: the one that applies from the next random-access unit, else the present one (R254). -/
def wantsPriority (c : Ctx) : Bool := c.dec.nextPriority.getD (c.attach.elim false (·.priority))

/-- Attached contexts but one that have PRIORITY = 1 or will have it (R245, R254). -/
def priorityUsers (s : State) (except_ : Nat) : Nat :=
  (s.ctxs.filter (fun e => e.1 != except_ && e.2.state == .opened && e.2.attach.isSome &&
    (wantsPriority e.2 || e.2.attach.elim false (·.priority)))).length

/-! ### DECODE_ATTACH (R253) -/

/-- R229: the coded size is one of the codec's. -/
def codedOk (codec : Nat) (p : CtxParams) : Bool :=
  if codec = 0 then within 64 8192 p.width && within 64 4320 p.height && p.width % 8 == 0 && p.height % 8 == 0
  else within 64 4096 p.width && within 64 2304 p.height && p.width % 16 == 0 && p.height % 16 == 0

def attachFields (p : CtxParams) (a : Attach) : Bool :=
  decide (a.codec ≤ 1) && decide (a.cls ≤ 2) && within 3 32 a.pool && within 1000 240000 a.maxRate &&
    within 1024 (p.pitch / 2) a.maxAu && decide (a.lagMs < 65536) && decide (a.rtcpPort < 65536) && codedOk a.codec p &&
    (if a.priority then decide (refSlotBytes p ≤ a.refPitch) else a.refBase == 0 && a.refPitch == 0)

/-- Two byte ranges do not meet. -/
def apart (a n b m : Nat) : Bool := decide (a + n ≤ b) || decide (b + m ≤ a)

/-- R119 for the pool and the reference slots, and none of them meets another or the bitstream ring (R253). -/
def poolLayout (p : CtxParams) (a : Attach) : Bool :=
  let pb := a.pool * a.poolPitch
  let rb := if a.priority then a.pool * a.refPitch else 0
  ringLayoutOk p.format p.width p.height a.poolBase a.poolPitch p.plane1 p.stride0 p.stride1 &&
    a.refBase % 256 == 0 && a.refPitch % 256 == 0 && apart a.poolBase pb p.base p.pitch &&
    (rb == 0 || (apart a.refBase rb p.base p.pitch && apart a.refBase rb a.poolBase pb)) &&
    decide (a.poolBase + pb ≤ memTop) && decide (a.refBase + rb ≤ memTop)

/-- The regions let the decoders write and the pans read. -/
def poolAccess (s : State) (a : Attach) : Bool :=
  let ok (b n : Nat) : Bool := dykePermits s idDecoder b n true && dykePermits s idPan b n false
  ok a.poolBase (a.pool * a.poolPitch) && (!a.priority || ok a.refBase (a.pool * a.refPitch))

def pairs (s : State) : List (CtxParams × Attach) := (attachedCtxs s).map (·.2)

/-- Why DECODE_ATTACH is refused, with the refusal table that counts it (R8). -/
def attachFault (s : State) (n : Nat) (a : Attach) : Option (Nat × Nat) :=
  match openCtx s n with
  | none => some (stBadParam, 15)
  | some c =>
    if c.attach.isSome then some (stBusy, 15)
    else if c.p.type ≠ 1 ∨ attachFields c.p a = false ∨ poolLayout c.p a = false then some (stBadParam, 15)
    else if poolAccess s a = false then some (stDykeDenied, 15)
    else if a.priority = true ∧ 16 ≤ priorityUsers s n then some (stLimit, 14)
    else if 12000000000000 < pixelLoad ((c.p, a) :: pairs s) then some (stBudget, 15)
    else if decodeFits s ((c.p, a) :: pairs s) = false then some (stBudget, 15)
    else none

/-- The context is attached: its counters are clear and it seeks random access (R250, R255). -/
def attachCtx (s : State) (n : Nat) (a : Attach) : State :=
  let c := s.ctx n
  seekCtx (s.setCtx n { c with attach := some a, dec := { arrivals := c.dec.arrivals } }) n

def cmdDecodeAttach (p : DecodeAttachP) (s : State) : Reply :=
  match attachFault s p.context p.a with
  | some (st, t) => refuseFull s st t
  | none => ok (attachCtx s p.context p.a)

def execDecodeAttach (c : Caller) (p : DecodeAttachP) (s : State) : Host.Outcome State Fault Refusal :=
  .next (command c 0x0601 (cmdDecodeAttach p) s)

/-! ### DECODE_PRIORITY (R254) -/

def cmdDecodePriority (p : DecodePriorityP) (s : State) : Reply :=
  match openCtx s p.context with
  | none => refuseFull s stBadParam 15
  | some c => match c.attach with
    | none => refuseFull s stBadParam 15
    | some a =>
      let b := { a with cls := p.cls, lagMs := p.lagMs }
      let others := ((attachedCtxs s).filter (fun x => x.1 != p.context)).map (·.2)
      if 2 < p.cls ∨ 65535 < p.lagMs ∨ (p.priority = true ∧ a.refPitch = 0) then refuseFull s stBadParam 15
      else if p.priority = true ∧ 16 ≤ priorityUsers s p.context then refuseFull s stLimit 14
      else if decodeFits s ((c.p, b) :: others) = false then refuseFull s stBudget 15
      else ok (s.setCtx p.context { c with
        attach := some b, dec := { c.dec with nextPriority := if p.priority = a.priority then none else some p.priority } })

def execDecodePriority (c : Caller) (p : DecodePriorityP) (s : State) : Host.Outcome State Fault Refusal :=
  .next (command c 0x0602 (cmdDecodePriority p) s)

/-! ### DECODE_STATS (R255) -/

def statsBlock (d : DecSt) : List Byte :=
  [byte (if d.seeking then 1 else if d.taint = 0 then 2 else 3), byte d.profile, byte d.level, byte (d.depth % 16)] ++
    [d.codedW, d.codedH, d.cropL, d.cropT, d.cropR, d.cropB, d.taint, 0].flatMap (leBytes 2) ++
    [d.pics, d.output, d.concealed, d.missingRef, d.auSkipped, d.auUnsupported, d.poolWait, d.overDeclared,
      d.deadlineMiss, d.pliSent, 0].flatMap (leBytes 4)

def engineBlock (e : DecEngine) : List Byte :=
  leBytes 4 (min (2 ^ 32 - 1) (e.lastBusy / coreT)) ++ leBytes 2 (min 65535 e.lastSwitches) ++
    leBytes 2 (min 65535 e.lastPictures)

def cmdDecodeStats (n : Nat) (s : State) : Reply :=
  if n = 0xFFFF then ok s ((List.range 8).flatMap (fun e => engineBlock (s.dec e)))
  else match openCtx s n with
    | none => refuse s stBadParam
    | some c => if c.attach.isSome then ok s (statsBlock c.dec) else refuse s stBadParam

def execDecodeStats (c : Caller) (context : Nat) (s : State) : Host.Outcome State Fault Refusal :=
  .next (command c 0x0603 (cmdDecodeStats context) s)

/-! ### Scheduling (R234, R238, R239, R242) -/

def modDec (s : State) (n : Nat) (f : DecSt → DecSt) : State := s.setCtx n { s.ctx n with dec := f (s.ctx n).dec }

/-- The pool buffer that a picture takes (R234). -/
def poolBuffer (s : State) (n : Nat) : Option Nat :=
  let c := s.ctx n
  let fits := (List.range (bufCount c)).filter (fun k =>
    let b := c.buf k
    b.refMark == 0 && !b.outMark && !b.busy && !pinned s n k && fillSource c != some k)
  match fits.find? (fun k => !(c.buf k).complete) with
  | some k => some k
  | none => minBy (fun k => (c.buf k).record.seq) fits

/-- Discard access units before the first random-access one (R250). -/
def skipSeeking (s : State) (n : Nat) : State :=
  let c := s.ctx n
  if c.dec.seeking && c.attach.isSome then
    let other (u : AccessUnit) : Bool := !isRandom (codecOf c) u
    let gone := c.aus.takeWhile other
    s.setCtx n { c with
      aus := c.aus.dropWhile other, dec := { c.dec with auSkipped := satAdd 32 c.dec.auSkipped gone.length } }
  else s

/-- A context whose next picture could start if a pool buffer were free (R238). -/
def wantsPicture (s : State) (n : Nat) : Option AccessUnit :=
  let c := s.ctx n
  if c.state = .opened ∧ c.attach.isSome = true ∧ s.decs.all (fun e => e.2.work.isNone || e.2.ctx != n) = true then c.aus.head?
  else none

/-- R242: the picture is beyond its context's declaration. -/
def overDeclared (s : State) (a : Attach) (u : AccessUnit) : Bool :=
  a.cls == 2 && (decide (a.maxAu < u.size) || decide (picturesPerTide s a.maxRate < u.tideIx))

/-- A picture that may start: the keys of R239 in order. -/
structure Candidate where
  ctx : Nat
  cls : Nat
  due : Nat
  doneAt : Ticks
  deriving DecidableEq, Repr

def candidate (s : State) (n : Nat) : Option Candidate :=
  match wantsPicture s n, (s.ctx n).attach, poolBuffer s n with
  | some u, some a, some _ =>
    some ⟨n, if overDeclared s a u then 1 else 2 - a.cls, u.doneTide + 2, u.doneAt⟩
  | _, _, _ => none

/-- `a` ranks before `b` (R239). -/
def ranksBefore (a b : Candidate) : Bool :=
  if a.cls ≠ b.cls then decide (a.cls < b.cls)
  else if a.due ≠ b.due then decide (a.due < b.due)
  else if a.doneAt ≠ b.doneAt then decide (a.doneAt < b.doneAt)
  else decide (a.ctx < b.ctx)

def bestOf : List Candidate → Option Candidate
  | [] => none
  | a :: r => match bestOf r with
    | none => some a
    | some b => if ranksBefore b a then some b else some a

/-- Contexts whose picture waits for a pool buffer count it once in a tide (R234). -/
def countPoolWaits (s : State) : State :=
  (s.ctxs.map (·.1)).foldl (fun s n =>
    if (wantsPicture s n).isSome && (poolBuffer s n).isNone && (s.ctx n).dec.poolWaitTide != some s.tide.count then
      modDec s n (fun d => { d with poolWait := sat32 d.poolWait, poolWaitTide := some s.tide.count })
    else s) s

/-- Everything that stands before a choice: access units skipped, waits counted. -/
def prepareDecode (s : State) : State := countPoolWaits ((s.ctxs.map (·.1)).foldl skipSeeking s)

/-- Take the next access unit of a context from its ring. -/
def popAu (s : State) (n : Nat) : State := s.setCtx n { s.ctx n with aus := (s.ctx n).aus.drop 1 }

/-- PRIORITY asked for applies from a random-access unit on (R254). -/
def takePriority (s : State) (n : Nat) (ra : Bool) : State :=
  let c := s.ctx n
  match c.dec.nextPriority with
  | some b =>
    if ra then s.setCtx n { c with attach := c.attach.map (fun a => { a with priority := b }),
                                   dec := { c.dec with nextPriority := none } }
    else s
  | none => s

/-! ### What an engine transfers (R245 to R247) -/

/-- The class of an engine. -/
def decClass (e : Nat) : Nat := 0x24 + e

/-- The bytes of an access unit in the bitstream ring, which may wrap. -/
def auRanges (c : Ctx) (u : AccessUnit) : List (Nat × Nat) :=
  let first := min u.size (c.p.pitch - u.pos)
  [(c.p.base + u.pos, first), (c.p.base, u.size - first)].filter (fun r => decide (0 < r.2))

/-- What a prediction read of an area of reference `k` reads: the tiles of its compressed copy when it has one, else the plain
lines (R245). -/
def refRanges (c : Ctx) (depth k : Nat) (a : Area) : List (Nat × Nat) :=
  match c.attach, (c.buf k).units with
  | some x, u :: us => tileRanges c.p (tileAlloc depth) (x.refBase + k * x.refPitch) (u :: us) (areaTiles c.p a)
  | _, _ => (areaLines c.p a).map (fun r => (planeAddr c k r.1 r.2.1 r.2.2.1, r.2.2.2))

/-- The prediction reads of a picture, each with its reference; those of a missing reference with no replacement read mid-grey. -/
def predictionReads (c : Ctx) (h : PictureHead) : List (Nat × Nat × Nat) :=
  h.reads.flatMap (fun r => match refOf c r.1 with
    | some k => (refRanges c h.set.depth k r.2).map (fun e => (k, e.1, e.2))
    | none => [])

/-- The lines that concealment copies: from the nearest reference, chroma or not, line, byte column, bytes (R248). -/
def missingLines (c : Ctx) (h : PictureHead) : List (Bool × Nat × Nat × Nat) := h.missing.flatMap (areaLines c.p)

/-- The lines of a pool buffer: chroma or not, and line. -/
def pictureLines (p : CtxParams) : List (Bool × Nat) :=
  (List.range p.height).map (fun y => (false, y)) ++ (List.range (ceilDiv p.height 2)).map (fun y => (true, y))

/-- The reference mark of a picture that its decoding leaves (R233). -/
def ownMark (codec : Nat) (u : AccessUnit) (h : PictureHead) : Nat :=
  if codec = 0 then 1 else if nonReference codec u then 0 else if (ownLong (isRandom codec u) h).isSome then 2 else 1

/-- A reference of a PRIORITY context is written compressed too (R245). -/
def writesSlot (c : Ctx) (u : AccessUnit) (h : PictureHead) : Bool :=
  c.attach.elim false (·.priority) && ownMark (codecOf c) u h != 0

/-- Units that each tile of a compressed copy takes: 1 to 4 for 8-bit streams, 2 to 8 for 10-bit ones; which, the spec leaves open
(notes/assumptions/28.md). -/
def drawUnits (s : State) (depth n : Nat) : List Nat × State :=
  (List.range n).foldl (fun (l, s) _ =>
    let (v, s) := s.drawNat
    (l ++ [if depth = 8 then 1 + v % 4 else 2 + v % 7], s)) ([], s)

/-- What a picture writes of its buffer's reference slot. -/
def slotRanges (c : Ctx) (depth k : Nat) : List (Nat × Nat) :=
  match c.attach with
  | some a => tileRanges c.p (tileAlloc depth) (a.refBase + k * a.refPitch) (c.buf k).units (List.range (slotTiles c.p))
  | none => []

/-- The requests of a picture become visible at the slot engine under its engine's class (R247). -/
def postPicture (s : State) (e n k : Nat) (u : AccessUnit) (h : PictureHead) : State :=
  let c := s.ctx n
  let go (s : State) (write : Bool) (l : List (Nat × Nat)) : State :=
    l.foldl (fun s r => post s (decClass e) idDecoder r.1 r.2 write (.decoder e)) s
  let copies := match nearestRef c h.poc with
    | some q => (missingLines c h).map (fun r => (planeAddr c q r.1 r.2.1 r.2.2.1, r.2.2.2))
    | none => []
  let lines := (pictureLines c.p).map (fun y => (planeAddr c k y.1 y.2 0, c.p.width * fmtBytes c.p.format))
  let s := go s false (auRanges c u ++ (predictionReads c h).map (fun r => (r.2.1, r.2.2)) ++ copies)
  go s true (lines ++ slotRanges c h.set.depth k)

/-! ### The start of a picture (R230 to R236, R239, R249) -/

/-- The active parameter set, as DECODE_STATS shows it (R231, R255). -/
def showSet (s : State) (n : Nat) (x : StreamSet) : State :=
  modDec s n (fun d => { d with
    profile := x.profile, level := x.level, depth := x.depth, codedW := x.codedW, codedH := x.codedH, cropL := x.crop.1,
    cropT := x.crop.2.1, cropR := x.crop.2.2.1, cropB := x.crop.2.2.2 })

/-- Reference marks that an access unit's own list leaves (R233). -/
def markRefs (s : State) (n : Nat) (l : List RefEntry) : State :=
  let c := s.ctx n
  let one (_ : Nat) (b : Buf) : Buf :=
    { b with refMark := if b.refMark = 0 then 0 else match l.find? (fun r => r.poc == b.poc) with
      | some r => if r.long then 2 else 1
      | none => 0 }
  s.setCtx n { c with bufs := tmap one c.bufs }

/-- A reference that the picture may predict from is missing (R248). -/
def refMissing (c : Ctx) (h : PictureHead) : Bool :=
  h.gap || h.refs.any (fun r => r.used && (refBuffers c).all (fun k => (c.buf k).poc != r.poc))

/-- NoOutputOfPriorPics of a picture at which decoding starts anew: its flag, and 1 for an HEVC CRA picture. -/
def dropsPrior (codec : Nat) (u : AccessUnit) (h : PictureHead) : Bool :=
  h.noPrior || (codec == 0 && sliceIs codec u (fun x => hevcType x == 21) (fun _ => false))

/-- The output process before a picture is decoded (R236); AVC's follows its marking process. -/
def bumpBefore (s : State) (n : Nat) (anew : Bool) (u : AccessUnit) (h : PictureHead) : State :=
  let c := s.ctx n
  let w := c.dec.waiting
  if anew && dropsPrior (codecOf c) u h then
    let gone := undecided w
    let one (k : Nat) (b : Buf) : Buf := if gone.any (fun p => p.buffer == k) then { b with outMark := false } else b
    s.setCtx n { c with bufs := tmap one c.bufs, dec := { c.dec with waiting := w.filter (fun p => p.decided.isSome) } }
  else
    let cond (l : List Picture) : Bool := anew || (codecOf c == 0 && (overBound h.set l || dpbFull c h.set none l))
    s.setCtx n { c with dec := { c.dec with waiting := bumpWhile s.ref cond w.length w } }

/-- The marks before decoding: none at a picture at which decoding starts anew; HEVC's reference picture set (R233). -/
def marksBefore (s : State) (n : Nat) (anew : Bool) (h : PictureHead) : State :=
  if anew then markRefs s n [] else if codecOf (s.ctx n) = 0 then markRefs s n h.refs else s

/-- An engine starts a picture in buffer `k`. -/
def startPicture (s : State) (e n k : Nat) (u : AccessUnit) (a : Attach) (due : Nat) (h : PictureHead) : State :=
  let x := s.dec e
  let c := s.ctx n
  let sw := x.prevCtx.elim false (· != n)
  let over_ := overDeclared s a u
  let random := isRandom (codecOf c) u
  let anew := restarts (codecOf c) c.dec.seeking u
  let s := takePriority (showSet (bumpBefore (marksBefore (popAu s n) n anew h) n anew u h) n h.set) n random
  let miss := refMissing (s.ctx n) h
  let (units, s) := if writesSlot (s.ctx n) u h then drawUnits s h.set.depth (slotTiles c.p) else ([], s)
  let s := beginBuf s n k
  let c := s.ctx n
  let s := s.setCtx n (c.setBuf k { c.buf k with poc := h.poc, units := units, frameNum := h.frameNum })
  let s := modDec s n (fun d => { d with
    dropRasl := if random then anew && d.seeking else d.dropRasl, seeking := false,
    overDeclared := if over_ then sat32 d.overDeclared else d.overDeclared })
  let s := postPicture (if sw then loadState s (decClass e) idDecoder n (.decoder e) else s) e n k u h
  s.setDec e { x with
    work := some { buffer := k, au := u, causes := u.causes ||| b2n miss * 8, poc := h.poc, endAt := 0 }, head := some h, ctx := n,
    opening := (s.ctx n).opening, startAt := s.ref, switched := sw, prevCtx := some n,
    switches := if sw then x.switches + 1 else x.switches, dueTide := due, critical := a.cls == 2 && !over_, abandon := false }

/-- The access unit of a candidate goes on: it is discarded as unsupported (R230) or as a RASL picture (R249), or its picture
starts. One without any slice is only taken, unless packets of it are lost (notes/assumptions/125.md). -/
def takeAu (s : State) (e n k : Nat) (u : AccessUnit) (a : Attach) (due : Nat) (h : PictureHead) : State :=
  let c := s.ctx n
  if (firstSlice a.codec u).isNone && !u.causes.testBit 0 then popAu s n
  else if setOk c.p a h.set = false then
    sendPli (modDec (showSet (popAu s n) n h.set) n (fun d => { d with auUnsupported := sat32 d.auUnsupported })) n
  else if isRasl a.codec u && c.dec.dropRasl then modDec (popAu s n) n (fun d => { d with auSkipped := sat32 d.auSkipped })
  else startPicture s e n k u a due h

/-- DECODE_PICTURE_START (R239): engine `e`, the lowest idle one, takes the access unit that ranks first; `h` is what its NAL units
say. -/
def execDecodePictureStart (e : Fin 8) (h : PictureHead) (s : State) : Host.Outcome State Fault Refusal :=
  if (List.range (e.val + 1)).any (fun i => decide (i < e.val) == (s.dec i).work.isNone) then .next s
  else
    let s := prepareDecode s
    match bestOf (s.ctxs.filterMap (fun x => candidate s x.1)) with
    | none => .next s
    | some c => match wantsPicture s c.ctx, (s.ctx c.ctx).attach, poolBuffer s c.ctx with
      | some u, some a, some k => .next (takeAu s e.val c.ctx k u a c.due h)
      | _, _, _ => .next s

/-! ### The end of a picture (R236, R240, R248, R249) -/

/-- The samples of one line: those of the coding standard's process, which the model does not hold, are free (R232;
notes/assumptions/28.md); the chroma of a monochrome stream is the mid code (R229). -/
def sampleLine (s : State) (p : CtxParams) (x : StreamSet) (chroma : Bool) : List Byte × State :=
  if chroma && x.chroma == 0 then (greyBytes p.format (p.width * fmtBytes p.format), s)
  else
    let depth := if chroma then x.chromaDepth else x.depth
    let (l, s) := s.drawBytes (if p.format = 1 ∨ depth = 8 then p.width else 2 * p.width)
    (storeSamples p.format depth l, s)

/-- Read bytes of a reference: a poisoned burst reads as mid-grey (R248). The answer is the bytes and whether one was poisoned. -/
def readRef (s : State) (f addr n : Nat) : List Byte × Bool × State :=
  let (l, s) := readPieces s idDecoder addr n false
  (l.flatMap (fun p => if p.poison then greyBytes f p.data.length else p.data), l.any (·.poison), s)

/-- Conceal the missing areas of a picture: copies of the nearest reference, or mid-grey when it has none (R248); `h` holds the areas
of the slices that poison takes too. The answer is whether the reference read as poison. -/
def concealAreas (s : State) (n k : Nat) (h : PictureHead) : Bool × State :=
  let c := s.ctx n
  (missingLines c h).foldl (fun (bad, s) r =>
    let dst := planeAddr c k r.1 r.2.1 r.2.2.1
    match nearestRef c h.poc with
    | some q =>
      let (d, b, s) := readRef s c.p.format (planeAddr c q r.1 r.2.1 r.2.2.1) r.2.2.2
      (bad || b, (devWrite s idDecoder dst d).2)
    | none => (bad, (devWrite s idDecoder dst (greyBytes c.p.format r.2.2.2)).2)) (false, s)

/-- Write the decoded picture, and its compressed copy when it has one; how samples are compressed, the spec leaves open: free
bytes (R245, R246; notes/assumptions/28.md). -/
def writePicture (s : State) (n k : Nat) (h : PictureHead) : State :=
  let c := s.ctx n
  let s := (pictureLines c.p).foldl (fun s y =>
    let (l, s) := sampleLine s c.p h.set y.1
    (devWrite s idDecoder (planeAddr c k y.1 y.2 0) l).2) s
  if (c.buf k).units = [] then s
  else (slotRanges c h.set.depth k).foldl (fun s r =>
    let (l, s) := s.drawBytes r.2
    (devWrite s idDecoder r.1 l).2) s

/-- A reference's record takes POISON (R67, R248). -/
def poisonRef (s : State) (n k : Nat) : State :=
  let c := s.ctx n
  let b := c.buf k
  let c := c.setBuf k { b with record := { b.record with causes := b.record.causes ||| 4 } }
  s.setCtx n { c with dec := { c.dec with waiting := c.dec.waiting.map (fun p =>
    if p.buffer = k then { p with causes := p.causes ||| 4 } else p) } }

/-- The prediction reads of a picture: references that read as poison take it in their record (R248). -/
def readRefs (s : State) (n : Nat) (h : PictureHead) : Bool × State :=
  (predictionReads (s.ctx n) h).foldl (fun (bad, s) r =>
    let (_, b, s) := readRef s (s.ctx n).p.format r.2.1 r.2.2
    if b then (true, poisonRef s n r.1) else (bad, s)) (false, s)

/-- Read an access unit: the runs of its bytes that poison takes, each by its first byte and its bytes. -/
def readAu (s : State) (n : Nat) (u : AccessUnit) : List (Nat × Nat) × State :=
  let c := s.ctx n
  (auRanges c u).foldl (fun (bad, s) r =>
    let (l, s) := readPieces s idDecoder r.1 r.2 false
    (bad ++ (l.filter (·.poison)).map (fun p =>
      ((p.addr + c.p.pitch - c.p.base - u.pos) % max 1 c.p.pitch, p.data.length)), s)) ([], s)

/-- The areas of the slices that hold poisoned bytes: they count as missing (R248). -/
def poisonedAreas (h : PictureHead) (bad : List (Nat × Nat)) : List Area :=
  (h.slices.filter (fun x => bad.any (fun b => !apart x.pos x.size b.1 b.2))).flatMap (·.areas)

/-- The output process after a picture is decoded (R236). In AVC, pictures are output until one of the decoded picture buffer is free,
or until a picture that no later one references is output itself. -/
def bumpAfter (s : State) (n : Nat) (p : Picture) (h : PictureHead) : State :=
  let c := s.ctx n
  if h.output then
    let w := c.dec.waiting.map (fun q => if q.decided.isNone && decide (p.poc < q.poc) then { q with latency := q.latency + 1 } else q)
    let full (l : List Picture) : Bool := codecOf c == 1 && dpbFull c h.set (some p.buffer) l
    let w := if nonReference (codecOf c) p.au then
        let w := w ++ [p]
        bumpWhile s.ref (fun l => full l && l.any (fun q => q.buffer == p.buffer && q.decided.isNone)) w.length w
      else bumpWhile s.ref (fun l => clearsRefs h || full l) w.length w ++ [p]
    s.setCtx n { c.setBuf p.buffer { c.buf p.buffer with outMark := true } with
      dec := { c.dec with waiting := bumpWhile s.ref (overBound h.set) w.length w } }
  else s

/-- The marks after decoding: AVC's marking process, and the picture's own (R233). -/
def marksAfter (s : State) (n : Nat) (p : Picture) (h : PictureHead) : State :=
  let c := s.ctx n
  let codec := codecOf c
  let idr := isRandom codec p.au
  let c := if codec = 0 ∨ nonReference codec p.au = true then c else { c with bufs := markAvc idr h c.bufs }
  let b := c.buf p.buffer
  s.setCtx n (c.setBuf p.buffer { b with
    refMark := ownMark codec p.au h, busy := false, longIdx := (ownLong idr h).getD 0,
    frameNum := if clearsRefs h then 0 else b.frameNum, poc := if clearsRefs h then 0 else b.poc })

/-- Busy time of an engine up to now within the present tide. -/
def busySince (s : State) (e : DecEngine) : Nat := s.ref - max e.startAt s.tide.lastRef

/-- A picture's failures (R248): slices lost, a reference missing, a reference poisoned; what it bears, what the taint state
gains. -/
def pictureFaults (lost miss poison : Bool) : Nat × Nat :=
  (b2n (lost || poison) * 2 ||| b2n miss * 8, b2n lost * 2 ||| b2n miss * 8 ||| b2n poison * 4)

def endPicture (s : State) (e : Nat) (p : Picture) (h : PictureHead) : State :=
  let n := (s.dec e).ctx
  let s := if (s.dec e).switched then stateLoaded s idDecoder n else s
  let (badAu, s) := readAu s n p.au
  let h := { h with missing := h.missing ++ poisonedAreas h badAu }
  let (badRef, s) := readRefs s n h
  let s := writePicture s n p.buffer h
  let (badCopy, s) := concealAreas s n p.buffer h
  let s := if badCopy then (nearestRef (s.ctx n) h.poc).elim s (poisonRef s n) else s
  let lost := p.au.causes.testBit 0 || h.missing != [] || badAu != []
  let (bears, gains) := pictureFaults lost (p.causes.testBit 3) (badRef || badCopy)
  let old := (s.ctx n).dec.taint
  let clears := isRandom (codecOf (s.ctx n)) p.au && gains == 0
  let taint := if clears then 0 else old ||| gains
  let causes := p.causes ||| bears ||| taint
  let s := modDec (marksAfter s n p h) n (fun d => { d with
    taint := taint, dropRasl := d.dropRasl || (clears && old != 0), pics := sat32 d.pics,
    concealed := if causes.testBit 1 then sat32 d.concealed else d.concealed,
    missingRef := if causes.testBit 3 then sat32 d.missingRef else d.missingRef })
  let s := bumpAfter s n { p with causes := causes, endAt := s.ref, poc := if clearsRefs h then 0 else p.poc } h
  let s := if old = 0 ∧ taint ≠ 0 then sendPli s n else s
  let x := s.dec e
  s.setDec e { x with work := none, head := none, busy := x.busy + busySince s x, pictures := x.pictures + 1 }

/-- DECODE_PICTURE_END (R240): the last write of a picture completes. A picture under a context switch takes its 1,024 CORE cycles
at least. -/
def execDecodePictureEnd (e : Fin 8) (s : State) : Host.Outcome State Fault Refusal :=
  let x := s.dec e.val
  match x.work, x.head with
  | some p, some h =>
    if x.abandon || decide (s.ref < x.startAt + (if x.switched then 1024 else 0) * coreT) ||
        outstanding s (fun q => q == .decoder e.val) then .next s
    else .next (endPicture s e.val p h)
  | _, _ => .next s

/-- PICTURE_ABANDONED (R252): the picture never completes, and the engine becomes idle. -/
def execPictureAbandoned (e : Fin 8) (s : State) : Host.Outcome State Fault Refusal :=
  let x := s.dec e.val
  match x.work with
  | some p =>
    if x.abandon then
      let s := if (s.ctx x.ctx).opening = x.opening then dropBuf s x.ctx p.buffer else s
      let s := forget s (fun q => q == .decoder e.val)
      .next (s.setDec e.val { x with work := none, head := none, abandon := false, busy := x.busy + busySince s x })
    else .next s
  | none => .next s

/-! ### Output (R236) -/

/-- The cycle on which a picture completes: 16 CORE cycles after the later of its output decision and its last write (R236). -/
def pictureDue (p : Picture) : Ticks := max p.endAt (p.decided.getD 0) + 16 * coreT

/-- A decoded picture is output, visible as from its cycle: its record is that of its access unit, with the causes of its decoding; CONTENT_RUN is
judged now (R237, R66). -/
def outputPicture (s : State) (n : Nat) (p : Picture) : State :=
  let due := pictureDue p
  let c := s.ctx n
  let r : FreshRecord := ⟨p.au.capNs, p.au.capS, p.au.alive, p.au.aliveRun, judgeContent c p.content, p.au.goodRun, p.causes,
    nextSeq c⟩
  let s := finishBuf (countSample s n p.content) n p.buffer r p.content false
  let c := s.ctx n
  let b := c.buf p.buffer
  let c := c.setBuf p.buffer { b with outMark := false, visible := b.visible - s.panTicks (s.ref - due) }
  s.setCtx n { c with dec := { c.dec with
    output := sat32 c.dec.output, waiting := c.dec.waiting.filter (fun q => q.buffer != p.buffer) } }

/-- PICTURE_OUTPUT: the picture that the output process decided on first completes, 16 CORE cycles after the later of that decision
and its last write. -/
def execPictureOutput (ctx : Fin 192) (s : State) : Host.Outcome State Fault Refusal :=
  let c := s.ctx ctx.val
  match nextOut c.dec.waiting with
  | some p =>
    if c.state = .opened ∧ p.au.comparing = none ∧ pictureTurn s ctx.val p = false ∧
        pictureDue p ≤ s.ref then .next (outputPicture s ctx.val p)
    else .next s
  | none => .next s

/-! ### Lag (R244) -/

/-- What R244 keeps: the access units from the last random-access one on, else those that a later picture may reference. -/
def fromLastRandom (codec : Nat) (l : List AccessUnit) : List AccessUnit :=
  match l.reverse.findIdx? (isRandom codec) with
  | some i => l.drop (l.length - 1 - i)
  | none => l.filter (fun u => !nonReference codec u)

def lagging (s : State) (c : Ctx) (a : Attach) : Bool :=
  a.cls != 2 && a.lagMs != 0 && (c.aus.head?).elim false (fun u => decide (u.doneAt + a.lagMs * msT < s.ref))

/-- DECODE_LAG_DISCARD. -/
def execDecodeLagDiscard (ctx : Fin 192) (s : State) : Host.Outcome State Fault Refusal :=
  let c := s.ctx ctx.val
  match c.attach with
  | some a =>
    if c.state = .opened ∧ lagging s c a = true then
      let keep := fromLastRandom a.codec c.aus
      .next (s.setCtx ctx.val { c with
        aus := keep, dec := { c.dec with auSkipped := satAdd 32 c.dec.auSkipped (c.aus.length - keep.length) } })
    else .next s
  | none => .next s

/-! ### What a tide does to the engines (R234, R241, R255) -/

/-- A CRITICAL access unit that this tide finds undecoded (R241). -/
def missesTide (s : State) (a : Attach) (u : AccessUnit) : Bool :=
  a.cls == 2 && !overDeclared s a u && !u.missed && decide (u.doneTide + 2 ≤ s.tide.taken)

/-- The pictures of CRITICAL contexts that this tide finds undecoded: contexts with their number. -/
def missedPictures (s : State) : List Nat :=
  (s.decs.filterMap (fun e => match e.2.work with
    | some p => if e.2.critical && !p.au.missed && decide (e.2.dueTide ≤ s.tide.taken) then some e.2.ctx else none
    | none => none)) ++
    (attachedCtxs s).flatMap (fun x => ((s.ctx x.1).aus.filter (missesTide s x.2.2)).map (fun _ => x.1))

/-- They are counted once. -/
def markMissed (s : State) : State :=
  let s := { s with decs := tmap (fun _ (e : DecEngine) =>
    { e with work := e.work.map (fun p =>
      if e.critical && decide (e.dueTide ≤ s.tide.taken) then { p with au := { p.au with missed := true } } else p) }) s.decs }
  (attachedCtxs s).foldl (fun s x =>
    let c := s.ctx x.1
    s.setCtx x.1 { c with aus := c.aus.map (fun u => if missesTide s x.2.2 u then { u with missed := true } else u) }) s

/-- At tide `count`: figures of the tide that ended, pictures that missed it, and pool waits of the new one. -/
def decodeTide (s : State) (began : Ticks) : State :=
  let s := { s with decs := tmap (fun _ (e : DecEngine) =>
    let more := if e.work.isSome then s.ref - max e.startAt began else 0
    { e with lastBusy := e.busy + more, lastSwitches := e.switches, lastPictures := e.pictures,
             busy := 0, switches := 0, pictures := 0 }) s.decs }
  let s := (s.ctxs.map (·.1)).foldl skipSeeking s
  let l := missedPictures s
  let s := l.foldl (fun s n =>
    raiseErr (modDec s n (fun d => { d with deadlineMiss := sat32 d.deadlineMiss })) 0x0040 n (s.tide.count % 2 ^ 32) 0) (markMissed s)
  countPoolWaits s

end Sys2Proof.Machine
end

