-- ==== Sys2Proof/Machine/Hevc.lean ====
section
/-! DEFINITION. What the encode engines' bitstreams say (spec/09 R256, R257): the parameter sets, slice headers and levels, and NAL
units of a byte stream. PRESUMED from ITU-T H.265: the syntax and the level limits (notes/assumptions/127.md). -/

namespace Sys2Proof.Machine

/-! ### Byte streams and bits -/

/-- The NAL units of an Annex B byte stream: `skip` bytes of a start code are left, `cur` is the present unit, newest byte
first. -/
def nalSplit : List Byte → (skip : Nat) → (cur : List Byte) → List (List Byte)
  | [], _, cur => [(cur.dropWhile (· == 0#8)).reverse]
  | b :: r, skip, cur =>
    if skip ≠ 0 then nalSplit r (skip - 1) cur
    else if b = 0#8 ∧ r.take 2 = [0#8, 1#8] then (cur.dropWhile (· == 0#8)).reverse :: nalSplit r 2 []
    else nalSplit r 0 (b :: cur)

def nalUnits (l : List Byte) : List (List Byte) := (nalSplit l 0 []).filter (· != [])

/-- Take out the emulation prevention bytes; `z` zero bytes stand before. -/
def unescape : (z : Nat) → List Byte → List Byte
  | _, [] => []
  | z, b :: r => if 2 ≤ z ∧ b = 3#8 then unescape 0 r else b :: unescape (if b = 0#8 then z + 1 else 0) r

/-- Bits of bytes, most significant first. -/
def streamBits (l : List Byte) : List Bool := l.flatMap (fun b => (List.range 8).map (fun i => b.toNat.testBit (7 - i)))

def streamNat (l : List Bool) : Nat := l.foldl (fun a b => 2 * a + b2n b) 0

/-- A syntax element: a fixed number of bits, or an unsigned Exp-Golomb code. -/
inductive Elem where
  | u (n : Nat)
  | ue
  deriving DecidableEq, Repr

/-- Read syntax elements: their values, and the bits left. -/
def readElems : List Elem → List Bool → List Nat × List Bool
  | [], l => ([], l)
  | .u n :: r, l =>
    let (vs, rest) := readElems r (l.drop n)
    (streamNat (l.take n) :: vs, rest)
  | .ue :: r, l =>
    let z := (l.takeWhile (!·)).length
    let (vs, rest) := readElems r (l.drop (2 * z + 1))
    ((streamNat ((l.drop z).take (z + 1)) - 1) :: vs, rest)

/-- The bits of a NAL unit after its header. -/
def unitBits (u : List Byte) : List Bool := streamBits (unescape 0 (u.drop 2))

def unitType (u : List Byte) : Nat := hevcType (beNat (u.take 2))

/-! ### Levels (R256) -/

/-- Levels of the Main tier: general_level_idc, luma samples of a picture, luma samples per second. -/
def hevcLevels : List (Nat × Nat × Nat) :=
  [(30, 36864, 552960), (60, 122880, 3686400), (63, 245760, 7372800), (90, 552960, 16588800), (93, 983040, 33177600),
   (120, 2228224, 66846720), (123, 2228224, 133693440), (150, 8912896, 267386880), (153, 8912896, 534773760),
   (156, 8912896, 1069547520), (180, 35651584, 1069547520), (183, 35651584, 2139095040)]

/-- The lowest level that admits a size and a frame rate. -/
def levelOf (w h num den : Nat) : Nat :=
  ((hevcLevels.find? (fun l => decide (w * h ≤ l.2.1) && decide (w * w ≤ 8 * l.2.1) && decide (h * h ≤ 8 * l.2.1) &&
    decide (w * h * num ≤ l.2.2 * den))).map (·.1)).getD 183

/-! ### Parameter sets (R256, R257) -/

/-- profile_tier_level of the engine: general_profile_space, tier, profile, the 80 bits of its flags, level. Main tier; the profile is among
its compatibility flags, and no interlaced source is declared. -/
def tierOk (p : EncParams) (level : Nat) (l : List Nat) : Bool :=
  let profile := if p.main10 then 2 else 1
  nth 0 l 0 == 0 && nth 0 l 1 == 0 && nth 0 l 2 == profile && (nth 0 l 3).testBit (79 - profile) && !(nth 0 l 3).testBit 46 &&
    nth 0 l 4 == level

/-- profile_tier_level without sub-layers. -/
def tierElems : List Elem := [.u 2, .u 1, .u 5, .u 80, .u 8]

/-- A video parameter set of the engine (R256): one layer, no reordering and a buffer of two pictures. The answer is its id. -/
def vpsForm (p : EncParams) (level : Nat) (u : List Byte) : Option Nat :=
  let (a, r) := readElems [.u 4, .u 1, .u 1, .u 6, .u 3, .u 1, .u 16] (unitBits u)
  let (t, r) := readElems tierElems r
  let (d, _) := readElems [.u 1, .ue, .ue, .ue] r
  if a.drop 1 = [1, 1, 0, 0, 1, 65535] ∧ tierOk p level t = true ∧ nth 0 d 1 = 1 ∧ nth 0 d 2 = 0 then some (nth 0 a 0) else none

/-- The video usability information: no field coding; hypothetical reference decoder parameters are not followed. The answer is the
bits left. -/
def vuiRest (l : List Bool) : Option (List Bool) :=
  let (a, l) := readElems [.u 1] l
  let (b, l) := if a = [1] then readElems [.u 8] l else ([0], l)
  let (_, l) := if b = [255] then readElems [.u 16, .u 16] l else ([], l)
  let (a, l) := readElems [.u 1] l
  let (_, l) := if a = [1] then readElems [.u 1] l else ([], l)
  let (a, l) := readElems [.u 1] l
  let (b, l) := if a = [1] then readElems [.u 3, .u 1, .u 1] l else ([0, 0, 0], l)
  let (_, l) := if nth 0 b 2 = 1 then readElems [.u 8, .u 8, .u 8] l else ([], l)
  let (a, l) := readElems [.u 1] l
  let (_, l) := if a = [1] then readElems [.ue, .ue] l else ([], l)
  let (f, l) := readElems [.u 1, .u 1, .u 1, .u 1] l
  let (_, l) := if nth 0 f 3 = 1 then readElems [.ue, .ue, .ue, .ue] l else ([], l)
  let (a, l) := readElems [.u 1] l
  let (b, l) := if a = [1] then readElems [.u 32, .u 32, .u 1] l else ([0, 0, 0], l)
  let (_, l) := if nth 0 b 2 = 1 then readElems [.ue] l else ([], l)
  let (h, l) := if a = [1] then readElems [.u 1] l else ([0], l)
  let (a, l) := readElems [.u 1] l
  let (_, l) := if a = [1] then readElems [.u 1, .u 1, .u 1, .ue, .ue, .ue, .ue, .ue] l else ([], l)
  if nth 0 f 1 = 0 ∧ h = [0] then some l else none

/-- The extension flags at the end of a parameter set name no range and no screen-content extension (R257). -/
def extensionsOk (l : List Bool) : Bool :=
  let (a, l) := readElems [.u 1] l
  let (b, _) := if a = [1] then readElems [.u 1, .u 1, .u 1, .u 1] l else ([0, 0, 0, 0], l)
  nth 0 b 0 == 0 && nth 0 b 3 == 0

/-- A sequence parameter set of the engine: profile, Main tier, level, 4:2:0, coded size without a conformance window, bit depth, no
reordering and a buffer of two pictures, block sizes, SAO and temporal motion vector prediction on, no scaling list, no long-term
references, no field coding and no range or screen-content extension; at most one short-term set, of one earlier picture. The
answer: ids of its video and its own set, bits of a picture order count, and the distance of the short-term set's picture. -/
def spsForm (p : EncParams) (level : Nat) (u : List Byte) : Option (Nat × Nat × Nat × Option Nat) :=
  let depth := if p.main10 then 2 else 0
  let (i, r) := readElems [.u 4, .u 3, .u 1] (unitBits u)
  let (t, r) := readElems tierElems r
  let (v, r) := readElems [.ue, .ue, .ue, .ue, .u 1, .ue, .ue, .ue, .u 1, .ue, .ue, .ue, .ue, .ue, .ue, .ue, .ue, .ue, .u 1, .u 1, .u 1, .u 1,
    .ue] r
  let at_ (k : Nat) : Nat := nth 0 v k
  let (q, r) := if at_ 22 = 0 then ([1, 0, 0, 1], r) else readElems [.ue, .ue, .ue, .u 1] r
  let (e, r) := readElems [.u 1, .u 1, .u 1, .u 1] r
  let rest := if nth 0 e 3 = 1 then vuiRest r else some r
  if nth 0 i 1 = 0 ∧ tierOk p level t = true ∧ at_ 1 = 1 ∧ at_ 2 = p.outW ∧ at_ 3 = p.outH ∧ at_ 4 = 0 ∧ at_ 5 = depth ∧ at_ 6 = depth ∧
      at_ 9 = 1 ∧ at_ 10 = 0 ∧ [at_ 12, at_ 13, at_ 14, at_ 15] = [0, 3, 0, 3] ∧ at_ 18 = 0 ∧ at_ 20 = 1 ∧ at_ 21 = 0 ∧ at_ 22 ≤ 1 ∧
      q.take 2 = [1, 0] ∧ nth 0 q 3 = 1 ∧ nth 0 e 0 = 0 ∧ nth 0 e 1 = 1 ∧ rest.elim false extensionsOk = true then
    some (nth 0 i 0, at_ 0, at_ 7 + 4, if at_ 22 = 0 then none else some (nth 0 q 2 + 1))
  else none

/-- A picture parameter set of the engine: no dependent slices, tiles, wavefronts, weighted prediction, transquant bypass, scaling lists
or extensions of R257; one active reference, and no in-loop filter across slices. With the bits of a picture order count and the
short-term set of its sequence it gives what the slice headers hold. -/
def ppsForm (sps bits : Nat) (near : Option Nat) (u : List Byte) : Option SliceForm :=
  let (a, r) := readElems [.ue, .ue, .u 1, .u 1, .u 3, .u 1, .u 1, .ue, .ue, .ue, .u 1, .u 1, .u 1] (unitBits u)
  let (_, r) := if nth 0 a 12 = 1 then readElems [.ue] r else ([], r)
  let (b, r) := readElems [.ue, .ue, .u 1, .u 1, .u 1, .u 1, .u 1, .u 1, .u 1, .u 1] r
  let (d, r) := if nth 0 b 9 = 1 then readElems [.u 1, .u 1] r else ([0, 0], r)
  let (_, r) := if nth 0 b 9 = 1 ∧ nth 0 d 1 = 0 then readElems [.ue, .ue] r else ([], r)
  let (e, r) := readElems [.u 1, .u 1, .ue, .u 1] r
  if nth 0 a 1 = sps ∧ nth 0 a 2 = 0 ∧ nth 0 a 4 = 0 ∧ nth 0 a 7 = 0 ∧ (b.drop 3).take 6 = [0, 0, 0, 0, 0, 0] ∧ nth 0 e 0 = 0 ∧
      extensionsOk r = true then
    some ⟨nth 0 a 0, bits, near, nth 0 a 3 == 1, nth 0 a 6 == 1, nth 0 b 2 == 1, nth 0 d 0 == 1, nth 0 d 1 == 1⟩
  else none

/-- Bits of a slice address among `n` CTUs. -/
def addrBits (n : Nat) : Nat := ((List.range 24).find? (fun v => decide (n ≤ 2 ^ v))).getD 0

/-- The part of a slice header after its type: deblocking and SAO are on (R256). -/
def filtersOn (f : SliceForm) (sao : List Nat) (l : List Bool) : Bool :=
  let (_, l) := readElems [.ue] l
  let (_, l) := if f.chromaQp then readElems [.ue, .ue] l else ([], l)
  let (o, l) := if f.override then readElems [.u 1] l else ([0], l)
  let (x, _) := if o = [1] then readElems [.u 1] l else ([b2n f.unfiltered], l)
  sao == [1, 1] && x == [0]

/-- A slice of the engine: an IDR picture's with I slices, or a P picture's of one reference, the previous coded picture, of picture order
count `prev`, with temporal motion vector prediction; its first CTU is `at_` of `n`. The answer is the low bits of its picture
order count, 0 for an IDR picture. -/
def sliceForm (f : SliceForm) (idr : Bool) (at_ n prev : Nat) (u : List Byte) : Option Nat :=
  let t := unitType u
  let (v, l) := readElems ([.u 1] ++ (if idr then [.u 1] else []) ++ [.ue] ++ (if at_ = 0 then [] else [.u (addrBits n)]) ++ [.ue] ++
    (if f.outputFlag then [.u 1] else [])) (unitBits u)
  let k := if idr then 2 else 1
  let ty := nth 9 v (if at_ = 0 then k + 1 else k + 2)
  let start := hevcLayer (beNat (u.take 2)) == 0 && nth 9 v 0 == b2n (at_ == 0) && nth 99 v k == f.pps &&
    (at_ == 0 || nth 0 v (k + 1) == at_)
  if idr then
    let (sao, l) := readElems [.u 1, .u 1] l
    if within 19 20 t && start && ty == 2 && filtersOn f sao l then some 0 else none
  else
    let (p, l) := readElems [.u f.pocBits, .u 1] l
    let (q, l) := if nth 0 p 1 = 1 then ([0, 1, 0, f.near.getD 0 - 1, 1], l)
      else
        let (x, l) := if f.near.isSome then readElems [.u 1] l else ([0], l)
        let (y, l) := readElems [.ue, .ue, .ue, .u 1] l
        (x ++ y, l)
    let (m, l) := readElems [.u 1, .u 1, .u 1, .u 1] l
    let (a, l) := if nth 0 m 3 = 1 then readElems [.ue] l else ([0], l)
    let (_, l) := if f.cabacInit then readElems [.u 1] l else ([], l)
    let (_, l) := readElems [.ue] l
    let set := nth 9 q 0 == 0 && nth 9 q 1 == 1 && nth 9 q 2 == 0 && nth 0 q 4 == 1 && (nth 0 p 1 == 0 || f.near.isSome) &&
      (nth 0 p 0 + 2 ^ f.pocBits - prev) % 2 ^ f.pocBits == nth 0 q 3 + 1
    if t == 1 && start && ty == 1 && set && nth 0 m 0 == 1 && a == [0] && filtersOn f [nth 0 m 1, nth 0 m 2] l then some (nth 0 p 0)
    else none

/-- The NAL units of an entry: one slice, after the one VPS, SPS and PPS where it is an IDR picture's first (R256). `form` is what the
sets before say of slice headers, and `prev` the picture order count of the previous coded picture. The answer: what the sets say
from now on, and the slice's own picture order count. -/
def unitsForm (p : EncParams) (level : Nat) (idr : Bool) (at_ prev : Nat) (form : Option SliceForm) (nal : List Byte) :
    Option (SliceForm × Nat) :=
  match (if idr && at_ == 0 then 1 else 0), nalUnits nal with
  | 1, [v, s, q, u] =>
    if unitType v = 32 ∧ unitType s = 33 ∧ unitType q = 34 then
      match vpsForm p level v, spsForm p level s with
      | some i, some (j, k, bits, near) =>
        if i = j then (ppsForm k bits near q).bind (fun f => (sliceForm f idr at_ (ctus p) prev u).map (fun n => (f, n))) else none
      | _, _ => none
    else none
  | 0, [u] => form.bind (fun f => (sliceForm f idr at_ (ctus p) prev u).map (fun n => (f, n)))
  | _, _ => none

end Sys2Proof.Machine
end

