-- ==== Sys2Proof/Machine/Encode.lean ====
section
/-! DEFINITION. The encode engines (spec/09): ENCODE_OPEN, ENCODE_RATE, ENCODE_CLOSE, the converter (ENCODE_FRAME_DUE,
ENCODE_LINE_COMPLETE), the engines (ENCODE_FRAME_START, SLICE_PUBLISH, ENCODE_FRAME_ABANDONED) and RTP_TRANSMIT. -/

namespace Sys2Proof.Machine

def idTransmit : Nat := 19

/-! ### Rate (R269) -/

/-- The floor of a frame. -/
def encFloor (p : EncParams) : Nat := 256 + 2 * ctus p + 32 * sliceCount p

/-- Wsec: bytes of the frames whose time lies within the 1 s before time `t`. -/
def wsec (e : Enc) (t : Ticks) : Nat :=
  sumNat ((e.history.filter (fun x => decide (t ≤ x.1 + secT) && decide (x.1 < t))).map (·.2))

/-- The budget of a frame at time `t`. -/
def encBudget (e : Enc) (t : Ticks) : Nat := min e.rate.capFrame (e.rate.capSecond - wsec e t)

/-! ### ENCODE_OPEN (R278, R279) -/

def encFields (p : EncParams) : Bool :=
  decide (p.engine ≤ 1) && decide (p.matrix ≤ 2) && decide (p.rotate ≤ 3) && decide (p.filterH < 16) &&
    decide (p.filterV < 16) && within 1 15 p.frameDiv && within 1 68 p.sliceRows && decide (p.outKind ≤ 2) &&
    within 512 8972 p.mtu && p.ringBytes % 4096 == 0 && within 65536 268435456 p.ringBytes && decide (p.port < 16) &&
    decide (p.dscp < 64) && decide (p.pt < 128) && decide (p.extId ≤ 14) && within 10 25000 p.paceMbps &&
    within 64 8192 p.outW && within 64 4320 p.outH && p.outW % 8 == 0 && p.outH % 8 == 0

/-- The source is there: a placed head with a timing, or an open context that is not an unattached CODED one (R259). -/
def encSource (s : State) (p : EncParams) : Bool :=
  if p.tapContext then
    (openCtx s p.source).elim false (fun c => c.p.type != 1 || c.attach.isSome)
  else decide (p.source < 32) && (s.head p.source).pan.isSome && (tapTiming s p).isSome &&
    (!p.twinBoth || (p.source % 2 == 0 && (s.head p.source).twin))

/-- Byte ranges of an open context's buffers. -/
def ctxRanges (c : Ctx) : List (Nat × Nat) :=
  (c.p.base, ringBytesOf c.p) :: (if c.p.type = 1 then c.attach.elim [] (fun a =>
    [(a.poolBase, a.pool * a.poolPitch), (a.refBase, a.pool * a.refPitch)]) else [])

/-- Device ranges that an encode context uses. -/
def encRanges (p : EncParams) : List (Nat × Nat) :=
  [(p.inputBase, 2 * inputFrame p), (p.reconBase, 2 * inputFrame p)] ++
    (if p.outKind = 0 then [] else [(p.ringBase, p.ringBytes)])

/-- Ranges that do not meet one another. -/
def allApart : List (Nat × Nat) → Bool
  | [] => true
  | a :: r => r.all (fun b => a.2 == 0 || b.2 == 0 || apart a.1 a.2 b.1 b.2) && allApart r

def encRings (s : State) (p : EncParams) : Bool :=
  let mine := encRanges p
  let others := s.ctxs.flatMap (fun e => if e.2.state = .opened then ctxRanges e.2 else [])
  p.inputBase % 256 == 0 && p.reconBase % 256 == 0 && allApart mine &&
    mine.all (fun a => others.all (fun b => b.2 == 0 || apart a.1 a.2 b.1 b.2))

def encTarget (s : State) (n : Nat) : Option Nat := if n = 0xFF then tfree s.encs 16 else some n

/-- Main-die time of the last flip or tide of a tap. -/
def encKeyNow (s : State) (p : EncParams) : Ticks :=
  if p.tapContext then s.tide.lastNow else panCycle (s.head p.source).flipT

def encodeFault (s : State) (n : Nat) (p : EncParams) : Option Nat :=
  let l := (engineContexts s p.engine).map (·.2)
  if rowWise p ∧ l.any (fun x => rowWise x.1) = true then some stLimit
  else if thas s.encs n then some stBusy
  else if 15 < n ∨ encFields p = false ∨ encSource s p = false ∨
      ((tapSize s p (tapTiming s p)).elim false (encGeometry p)) = false then some stBadParam
  else if encRings s p = false then some stBadParam
  else if (encRanges p).all (fun a => dykePermits s idEncoder a.1 a.2 true) = false then some stDykeDenied
  else if loadFits s ((p, tapTiming s p) :: l) = false ∨ encDemandFits s p.engine ((p, tapTiming s p) :: l) = false then
    some stBudget
  else none

def cmdEncodeOpen (q : EncodeOpenP) (s : State) : Reply :=
  match encTarget s q.enc with
  | none => refuseFull s stLimit 12
  | some n => match encodeFault s n q.p with
    | some st => refuseFull s st 12
    | none => ok (s.setEnc n { p := q.p, lastDue := encKeyNow s q.p }) [byte n]

def execEncodeOpen (c : Caller) (p : EncodeOpenP) (s : State) : Host.Outcome State Fault Refusal :=
  .next (command c 0x0701 (cmdEncodeOpen p) s)

/-! ### ENCODE_RATE (R281) and ENCODE_CLOSE (R282) -/

def encCounters (e : Enc) (now : Ticks) : List Byte :=
  [e.cnt.frames, e.cnt.capped, e.cnt.capDropped, e.cnt.skipped, e.cnt.noSource, e.cnt.ringOverflow, e.cnt.idrCount,
    min (2 ^ 32 - 1) (wsec e now)].flatMap (leBytes 4) ++ [byte e.lastQp] ++ zeros 3

def rateOk (s : State) (e : Enc) (r : EncRate) : Bool :=
  let f := encFps s e.p (tapTiming s e.p)
  decide (r.q ≤ 51) && decide (encFloor e.p ≤ r.capFrame) && decide (encFloor e.p * f.1 ≤ r.capSecond * f.2)

def cmdEncodeRate (c : Caller) (p : EncodeRateP) (s : State) : Reply :=
  match tfind s.encs p.enc with
  | none => refuse s stBadParam
  | some e =>
    if p.queryOnly then ok s (encCounters e s.tb)
    else if callerRole s c < 1 then refuse s stRoleDenied
    else if rateOk s e p.rate then
      ok (s.setEnc p.enc { e with nextRate := some p.rate, forceIdr := e.forceIdr || p.forceIdr }) (encCounters e s.tb)
    else refuse s stBadParam

def execEncodeRate (c : Caller) (p : EncodeRateP) (s : State) : Host.Outcome State Fault Refusal :=
  .next (command c 0x0702 (cmdEncodeRate c p) s)

/-- An engine that works on an encode context abandons its frame (R280). -/
def abandonEnc (s : State) (n : Nat) : State :=
  { s with encEngines := tmap (fun _ e => match e.work with
      | some w => if w.enc = n then { e with abandon := true } else e
      | none => e) s.encEngines }

def cmdEncodeClose (n : Nat) (s : State) : Reply :=
  if thas s.encs n then
    let s := abandonEnc s n
    ok { s with encs := tdel s.encs n }
  else refuse s stBadParam

def execEncodeClose (c : Caller) (enc : Nat) (s : State) : Host.Outcome State Fault Refusal :=
  .next (command c 0x0703 (cmdEncodeClose enc) s)

/-! ### Due frames (R263, R264) -/

def countSkip (e : Enc) (old : Bool) : Enc :=
  if old then { e with cnt := { e.cnt with skipped := sat32 e.cnt.skipped } } else e

/-- The converter begins a frame; one whose lines are not all there is lost, and counts as skipped when it is whole-frame
(notes/assumptions/29.md). -/
def beginCapture (e : Enc) (fr : EncFrame) (pinned : Option Nat) : Enc :=
  let e := countSkip e (!rowWise e.p && e.capture.isSome)
  let e := { e with capture := some ⟨fr, pinned, 0, [], 0, []⟩, half := 1 - e.half, lastDue := fr.key }
  if rowWise e.p then { countSkip e e.waiting.isSome with waiting := some fr } else e

/-- A tide of a context tap: the complete buffer with the highest SEQ, or NO_SOURCE. -/
def dueContext (s : State) (n : Nat) (e : Enc) : State :=
  match (openCtx s e.p.source).filter (fun c => !c.isolated) with
  | none => s.setEnc n { e with lastDue := s.tide.lastNow, cnt := { e.cnt with noSource := sat32 e.cnt.noSource } }
  | some c => match fillSource c with
    | none => s.setEnc n { e with lastDue := s.tide.lastNow, cnt := { e.cnt with noSource := sat32 e.cnt.noSource } }
    | some k =>
      let r := (c.buf k).record
      s.setEnc n (beginCapture e ⟨s.tide.lastAt.toNat, r.capNs, r.capS, e.half, s.tide.lastNow⟩ (some k))

/-- ENCODE_FRAME_DUE: the tap's last flip or tide, once. -/
def execEncodeFrameDue (e : Fin 16) (s : State) : Host.Outcome State Fault Refusal :=
  match tfind s.encs e.val with
  | none => .next s
  | some x =>
    if x.lastDue = encKeyNow s x.p then .next s
    else if x.p.tapContext then
      if s.tide.count % max 1 x.p.frameDiv = 0 then .next (dueContext s e.val x) else .next s
    else
      let h := s.head x.p.source
      if h.st = .disabled ∨ h.frameCount % max 1 x.p.frameDiv ≠ 0 then .next s
      else .next (s.setEnc e.val
        (beginCapture x ⟨h.flipAt, timeNs h.flipAt, timeS h.flipAt, x.half, encKeyNow s x.p⟩ none))

/-! ### The converter (R260 to R262; notes/assumptions/30.md) -/

/-- Limited-range RGB mapped to full range (R128). -/
def unlimitRgb (p : Comp) : Comp :=
  let g (x : Int) : Int := clampI 0 4095 (((x - 256) * 4095 + 1752) / 3504)
  ⟨g p.a, g p.b, g p.c⟩

/-- A head's pixel as YCbCr 4:4:4, limited range, matrix `m`. -/
def headToYcc (t : Timing) (m : Nat) (v : Nat × Nat × Nat) : List Int :=
  let n := if t.depth then 10 else 8
  let c : Comp := ⟨expand12 n v.1, expand12 n v.2.1, expand12 n v.2.2⟩
  let y := if t.colour then
      (if t.matrix = m ∧ t.range = false then c else toYcc m false 1 (toRgb t.matrix t.range 1 c))
    else toYcc m false 1 (if t.range then c else unlimitRgb c)
  [y.a, y.b, y.c]

/-- A filter sum over a sampler (R124). -/
def scaleFn (s : State) (f : Int → Int → List Int) (n fh fv : Nat) (hp vp : Int) : List Int :=
  let hc := tapsOf s false fh (posPhase hp)
  let vc := tapsOf s true fv (posPhase vp)
  let rows := (List.range 6).map (fun j =>
    let px := (List.range 8).map (fun k => f (posInt hp - 3 + k) (posInt vp - 2 + j))
    (List.range n).map (fun c => fir hc (px.map (fun l => nth 0 l c))))
  (List.range n).map (fun c => fir vc (rows.map (fun l => nth 0 l c)))

/-- A pixel of the tapped head picture, counted from the crop. -/
def tapPixel (e : Enc) (t : Timing) (cw ch : Nat) (x y : Int) : List Int :=
  let x := (clampI 0 ((cw : Int) - 1) x).toNat + e.p.srcX
  let y := (clampI 0 ((ch : Int) - 1) y).toNat + e.p.srcY
  headToYcc t e.p.matrix (nth (0, 0, 0) (tget [] e.tap (2 * y + x / max 1 t.hactive)) (x % max 1 t.hactive))

/-- Planes of a tapped buffer with the crop on them. -/
def encPlane0 (p : EncParams) (c : Ctx) (k cw ch : Nat) : Plane :=
  ⟨bufAddr c k, c.p.stride0, fmtBytes c.p.format, fmtFields c.p.format, p.srcX, p.srcY, cw, ch, false⟩

def encPlane1 (p : EncParams) (c : Ctx) (k cw ch : Nat) : Plane :=
  let f := c.p.format
  let v := if fmt420 f then 2 else 1
  let w := if fmtBytes f = 1 then 8 else 10
  ⟨bufAddr c k + c.p.plane1, c.p.stride1, 2 * fmtBytes f, [(0, w), (8 * fmtBytes f, w)], p.srcX / 2, p.srcY / v, cw / 2,
    ch / v, false⟩

/-- A one-plane pixel of a tapped buffer as YCbCr: an RGB one converted, a YCbCr one taken as it is. -/
def bufferPixel (s : State) (z : List Nat) (p : EncParams) (c : Ctx) (pl : Plane) (x y : Int) : List Int :=
  let l := planeAt s z pl x y
  if fmtYcc c.p.format then l
  else
    let y := toYcc p.matrix false 1 ⟨nth 0 l 0, nth 0 l 1, nth 0 l 2⟩
    [y.a, y.b, y.c]

/-- Component codes of one scaled line, 12 bits. -/
def scaledLine (s : State) (e : Enc) (k : EncCapture) (t : Option Timing) (size : Nat × Nat) (v : Nat) :
    List (List Int) :=
  let (cw, ch) := encCropSize e.p size.1 size.2
  let (ow, oh) := preSize e.p
  let vp := scalePos ch oh v
  (List.range ow).map (fun u =>
    let hp := scalePos cw ow u
    match t, k.pinned with
    | some t, none => scaleFn s (tapPixel e t cw ch) 3 e.p.filterH e.p.filterV hp vp
    | _, some b =>
      let c := s.ctx e.p.source
      if fmtTwoPlane c.p.format then
        let (hq, vq) := chromaPos c.p.format hp vp
        scaleFn s (planeAt s k.zeroed (encPlane0 e.p c b cw ch)) 1 e.p.filterH e.p.filterV hp vp ++
          scaleFn s (planeAt s k.zeroed (encPlane1 e.p c b cw ch)) 2 e.p.filterH e.p.filterV hq vq
      else scaleFn s (bufferPixel s k.zeroed e.p c (encPlane0 e.p c b cw ch)) 3 e.p.filterH e.p.filterV hp vp
    | none, none => [0, 0, 0])

/-- One past the last source line that the vertical taps of scaled line `v` read (R262); `f`: the format of a tapped buffer, whose
4:2:0 chroma taps may reach further than its luma taps. -/
def linesNeeded (p : EncParams) (f : Option Nat) (size : Nat × Nat) (v : Nat) : Nat :=
  let (_, ch) := encCropSize p size.1 size.2
  let (_, oh) := preSize p
  let vp := scalePos ch oh v
  let luma := (clampI 0 ((ch : Int) - 1) (posInt vp + 3)).toNat + 1
  match f with
  | some f =>
    if fmtTwoPlane f && fmt420 f then
      p.srcY + max luma (2 * (clampI 0 ((ch : Int) / 2 - 1) (posInt (chromaPos f 0 vp).2 + 3)).toNat + 1)
    else p.srcY + luma
  | none => p.srcY + luma

/-- The format of the buffers that a context tap reads. -/
def tapFormat (s : State) (p : EncParams) : Option Nat := if p.tapContext then some (s.ctx p.source).p.format else none

/-- The class of an engine (R277). -/
def encClass (p : EncParams) : Nat := 0x2C + p.engine

/-- The head lines up to `n` have passed the converter. -/
def tapHolds (e : Enc) (t : Timing) (n : Nat) : Bool :=
  (List.range n).all (fun y =>
    decide (t.hactive ≤ (tget [] e.tap (2 * y)).length) &&
      (!e.p.twinBoth || decide (t.hactive ≤ (tget [] e.tap (2 * y + 1)).length)))

/-- Read a line of a buffer for the converter: the device lines whose bytes were denied. -/
def readSourceLine (s : State) (cls : Nat) (c : Ctx) (k y : Nat) : List Nat × State :=
  let f := c.p.format
  let (l, s) := classPieces s cls idEncoder (planeAddr c k false y 0) (c.p.width * fmtBytes f)
  let (m, s) :=
    if fmtTwoPlane f && (!fmt420 f || y % 2 == 0) then
      classPieces s cls idEncoder (planeAddr c k true (if fmt420 f then y / 2 else y) 0) (ceilDiv c.p.width 2 * 2 * fmtBytes f)
    else ([], s)
  (((l ++ m).filter (·.denied)).map (fun p => p.addr / 64), s)

/-- Read the buffer's lines that the next scaled line needs. -/
def readSource (s : State) (n : Nat) (e : Enc) (k : EncCapture) (b to_ : Nat) : State :=
  let c := s.ctx e.p.source
  let (z, s) := ((List.range to_).drop k.srcRead).foldl (fun (z, s) y =>
    let (d, s) := readSourceLine s (encClass e.p) c b y
    (z ++ d, s)) (k.zeroed, s)
  s.setEnc n { e with capture := some { k with srcRead := max k.srcRead to_, zeroed := z } }

/-- A sample of the input ring (format 0x01 or 0x02). -/
def inputSample (p : EncParams) (x : Int) : List Byte :=
  if p.main10 then leBytes 2 (reduceDepth true x) else [byte (reduceDepth false x)]

/-- Chroma of the even columns of a scaled line. -/
def evenChroma (l : List (List Int)) : List (Nat × Nat) :=
  ((l.zipIdx).filter (fun e => e.2 % 2 == 0)).map (fun e => ((nth 0 e.1 1).toNat, (nth 0 e.1 2).toNat))

/-- Write scaled line `v` into the input ring, and its chroma line after an odd one (R260, R261). -/
def writeScaled (s : State) (p : EncParams) (k : EncCapture) (l : List (List Int)) : State :=
  let (pw, ph) := paddedSize p
  let stride := sampleBytes p * pw
  let base := p.inputBase + k.fr.half * inputFrame p
  let s := (classWrite s (encClass p) idEncoder (base + k.lines * stride) (l.flatMap (fun x => inputSample p (nth 0 x 0)))).2
  if k.lines % 2 = 1 then
    let avg (a b : Nat) : List Byte := inputSample p (((a + b + 1) / 2 : Nat) : Int)
    (classWrite s (encClass p) idEncoder (base + stride * ph + k.lines / 2 * stride)
      ((k.chroma.zip (evenChroma l)).flatMap (fun e => avg e.1.1 e.2.1 ++ avg e.1.2 e.2.2))).2
  else s

/-- A whole frame is in the input ring (R263, R265). -/
def captureDone (e : Enc) (fr : EncFrame) : Enc :=
  let e := { e with capture := none }
  if rowWise e.p then e else { countSkip e e.waiting.isSome with waiting := some fr }

/-- The next scaled line of a capture is complete. -/
def lineComplete (s : State) (n : Nat) (e : Enc) (k : EncCapture) (t : Option Timing) (size : Nat × Nat) : State :=
  let s := match k.pinned with
    | some b => readSource s n e k b (linesNeeded e.p (tapFormat s e.p) size k.lines)
    | none => s
  let k := (((tfind s.encs n).bind (·.capture))).getD k
  let l := scaledLine s e k t size k.lines
  let s := writeScaled s e.p k l
  let k' := { k with lines := k.lines + 1, chroma := evenChroma l }
  let e := { e with capture := some k' }
  let s := { s with encEngines := tmap (fun _ (g : EncEngine) =>
    { g with work := g.work.map (fun (w : EncWork) => if w.enc = n ∧ w.fr.key = k.fr.key then { w with lines := k'.lines } else w) }) s.encEngines }
  s.setEnc n (if k'.lines = (preSize e.p).2 then captureDone e k.fr else e)

/-- The heads that an encode context taps hand over what is due (R108). -/
def pumpTap (s : State) (n : Nat) : State :=
  match tfind s.encs n with
  | some x => ((s.heads.map (·.1)).filter (tapsHead x)).foldl pump s
  | none => s

/-- ENCODE_LINE_COMPLETE (R262). -/
def execEncodeLineComplete (e : Fin 16) (s : State) : Host.Outcome State Fault Refusal :=
  let s := pumpTap s e.val
  match tfind s.encs e.val with
  | none => .next s
  | some x => match x.capture with
    | none => .next s
    | some k =>
      let t := if x.p.tapContext then none else (s.head x.p.source).gen
      match tapSize s x.p t with
      | none => .next s
      | some size =>
        if t.elim true (fun t => x.tapKey == k.fr.key && tapHolds x t (linesNeeded x.p none size k.lines)) then
          .next (lineComplete s e.val x k t size)
        else .next s

/-! ### Frames at an engine (R265 to R272) -/

/-- Frames until the frame count is due for a divisor: 1 at least, and the count wraps to 0. -/
def framesToDue (count d : Nat) : Nat := min (d - count % d) (2 ^ 32 - count)

/-- The earliest main-die time of a row-wise context's next due flip (R266): no flip comes before its own anchor, and each frame takes
its nominal lines, or those with VFP_MIN where the front porch may be shorter (R147, R148, R156). -/
def nextDueFlip (s : State) (p : EncParams) : Option Rat :=
  let h := s.head p.source
  match h.gen with
  | some t =>
    if h.st = .disabled then none
    else
      let l := lineRat s t
      let m := framesToDue h.frameCount (max 1 p.frameDiv)
      let short := h.porchVrr || groupVrr s p.source || h.fixed.isSome || h.realign.isSome
      let least := natRat (if short then t.vactive + needLines t else vtotalNom t) - 1 / 4
      let first := match h.next with
        | some n => n.at_
        | none => max (h.flipT + least * l) ((ownAnchor s t h).elim 0 (·.at_))
      some (first + natRat (m - 1) * least * l)
  | none => none

/-- R266: a whole-frame frame of context `p` may start now on its engine. -/
def gapAllows (s : State) (p : EncParams) : Bool :=
  rowWise p || s.encs.all (fun x => x.2.p.engine != p.engine || !rowWise x.2.p ||
    (match nextDueFlip s x.2.p with
      | some f => decide (natRat (s.now + s.panTicks (encCharge s p (tapTiming s p) * coreT)) < f)
      | none => true))

/-- The ready frame that an engine starts: earliest frame time, lowest context. -/
def readyFrame (s : State) (e : Nat) : Option (Nat × Enc × EncFrame) :=
  minBy (fun x => x.2.2.time) (s.encs.filterMap (fun x =>
    if x.2.p.engine = e ∧ gapAllows s x.2.p = true then x.2.waiting.map (fun f => (x.1, x.2, f)) else none))

/-- Scaled lines of a frame that are in the input ring when its engine starts it: those that the converter has written, or all of a
whole frame. -/
def capturedLines (x : Enc) (f : EncFrame) : Nat :=
  match x.capture with
  | some k => if k.fr.key = f.key then k.lines else (preSize x.p).2
  | none => (preSize x.p).2

/-- ENCODE_FRAME_START (R265, R269, R270, R272). -/
def startFrame (s : State) (e n : Nat) (x : Enc) (f : EncFrame) : State :=
  let x := { x with waiting := none, rate := x.nextRate.getD x.rate, nextRate := none }
  let b := encBudget x f.time
  if b < encFloor x.p then
    s.setEnc n { x with cnt := { x.cnt with capDropped := sat32 x.cnt.capDropped } }
  else
    let idr := x.forceIdr || (x.p.idrFrames != 0 && decide (x.p.idrFrames ≤ x.sinceIdr))
    let s := s.setEnc n { x with forceIdr := false }
    let r := stateRange (192 + n)
    let s := if (s.encEngine e).prevEnc = some n then s else (classRead s (encClass x.p) idEncoder r.1 r.2 .plain true).2.2
    s.setEncEngine e { s.encEngine e with
      work := some ⟨n, f, idr, b, 0, 0, 0, 0, capturedLines x f, false, false, s.ref, 0, 0⟩, prevEnc := some n, abandon := false }

def execEncodeFrameStart (e : Fin 2) (s : State) : Host.Outcome State Fault Refusal :=
  if (s.encEngine e.val).work.isSome then .next s
  else match readyFrame s e.val with
    | some (n, x, f) => .next (startFrame s e.val n x f)
    | none => .next s

/-! ### Slices (R273, R274, R276) -/

def pad32 (n : Nat) : Nat := ceilDiv n 32 * 32

/-- Bytes of the data area of a ring. -/
def ringData (p : EncParams) : Nat := p.ringBytes - 64

/-- Write to a context's ring (R273). -/
def ringPut (s : State) (p : EncParams) (off : Nat) (l : List Byte) : State :=
  if p.outKind = 0 then s.emit (.hostWrite (p.ringBase + off) l)
  else (classWrite s (encClass p) idEncoder (p.ringBase + off) l).2

/-- The class of the transmitter's port (R277). -/
def txClass (p : EncParams) : Nat := 0x20 + p.port / 4

/-- The transmitter advances CONSUMER past an entry once the packets of it have left (R275). -/
def settleSent (s : State) (n : Nat) (x : Enc) : Enc × State :=
  match x.sending with
  | some c =>
    if x.pacedAt ≤ s.ref then
      let s := (classWrite s (txClass x.p) idTransmit (x.p.ringBase + 0x20) (leBytes 4 c)).2
      let x := { x with consumer := c, sending := none }
      (x, s.setEnc n x)
    else (x, s)
  | none => (x, s)

/-- CONSUMER as the engine finds it: the transmitter's own, that of device memory, or that of host memory, which the model
does not hold: a free offset. -/
def ringConsumer (s : State) (x : Enc) : Nat × State :=
  if x.p.outKind = 2 then (x.consumer, s)
  else if x.p.outKind = 1 then
    let (l, _, s) := classRead s (encClass x.p) idEncoder (x.p.ringBase + 0x20) 4 .plain true
    (leNat l % ringData x.p, s)
  else
    let (n, s) := s.drawNat
    (n % (ringData x.p / 32) * 32, s)

/-- An entry's header (R273). -/
def entryHeader (n : Nat) (x : Enc) (w : EncWork) (len rows qp : Nat) (last capped : Bool) : List Byte :=
  leBytes 4 len ++ leBytes 4 x.frameNo ++ leBytes 4 w.fr.capNs ++ leBytes 6 w.fr.capS ++
    leBytes 2 (b2n (w.slice == 0) + 2 * b2n last + 4 * b2n w.idr + 8 * b2n capped) ++ [byte w.slice, byte rows] ++
    leBytes 2 w.row ++ [byte qp, byte n] ++ zeros 6

/-- Publish an entry; none when it finds too little free space (R274). -/
def publish (s : State) (n : Nat) (x : Enc) (header nal : List Byte) : Option State × State :=
  let size := ringData x.p
  let (x, s) := settleSent s n x
  let (c, s) := ringConsumer s x
  let entry := 32 + pad32 nal.length
  let pad := if size < x.producer + entry then size - x.producer else 0
  let free := size - (x.producer + size - c) % size - 32
  if free < pad + entry then (none, s)
  else
    let s1 := if pad = 0 then s else ringPut s x.p (64 + x.producer) (zeros 18 ++ leBytes 2 16 ++ zeros 12)
    let at_ := if pad = 0 then x.producer else 0
    let s1 := ringPut s1 x.p (64 + at_) (header ++ nal ++ zeros (pad32 nal.length - nal.length))
    let prod := (at_ + entry) % size
    let s1 := ringPut s1 x.p 0 (leBytes 4 prod)
    (some (s1.setEnc n { x with producer := prod }), s1)

/-- Bytes of a frame join the context's history, of which the last second before its time is kept. -/
def addHistory (h : List (Ticks × Nat)) (t : Ticks) (n : Nat) : List (Ticks × Nat) :=
  let h := h.filter (fun x => decide (t ≤ x.1 + secT))
  match h with
  | (u, m) :: r => if u = t then (u, m + n) :: r else (t, n) :: (u, m) :: r
  | [] => [(t, n)]

/-- The frame at an engine ends: its reconstruction is written (free bytes, as the coding standard gives them) and counted. -/
def encFrameEnd (s : State) (e n : Nat) (w : EncWork) : State :=
  match tfind s.encs n with
  | none => s
  | some x =>
    let (l, s) := s.drawBytes (inputFrame x.p)
    let s := (classWrite s (encClass x.p) idEncoder (x.p.reconBase + x.frameNo % 2 * inputFrame x.p) l).2
    let x := { x with
      frameNo := (x.frameNo + 1) % 2 ^ 32, poc := w.poc, sinceIdr := if w.idr then 1 else x.sinceIdr + 1,
      cnt := { x.cnt with
        frames := sat32 x.cnt.frames, capped := if w.capped then sat32 x.cnt.capped else x.cnt.capped,
        idrCount := if w.idr then sat32 x.cnt.idrCount else x.cnt.idrCount } }
    (s.setEnc n x).setEncEngine e { s.encEngine e with work := none }

/-! ### Coding (R256, R268, R271, R277) -/

/-- R271 over one row of CTUs: `left` CTUs come after it, `begun` tells that its slice has begun, `after` slices have not; bytes spent,
capped, and the bytes that the row takes. -/
def codeRow (b after : Nat) : (left : Nat) → List CtuCode → (spent : Nat) → (capped : Bool) → Nat × Bool
  | _, [], spent, capped => (spent, capped)
  | left, c :: r, spent, capped =>
    let reserve := 2 * (left + r.length) + 32 * after + 32
    let over_ := capped || decide (b < spent + c.size + reserve)
    codeRow b after left r (spent + (if over_ then c.minimal else c.size)) over_

/-- R271 over the rows of a slice: the work with its `spent`, `raise` and `capped`, and the QP of the last row. -/
def codeRows (p : EncParams) (q after : Nat) : List (List CtuCode) → EncWork → (qp : Nat) → EncWork × Nat
  | [], w, qp => (w, qp)
  | l :: r, w, _ =>
    let left := (ctuRows p - w.row - 1) * ctuCols p
    let (spent, capped) := codeRow w.budget after left l w.spent w.capped
    let threatened := w.budget * (w.row + 1) < spent * ctuRows p
    codeRows p q after r { w with spent := spent, capped := capped, row := w.row + 1, raise := if threatened then w.raise + 2 else w.raise }
      (min 51 (q + w.raise))

/-- The rows of the next slice of a frame. -/
def sliceRows (p : EncParams) (w : EncWork) : Nat := min p.sliceRows (ctuRows p - w.row)

/-- The rule of R271 on the next slice as it was coded. -/
def codeSlice (x : Enc) (w : EncWork) (c : SliceCode) : EncWork × Nat :=
  codeRows x.p x.rate.q (sliceCount x.p - w.slice - 1) c.rows w 0

/-- A vector's reference block lies in the search window of its CTU, at column `cx` and row `cy` (R268). -/
def inWindow (cx cy : Nat) (v : Area × Int × Int) : Bool :=
  let (a, mx, my) := v
  let lo (at_ : Nat) (m : Int) : Int := 4 * (at_ : Int) + m
  decide (4 * (64 * (cx : Int) - 256) ≤ lo a.x mx) && decide (lo (a.x + a.w - 1) mx ≤ 4 * (64 * (cx : Int) + 319)) &&
    decide (4 * (64 * (cy : Int) - 128) ≤ lo a.y my) && decide (lo (a.y + a.h - 1) my ≤ 4 * (64 * (cy : Int) + 191))

/-- The bounds of R271 on the minimal form: 2 bytes, and the headers that the frame's and a slice's first CTU carry
(notes/assumptions/126.md). -/
def minimalBound (first slice : Bool) : Nat := 2 + (if slice then 32 else 0) + (if first then 256 else 0)

/-- The CTUs of a slice are those of its rows, within the bounds of R268 and R271. -/
def ctusOk (x : Enc) (w : EncWork) (c : SliceCode) : Bool :=
  c.rows.length == sliceRows x.p w && c.rows.zipIdx.all (fun r =>
    r.1.length == ctuCols x.p && r.1.zipIdx.all (fun u =>
      let start := r.2 == 0 && u.2 == 0
      decide (u.1.minimal ≤ minimalBound (start && w.row == 0) start) && u.1.vectors.all (inWindow u.2 (w.row + r.2)) &&
        (!w.idr || u.1.vectors == [])))

/-- What the NAL units of an engine's next slice say (R256). -/
def sliceUnits (s : State) (x : Enc) (w : EncWork) (c : SliceCode) : Option (SliceForm × Nat) :=
  let f := encFps s x.p (tapTiming s x.p)
  unitsForm x.p (levelOf x.p.outW x.p.outH f.1 f.2) w.idr (w.row * ctuCols x.p) x.poc x.form c.nal

/-- The coding of a slice is one that the engine gives: NAL units of R256 of the frame's one picture, CTUs of R268 and R271, which account
for its bytes up to the slice's end, and the frame's slices within its budget. -/
def codeOk (s : State) (x : Enc) (w : EncWork) (c : SliceCode) : Bool :=
  let bytes := (codeSlice x w c).1.spent - w.spent
  (sliceUnits s x w c).elim false (fun u => w.slice == 0 || u.2 == w.poc) && ctusOk x w c &&
    decide (bytes ≤ c.nal.length) && decide (c.nal.length ≤ bytes + 32) && decide ((codeSlice x w c).1.spent ≤ w.budget) &&
    decide (w.bytes + c.nal.length ≤ w.budget)

/-- The input of an output CTU line: the ring frame's column and line of output position (x, y), with ROTATE clockwise (R261). -/
def rotateBack (p : EncParams) (x y : Nat) : Nat × Nat :=
  let (w, h) := preSize p
  if p.rotate = 0 then (x, y) else if p.rotate = 1 then (y, h - 1 - x) else if p.rotate = 2 then (w - 1 - x, h - 1 - y)
  else (w - 1 - y, x)

/-- The rectangle of the input frame that a CTU comes from. -/
def ctuSource (p : EncParams) (cx cy : Nat) : Area :=
  let x1 := min p.outW (64 * cx + 64) - 1
  let y1 := min p.outH (64 * cy + 64) - 1
  let a := rotateBack p (64 * cx) (64 * cy)
  let b := rotateBack p x1 y1
  ⟨min a.1 b.1, min a.2 b.2, max a.1 b.1 - min a.1 b.1 + 1, max a.2 b.2 - min a.2 b.2 + 1⟩

/-- The size of a reconstructed picture, in output coordinates, rounded up as the input ring's is (R261). -/
def reconSize (p : EncParams) : Nat × Nat := (ceilDiv p.outW 64 * 64, ceilDiv p.outH 64 * 64)

/-- The byte ranges of a rectangle of a frame of I bytes and of `size` at `base`, luma and chroma (R261). -/
def frameRanges (p : EncParams) (size : Nat × Nat) (base : Nat) (a : Area) : List (Nat × Nat) :=
  let (pw, ph) := size
  let b := sampleBytes p
  (List.range a.h).map (fun i => (base + ((a.y + i) * pw + a.x) * b, a.w * b)) ++
    ((List.range a.h).filter (fun i => (a.y + i) % 2 == 0)).map (fun i =>
      (base + (ph * pw + (a.y + i) / 2 * pw + a.x / 2 * 2) * b, ceilDiv a.w 2 * 2 * b))

/-- The part of the reference picture that a CTU's search reads: the whole window at the start of a row, then the strip of 64 columns
that the window slides over (R268). -/
def windowArea (p : EncParams) (cx cy : Nat) : Area :=
  let x0 := if cx = 0 then 0 else 64 * cx + 256
  let x1 := min p.outW (64 * cx + 320)
  let y0 := 64 * cy - 128
  let y1 := min p.outH (64 * cy + 192)
  ⟨x0, y0, x1 - x0, y1 - y0⟩

/-- What the engine reads for one CTU: its input, and for a P picture its window strip of the previous coded picture. -/
def ctuReads (x : Enc) (w : EncWork) (cx cy : Nat) : List (Nat × Nat) :=
  frameRanges x.p (paddedSize x.p) (x.p.inputBase + w.fr.half * inputFrame x.p) (ctuSource x.p cx cy) ++
    (if w.idr then [] else frameRanges x.p (reconSize x.p) (x.p.reconBase + (x.frameNo + 1) % 2 * inputFrame x.p) (windowArea x.p cx cy))

/-- The engine's reads for a slice (R261, R268, R277). -/
def sliceReads (s : State) (x : Enc) (w : EncWork) : State :=
  (List.range (sliceRows x.p w)).foldl (fun s r =>
    (List.range (ctuCols x.p)).foldl (fun s cx =>
      (ctuReads x w cx (w.row + r)).foldl (fun s a => (classRead s (encClass x.p) idEncoder a.1 a.2).2.2) s) s) s

/-- The slice that an engine has coded goes to the ring. -/
def putSlice (s : State) (e : Nat) (x : Enc) (w : EncWork) (c : SliceCode) : State :=
  let n := w.enc
  let s := sliceReads s x w
  let (w', qp) := codeSlice x w c
  let (form, poc) := ((sliceUnits s x w c).map (fun u => (some u.1, u.2))).getD (x.form, w.poc)
  let w' := { w' with slice := w.slice + 1, at_ := s.ref, bytes := w.bytes + c.nal.length, poc := poc }
  let x := { x with form := form }
  let s := s.setEnc n x
  let last := w'.row == ctuRows x.p
  let (w', s) :=
    if w.discarding then (w', s)
    else match publish s n x (entryHeader n x w c.nal.length (sliceRows x.p w) qp last w'.capped) c.nal with
      | (some s, _) =>
        let y := (tfind s.encs n).getD x
        (w', s.setEnc n { y with history := addHistory y.history w.fr.time c.nal.length, lastQp := qp })
      | (none, s) =>
        ({ w' with discarding := true },
          let y := (tfind s.encs n).getD x
          s.setEnc n { y with forceIdr := true, cnt := { y.cnt with ringOverflow := sat32 y.cnt.ringOverflow } })
  if last then encFrameEnd s e n w' else s.setEncEngine e { s.encEngine e with work := some w' }

/-- The slice may end now: its input is there, and its CTUs took their cycles (R258, R265, R276). -/
def sliceReady (s : State) (x : Enc) (w : EncWork) : Bool :=
  let rows := sliceRows x.p w
  decide (min x.p.outH (64 * (w.row + rows)) ≤ w.lines || !rowWise x.p) &&
    decide (w.at_ + (4096 * (rows * ctuCols x.p) + 256) * coreT ≤ s.ref)

/-- SLICE_PUBLISH: engine `e` has coded its next slice; `c` is what the coding gave. -/
def execSlicePublish (e : Fin 2) (c : SliceCode) (s : State) : Host.Outcome State Fault Refusal :=
  let g := s.encEngine e.val
  match g.work with
  | none => .next s
  | some w => match tfind s.encs w.enc with
    | none => .next s
    | some x =>
      if g.abandon = false ∧ sliceReady s x w = true ∧ codeOk s x w c = true then .next (putSlice s e.val x w c)
      else .next s

/-- ENCODE_FRAME_ABANDONED (R280): no further slice of the frame is published; an IDR picture is still owed. -/
def execEncodeFrameAbandoned (e : Fin 2) (s : State) : Host.Outcome State Fault Refusal :=
  let g := s.encEngine e.val
  match g.work with
  | some w =>
    if g.abandon then
      let s := s.setEncEngine e.val { g with work := none, abandon := false }
      match tfind s.encs w.enc with
      | some x => .next (s.setEnc w.enc { x with forceIdr := x.forceIdr || w.idr })
      | none => .next s
    else .next s
  | none => .next s

/-! ### The RTP transmitter (R275) -/

/-- RTP payloads of one NAL unit: itself, or fragmentation units (PRESUMED: RFC 7798; notes/assumptions/31.md). -/
def nalPackets (mtu : Nat) (u : List Byte) : List (List Byte) :=
  if u.length ≤ mtu then [u]
  else
    let h0 := (nth 0#8 u 0).toNat
    let type := h0 / 2 % 64
    let parts := chunks (mtu - 3) u.length (u.drop 2)
    (parts.zipIdx).map (fun e =>
      [byte (h0 / 128 * 128 + 98 + h0 % 2), nth 0#8 u 1,
        byte (b2n (e.2 == 0) * 128 + b2n (e.2 + 1 == parts.length) * 64 + type)] ++ e.1)

/-- The entry at an offset of a ring, read by the transmitter: header and NAL bytes. -/
def readEntry (s : State) (p : EncParams) (at_ : Nat) : List Byte × List Byte × State :=
  let (h, _, s) := classRead s (txClass p) idTransmit (p.ringBase + 64 + at_) 32
  let (l, _, s) := classRead s (txClass p) idTransmit (p.ringBase + 64 + at_ + 32) (min (leAt h 0 4) (ringData p - at_ - 32))
  (h, l, s)

/-- The Internet checksum of bytes (PRESUMED: RFC 1071). -/
def inetSum (l : List Byte) : Nat :=
  let x := sumNat ((chunks 2 l.length (if l.length % 2 = 0 then l else l ++ [0#8])).map beNat)
  let f (n : Nat) : Nat := n % 65536 + n / 65536
  65535 - f (f x)

/-- A UDP datagram in an IP packet of the transmitter with its checksums and DSCP; the identification, hop limit and flow label, which
the spec leaves open, are free (PRESUMED: RFC 768, RFC 791, RFC 8200; notes/assumptions/129.md). -/
def udpPacket (s : State) (own dst : IpAddr) (dscp srcPort dstPort : Nat) (payload : List Byte) : List Byte × State :=
  let n := if dst.v6 then 16 else 4
  let len := 8 + payload.length
  let addrs := beBytes n own.addr ++ beBytes n dst.addr
  let head := beBytes 2 srcPort ++ beBytes 2 dstPort ++ beBytes 2 len
  let pseudo := addrs ++ (if dst.v6 then beBytes 4 len ++ [0#8, 0#8, 0#8, 17#8] else [0#8, 17#8] ++ beBytes 2 len)
  let sum := inetSum (pseudo ++ head ++ [0#8, 0#8] ++ payload)
  let udp := head ++ beBytes 2 (if sum = 0 then 65535 else sum) ++ payload
  let (id, s) := s.drawNat
  let (hops, s) := s.drawNat
  if dst.v6 then
    (beBytes 4 (6 * 2 ^ 28 + dscp * 2 ^ 22 + id % 2 ^ 20) ++ beBytes 2 len ++ [17#8, byte hops] ++ addrs ++ udp, s)
  else
    let ip (c : Nat) : List Byte := [0x45#8, byte (4 * dscp)] ++ beBytes 2 (20 + len) ++ beBytes 2 id ++ [0#8, 0#8, byte hops, 17#8] ++
      beBytes 2 c ++ addrs
    (ip (inetSum (ip 0)) ++ udp, s)

/-- The IP packet of an encode context's RTP packet (R275). -/
def ipPacket (s : State) (p : EncParams) (payload : List Byte) : List Byte × State :=
  udpPacket s (ownOf (s.port p.port) p.dst) p.dst p.dscp p.srcPort p.dstPort payload

/-- Ticks that `n` bytes take at a pace of Mbit/s. -/
def paceT (mbps n : Nat) : Nat := ceilDiv (n * 8 * 24000) mbps

/-- One RTP packet leaves at its pace (R275). -/
def sendRtp (s : State) (n : Nat) (r : Rtp) : State :=
  match tfind s.encs n with
  | none => s
  | some x =>
    let (l, s) := ipPacket s x.p (rtpBytes r)
    let t := max s.ref x.pacedAt
    (s.setEnc n { x with pacedAt := t + paceT x.p.paceMbps l.length }).emit (.rtp n x.p.port t l)

/-- Send the packets of an entry. -/
def sendEntry (s : State) (n : Nat) (x : Enc) (h nal : List Byte) : State :=
  let pk := (nalUnits nal).flatMap (nalPackets x.p.mtu)
  let flags := leAt h 0x12 2
  let sent := (if flags.testBit 0 then [] else x.sent) ++ pk.flatten
  let (capNs, capS) := (leAt h 8 4, leAt h 0xC 6)
  let ts := (capS * 1000000000 + capNs) * 90000 / 1000000000 % 2 ^ 32
  let elem := elemBytes ⟨16, 1, false, true, 0, leAt h 4 4 % 256, capS, capNs, crc 1 sent, 0, 0, 0, 0⟩
  let s := (pk.zipIdx).foldl (fun s (e : List Byte × Nat) =>
    let m := flags.testBit 1 && e.2 + 1 == pk.length
    sendRtp s n { marker := m, type := x.p.pt, seq := (x.rtpSeq + e.2) % 65536, ts := ts, ssrc := x.p.ssrc,
                  ext := if m && x.p.extId != 0 then some (0xBEDE, byte (16 * x.p.extId + 15) :: elem) else none,
                  payload := e.1 }) s
  match tfind s.encs n with
  | some y => s.setEnc n { y with rtpSeq := (x.rtpSeq + pk.length) % 65536, sent := sent }
  | none => s

/-- The next published entry is sent; CONSUMER advances past it once its packets have left. -/
def transmit (s : State) (n : Nat) (x : Enc) : State :=
  let size := ringData x.p
  let (h, nal, s) := readEntry s x.p x.consumer
  let (at_, h, nal, s) :=
    if (leAt h 0x12 2).testBit 4 then
      let (h, nal, s) := readEntry s x.p 0
      (0, h, nal, s)
    else (x.consumer, h, nal, s)
  let c := (at_ + 32 + pad32 nal.length) % size
  let s := sendEntry s n x h nal
  s.setEnc n { (tfind s.encs n).getD x with sending := some c }

/-- RTP_TRANSMIT: the entry before ends once its packets have left, and the next one is sent. -/
def execRtpTransmit (e : Fin 16) (s : State) : Host.Outcome State Fault Refusal :=
  match tfind s.encs e.val with
  | some x =>
    if x.p.outKind = 2 ∧ x.pacedAt ≤ s.ref then
      let (x, s) := settleSent s e.val x
      if x.consumer ≠ x.producer ∧ portUp s x.p.port = true then .next (transmit s e.val x) else .next s
    else .next s
  | none => .next s

end Sys2Proof.Machine
end

