-- ==== Sys2Proof/Machine/Crystal.lean ====
section
/-! DEFINITION. The crystallizer's host jobs (spec/10 R290 to R303): CRYS_JOB, CRYS_RESUME, CRYS_FLUSH, CRYS_JOB_START and
CRYS_DONE. -/

namespace Sys2Proof.Machine

def stateArea : Nat := 20480

/-! ### CRYS_JOB (R299, R300) -/

def crysFields (p : CrysParams) : Bool :=
  within 4 256 p.blockKib && (if p.filter then within 1 8192 p.row else p.row == 0) && within 1 (2 ^ 30) p.inBytes &&
    (!(p.filter && !p.decompress) || p.inBytes % 4 == 0) && within 64 (2 ^ 32 - 1) p.outBytes && p.stateBase % 4096 == 0 &&
    !(p.indexEn && p.decompress) &&
    (if p.indexEn then decide (ceilDiv p.inBytes (p.blockKib * 1024) + 8 ≤ p.indexEntries) else p.indexBase == 0)

/-- Device ranges that a job writes. -/
def crysWrites (p : CrysParams) : List (Nat × Nat) :=
  [(p.outBase, p.outBytes), (p.stateBase, stateArea)] ++ (if p.indexEn then [(p.indexBase, 8 * p.indexEntries)] else [])

def crysTarget (s : State) (n : Nat) : Option Nat := if n = 0xFF then tfree s.jobs 64 else some n

def crysFault (s : State) (n : Nat) (p : CrysParams) : Option Nat :=
  if thas s.jobs n then some stBusy
  else if 63 < n ∨ crysFields p = false ∨ allApart ((p.inBase, p.inBytes) :: crysWrites p) = false then some stBadParam
  else if dykePermits s idCrys p.inBase p.inBytes false = false ∨
      (crysWrites p).all (fun a => dykePermits s idCrys a.1 a.2 true) = false then some stDykeDenied
  else if s.lanes.any (fun e => e.2.use == 2) = false then some stNoSpace
  else none

def cmdCrysJob (q : CrysJobP) (s : State) : Reply :=
  match crysTarget s q.job with
  | none => refuseFull s stLimit 13
  | some n => match crysFault s n q.p with
    | some st => refuseFull s st 13
    | none =>
      let s := s.setJob n { p := q.p, st := .queued, outBytes := q.p.outBytes, outBase := q.p.outBase }
      ok { s with jobQueue := s.jobQueue ++ [n] } [byte n]

def execCrysJob (c : Caller) (p : CrysJobP) (s : State) : Host.Outcome State Fault Refusal :=
  .next (command c 0x0801 (cmdCrysJob p) s)

/-! ### CRYS_RESUME (R302) -/

def cmdCrysResume (p : CrysResumeP) (s : State) : Reply :=
  match tfind s.jobs p.job with
  | none => refuse s stBadParam
  | some j =>
    if j.st ≠ .stopped then refuse s stBusy
    else if p.outBytes = 0 then ok { s with jobs := tdel s.jobs p.job }
    else if dykePermits s idCrys p.outBase p.outBytes true = false then refuse s stDykeDenied
    else
      let s := s.setJob p.job { j with st := .queued, outBytes := p.outBytes, outBase := p.outBase }
      ok { s with jobQueue := s.jobQueue ++ [p.job] }

def execCrysResume (c : Caller) (p : CrysResumeP) (s : State) : Host.Outcome State Fault Refusal :=
  .next (command c 0x0802 (cmdCrysResume p) s)

/-! ### Blocks and positions (R291, R292) -/

/-- Blocks from an input offset to the end, with flushes; `fuel` blocks at most. -/
def countBlocks (p : CrysParams) (flushes : List Nat) : (fuel start : Nat) → Nat
  | 0, _ => 0
  | f + 1, start => if p.inBytes ≤ start then 0 else 1 + countBlocks p flushes f (blockEnd p flushes start)

/-- Blocks of a whole job. -/
def jobBlocks (j : Job) (flushes : List Nat) : Nat :=
  j.blocks + countBlocks j.p flushes (ceilDiv j.p.inBytes (j.p.blockKib * 1024) + flushes.length + 1) j.coder.blockStart

/-- Input bytes that a job had consumed when it stopped last. -/
def consumedBefore (j : Job) : Nat := if j.p.decompress then j.coder.inPos / 8 else j.coder.inPos

/-- How far a compressing lane gets from position `pos` in a number of cycles: 1 byte in each, and 16 cycles for each block start, the
present block beginning at `start` (R292); `fuel` blocks at most. -/
def reachAt (p : CrysParams) (flushes : List Nat) : (fuel start pos cycles : Nat) → (started : Bool) → Nat
  | 0, _, pos, _, _ => pos
  | f + 1, start, pos, cycles, started =>
    let c := if started then cycles else cycles - 16
    let e := blockEnd p flushes start
    if e ≤ pos then pos
    else if pos + c < e then pos + c
    else if p.inBytes ≤ e then e
    else reachAt p flushes f e e (c - (e - pos)) false

/-! ### Runs (R292, R294 to R298, R301) -/

/-- CRYS_JOB_START: the first waiting job takes the lowest free lane of host jobs. -/
def execCrysJobStart (s : State) : Host.Outcome State Fault Refusal :=
  match s.jobQueue, (List.range 16).find? (fun l =>
      (s.lane l).use == 2 && (s.lane l).job.isNone && decide ((s.lane l).freeAt ≤ s.ref)) with
  | n :: rest, some l => match tfind s.jobs n with
    | some j =>
      let s := { s with jobQueue := rest }
      .next ((s.setJob n { j with st := .running, startAt := s.ref, foundPos := 0 }).setLane l { s.lane l with job := some n })
    | none => .next { s with jobQueue := rest }
  | _, _ => .next s

/-- What a run gives: status of R301, coder, bytes of the run, index entries, blocks of the run, counts reported. -/
structure RunEnd where
  status : Nat
  coder : Coder
  out : List Byte
  index : List (Nat × Nat)
  blocks : Nat
  consumed : Nat
  produced : Nat
  /-- CORE cycles that it takes at least (R292). -/
  cycles : Nat
  deriving DecidableEq, Repr

/-- A run over the readable input `inp`; `bad` is the status when it meets the byte after it. -/
def runJob (j : Job) (inp : List Byte) (bad : Nat) : RunEnd :=
  if j.p.decompress then
    let r := decompress j.p.filter j.p.row (j.p.blockKib * 1024) j.p.inBytes inp j.coder j.outBytes
    let out := r.out.reverse
    if r.ended = 3 then ⟨2, r.c, out, [], r.blocks, r.mark.1, r.mark.2, r.cycles⟩
    else ⟨if r.ended = 1 then 0 else if r.ended = 2 then 1 else bad, { r.c with outTotal := r.c.outTotal + out.length },
      out, [], r.blocks, r.c.inPos / 8, out.length, r.cycles⟩
  else
    let r := compress j.p j.flushes inp j.coder j.outBytes
    let out := r.out.reverse
    ⟨if r.ended = 1 then 0 else if r.ended = 2 then 1 else bad, { r.c with outTotal := r.c.outTotal + out.length },
      out, r.index.reverse, r.blocks, r.c.inPos, out.length, r.c.inPos - j.coder.inPos + 16 * r.index.length⟩

/-- The input up to the first byte that an identity cannot read, with the status that it gives (R301): 3 denied, 4 poison. -/
def readableInput (l : List Piece) : List Byte × Nat :=
  match l with
  | [] => ([], 4)
  | p :: r =>
    if p.denied then ([], 3) else if p.poison then ([], 4)
    else
      let (d, b) := readableInput r
      (p.data ++ d, b)

/-- Bytes of input that a run touches: what it consumed, and the byte that ended its pending string. -/
def touched (j : Job) (r : RunEnd) : Nat :=
  min j.p.inBytes (if j.p.decompress then r.coder.inPos / 8 + 3 else r.consumed + 1)

/-- A read of a lane in its class, as a control read or not (R293, R379). -/
def crysRead (s : State) (addr n : Nat) (control : Bool) : List Piece × State :=
  classPieces s 0x2E idCrys addr n .plain control

/-- A write of a lane in its class; whether a part of it was denied. -/
def crysWrite (s : State) (addr : Nat) (data : List Byte) : Bool × State :=
  let (denied, _, s) := classStore s 0x2E idCrys addr data .plain {}
  (denied, s)

/-- Bytes of a write of a lane that the dyke table lets pass. -/
def permitted (s : State) (addr n : Nat) : Nat :=
  sumNat (((splitParts (judgePage s s.mem.dyke.force idCrys true) (n / 4096 + 2) addr n).filter (·.ok)).map (·.len))

/-- Status of a run with what its reads and writes gave. -/
def finalStatus (r : RunEnd) (stateBad outBad : Bool) (stateStatus : Nat) : Nat :=
  if stateBad then stateStatus else if outBad then 3 else r.status

/-- Bytes as a read gives them, corrected, without counting the read. -/
def peekBytes (s : State) (a n : Nat) : List Byte := (List.range n).map (fun i => peekByte s [] (a + i))

/-- The end of a run: its reads are made, output, index and, when it stops, the state area are written (R294, R295). A run whose state
cannot be read consumes and produces nothing, and output that the dyke table denies is not produced (R301). -/
def endRun (s : State) (l n : Nat) (j : Job) : State :=
  let first := runJob j (peekBytes s j.p.inBase j.p.inBytes) 4
  let start := if j.p.decompress then j.coder.inPos / 8 else j.coder.inPos
  let (st, s) := if j.coder = {} then ([], s) else crysRead s j.p.stateBase stateArea true
  let (pieces, s) := crysRead s (j.p.inBase + start) (touched j first - start) false
  let (d, bad) := readableInput pieces
  let whole := start + d.length
  let inp := (peekBytes s j.p.inBase start) ++ d ++
    (if pieces.any (fun p => p.denied || p.poison) then [] else peekBytes s (j.p.inBase + whole) (j.p.inBytes - whole))
  let r := runJob j inp bad
  let stBad := st.any (fun p => p.denied || p.poison)
  let r := if stBad then { r with consumed := consumedBefore j, produced := 0 }
    else if r.produced = r.out.length then { r with produced := permitted s j.outBase r.out.length } else r
  let (d1, s) := crysWrite s j.outBase (if stBad then [] else r.out)
  let (d2, s) := if j.p.indexEn && !stBad then
      crysWrite s (j.p.indexBase + 8 * (j.blocks + b2n j.coder.started)) (r.index.flatMap (fun e => leBytes 4 e.1 ++ leBytes 4 e.2))
    else (false, s)
  let (d3, s) := if r.status = 1 ∧ stBad = false then
      let (b, s) := s.drawBytes stateArea
      crysWrite s j.p.stateBase b
    else (false, s)
  let status := finalStatus r stBad (d1 || d2 || d3) (if st.any (·.denied) then 3 else 4)
  let blocks := j.blocks + (if stBad then 0 else r.blocks)
  let s := if status = 1 then
      s.setJob n { j with
        st := .stopped, coder := r.coder, blocks := blocks, inConsumed := r.consumed, outProduced := r.produced,
        flushes := j.flushes.filter (fun f => decide (r.coder.inPos < f || (r.coder.blockStart < f))) }
    else { s with jobs := tdel s.jobs n }
  let s := s.setLane l { s.lane l with job := none }
  postFw s 0x30 1 none ([byte n, byte status] ++ zeros 2 ++ [byte r.consumed, 0#8, 0#8, 0#8, byte r.produced, 0#8, 0#8, 0#8, byte blocks])

/-- CRYS_DONE: the job on a lane ends or stops, when its bytes have had their cycles. -/
def execCrysDone (lane : Fin 16) (s : State) : Host.Outcome State Fault Refusal :=
  match (s.lane lane.val).job with
  | none => .next s
  | some n => match tfind s.jobs n with
    | none => .next s
    | some j =>
      if j.startAt + (runJob j (peekBytes s j.p.inBase j.p.inBytes) 4).cycles * coreT ≤ s.ref then
        .next (endRun s lane.val n j)
      else .next s

/-! ### CRYS_FLUSH (R291, R303) -/

/-- The furthest position that a running job may have reached: its rate allows no more, and it stops where its run ends. -/
def reachNow (s : State) (j : Job) : Nat :=
  let stop := (runJob j (peekBytes s j.p.inBase j.p.inBytes) 4).consumed
  let cycles := ceilDiv (s.ref - j.startAt) coreT
  min stop (if j.p.decompress then consumedBefore j + 2 * cycles
    else reachAt j.p j.flushes (j.p.inBytes + 1) j.coder.blockStart j.coder.inPos cycles j.coder.started)

/-- The read position of a job (R292, R303): where it stopped, or while it runs any position from the one found last to the furthest
that it may have reached; the one found is kept, so that none found later lies before it (notes/assumptions/32.md). -/
def readPosition (s : State) (n : Nat) (j : Job) : Nat × State :=
  if j.st ≠ .running then (consumedBefore j, s)
  else
    let lo := max (consumedBefore j) j.foundPos
    let (k, s) := drawWithin s lo (max lo (reachNow s j))
    (k.toNat, s.setJob n { j with foundPos := k.toNat })

/-- AT keeps to R291. -/
def flushOk (j : Job) (a : Nat) : Bool :=
  !j.p.decompress && within 1 (j.p.inBytes - 1) a && (!j.p.filter || a % 4 == 0)

/-- The checks of CRYS_FLUSH in the table's order, at a read position. -/
def flushFault (j : Job) (pos a : Nat) : Option Nat :=
  if a < pos then some stBusy
  else if 8 ≤ (j.flushes.filter (fun f => decide (pos ≤ f))).length then some stLimit
  else if j.p.indexEn && decide (j.p.indexEntries < jobBlocks j (j.flushes ++ [a])) then some stNoSpace
  else if flushOk j a = false then some stBadParam
  else none

def cmdCrysFlush (p : CrysFlushP) (s : State) : Reply :=
  match tfind s.jobs p.job with
  | none => refuse s stBadParam
  | some j =>
    let (pos, s) := readPosition s p.job j
    let j := (tfind s.jobs p.job).getD j
    match flushFault j pos p.at_ with
    | some st => if st = stLimit then refuseFull s st 13 else refuse s st
    | none => ok (s.setJob p.job { j with flushes := j.flushes ++ [p.at_] })

def execCrysFlush (c : Caller) (p : CrysFlushP) (s : State) : Host.Outcome State Fault Refusal :=
  .next (command c 0x0803 (cmdCrysFlush p) s)

end Sys2Proof.Machine
end

