-- ==== Sys2Proof/Machine/LinkEvents.lean ====
section
/-! DEFINITION. What happens on a display link: sinks that come and go, loss of lock, and training (spec/06 R178 to R186). -/

namespace Sys2Proof.Machine

/-- A head that retrains stops its stream and enters TRAINING (R185). -/
def retrain (s : State) (i : Nat) : State := settle (startTraining (linkState s i .training) i) i

/-! ### HPD (R178) -/

/-- A run of samples of HPD, 10 µs apart, that ends now and began after the last one known. -/
def sampled (s : State) (i n : Nat) : Bool := decide ((s.head i).link.hpdAt + n * 10 * usT ≤ s.ref)

def noteHpd (s : State) (i : Nat) : State :=
  s.setHead i { s.head i with link := { (s.head i).link with hpdAt := s.ref } }

/-- HPD_PRESENT (R178, R180, R185, R189): HPD has been high for so many samples; from 2 ms on a sink is present, and firmware has
read its capabilities. -/
def execHpdPresent (h : Fin 32) (samples : Nat) (sink : Sink) (s : State) : Host.Outcome State Fault Refusal :=
  if sampled s h.val samples = false then .next s
  else
    let s := noteHpd s h.val
    let x := s.head h.val
    if samples < 200 ∨ x.link.sink.isSome = true then .next s
    else
      let s := s.setHead h.val { x with link := { x.link with
        sink := some sink, sinkRate := sink.maxRate, sinkLanes := sink.maxLanes, fmin := sink.fmin, fmax := sink.fmax } }
      if x.st = .unplugged then .next (retrain s h.val) else .next s

/-- The link of a head whose sink has gone (R189). -/
def unplugLink (l : Link) : Link :=
  { dropLink l with sink := none, sinkRate := 7, sinkLanes := 0, asyncCap := false, fmin := 0, fmax := 0 }

/-- The sink of a head has been unplugged (R185). Whether the head uses variable blanking is not evaluated anew (R184). -/
def unplug (s : State) (i : Nat) : State :=
  let s := closeClamps s i
  let x := s.head i
  let s := s.setHead i { x with
    link := unplugLink x.link, contentFrom := none,
    mc := if x.mc = .retrain ∨ x.mc = .retrainBlack then .none else x.mc }
  if x.st = .disabled then s else settle (linkState s i .unplugged) i

/-- HPD_UNPLUG (R178, R185): HPD has been low for so many samples; from 2 ms on the sink has gone. -/
def execHpdUnplug (h : Fin 32) (samples : Nat) (s : State) : Host.Outcome State Fault Refusal :=
  if sampled s h.val samples = false then .next s
  else
    let s := noteHpd s h.val
    if samples < 200 ∨ (s.head h.val).link.sink.isNone = true then .next s else .next (unplug s h.val)

/-- Loss of lock on a link in use (R185): a black frame of a mode change is lost with it (R186). -/
def lockLoss (s : State) (i : Nat) : State :=
  let h := s.head i
  if h.link.link = 2 ∧ (h.st = .running ∨ h.st = .starting ∨ h.st = .modeChange) then
    let s := s.setHead i { h with mc := if h.mc = .retrainBlack then .retrain else h.mc }
    retrain (raiseErr s 0x0030 i 0 0) i
  else s

/-- IRQ_HPD (R178, R185): HPD was low for so many samples, of 0.25 ms and more and less than 2 ms; a shorter pulse is ignored.
`lockLost` is what the sink's status registers report. -/
def execIrqHpd (h : Fin 32) (samples : Nat) (lockLost : Bool) (s : State) : Host.Outcome State Fault Refusal :=
  if sampled s h.val samples = false then .next s
  else
    let s := noteHpd s h.val
    if samples < 25 ∨ 200 ≤ samples ∨ (s.head h.val).link.sink.isNone = true then .next s
    else if (s.head h.val).st = .linkFailed then .next (retrain s h.val)
    else if lockLost then .next (lockLoss s h.val)
    else .next s

/-- DP_LINK_LOCK_LOSS (R185). -/
def execDpLinkLockLoss (h : Fin 32) (s : State) : Host.Outcome State Fault Refusal := .next (lockLoss s h.val)

/-- The training of a head fails with a reason (R181). -/
def trainingFails (s : State) (i reason : Nat) : State := settle (failLink s i reason) i

/-- AUX_TIMEOUT (R179): 400 µs without a reply, or AUX_DEFER; the transaction is retried, 7 times at most, and then the attempt in
progress ends with AUX_FAIL. -/
def execAuxTimeout (h : Fin 32) (transaction : Nat) (defer : Bool) (s : State) : Host.Outcome State Fault Refusal :=
  let x := s.head h.val
  let l := x.link
  let retries := if l.auxTransaction = transaction then l.auxRetries else 0
  if l.sink.isNone = true ∨ (defer = false ∧ s.ref < l.auxAt + 400 * usT) then .next s
  else
    let put (n : Nat) : State := s.setHead h.val { x with link := { l with
      auxTransaction := transaction, auxRetries := n, auxAt := s.ref } }
    if retries < 7 then .next (put (retries + 1))
    else if l.link = 1 then .next (trainingFails (put 0) h.val 3)
    else .next (put 0)

/-- The link is up: the head goes on as R165, R164 or R185 gives. -/
def trained (s : State) (i : Nat) (n c : Nat) : State :=
  let s := closeClamps s i
  let h := s.head i
  let s := evalVrr (s.setHead i { h with link := { h.link with
    link := 2, rate := c, lanes := n, trainCount := sat32 h.link.trainCount, cands := [], trainStart := none } }) i
  let s := if (s.head i).st = .training then linkState s i .starting else s
  if (s.head i).phase = .stopped then settle s i
  else
    let h := s.head i
    s.setHead i { h with contentFrom := h.gen.map (fun t => natRat s.now + natRat (needLines t) * lineRat s t) }

/-- LINK_TRAINING_DONE (R180, R183): the training of the first candidate left ends; `reqs` are the rounds of equalization requests,
lane by lane, that its sink made. The next candidate starts from the table's levels (R182). -/
def execLinkTrainingDone (h : Fin 32) (ok : Bool) (reqs : List (List EqRequest)) (s : State) :
    Host.Outcome State Fault Refusal :=
  let i := h.val
  let x := s.head i
  if x.link.link ≠ 1 then .next s
  else match x.link.cands with
    | [] => .next s
    | (n, c) :: rest =>
      let s := reqs.foldl (fun s r => applyRequests s i (decide (4 ≤ c)) (r.take n)) s
      if ok then .next (trained s i n c)
      else if rest = [] then .next (trainingFails s i 2)
      else
        let x := s.head i
        .next (startLevels (s.setHead i { x with link := { x.link with cands := rest } }) i)

/-- TRAINING_TIMEOUT (R181, R164): 100 ms without a link. -/
def execTrainingTimeout (h : Fin 32) (s : State) : Host.Outcome State Fault Refusal :=
  match (s.head h.val).link.link, (s.head h.val).link.trainStart with
  | 1, some t => if t + 100 * msT ≤ s.ref then .next (trainingFails s h.val 4) else .next s
  | _, _ => .next s

end Sys2Proof.Machine
end

