-- ==== Sys2Proof/Machine/Power.lean ====
section
/-! DEFINITION. Power states (spec/19 R497 to R504): the target, entry to HEADS_DARK and DORMANT, the restart of groups after a
wake, WAKE_BUDGET, POWER_QUERY, WAKE_IN and POWER_EXIT_DONE; and adaptive voltage (R494 to R496). -/

namespace Sys2Proof.Machine

/-! ### Target and idle groups (R497, R498) -/

/-- Exit latency of a state in ms. -/
def exitMs (k : Nat) : Nat := nth 0 [0, 120, 450, 2200] k

/-- Budgets of the groups that a state rests. -/
def restedBudgets (b : Budgets) (k : Nat) : List Nat :=
  (if 1 ≤ k then [b.displayMs] else []) ++ (if 2 ≤ k then [b.ingestMs, b.touchMs] else []) ++
    (if 3 ≤ k then [b.hostMs] else [])

/-- The budgets allow a state: none of its rested groups has budget 0 or one below its exit latency. -/
def stateAllowed (b : Budgets) (k : Nat) : Bool := (restedBudgets b k).all (fun m => m != 0 && decide (exitMs k ≤ m))

/-- The deepest allowed state. -/
def powerTarget (b : Budgets) : Nat :=
  if stateAllowed b 3 then 3 else if stateAllowed b 2 then 2 else if stateAllowed b 1 then 1 else 0

/-- A touch contact exists on a desk. -/
def anyContact (s : State) : Bool := s.desks.any (fun d => d.2.contacts != [])

/-- An encode context, a crystallizer job or an admitted sending mirror is open. -/
def ingestBusy (s : State) : Bool :=
  s.encs != [] || s.jobs != [] || s.wels.any (fun w => w.2.mirrors.any (·.admitted))

/-- A session is open or a mailbox BUSY. -/
def hostBusy (s : State) : Bool := s.sessions.any (fun x => x.2.isOpen) || s.mailboxes.any (fun m => m.2.state == 1)

/-- The groups that are not idle now, noted as time passes. -/
def noteBusy (s : State) : State :=
  { s with power := { s.power with
    lastTouch := if anyContact s then s.ref else s.power.lastTouch,
    lastIngest := if ingestBusy s then s.ref else s.power.lastIngest,
    lastHost := if hostBusy s then s.ref else s.power.lastHost } }

/-- Times since which the groups that a state rests have been idle. -/
def idleSince (s : State) (k : Nat) : List Ticks :=
  let p := s.power
  (if p.state = 0 then [max p.lastDisplay p.lastTouch] else []) ++ (if 2 ≤ k then [p.lastIngest, p.lastTouch] else []) ++
    (if 3 ≤ k then [p.lastHost] else [])

/-- Every group that the target rests has been idle for REST_S. -/
def restDue (s : State) (k : Nat) : Bool :=
  !anyContact s && (decide (k < 2) || !ingestBusy s) && (decide (k < 3) || !hostBusy s) &&
    (idleSince s k).all (fun t => decide (t + s.power.budgets.restS * secT ≤ s.ref))

/-! ### Entering a state (R497) -/

/-- The link of a head is powered down: a head with a stream loses it, and retrains after the wake (notes/assumptions/50.md). -/
def restLink (s : State) (i : Nat) : State :=
  let s := closeClamps s i
  let h := s.head i
  let s := s.setHead i { h with
    link := if h.link.link = 3 then h.link else dropLink h.link, contentFrom := none, mc := if h.mc = .retrain ∨ h.mc = .retrainBlack then .none else h.mc }
  if h.st = .starting ∨ h.st = .running ∨ h.st = .modeChange then linkState s i .training else s

/-- Enabled heads. -/
def enabledHeads (s : State) : List Nat := (s.heads.filter (fun e => e.2.st != .disabled)).map (·.1)

/-- The pans stop: no head runs its timing generator until the wake. -/
def restPan (h : Head) : Head :=
  { h with phase := .stopped, next := none, took := false, fixed := none, realign := none, porchEnded := false, fifo := [],
           spans := [], words := [], zeroed := [], nextLine := 0, nextX := 0, aheadX := 0, fetched := 0,
           lateLine := none, taps := [] }

/-- A desk goes into slow scan (R470). -/
def slowDesk (power : Bool) (k : Desk) : Desk :=
  { k with st := .slow, slowFrames := 0, slowNodes := [], slowByPower := power }

/-- A desk that scans is put into slow scan by the power state. -/
def restDesk (k : Desk) : Desk :=
  if k.st = .off then k else if k.st = .slow then { k with slowByPower := true } else slowDesk true k

/-- A desk leaves slow scan: the next touch frame is a full one, or BASELINING goes on (R470). -/
def wakeDesk (k : Desk) : Desk :=
  { k with st := if k.baseFrames < 16 then .baselining else .full, slowByPower := false }

/-- One more entry to a state. -/
def countEntry (p : Power) (k : Nat) : Power :=
  { p with
    entries1 := if k = 1 then sat32 p.entries1 else p.entries1,
    entries2 := if k = 2 then sat32 p.entries2 else p.entries2,
    entries3 := if k = 3 then sat32 p.entries3 else p.entries3 }

/-- The device enters a state that rests groups. -/
def enterPower (s : State) (k : Nat) : State :=
  let old := s.power.state
  let s := { s with power := { countEntry s.power k with state := k, waking := false, resume := false } }
  let s := if old = 0 then (enabledHeads s).foldl restLink s else s
  let s := if 2 ≤ k ∧ old < 2 then
      { modHeads s (enabledHeads s) (fun _ => restPan) with desks := tmap (fun _ => restDesk) s.desks }
    else s
  postPower s old k

/-! ### Restart of groups (R497, R499) -/

/-- The groups that do not rest any more are restarted: pans, links and desks. -/
def resumeGroups (s : State) : State :=
  let s := { s with power := { s.power with resume := false } }
  let s := if memoryRests s then s else
    { s with desks := tmap (fun _ (k : Desk) => if k.slowByPower then wakeDesk k else k) s.desks }
  (enabledHeads s).foldl (fun s i =>
    let h := s.head i
    let s := if h.st = .training ∧ (h.link.link = 0 ∨ h.link.link = 3) ∧ h.link.sink.isSome = true then startTraining s i else s
    settle s i) s

/-- What passes in each cycle besides time: groups are noted busy, and those that a wake releases restart. -/
def powerCycle (s : State) : State := noteBusy (if s.power.resume then resumeGroups s else s)

/-- WAKE_IN: WAKE_IN_N has been low for `us` µs; 1 ms wakes the device (R499). -/
def execWakeIn (us : Nat) (s : State) : Host.Outcome State Fault Refusal := .next (if 1000 ≤ us then wake s 4 else s)

/-- Every group is back: no enabled head still waits for its training or its first flip. -/
def exitDone (s : State) : Bool :=
  s.power.waking && !s.power.resume &&
    (if s.power.state = 3 then s.start.boot == .up && s.start.warden == .ready
     else s.heads.all (fun e => e.2.st != .training && e.2.st != .starting))

/-- POWER_EXIT_DONE (R497, R504). -/
def execPowerExitDone (s : State) : Host.Outcome State Fault Refusal :=
  if exitDone s then
    .next (postPower { s with power := { s.power with state := 0, waking := false } } s.power.state 0)
  else .next s

/-! ### Commands (R502, R503) -/

/-- A budget under which the state is no longer allowed: the device goes to the new target (R499). -/
def applyBudgets (s : State) : State :=
  let t := powerTarget s.power.budgets
  if s.power.state = 0 ∨ s.power.waking = true ∨ stateAllowed s.power.budgets s.power.state = true then s
  else if t = 0 then wake s 5
  else
    let old := s.power.state
    postPower { s with power := { countEntry s.power t with state := t, resume := true, wakeReason := 5 } } old t

def cmdWakeBudget (b : Budgets) (s : State) : Reply :=
  if b.restS < 10 ∨ 3600 < b.restS then refuse s stBadParam
  else
    let s := applyBudgets { s with power := { s.power with budgets := b } }
    ok s ([byte (powerTarget b)] ++ zeros 3)

def execWakeBudget (c : Caller) (p : Budgets) (s : State) : Host.Outcome State Fault Refusal :=
  .next (command c 0x0E03 (cmdWakeBudget p) s)

/-- POWER_QUERY. IOUT_MA and POWER_MW are measured when it runs (free values), the first by READ_IOUT. -/
def cmdPowerQuery (s : State) : Reply :=
  let (i, s) := (s.emit (.pmbus 0x40 0 0x8C none)).drawNat
  let (w, s) := s.drawNat
  let p := s.power
  ok s ([byte (p.state + 4 * powerTarget p.budgets), byte p.wakeReason] ++ leBytes 2 p.vdd ++ leBytes 4 i ++ leBytes 4 w ++
    leBytes 2 (unsigned 16 s.trim.tempNow) ++ [byte p.marginMin, 0#8] ++ leBytes 4 p.entries1 ++ leBytes 4 p.entries2 ++
    leBytes 4 p.entries3 ++ leBytes 4 p.avsUp ++ leBytes 4 p.avsDown)

def execPowerQuery (c : Caller) (s : State) : Host.Outcome State Fault Refusal :=
  .next (command c 0x0E04 cmdPowerQuery s)

/-! ### Adaptive voltage (R495, R496) -/

/-- A transaction with the core regulator: 7-bit address 0x40, page 0 (R494). -/
def pmbus (s : State) (command : Nat) (word : Option Nat) : State := s.emit (.pmbus 0x40 0 command word)

/-- A voltage in mV as ULINEAR16 writes it, in units of two to the exponent of VOUT_MODE, which is −9 or below (R494; the nearest
word is a DESIGN CHOICE: notes/assumptions/51.md). -/
def ulinear16 (mv : Nat) : Nat := (mv * 2 ^ (9 + Config.voutExponent % 8) + 500) / 1000

/-- A VOUT_COMMAND of `mv`. -/
def commandVout (s : State) (mv : Nat) : State :=
  pmbus { s with power := { s.power with vdd := mv, voutAt := some s.ref } } 0x21 (some (ulinear16 mv))

/-- Time since the last raise after which the next one may come: 50 µs, or 1 ms after PMBUS_FAIL. -/
def raiseDue (s : State) : Bool :=
  s.power.voutAt.isNone &&
    s.power.raisedAt.elim true (fun t => decide (t + (if s.power.pmbusFail then msT else 50 * usT) ≤ s.ref))

/-- VDD_CORE is raised by 5 mV, up to 0.85 V. -/
def raiseVdd (s : State) : State :=
  let p := s.power
  if p.vdd < 850 ∨ p.pmbusFail = true then
    commandVout { s with power := { p with raisedAt := some s.ref, avsUp := if p.vdd < 850 then sat32 p.avsUp else p.avsUp } } (min 850 (p.vdd + 5))
  else s

/-- VDD_CORE is lowered by 5 mV, down to 0.65 V, and the 100 ms start again. -/
def lowerVdd (s : State) : State :=
  let p := s.power
  let s := { s with power := { p with wideSince := some s.ref } }
  if 650 < p.vdd ∧ p.pmbusFail = false ∧ p.voutAt = none then
    commandVout { s with power := { s.power with avsDown := sat32 p.avsDown } } (p.vdd - 5)
  else s

/-- One pass of the loop (R495): `margin` is the lowest margin and `monitor` the monitor that reports it. -/
def avsLoop (s : State) (margin monitor : Nat) : State :=
  let atLimit := decide (margin < 12) && decide (850 ≤ s.power.vdd)
  let s := { s with power := { s.power with
    marginMin := margin, monitor := monitor, sampledAt := some s.ref,
    wideSince := if 24 < margin then some (s.power.wideSince.getD s.ref) else none } }
  let s := if margin < 12 ∧ raiseDue s = true then raiseVdd s else s
  let s := if s.power.wideSince.elim false (fun t => decide (t + 100 * msT ≤ s.ref)) then lowerVdd s else s
  let s := if atLimit then raiseClass s 0x0206 2 monitor margin s.power.vdd { perTide := true } else s
  if margin < 6 then raiseClass s 0x0207 2 monitor margin s.power.vdd else s

/-- MARGIN_MIN and the first monitor that reports it. -/
def lowestMargin (margins : List Nat) : Nat × Nat :=
  margins.zipIdx.foldl (fun b e => if e.1 < b.1 then e else b) (64, 0)

/-- AVS_SAMPLE, every 10 µs: the codes of the 32 delay monitors (R495). -/
def execAvsSample (margins : List Nat) (s : State) : Host.Outcome State Fault Refusal :=
  if released s && margins.length == 32 && margins.all (fun m => decide (m ≤ 63)) &&
      s.power.sampledAt.elim true (fun t => decide (t + 10 * usT ≤ s.ref)) then
    .next (avsLoop s (lowestMargin margins).1 (lowestMargin margins).2)
  else .next s

/-- The readback of a command fails: it is repeated, 3 times at most, and then PMBUS_FAIL is raised (R496); DETAIL_A is the
code of VOUT_COMMAND (PRESUMED: PMBus; notes/assumptions/51.md). -/
def voutFails (s : State) : State :=
  let p := s.power
  if p.retries < 3 then commandVout { s with power := { p with retries := p.retries + 1 } } p.vdd
  else raiseClass { s with power := { p with retries := 0, voutAt := none, pmbusFail := true } } 0x0208 1 0 0x21 p.vdd

/-- VOUT_READBACK (R496): READ_VOUT. -/
def execVoutReadback (ack : Bool) (microvolts : Nat) (s : State) : Host.Outcome State Fault Refusal :=
  match s.power.voutAt with
  | none => .next s
  | some t =>
    let read := pmbus s 0x8B none
    if s.ref < t + 40 * usT then .next s
    else if ack = false ∨ microvolts + 10000 < 1000 * s.power.vdd ∨ 1000 * s.power.vdd + 10000 < microvolts then
      .next (voutFails read)
    else .next { read with power := { read.power with retries := 0, voutAt := none, pmbusFail := false } }

end Sys2Proof.Machine
end

