-- ==== Sys2Proof/Machine/Trim.lean ====
section
/-! DEFINITION. Trim (spec/19 R483 to R493, R500, R501): what a run measures and chooses, the NVM copies, TRIM_RUN, TRIM_QUERY,
TEMPERATURE_SAMPLE, TRIM_ELEMENT_STEP and TRIM_RUN_COMPLETE. -/

namespace Sys2Proof.Machine

/-! ### The items (R485) -/

/-- INDEX values of an item. -/
def trimIndexes (item : Nat) : Nat := nth 0 [0, 1, 20, 144, 64, 128] item

def trimPointOk (item index : Nat) : Bool := decide (index < trimIndexes item)

/-- Elements of an item. -/
def elementCount (item : Nat) : Nat := nth 0 [0, 0, 0, 16, 40, 64] item

/-- Bounds of a sound element: mΩ, nA and fF. -/
def elementBounds (item : Nat) : Nat × Nat := nth (0, 0) [(0, 0), (0, 0), (0, 0), (600000, 900000), (187500, 312500), (350, 650)] item

/-- Target and limits of a plausible result, in the unit of R501. -/
def itemTarget (item : Nat) : Nat := nth 0 [0, 0, 0, 50000, 400000, 16000] item
def itemLimits (item : Nat) : Int × Int :=
  nth (0, 0) [(0, 0), (-30000, 30000), (-80, 80), (47500, 52500), (380000, 420000), (15500, 16500)] item

/-- What an element adds to the combined value: the conductance of a leg, the 100 Ω share in µV of a current unit
(notes/assumptions/55.md), the capacitance of a capacitor. -/
def elementShare (item v : Nat) : Rat :=
  if item = 3 then 1 / (v : Rat) else if item = 4 then (v : Rat) / 10 else (v : Rat)

/-- The combined value of a sum of shares. -/
def combined (item : Nat) (sum : Rat) : Rat := if item = 3 then 1 / sum else sum

/-! ### The choice of a set (R486) -/

/-- A set of elements: the sum of its shares, its number of elements, its highest-numbered one, and its mask. -/
structure ElementSet where
  sum : Rat
  count : Nat
  top : Nat
  mask : Nat
  deriving DecidableEq, Repr

/-- Of two sets with equal sums, the one with fewer elements, then the one whose highest-numbered element is lowest. -/
def fewer (a b : ElementSet) : Bool := decide (a.count < b.count) || (a.count == b.count && decide (a.top < b.top))

/-- Keep the better one of the sets with the same sum. -/
def addSet (a : ElementSet) : List ElementSet → List ElementSet
  | [] => [a]
  | b :: r => if a.sum = b.sum then (if fewer a b then a else b) :: r else b :: addSet a r

/-- The best set for each sum that some elements, (number, share) ascending, reach. -/
def reachable (l : List (Nat × Rat)) : List ElementSet :=
  l.foldl (fun acc e => (acc.map (fun a => (⟨a.sum + e.2, a.count + 1, e.1, a.mask + 2 ^ e.1⟩ : ElementSet))).foldl
    (fun t a => addSet a t) acc) [⟨0, 0, 0, 0⟩]

/-- Distance of a set's value from the target. -/
def offTarget (item : Nat) (a : ElementSet) : Rat :=
  let d := combined item a.sum - itemTarget item
  if d < 0 then -d else d

/-- The nearer of two sets, by R486's order. -/
def nearer (item : Nat) (a b : ElementSet) : Bool :=
  decide (offTarget item a < offTarget item b) || (offTarget item a == offTarget item b && fewer a b)

/-- An element is within its bounds. -/
def elementSound (item v : Nat) : Bool := decide ((elementBounds item).1 ≤ v) && decide (v ≤ (elementBounds item).2)

/-- The elements that a measurement finds outside the bounds, as a mask. -/
def failedMask (item : Nat) (l : List Nat) : Nat :=
  maskOf ((l.zipIdx.filter (fun e => !elementSound item e.1)).map (·.2))

/-- The set whose combined value lies nearest the target. -/
def chooseSet (item failed : Nat) (l : List Nat) : Option ElementSet :=
  ((reachable ((l.zipIdx.filter (fun e => !failed.testBit e.2)).map (fun e => (e.2, elementShare item e.1)))).filter
    (fun a => a.count != 0)).foldl (fun (b : Option ElementSet) a =>
      match b with
      | none => some a
      | some x => if nearer item a x then some a else some x) none

/-! ### Sets in force -/

def trimKey (item index : Nat) : Nat := item * 256 + index

/-- The set in force, the factory's where no run or copy gave one. -/
def setInForce (s : State) (item index : Nat) : NvmRec :=
  (tfind s.trim.sets (trimKey item index)).getD (factoryRec (trimKey item index))

/-- The set as TRIM_QUERY and the records give it: a selection that waits, with DEFERRED where it is a touch line's, or that is
being reached, else the one in force. -/
def setShown (s : State) (item index : Nat) : NvmRec :=
  let k := trimKey item index
  match tfind s.trim.deferred k, tfind s.trim.moving k with
  | some r, _ => { r with flags := r.flags ||| 4 }
  | none, some r => r
  | none, none => setInForce s item index

/-- The head whose link a display lane belongs to. -/
def headOfLane (s : State) (lane : Nat) : Option Nat :=
  (s.heads.find? (fun e => e.2.link.mapped && decide (dplOf e.2.link 0 ≤ lane) &&
    decide (lane < dplOf e.2.link 0 + mappedLanes e.2.link))).map (·.1)

/-- A new selection waits for its moment: swing of a head that runs (R487), and the lines of a desk that scans (R488). -/
def waits (s : State) (item index : Nat) : Bool :=
  if item = 4 then (headOfLane s index).elim false (fun h => (s.head h).phase != .stopped)
  else if item = 5 then (s.desk (index / 32)).st != .off
  else false

/-- A set comes into force. -/
def forceSet (s : State) (r : NvmRec) : State :=
  let k := trimKey r.item r.index
  { s with trim := { s.trim with
    sets := tset s.trim.sets k r, deferred := tdel s.trim.deferred k, moving := tdel s.trim.moving k } }

/-- A new set comes into force, or waits, or is reached step by step; it replaces one that has not come into force yet. -/
def putSet (s : State) (r : NvmRec) : State :=
  let k := trimKey r.item r.index
  if waits s r.item r.index then { s with trim := { s.trim with deferred := tset s.trim.deferred k r } }
  else if r.item = 3 ∧ (setInForce s 3 r.index).select ≠ r.select then
    { s with trim := { s.trim with moving := tset s.trim.moving k r } }
  else forceSet s r

/-- A selection after its next step towards another one: a swap, else an addition, else a removal (R487). -/
def stepTowards (old new : Nat) : Nat :=
  match (List.range 64).find? (fun e => new.testBit e && !old.testBit e),
    (List.range 64).find? (fun e => old.testBit e && !new.testBit e) with
  | some a, some b => old + 2 ^ a - 2 ^ b
  | some a, none => old + 2 ^ a
  | none, some b => old - 2 ^ b
  | none, none => old

/-- The value of a set after a step: the elements differ in what nothing has measured together, so it is free within what R487 gives, 3 % or
2 % for a swap and 7 % or 4 % for an addition or a removal, of items 3 and 4. -/
def stepValue (old : NvmRec) (select : Nat) (s : State) : Int × State :=
  let same := (bitsOf 64 old.select).length == (bitsOf 64 select).length
  let most := old.value * (if old.item = 3 then (if same then 3 else 7) else if same then 2 else 4) / 100
  let (d, s) := s.drawInt
  (old.value + clampI (-most) most d, s)

/-- The set in force takes a step: to a selection on the way, or to the end of it. -/
def takeStep (s : State) (target : NvmRec) (select : Nat) : State :=
  let old := setInForce s target.item target.index
  let s := { s with trim := { s.trim with stepAt := some s.aon } }
  if select = target.select then forceSet s target
  else
    let (v, s) := stepValue old select s
    { s with trim := { s.trim with
      sets := tset s.trim.sets (trimKey target.item target.index) { old with select := select, value := v } } }

/-- Steps are at least 1 µs apart (R485, R487). -/
def stepDue (s : State) : Bool := s.trim.stepAt.elim true (fun t => decide (t + usT ≤ s.aon))

/-- Selections come into force that waited for a head which runs no more or a desk which scans no more (R487); and a lane termination
takes its next step towards its new selection. -/
def moveSets (s : State) : State :=
  let s := releaseDeferred s (fun r => !waits s r.item r.index)
  match s.trim.moving with
  | [] => s
  | (_, r) :: _ => if stepDue s then takeStep s r (stepTowards (setInForce s r.item r.index).select r.select) else s

/-! ### From readings to values (R484; notes/assumptions/133.md) -/

/-- The reference resistor in mΩ: its factory value, corrected by its coefficient, in ppm per °C, from 25 °C to the edge die's temperature
in 1/16 °C. -/
def refResistor (edge : Int) : Rat :=
  (Config.refMilliohm : Rat) * (1 + (Config.refPpm : Rat) * ((edge - 400 : Int) : Rat) / 16000000)

/-- The current of CALREF over the reference resistor in nA; `uv` is CALREF in µV. -/
def refCurrent (uv : Nat) (edge : Int) : Rat := (uv : Rat) * 1000000 / refResistor edge

/-- C = I × t / V in fF, of a current in nA, AON cycles of 40 ns, and µV. -/
def capacitance (nA : Rat) (cycles uv : Nat) : Rat := nA * ((40 * cycles : Nat) : Rat) * 1000 / (uv : Rat)

/-- The nearest whole number. -/
def nearest (q : Rat) : Int := (q + 1 / 2).floor

/-- The temperature that a ΔVBE in nV stands for, in 1/16 °C. -/
def absoluteTemp (nv : Nat) : Int := nearest ((16 * nv : Nat) / (Config.vbePerKelvin : Rat) - 43704 / 10)

/-- A reading of item 1 or 2 traced to its references. -/
def tracedValue (item : Nat) (reading : Nat × Nat) (sensor : Int) : Int :=
  if item = 1 then nearest ((1200000 - (reading.1 : Rat)) * 1000000 / (reading.1 : Rat)) else absoluteTemp reading.1 - sensor

/-- A reading of an element traced to its references; `uv` is what CALREF counts as. -/
def tracedElement (item uv : Nat) (reading : Nat × Nat) (edge : Int) : Nat :=
  (nearest (
    if item = 3 then (reading.1 : Rat) / (reading.2 : Rat) * refResistor edge
    else if item = 4 then (reading.1 : Rat) / (reading.2 : Rat) * refCurrent uv edge
    else capacitance (refCurrent uv edge) reading.1 reading.2)).toNat

/-! ### Results of a run (R483, R486, R490) -/

def trimObject (item index : Nat) : Nat := item + 65536 * index

/-- TRIM_ELEMENT_FAILED for an element that was sound before. -/
def raiseFailed (item index element v : Nat) (s : State) : State :=
  if elementSound item v || (setShown s item index).failed.testBit element then s
  else raiseClass s 0x0203 0 (trimObject item index) element v

/-- The failed elements of an entry as a measurement leaves them, in every set of it; a selection that has not come into force yet and
uses one of them is dropped (R486). -/
def noteFailed (s : State) (item index failed : Nat) : State :=
  let k := trimKey item index
  let keep (t : Tab NvmRec) : Tab NvmRec :=
    match tfind t k with
    | none => t
    | some r => if r.select &&& failed = 0 then tset t k { r with failed := failed } else tdel t k
  { s with trim := { s.trim with
    sets := tset s.trim.sets k { setInForce s item index with failed := failed },
    deferred := keep s.trim.deferred, moving := keep s.trim.moving } }

/-- A result that fails its test is discarded, and the value in force stays (R490); its record bears IMPLAUSIBLE, and FACTORY when CALREF
is absent (R483). -/
def implausible (absent : Bool) (item index : Nat) (result : Int) (s : State) : State :=
  let r := setInForce s item index
  let s := raiseClass s 0x0202 1 (trimObject item index) (unsigned 32 result) (unsigned 32 r.value)
  { s with trim := { s.trim with
    implausible := satAdd 16 s.trim.implausible 1,
    sets := tset s.trim.sets (trimKey item index) { r with flags := r.flags ||| (2 + b2n absent) } } }

def plausible (item : Nat) (v : Int) : Bool := decide ((itemLimits item).1 ≤ v) && decide (v ≤ (itemLimits item).2)

/-- The integer next to a value, below or above it as `up` says when it is inexact (notes/assumptions/53.md). -/
def roundRat (up : Bool) (q : Rat) : Int := q.floor + (if up && q.floor != q then 1 else 0)

/-- The result of an entry of item 1 or 2; with CALREF absent the factory gain stays (R483). -/
def applyValue (absent : Bool) (item index : Nat) (v : Int) (s : State) : State :=
  if item = 1 ∧ absent = true then putSet s { setInForce s 1 0 with flags := 1, value := (Config.factorySet (trimKey 1 0)).2.2 }
  else if plausible item v then putSet s ⟨item, index, b2n absent, 0, 0, v⟩
  else implausible absent item index v s

/-- The result of an entry of items 3 to 5, of which every element has been measured (R486). With every element failed there is no set
to choose, and the result, 0, is not plausible. -/
def applyElements (absent : Bool) (item index : Nat) (l : List Nat) (s : State) : State :=
  let failed := failedMask item l
  let s := noteFailed s item index failed
  match chooseSet item failed l with
  | none => implausible absent item index 0 s
  | some a =>
    let (up, s) := s.drawBool
    let v := roundRat up (combined item a.sum)
    if plausible item v then putSet s ⟨item, index, b2n absent, a.mask, failed, v⟩
    else implausible absent item index v s

/-! ### NVM copies (R492, R493) -/

/-- A record of 32 bytes: 8, selection, failed mask and value, and its CRC. -/
def recordBytes (r : NvmRec) : List Byte :=
  let l := [byte r.item, 0#8] ++ leBytes 2 r.index ++ leBytes 2 20 ++ leBytes 2 r.flags ++ leBytes 8 r.select ++
    leBytes 8 r.failed ++ leBytes 4 (unsigned 32 r.value)
  l ++ leBytes 4 (crc 1 l)

/-- The header of a copy, 48 bytes. -/
def headerBytes (n : Nvm) : List Byte :=
  let h := leBytes 4 0x4D495254 ++ leBytes 4 n.gen ++ leBytes 4 n.trimCount ++ leBytes 4 n.runNs ++ leBytes 6 n.runS ++
    leBytes 2 n.flags ++ leBytes 8 n.runTide ++ leBytes 2 n.records.length ++ zeros 2 ++ leBytes 2 (unsigned 16 n.temp) ++
    [byte n.deltaC] ++ zeros 5
  h ++ leBytes 4 (crc 1 h)

/-- Records of a copy from offset `o`; none when the CRC of one is wrong. -/
def readRecords (l : List Byte) : (n o : Nat) → Option (List NvmRec)
  | 0, _ => some []
  | n + 1, o =>
    let e := o + 8 + leAt l (o + 4) 2
    if crc 1 (slice l o (e - o)) ≠ leAt l e 4 then none
    else (readRecords l n (e + 4)).map (fun r =>
      ⟨leAt l o 1, leAt l (o + 2) 2, leAt l (o + 6) 2, leAt l (o + 8) 8, leAt l (o + 16) 8, signed 32 (leAt l (o + 24) 4)⟩ :: r)

/-- A copy that is valid: its MAGIC, its HDR_CRC and every record CRC are right (R493). -/
def nvmRead (l : List Byte) : Option Nvm :=
  if leAt l 0 4 ≠ 0x4D495254 ∨ crc 1 (l.take 0x2C) ≠ leAt l 0x2C 4 then none
  else (readRecords l (leAt l 0x20 2) 0x30).map (fun r =>
    { gen := leAt l 4 4, trimCount := leAt l 8 4, runNs := leAt l 0x0C 4, runS := leAt l 0x10 6, flags := leAt l 0x16 2,
      runTide := leAt l 0x18 8, temp := signed 16 (leAt l 0x24 2), deltaC := leAt l 0x26 1, records := r })

def nvmGen (o : Option Nvm) : Nat := o.elim 0 (·.gen)

/-- `a` is newer than `b` in 32-bit serial arithmetic. -/
def serialNewer (a b : Nat) : Bool := a != b && decide ((a + 2 ^ 32 - b) % 2 ^ 32 < 2 ^ 31)

/-- The copy that the next write goes to: the one that is not in force, which has the lower GEN or is not valid; A when none is. -/
def copyToWrite (s : State) : Nat := if s.trim.hdr.isNone ∨ s.trim.copy = 1 then 0 else 1

/-- Bytes written over what NVM holds from offset `o`. -/
def overwrite (l : List Byte) (o : Nat) (d : List Byte) : List Byte := slice l 0 o ++ d ++ l.drop (o + d.length)

/-- Write into copy `k`. -/
def writeCopy (t : Trim) (k o : Nat) (d : List Byte) : Trim :=
  if k = 0 then { t with copyA := overwrite t.copyA o d } else { t with copyB := overwrite t.copyB o d }

/-- The header is written last, with the other copy's GEN + 1, and the copy is in force (R493). -/
def closeCopy (s : State) (w : NvmWrite) (n : Nvm) : State :=
  let other := if w.copy = 0 then s.trim.copyB else s.trim.copyA
  let n := { n with gen := (leAt other 4 4 + 1) % 2 ^ 32, records := w.records }
  { s with trim := { writeCopy s.trim w.copy 0 (headerBytes n) with copy := w.copy, hdr := some n, write := none } }

/-- One record for each element set of R485. -/
def nvmRecords (s : State) : List NvmRec :=
  (List.range 6).flatMap (fun i => (List.range (trimIndexes i)).map (setShown s i))

/-- NVM_COPY_BAD for a copy that is not valid; the GEN of one that holds no header is open. -/
def raiseCopyBad (s : State) (k : Nat) (l : List Byte) : State :=
  if 8 ≤ l.length then raiseClass s 0x0204 0 k (leAt l 4 4) 0
  else
    let (g, s) := s.drawNat
    raiseClass s 0x0204 0 k (g % 2 ^ 32) 0

/-- At boot, the valid copy with the higher GEN is loaded, or the factory values (R493, R500). The die temperature is what the sensors show,
which is open until it is sampled. -/
def loadNvm (s : State) : State :=
  let t := s.trim
  let (d, s) := s.drawNat
  let base : Trim := { copyA := t.copyA, copyB := t.copyB, tempNow := signed 16 (d % 65536) }
  let load (k : Nat) (n : Nvm) (s : State) : State :=
    { s with trim := { base with
      copy := k, hdr := some n, factoryRef := n.flags.testBit 0, deltaC := n.deltaC,
      sets := n.records.foldl (fun t r => tset t (trimKey r.item r.index) { r with flags := r.flags &&& 3 }) [] } }
  match nvmRead t.copyA, nvmRead t.copyB with
  | some a, some b => if serialNewer b.gen a.gen then load 1 b s else load 0 a s
  | some a, none => raiseCopyBad (load 0 a s) 1 t.copyB
  | none, some b => raiseCopyBad (load 1 b s) 0 t.copyA
  | none, none => raiseClass { s with trim := { base with factoryAll := true } } 0x0205 1 0 0 0

/-! ### Runs (R489 to R491) -/

/-- TEMP_LAST: the temperature of the copy in force. -/
def tempLast (s : State) : Int := s.trim.hdr.elim 0 (·.temp)

/-- The entries of R485 in the order in which a run trims them. -/
def trimEntries : List (Nat × Nat) := (List.range 6).flatMap (fun i => (List.range (trimIndexes i)).map (fun n => (i, n)))

/-- CALREF counts as absent (R483). -/
def calrefAbsent (uv : Nat) : Bool := decide (uv + 24000 < 1200000) || decide (1224000 < uv)

/-- A run starts, and measures CALREF (R483); none starts while REFCLK is absent (R522). -/
def startRun (s : State) (deltaC : Nat) (caller : Option Caller) (uv : Nat) : State :=
  let t := s.trim
  if s.clk.refclk then
    let s := { s with trim := { t with
      run := some { at_ := s.aon, deltaC := deltaC, caller := caller, absent := calrefAbsent uv, left := trimEntries,
                    past := ⟨t.sets, t.deferred, t.moving, t.implausible, t.calrefUv⟩ },
      implausible := 0, calrefUv := uv } }
    if calrefAbsent uv then raiseClass s 0x0201 1 0 uv 0 else s
  else s

/-- A run that no operand gives a reading of CALREF measures a free value. -/
def startRunNow (s : State) (deltaC : Nat) (caller : Option Caller) : State :=
  let (uv, s) := s.drawNat
  startRun s deltaC caller (uv % 2 ^ 32)

def trimFlags (s : State) : Nat :=
  b2n s.trim.factoryRef + 2 * b2n s.trim.factoryAll + 4 * b2n s.trim.run.isSome + 8 * b2n (s.trim.deferred != [])

/-- The KIND 0 block of TRIM_QUERY (R501). -/
def trimBlock (s : State) : List Byte :=
  let n := s.trim.hdr
  leBytes 4 (n.elim 0 (·.trimCount)) ++ leBytes 4 (n.elim 0 (·.runNs)) ++ leBytes 6 (n.elim 0 (·.runS)) ++ leBytes 2 (trimFlags s) ++
    leBytes 8 (n.elim 0 (·.runTide)) ++ leBytes 2 (unsigned 16 (tempLast s)) ++ leBytes 2 (unsigned 16 s.trim.tempNow) ++
    [byte s.trim.deltaC, byte s.trim.copy] ++ leBytes 2 s.trim.implausible ++ leBytes 4 (nvmGen n) ++ leBytes 4 s.trim.calrefUv

/-- TRIM_DONE event (R504). -/
def postTrimDone (s : State) : State :=
  postFw s 0x61 1 none (leBytes 4 (s.trim.hdr.elim 0 (·.trimCount)) ++ leBytes 2 s.trim.implausible ++ leBytes 2 (trimFlags s))

/-- A run whose command is past its bound leaves nothing behind (R432). -/
def undoRun (s : State) (c : Caller) : State := faultRunning { s with trim := undoTrim s.trim } c 0x0E01

/-- The present touch frame, counted as R461 counts AON cycles. -/
def frameNow (s : State) : Nat := s.aon / (104167 * 960)

/-- An entry may be measured: its result is still missing, and no earlier item's is. An element is measured once in a run: of items 3
and 4 outside the selected set, of item 5 in place, 4 for each sense channel in a touch frame (R485, R487). -/
def mayMeasure (s : State) (r : TrimRun) (item index element : Nat) : Bool :=
  let k := trimKey item index
  r.left.contains (item, index) && r.left.all (fun e => decide (item ≤ e.1)) &&
    (decide (item ≤ 2) ||
      (decide (element < elementCount item) && !thas (tget [] r.got k) element &&
        (if item = 5 then (tget (0, 0) r.inFrame index) |> fun e => e.1 != frameNow s || decide (e.2 < 4)
         else !(setInForce s item index).select.testBit element)))

/-- An entry has its result. -/
def entryDone (r : TrimRun) (item index : Nat) : TrimRun :=
  { r with left := r.left.erase (item, index), got := tdel r.got (trimKey item index) }

/-- One reading of a run; the result of an entry follows its last one at once (R484, R486). -/
def measureEntry (s : State) (r : TrimRun) (item index element : Nat) (reading : Nat × Nat) (sensor edge : Int) : State :=
  let k := trimKey item index
  let put (r : TrimRun) : State := { s with trim := { s.trim with run := some r } }
  if item ≤ 2 then applyValue r.absent item index (tracedValue item reading sensor) (put (entryDone r item index))
  else
    let v := tracedElement item (if r.absent then s.trim.calrefUv else 1200000) reading edge
    let s := raiseFailed item index element v s
    let put (r : TrimRun) : State := { s with trim := { s.trim with run := some r } }
    let got := tset (tget [] r.got k) element v
    let e := tget (0, 0) r.inFrame index
    let frames := if item = 5 then tset r.inFrame index (if e.1 = frameNow s then (e.1, e.2 + 1) else (frameNow s, 1)) else r.inFrame
    let r := { r with inFrame := frames }
    if got.length = elementCount item then applyElements r.absent item index (got.map (·.2)) (put (entryDone r item index))
    else put { r with got := tset r.got k got }

/-- A swap of a run: a spare that the run has measured and found within its bounds enters, and an element leaves, on one AON cycle
(R487). On a head that runs it waits for the latch edge. -/
def swapElement (s : State) (r : TrimRun) (item index enter leave : Nat) : State :=
  let k := trimKey item index
  let old := (tfind s.trim.deferred k).getD (setInForce s item index)
  let sound := (tfind (tget [] r.got k) enter).elim false (elementSound item)
  if sound && !old.select.testBit enter && old.select.testBit leave then
    let select := old.select + 2 ^ enter - 2 ^ leave
    let (v, s) := stepValue old select { s with trim := { s.trim with stepAt := some s.aon } }
    let new := { old with select := select, value := v }
    if waits s item index then putSet s new else { s with trim := { s.trim with sets := tset s.trim.sets k new } }
  else s

/-- An addition or a removal: the next step towards the new selection (R487). -/
def growSet (s : State) (item index : Nat) (enter leave : Option Nat) : State :=
  match tfind s.trim.moving (trimKey item index) with
  | none => s
  | some target =>
    let old := (setInForce s item index).select
    let select := old + enter.elim 0 (fun e => 2 ^ e) - leave.elim 0 (fun e => 2 ^ e)
    if select ≠ old ∧ select = stepTowards old target.select then takeStep s target select else s

/-- TRIM_ELEMENT_STEP (R487): one step of the sequencer. -/
def execTrimElementStep (item index : Nat) (step : TrimStep) (s : State) : Host.Outcome State Fault Refusal :=
  if trimPointOk item index = false then .next s
  else match s.trim.run, step with
    | some r, .measure e reading sensor edge =>
      .next (if mayMeasure s r item index e then measureEntry s r item index e reading sensor edge else s)
    | some r, .move (some a) (some b) =>
      .next (if (item = 3 ∨ item = 4) ∧ stepDue s = true then swapElement s r item index a b else s)
    | _, .move a b => .next (if (item = 3 ∨ item = 4) ∧ stepDue s = true then growSet s item index a b else s)
    | none, .measure .. => .next s

/-- A run with all its results starts its copy, and the copy that is being written takes its next record (R493). -/
def writeRecordNext (s : State) : State :=
  match s.trim.write with
  | none =>
    if s.trim.run.elim false (fun r => r.left.isEmpty) then
      { s with trim := { s.trim with write := some ⟨copyToWrite s, nvmRecords s, 0, none⟩ } }
    else s
  | some w =>
    match w.records[w.written]? with
    | none => s
    | some r => { s with trim := { writeCopy s.trim w.copy (0x30 + 32 * w.written) (recordBytes r) with
        write := some { w with written := w.written + 1 } } }

/-- A write of DELTA_C has only its header left: the header repeats the one in force with the new value, and the command completes
(R500). -/
def closeDelta (s : State) : State :=
  match s.trim.write with
  | some w => match w.delta with
    | some (d, c) =>
      if w.written < w.records.length then s
      else
        let n : Nvm := s.trim.hdr.getD
          { gen := 0, trimCount := 0, runNs := 0, runS := 0, flags := 0, runTide := 0, temp := 0, deltaC := d, records := [] }
        if overdue s c 0x0E01 then faultRunning { s with trim := abortTrim s.trim } c 0x0E01
        else
          let s := closeCopy s w { n with deltaC := d }
          finishRunning s c 0x0E01 stOk (trimBlock s)
    | none => s
  | none => s

/-- What passes in the trim sequencer and in NVM in a cycle. -/
def trimCycle (s : State) : State := closeDelta (writeRecordNext (moveSets s))

/-- A write of DELTA_C ends at once, where another command comes (R399). -/
def settleWrite (s : State) : State :=
  match s.trim.write with
  | some w => if w.delta.isSome then closeDelta (w.records.foldl (fun s _ => writeRecordNext s) s) else s
  | none => s

/-- A run whose records are written completes: its header, its event, and the command that started it (R490, R491). -/
def completeRun (s : State) (r : TrimRun) (w : NvmWrite) : State :=
  let s := { s with trim := { s.trim with run := none, deltaC := r.deltaC, factoryRef := r.absent, factoryAll := false } }
  let s := closeCopy s w
    { gen := 0, trimCount := (s.trim.hdr.elim 0 (·.trimCount) + 1) % 2 ^ 32, runNs := timeNs s.tb, runS := timeS s.tb,
      flags := b2n r.absent, runTide := s.tide.count, temp := s.trim.tempNow, deltaC := r.deltaC, records := [] }
  let s := postTrimDone s
  match r.caller with
  | some c => finishRunning s c 0x0E01 stOk (trimBlock s)
  | none => s

/-- TRIM_RUN_COMPLETE (R491): the run has its results, and NVM holds all records of its copy but the header. -/
def execTrimRunComplete (s : State) : Host.Outcome State Fault Refusal :=
  match s.trim.run, s.trim.write with
  | some r, some w =>
    if r.left ≠ [] ∨ w.written < w.records.length then .next s
    else match r.caller with
      | some c => if overdue s c 0x0E01 then .next (undoRun s c) else .next (completeRun s r w)
      | none => .next (completeRun s r w)
  | _, _ => .next s

/-- The sensors that show the highest temperature, and what it is: readings in 1/16 °C, with the offsets of item 2 applied. -/
def hottest (s : State) (readings : List Int) : Int × Nat :=
  (readings.zipIdx.map (fun e => (e.1 + (setInForce s 2 e.2).value, e.2))).foldl
    (fun b e => if b.1 < e.1 ∨ b.2 = readings.length then e else b) (0, readings.length)

/-- TEMPERATURE_SAMPLE, every 1 s (R489): the die temperature is the highest of the 16 main-die sensors, and it may trigger a run. -/
def execTemperatureSample (readings : List Int) (s : State) : Host.Outcome State Fault Refusal :=
  if released s = false ∨ readings.length ≠ 16 ∨ s.trim.tempAt.elim false (fun t => decide (s.aon < t + secT)) = true then .next s
  else
    let sixteenths := (hottest s readings).1
    let s := { s with trim := { s.trim with tempNow := sixteenths, tempAt := some s.aon } }
    let far := decide (16 * (s.trim.deltaC : Int) < sixteenths - tempLast s) || decide (16 * (s.trim.deltaC : Int) < tempLast s - sixteenths)
    if far && s.trim.run.isNone && s.clk.refclk && s.trim.tempRunAt.elim true (fun t => decide (t + 60 * secT ≤ s.aon)) then
      .next (startRunNow { s with trim := { s.trim with tempRunAt := some s.aon } } s.trim.deltaC none)
    else .next s

/-! ### Commands (R500, R501) -/

/-- DELTA_C is written to a new copy that repeats what is in force; the command completes with the copy. -/
def writeDelta (s : State) (c : Caller) (d : Nat) : State :=
  { s with trim := { s.trim with deltaC := d, write := some ⟨copyToWrite s, nvmRecords s, 0, some (d, c)⟩ } }

def cmdTrimRun (c : Caller) (p : TrimRunP) (s : State) : Reply :=
  if s.trim.run.isSome then refuse s stBusy
  else if (!p.run && !p.setDelta) || (p.setDelta && (decide (p.deltaC < 2) || decide (20 < p.deltaC))) then refuse s stBadParam
  else if p.run && !s.clk.refclk then refuse s stBusy
  else
    let s := settleWrite s
    if p.run then ⟨startRunNow s (if p.setDelta then p.deltaC else s.trim.deltaC) (some c), stPending, []⟩
    else ⟨writeDelta s c p.deltaC, stPending, []⟩

def execTrimRun (c : Caller) (p : TrimRunP) (s : State) : Host.Outcome State Fault Refusal :=
  .next (command c 0x0E01 (cmdTrimRun c p) s)

def cmdTrimQuery (p : TrimQueryP) (s : State) : Reply :=
  match p.kind with
  | 0 => if p.item = 0 ∧ p.index = 0 then ok s (trimBlock s) else refuse s stBadParam
  | 1 =>
    if trimPointOk p.item p.index then
      let r := setShown s p.item p.index
      ok s (leBytes 8 r.select ++ leBytes 8 r.failed ++ leBytes 4 (unsigned 32 r.value) ++ [byte r.flags] ++ zeros 3)
    else refuse s stBadParam
  | _ => refuse s stBadParam

def execTrimQuery (c : Caller) (p : TrimQueryP) (s : State) : Host.Outcome State Fault Refusal :=
  .next (command c 0x0E02 (cmdTrimQuery p) s)

end Sys2Proof.Machine
end

