-- ==== Sys2Proof/Machine/Time.lean ====
section
/-! DEFINITION. Network time and pulses (spec/12): the servo (R323, R324), phase steps (R322, R332), TIME_SET_PROFILE, PULSE_SET,
TIDE_SET, TIME_QUERY, the PTP rows, PPS_EDGE, TEN_MHZ_GATE, SOURCE_LOST, PULSE_EDGE and EVT_IN_EDGE. -/

namespace Sys2Proof.Machine

/-! ### The frequency word (R15, R16; notes/assumptions/33.md and 102.md) -/

/-- The word in force changes. -/
def setWord (s : State) (w : Int) : State :=
  if s.clk.freqWord = w then s
  else { s with clk := { s.clk with freqWord := w },
                servo := { s.servo with words := (s.ref, w) :: s.servo.words } }

/-- The word asked for: reached at once when the change is 1 ppm or less, else from the next tide on. DESIGN CHOICE: the first
step of 1 ppm is that of the next tide (notes/assumptions/102.md). -/
def targetWord (s : State) (v : Int) : State :=
  let s := { s with clk := { s.clk with freqTarget := v } }
  if (v - s.clk.freqWord).natAbs ≤ 100 then setWord s v else s

/-- Firmware writes a word: clamped to 200 ppm, and logged when it is. -/
def requestWord (s : State) (w : Int) : State :=
  let v := clampI (-20000) 20000 w
  targetWord (if v = w then s else raiseErr s 0x0004 0 (unsigned 32 w) (unsigned 32 v)) v

/-- One step of 1 ppm towards the word written, at a tide. -/
def slewWord (s : State) : State :=
  setWord s (s.clk.freqWord + clampI (-100) 100 (s.clk.freqTarget - s.clk.freqWord))

/-- Sum of word × ticks back to time `since`; `upto` is where the part not yet summed ends. -/
def wordSum (since : Ticks) : (upto : Ticks) → List (Ticks × Int) → Int
  | _, [] => 0
  | upto, (t, w) :: r =>
    if t ≤ since then w * ((upto - since : Nat) : Int) else w * ((upto - t : Nat) : Int) + wordSum since t r

/-- Mean of the word over the last 64 s, words before the first change being 0 (R323; notes/assumptions/33.md). -/
def meanWord (s : State) : Int :=
  let since := s.ref - 64 * secT
  if s.ref = since then s.clk.freqWord else roundHalfUp (wordSum since s.ref s.servo.words) (s.ref - since)

/-- Changes that a mean can still need. -/
def pruneWords (s : State) : State :=
  let since := s.ref - 64 * secT
  let l := s.servo.words
  { s with servo := { s.servo with
      words := l.takeWhile (fun e => decide (since < e.1)) ++ (l.dropWhile (fun e => decide (since < e.1))).take 1 } }

/-! ### Servo states (R323) -/

/-- The servo changes its state, with its TIME_STATE event; the first lock arms a tide re-base (R22). -/
def setServo (s : State) (st : ServoState) : State :=
  if s.servo.st = st then s
  else
    let old := s.servo.st
    let first := st == .locked && !s.tide.locked
    let s := { s with
      servo := { s.servo with st := st, goodRun := 0, badRun := 0 },
      tide := if first then { s.tide with locked := true, rebaseArmed := true } else s.tide }
    postFw s 0x21 1 none
      [byte (servoCode old), byte (servoCode st), byte s.servo.prof.source, 0#8, byte (unsigned 32 s.servo.offsetNs)]

/-! ### Pulse instants (R331), in half-nanoseconds of the time base -/

def halfNs : Nat := 12

/-- The time base in half-nanoseconds, rounded down: what a stamp gives (R326, R333), and rounded up. -/
def tbStamp (s : State) : Nat := s.halves
def tbHalf (s : State) : Nat := ceilDiv (2 * s.clk.base) one40

/-- START of a setting (R330). -/
def pulseStart (c : Pulse) : Nat := c.startS * 2000000000 + c.startNs * 2

/-- Leading edge `m` of a setting at a tide rate, from 0. -/
def pulseInst (num den : Nat) (c : Pulse) (m : Nat) : Option Int :=
  if c.mode = 1 then (if m = 0 then some ((pulseStart c + c.fine : Nat) : Int) else none)
  else if c.mode = 2 then some ((pulseStart c + m * c.period * 4 + c.fine : Nat) : Int)
  else if c.mode = 3 then
    some (((m * c.div * den * 2000000000 / num : Nat) : Int) + 4 * c.offset + c.fine)
  else none

/-- Leading edges before instant `x`. -/
def pulsesBefore (num den : Nat) (c : Pulse) (x : Int) : Nat :=
  let start : Int := ((pulseStart c + c.fine : Nat) : Int)
  if c.mode = 1 then (if start < x then 1 else 0)
  else if c.mode = 2 then ceilDiv (x - start).toNat (max 1 (c.period * 4))
  else if c.mode = 3 then
    ceilDiv (ceilDiv ((x - 4 * c.offset - c.fine).toNat * num) (den * 2000000000)) (max 1 c.div)
  else 0

/-- The first leading edge at or after instant `x`. -/
def pulseFrom (s : State) (c : Pulse) (x : Int) : Option Nat :=
  (pulseInst s.tide.num s.tide.den c (pulsesBefore s.tide.num s.tide.den c x)).map (·.toNat)

/-- The first trailing edge at or after instant `x`. -/
def trailFrom (s : State) (c : Pulse) (x : Int) : Option Nat :=
  (pulseFrom s c (x - ((4 * c.width : Nat) : Int))).map (· + 4 * c.width)

/-- A setting comes into force: its first edge from now on. -/
def loadPulse (s : State) (c : Pulse) (missed : Nat) : PulseSt := { cfg := c, next := pulseFrom s c (tbHalf s), missed := missed }

/-- The level of a PULSE ball (R330): the active level while the output is active. -/
def pulseLevel (p : PulseSt) : Bool := p.active != p.cfg.polarity

/-- An output with a new state; a change of its ball's level goes out. -/
def putPulse (s : State) (n : Nat) (p : PulseSt) (time : Ticks) : State :=
  let old := pulseLevel (s.pulse n)
  let s := s.setPulse n p
  if old = pulseLevel p then s else s.emit (.pulse n (pulseLevel p) time)

/-- Leading edges of a setting from instant `t` on that lie before instant `b`, and those of their trailing edges that do. -/
def edgesBefore (num den : Nat) (c : Pulse) (t b : Int) : Nat :=
  (pulsesBefore num den c b - pulsesBefore num den c t) +
    (pulsesBefore num den c (b - ((4 * c.width : Nat) : Int)) - pulsesBefore num den c t)

/-- A forward step to half-nanosecond `b` (R332): each edge that it skips is not produced and counts; a skipped START of mode 1
fires on the TIME cycle after. The end of an active pulse that a step skips comes at the step (notes/assumptions/77.md). -/
def skipPulse (s : State) (b : Nat) (p : PulseSt) : PulseSt :=
  let num := s.tide.num
  let den := s.tide.den
  match p.next with
  | none => p
  | some t =>
    if b ≤ t then p
    else if p.active then
      let c := p.pend.getD p.cfg
      let lead : Int := (t : Int) - ((4 * p.cfg.width : Nat) : Int)
      { cfg := c, next := pulseFrom s c b, missed := p.missed + 1 + edgesBefore num den p.cfg (lead + 1) b }
    else if p.cfg.mode = 1 then { p with next := some (b + 4), late := true }
    else { p with next := pulseFrom s p.cfg b, missed := p.missed + edgesBefore num den p.cfg t b }

/-- A backward step: every edge that the time base reaches again is due again. An active pulse that fired late ends a WIDTH after it
fired, when no trailing edge of its setting comes before. -/
def rewindPulse (s : State) (p : PulseSt) : PulseSt :=
  { p with next := if p.active then (trailFrom s p.cfg (tbHalf s)).orElse (fun _ => p.next) else pulseFrom s p.cfg (tbHalf s), late := false }

/-- The pulses after a phase step from half-nanosecond `old` of the time base (R332). -/
def stepPulses (s : State) (old : Nat) : State :=
  let f (p : PulseSt) : PulseSt := if old ≤ tbHalf s then skipPulse s (tbHalf s) p else rewindPulse s p
  s.pulses.foldl (fun s e => putPulse s e.1 (f e.2) s.tb) s

/-- A phase step of `d` half-nanoseconds (R322, R17, R22, R23): time base and PAN time move together, and the seconds that a
TOD_S gave are taken up (R324). -/
def phaseStep (s : State) (d : Int) : State :=
  let old := tbHalf s
  let ticks := d * halfNs
  let s := { s with
    clk := { s.clk with base := ((s.clk.base : Int) + d * ((one40 / 2 : Nat) : Int)).toNat, panTime := ((s.pt : Int) + ticks).toNat,
                        steppedAt := s.now, steppedBy := ticks },
    tide := { s.tide with lastAt := s.tide.lastAt + ticks, rebaseArmed := s.tide.rebaseArmed || decide (20000 < d.natAbs) },
    servo := { s.servo with phaseSteps := sat32 s.servo.phaseSteps, todLag := 0,
                            ptp := tmap (fun _ (q : PtpPort) => { q with sync := none, delay := none }) s.servo.ptp } }
  stepPulses s old

/-- The offset exceeds 1 µs, or lies within 100 ns, in half-nanoseconds; a source without phase gives none. -/
def offsetLarge (off : Option Int) : Bool := off.elim false (fun o => decide (2000 < o.natAbs))
def offsetSmall (off : Option Int) : Bool := off.elim true (fun o => decide (o.natAbs ≤ 200))

/-- Frequency slew by the word that the servo's law asks for, when the source gives frequency. -/
def slewBy (s : State) (word : Option Int) : State := word.elim s (requestWord s)

/-- In ACQUIRING: a step when the offset exceeds 1 µs, otherwise frequency slew; with the run of good measurements (R323). -/
def acquire (s : State) (off word : Option Int) : State :=
  let s := if offsetLarge off then phaseStep s (-(off.getD 0)) else slewBy s word
  let good := if offsetSmall off then s.servo.goodRun + 1 else 0
  let s := { s with servo := { s.servo with goodRun := good } }
  if 16 ≤ good then setServo s .locked else s

/-- In LOCKED: four offsets above 1 µs in a row go back to ACQUIRING, where the fourth is handled. -/
def holdLock (s : State) (off word : Option Int) : State :=
  let bad := if offsetLarge off then s.servo.badRun + 1 else 0
  let s := { s with servo := { s.servo with badRun := bad } }
  if 4 ≤ bad then acquire (setServo s .acquiring) off word else slewBy s word

/-- A measurement of the selected source: an offset from it in half-nanoseconds, and the word of the servo's law when it gives
frequency. -/
def measure (s : State) (off : Option Int) (word : Option Int) : State :=
  let s := match off with
    | some o => { s with servo := { s.servo with offsetNs := clampI (-2147483648) 2147483647 (roundHalfUp o 2) } }
    | none => s
  match s.servo.st with
  | .locked => holdLock s off word
  | .acquiring => acquire s off word
  | _ => acquire (setServo s .acquiring) off word

/-! ### The loss of a source (R323) -/

/-- An interval that the profile gives by its logarithm, and the announce interval (R329). -/
def intervalT (log : Int) : Ticks := secT * 2 ^ (log + 8).toNat / 256
def announceT (p : Profile) : Ticks := intervalT p.logAnnounce

/-- No Announce has come to a port for the receipt timeout. -/
def announceLate (s : State) (n : Nat) : Bool :=
  decide ((tget {} s.servo.ptp n).heardAt + s.servo.prof.announceTimeout * announceT s.servo.prof ≤ s.ref)

/-- Three expected PPS edges are missing since the last one, or since the source was chosen: the third one's second is over. -/
def ppsLate (s : State) : Bool := decide (s.servo.ppsAt.getD s.servo.sourceAt + 3 * secT < s.ref)

/-- The selected source is lost. -/
def sourceGone (s : State) : Bool :=
  let p := s.servo.prof
  match p.source with
  | 0 => (bitsOf 16 p.ports).all (announceLate s)
  | 1 => ppsLate s
  | 2 => ppsLate s || s.servo.tenBad
  | 3 => s.servo.tenBad
  | _ => false

/-- SOURCE_LOST (R323): HOLDOVER, with the frequency word frozen at its mean over the last 64 s, which R16 brings into force. -/
def execSourceLost (s : State) : Host.Outcome State Fault Refusal :=
  if sourceGone s = true ∧ (s.servo.st = .locked ∨ s.servo.st = .acquiring) then
    .next (setServo (targetWord s (meanWord s)) .holdover)
  else .next s

/-! ### TIME_SET_PROFILE (R329) -/

def profileOk (s : State) (p : Profile) : Bool :=
  let r (lo hi x : Int) : Bool := decide (lo ≤ x) && decide (x ≤ hi)
  decide (p.source ≤ 4) && decide (p.transport ≤ 2) && decide (p.domain ≤ 127) && decide (p.priority1 < 256) &&
    decide (p.priority2 < 256) && r (-7) 0 p.logSync && r (-3) 1 p.logAnnounce && within 2 10 p.announceTimeout &&
    r (-7) 0 p.logDelayReq && decide (p.ports < 65536) && decide (p.todS < 2 ^ 48) &&
    (bitsOf 16 p.ports).all (fun i => (s.port i).exists_) && !(p.ports == 0 && p.source == 0)

/-- Ports that begin to run PTP, or run it on another transport or in another domain, begin to listen (R325, R329). -/
def restartPtp (s : State) (v : Servo) : State :=
  let old := s.servo.prof
  let keep (i : Nat) : Bool := old.ports.testBit i && old.domain == v.prof.domain && old.transport == v.prof.transport
  { s with servo := { v with ptp := (bitsOf 16 v.prof.ports).map (fun i =>
      (i, if keep i then tget {} v.ptp i else ({ state := 4, heardAt := s.ref } : PtpPort))) } }

def cmdTimeSetProfile (p : Profile) (s : State) : Reply :=
  if profileOk s p then
    let old := s.servo.prof.source
    let s := restartPtp s { s.servo with prof := p, todLag := 0 }
    if old = p.source then ok s
    else
      let s := { s with servo := { s.servo with sourceAt := s.ref, ppsAt := none, tenBad := false, goodRun := 0, badRun := 0 } }
      if p.source = 4 then ok (setServo (requestWord s 0) .free)
      else ok (setServo s .acquiring)
  else refuse s stBadParam

def execTimeSetProfile (c : Caller) (p : Profile) (s : State) : Host.Outcome State Fault Refusal :=
  .next (command c 0x0A01 (cmdTimeSetProfile p) s)

/-! ### PULSE_SET (R330, R333) -/

def pulseOk (s : State) (p : Pulse) : Bool :=
  let t := s.tide
  let inTide (n : Nat) : Bool := decide (2 * n * t.num < 1000000000 * t.den)
  decide (p.mode ≤ 3) && decide (p.fine ≤ 3) && decide (1 ≤ p.width) && decide (p.width < 2 ^ 32) &&
    (if p.mode = 1 ∨ p.mode = 2 then decide (p.startNs < 2 ^ 32) && p.startNs % 2 == 0 && decide (p.startS < 2 ^ 48)
     else true) &&
    (if p.mode = 2 then decide (4 ≤ p.period) && decide (p.period < 2 ^ 32) && decide (p.width < p.period) else true) &&
    (if p.mode = 3 then inTide p.width && inTide p.offset.natAbs && within 1 255 p.div else true)

/-- Every field of a capture input but MODE is 0 (R333). -/
def captureOk (p : Pulse) : Bool :=
  decide (p.mode ≤ 3) && { p with mode := 0 } == (⟨0, false, 0, 0, 0, 0, 0, 0, 0⟩ : Pulse)

def cmdPulseSet (q : PulseSetP) (s : State) : Reply :=
  if q.target < 8 then
    if pulseOk s q.p then
      let p := s.pulse q.target
      ok (putPulse s q.target (if p.active then { p with pend := some q.p } else loadPulse s q.p p.missed) s.tb)
    else refuse s stBadParam
  else if q.target < 10 ∧ captureOk q.p = true then
    ok (s.setCapture (q.target - 8) { s.capture (q.target - 8) with mode := q.p.mode })
  else refuse s stBadParam

def execPulseSet (c : Caller) (p : PulseSetP) (s : State) : Host.Outcome State Fault Refusal :=
  .next (command c 0x0A02 (cmdPulseSet p) s)

/-! ### TIDE_SET (R334, R25, R547) -/

/-- The ratio lies from 24 to 240 Hz. -/
def tideRateOk (num den : Nat) : Bool :=
  decide (0 < den) && decide (den < 2 ^ 32) && decide (num < 2 ^ 32) && decide (24 * den ≤ num) && decide (num ≤ 240 * den)

def headEnabled (h : Head) : Bool := h.st != .disabled

def cmdTideSet (p : TideSetP) (s : State) : Reply :=
  let r := leBytes 4 (1200000000 * p.den / p.num)
  if tideRateOk p.num p.den = false then refuse s stBadParam
  else if p.num = s.tide.num ∧ p.den = s.tide.den then ok s r
  else if s.heads.any (fun e => headEnabled e.2) then refuse s stBusy
  else ok { s with tide := { s.tide with pendRate := some (p.num, p.den) } } r

def execTideSet (c : Caller) (p : TideSetP) (s : State) : Host.Outcome State Fault Refusal :=
  .next (command c 0x0A04 (cmdTideSet p) s)

/-! ### The PTP clock (R325; PRESUMED: IEEE 1588-2019; notes/assumptions/78.md) -/

/-- A logical port that runs PTP and has link. -/
def ptpPort (s : State) (n : Nat) : Bool := s.servo.prof.ports.testBit n && portUp s n

def State.ptpOf (s : State) (n : Nat) : PtpPort := tget {} s.servo.ptp n
def State.setPtp (s : State) (n : Nat) (q : PtpPort) : State := { s with servo := { s.servo with ptp := tset s.servo.ptp n q } }

/-- The first of two lists of numbers comes first in their order. -/
def lexLess : List Nat → List Nat → Bool
  | a :: r, b :: q => decide (a < b) || (a == b && lexLess r q)
  | _, _ => false

/-- One clock is better than another by the data-set comparison: by its grandmaster's data, or for one grandmaster by the
steps removed and the sender. -/
def betterClock (a b : Foreign) : Bool :=
  if a.d.gm = b.d.gm then lexLess [a.d.steps, a.srcClock, a.srcPort] [b.d.steps, b.srcClock, b.srcPort]
  else
    let key (d : ClockData) : List Nat := [d.priority1, d.cls, d.accuracy, d.variance, d.priority2, d.gm]
    lexLess (key a.d) (key b.d)

/-- The data of this device's own clock. -/
def ownClock (s : State) : ClockData :=
  ⟨s.servo.prof.priority1, 248, 0xFE, 0xFFFF, s.servo.prof.priority2, Config.clockIdentity, 0⟩

def ownForeign (s : State) : Foreign := ⟨ownClock s, Config.clockIdentity, 0, 0, none⟩

/-- A clock heard twice within four announce intervals and within the receipt timeout. -/
def qualified (s : State) (f : Foreign) : Bool :=
  let i := announceT s.servo.prof
  f.before.elim false (fun t => decide (f.at_ ≤ t + 4 * i)) && decide (s.ref < f.at_ + s.servo.prof.announceTimeout * i) &&
    decide (f.d.steps < 255) && f.d.gm != Config.clockIdentity

/-- The best of a list of clocks. -/
def bestClock : List Foreign → Option Foreign
  | [] => none
  | f :: r => match bestClock r with
    | none => some f
    | some g => if betterClock g f then some g else some f

/-- The best clock that a port hears, and the best of all ports with its port. -/
def portBest (s : State) (n : Nat) : Option Foreign :=
  if ptpPort s n then bestClock ((s.ptpOf n).foreign.filter (qualified s)) else none

def clockBest (s : State) : Option (Nat × Foreign) :=
  (List.range 16).foldl (fun b n => match portBest s n, b with
    | some f, some (m, g) => if betterClock f g then some (n, f) else some (m, g)
    | some f, none => some (n, f)
    | none, b => b) none

/-- The best clock `g` of all ports is better by topology than the clock `f` that port `n` hears from the same grandmaster: as many
steps removed, or one fewer where `f`'s sender has the lower identity than its receiver. -/
def betterByTopology (g f : Foreign) (n : Nat) : Bool :=
  g.d.gm == f.d.gm &&
    (g.d.steps == f.d.steps ||
      (g.d.steps + 1 == f.d.steps && lexLess [f.srcClock, f.srcPort] [Config.clockIdentity, n + 1]))

/-- The state that the best master clock algorithm gives a port: 4 LISTENING, 6 MASTER, 7 PASSIVE, 9 SLAVE, 0 not running. -/
def portState (s : State) (n : Nat) : Nat :=
  let p := s.servo.prof
  if !(p.ports.testBit n && (s.port n).exists_) then 0
  else match clockBest s with
    | none => if p.slaveOnly || !ptpPort s n || !announceLate s n then 4 else 6
    | some (m, g) =>
      if !ptpPort s n then 4
      else if p.slaveOnly then (if m = n then 9 else 4)
      else if betterClock (ownForeign s) g then 6
      else if m = n then 9
      else match portBest s n with
        | some f => if betterByTopology g f n then 7 else 6
        | none => 6

/-- The clock takes the states of its ports, its parent and its grandmaster as they stand: its own identity and 0 steps while it is
master and no port is slave. -/
def decidePtp (s : State) : State :=
  let slave := (List.range 16).find? (fun n => portState s n == 9)
  let parent := slave.bind (portBest s)
  let own := slave.isNone && (List.range 16).any (fun n => portState s n == 6)
  { s with servo := { s.servo with
      ptp := tmap (fun n (q : PtpPort) => { q with state := portState s n }) s.servo.ptp,
      slavePort := slave.getD 0xFF,
      gmId := if own then Config.clockIdentity % 2 ^ 64 else parent.elim s.servo.gmId (·.d.gm % 2 ^ 64),
      stepsRemoved := if own then 0 else parent.elim s.servo.stepsRemoved (fun f => (f.d.steps + 1) % 65536) } }

/-! ### TIME_QUERY (R335) -/

def cmdTimeQuery (s : State) : Reply :=
  let s := decidePtp s
  let v := s.servo
  ok s (leBytes 4 (servoCode v.st + 4 * v.prof.source) ++ leBytes 4 (s.clk.base / one40 % 1000000000) ++
    leBytes 6 (s.clk.base / one40 / 1000000000) ++ leBytes 2 (s.clk.base % one40 / 2 ^ 24) ++
    leBytes 4 (unsigned 32 v.offsetNs) ++ leBytes 4 v.pathDelay ++
    leBytes 4 (unsigned 32 s.clk.freqWord) ++ [byte v.slavePort, 0#8] ++ leBytes 2 v.stepsRemoved ++ leBytes 8 v.gmId ++
    leBytes 8 s.tide.count ++ leBytes 8 s.tide.lag ++ leBytes 4 v.phaseSteps ++
    [byte (min 255 (s.capture 0).lost), byte (min 255 (s.capture 1).lost)] ++
    leBytes 2 (min 65535 (sumNat (s.pulses.map (fun e => e.2.missed)))) ++
    (List.range 16).map (fun i => byte (portState s i)))

def execTimeQuery (c : Caller) (s : State) : Host.Outcome State Fault Refusal :=
  .next (command c 0x0A03 cmdTimeQuery s)

/-! ### PTP messages (R325 to R328) -/

/-- Receive and transmit stamps in half-nanoseconds, with the port's RX_DELAY taken off and TX_DELAY added (R326, R327). -/
def rxStamp (s : State) (n stamp : Nat) : Nat := stamp - (s.port n).cfg.rxDelay
def txStamp (s : State) (n : Nat) : Nat := tbStamp s + (s.port n).cfg.txDelay

/-- Half-nanoseconds and nanoseconds in units of 2^-16 ns. -/
def fine16 (half : Nat) : Int := ((32768 * half : Nat) : Int)
def ns16 (ns : Nat) : Int := ((65536 * ns : Nat) : Int)

/-- messageType, controlField and logMessageInterval of a message of this clock. -/
def ptpCodes (p : Profile) : PtpBody → Nat × Nat × Int
  | .sync .. => (0, 0, p.logSync)
  | .delayReq => (1, 1, 0x7F)
  | .followUp _ => (8, 2, p.logSync)
  | .delayResp .. => (9, 3, p.logDelayReq)
  | .announce _ => (11, 5, p.logAnnounce)

/-- A timestamp of a message: seconds and nanoseconds. -/
def ptpTime (ns : Nat) : List Byte := beBytes 6 (ns / 1000000000) ++ beBytes 4 (ns % 1000000000)

/-- The body of a message; `utc`: UTC offset and time source of an Announce. -/
def ptpBodyBytes (utc : Nat × Nat) : PtpBody → List Byte
  | .sync _ t => ptpTime t
  | .followUp t => ptpTime t
  | .delayReq => ptpTime 0
  | .delayResp t clock port => ptpTime t ++ beBytes 8 clock ++ beBytes 2 port
  | .announce d => ptpTime 0 ++ beBytes 2 utc.1 ++ [0#8, byte d.priority1, byte d.cls, byte d.accuracy] ++ beBytes 2 d.variance ++
      [byte d.priority2] ++ beBytes 8 d.gm ++ beBytes 2 d.steps ++ [byte utc.2]

/-- A message of this clock as bytes (PRESUMED: IEEE 1588-2019; notes/assumptions/78.md). -/
def ptpBytes (p : Profile) (m : PtpMsg) (flags : Nat) (utc : Nat × Nat) : List Byte :=
  let (type, control, log) := ptpCodes p m.body
  let body := ptpBodyBytes utc m.body
  [byte type, 0x12#8] ++ beBytes 2 (34 + body.length) ++ [byte m.domain, 0#8] ++ beBytes 2 flags ++
    beBytes 8 (unsigned 64 m.correction) ++ zeros 4 ++ beBytes 8 m.srcClock ++ beBytes 2 m.srcPort ++ beBytes 2 m.seq ++
    [byte control, byte (unsigned 8 log)] ++ body

/-- Two bytes after `l` that give it the Internet checksum of `old` with two zero bytes (R328). -/
def correctionBytes (old l : List Byte) : List Byte := beBytes 2 ((65535 - inetSum old + inetSum l) % 65535)

/-- A message before the departure stamp is inserted in it. -/
def unstamped (m : PtpMsg) : PtpMsg :=
  match m.body with
  | .sync two _ => { m with correction := 0, body := .sync two 0 }
  | _ => m

/-- The Ethernet frame of a message on a port, with the correction bytes of a UDP transport and the FCS computed last (R328; PRESUMED:
the addresses and ports of IEEE 1588-2019; notes/assumptions/78.md). -/
def ptpFrame (s : State) (n : Nat) (m : PtpMsg) : List Byte × State :=
  let p := s.servo.prof
  let cfg := (s.port n).cfg
  let (flags, s) := match m.body with
    | .announce _ => s.drawNat
    | _ => (0, s)
  let (utc, s) := s.drawNat
  let (source, s) := s.drawNat
  let (dscp, s) := s.drawNat
  let l := ptpBytes p m (flags % 65536) (utc % 65536, source)
  let old := ptpBytes p (unstamped m) (flags % 65536) (utc % 65536, source)
  let payload := l ++ correctionBytes old l
  let port := match m.body with
    | .sync .. => 319
    | .delayReq => 319
    | _ => 320
  let (dst, type, data, s) :=
    if p.transport = 0 then
      let (d, s) := udpPacket s ⟨false, cfg.ipv4⟩ ⟨false, 0xE0000181⟩ (dscp % 64) port port payload
      (0x01005E000181, 0x0800, d, s)
    else if p.transport = 1 then
      let (d, s) := udpPacket s ⟨true, cfg.ipv6⟩ ⟨true, 0xFF0E * 2 ^ 112 + 0x181⟩ (dscp % 64) port port payload
      (0x333300000181, 0x86DD, d, s)
    else (0x011B19000000, 0x88F7, l, s)
  let frame := beBytes 6 dst ++ beBytes 6 cfg.mac ++ beBytes 2 type ++ data
  let frame := frame ++ zeros (60 - frame.length)
  (frame ++ leBytes 4 (crc 0 frame), s)

/-- A message of this clock leaves on a port, with the profile's domain and transport. -/
def sendPtp (s : State) (n seq : Nat) (correction : Int) (b : PtpBody) : State :=
  let p := s.servo.prof
  let m : PtpMsg := ⟨p.transport, p.domain, Config.clockIdentity, n + 1, seq, correction, b⟩
  let (l, s) := ptpFrame s n m
  s.emit (.ptp n m l)

/-- An Announce came: its sender's data and the times of its last two. -/
def hearAnnounce (s : State) (n : Nat) (m : PtpMsg) (d : ClockData) : State :=
  let q := s.ptpOf n
  let same (f : Foreign) : Bool := f.srcClock == m.srcClock && f.srcPort == m.srcPort
  let before := (q.foreign.find? same).map (·.at_)
  decidePtp (s.setPtp n { q with
    heardAt := s.ref, foreign := ⟨d, m.srcClock, m.srcPort, s.ref, before⟩ :: q.foreign.filter (fun f => !same f) })

/-- The message comes from the clock that the slave port follows. -/
def fromParent (s : State) (n : Nat) (m : PtpMsg) : Bool :=
  portState s n == 9 && (portBest s n).elim false (fun f => f.srcClock == m.srcClock && f.srcPort == m.srcPort)

/-- An exchange is complete (R323, R325): path delay and offset of the end-to-end mechanism, in 2^-16 ns. -/
def ptpExchange (s : State) (n : Nat) (t1 t2 t3 t4 word : Int) : State :=
  let delay := ((t2 - t1) + (t4 - t3)) / 2
  let s := s.setPtp n { s.ptpOf n with sync := none, delay := none }
  let s := { s with servo := { s.servo with pathDelay := min (2 ^ 32 - 1) (roundHalfUp delay 65536).toNat } }
  if s.servo.prof.source = 0 then measure s (some (roundHalfUp (t2 - t1 - delay) 32768)) (some word) else s

/-- A message of the profile's transport and domain, received with a stamp in half-nanoseconds; `word` is what the servo's law
asks for when it completes an exchange. -/
def ptpMessage (s : State) (n : Nat) (m : PtpMsg) (stamp : Nat) (word : Int) : State :=
  let q := s.ptpOf n
  let at_ := fine16 (rxStamp s n stamp)
  match m.body with
  | .announce d => hearAnnounce s n m d
  | .sync twoStep origin =>
    if fromParent s n m then
      s.setPtp n { q with sync := some (m.seq, at_ - m.correction, if twoStep then none else some (ns16 origin)) }
    else s
  | .followUp origin =>
    match q.sync with
    | some (k, t2, none) =>
      if k = m.seq ∧ fromParent s n m = true then s.setPtp n { q with sync := some (k, t2, some (ns16 origin + m.correction)) } else s
    | _ => s
  | .delayReq =>
    if portState s n = 6 then
      let half := rxStamp s n stamp
      sendPtp s n m.seq (m.correction - fine16 (half % 2)) (.delayResp (half / 2) m.srcClock m.srcPort)
    else s
  | .delayResp receive clock port =>
    match q.sync, q.delay with
    | some (_, t2, some t1), some (k, t3) =>
      if k = m.seq ∧ clock = Config.clockIdentity ∧ port = n + 1 ∧ fromParent s n m = true then
        ptpExchange s n t1 t2 t3 (ns16 receive - m.correction) word
      else s
    | _, _ => s

/-- PTP_RECEIVE: the oldest frame of the time path of a logical port, with its stamp (R193, R198, R326). -/
def execPtpReceive (port : Fin 16) (m : PtpMsg) (word : Int) (s : State) : Host.Outcome State Fault Refusal :=
  let n := port.val
  match (s.port n).timeIn with
  | [] => .next s
  | (_, stamp) :: rest =>
    let s := s.setPort n { s.port n with timeIn := rest }
    if ptpPort s n ∧ m.transport = s.servo.prof.transport ∧ m.domain = s.servo.prof.domain then .next (ptpMessage s n m stamp word)
    else .next s

/-- The clock may act as master on a port. -/
def masterPort (s : State) (n : Nat) : Bool := ptpPort s n && portState s n == 6

/-- A message sent at intervals is due (R329; notes/assumptions/78.md). -/
def intervalDue (s : State) (log : Int) (last : Option Ticks) : Bool := last.elim true (fun t => decide (t + intervalT log ≤ s.ref))

/-- PTP_SYNC_TRANSMIT (R325, R328): one-step, with the departure stamp inserted and its sub-nanosecond part in correctionField. -/
def execPtpSyncTransmit (port : Fin 16) (s : State) : Host.Outcome State Fault Refusal :=
  let n := port.val
  if masterPort s n && intervalDue s s.servo.prof.logSync (s.ptpOf n).syncAt then
    let q := s.ptpOf n
    let half := txStamp s n
    .next (sendPtp (s.setPtp n { q with seqSync := (q.seqSync + 1) % 65536, syncAt := some s.ref }) n q.seqSync (fine16 (half % 2)) (.sync false (half / 2)))
  else .next s

/-- What the clock announces: its grandmaster one step further, or itself. -/
def announced (s : State) : ClockData :=
  match (List.range 16).find? (fun n => portState s n == 9) with
  | some n => (portBest s n).elim (ownClock s) (fun f => { f.d with steps := f.d.steps + 1 })
  | none => ownClock s

def execPtpAnnounceTransmit (port : Fin 16) (s : State) : Host.Outcome State Fault Refusal :=
  let n := port.val
  let s := decidePtp s
  if masterPort s n && intervalDue s s.servo.prof.logAnnounce (s.ptpOf n).announceAt then
    let q := s.ptpOf n
    .next (sendPtp (s.setPtp n { q with seqAnnounce := (q.seqAnnounce + 1) % 65536, announceAt := some s.ref }) n q.seqAnnounce 0 (.announce (announced s)))
  else .next s

/-- PTP_DELAY_REQ_TRANSMIT: from the port in slave state, once it holds a Sync. -/
def execPtpDelayReqTransmit (port : Fin 16) (s : State) : Host.Outcome State Fault Refusal :=
  let n := port.val
  if ptpPort s n ∧ portState s n = 9 ∧ intervalDue s s.servo.prof.logDelayReq (s.ptpOf n).delayAt = true then
    let q := s.ptpOf n
    .next (sendPtp (s.setPtp n { q with delayAt := some s.ref, seqDelay := (q.seqDelay + 1) % 65536, delay := some (q.seqDelay, fine16 (txStamp s n)) })
      n q.seqDelay 0 .delayReq)
  else .next s

/-! ### PPS_IN and TEN_MHZ_IN (R323, R324) -/

/-- The second nearest to the time base. -/
def nearSecond (s : State) : Int := (((tbStamp s + 1000000000) / 2000000000 : Nat) : Int)

/-- Offset of the time base, in half-nanoseconds, from the second that a PPS edge marks; TOD_S sets its seconds, and those of the
edges after it until a step takes them up (notes/assumptions/103.md). -/
def ppsError (s : State) : Int :=
  (tbStamp s : Int) - (nearSecond s + s.servo.todLag) * 2000000000

/-- PPS_EDGE: the edge that PPS_EDGE of the profile selects marks nanoseconds 0 of a second; the other one marks nothing (R329). -/
def execPpsEdge (rising : Bool) (word : Int) (s : State) : Host.Outcome State Fault Refusal :=
  let v := s.servo
  let src := v.prof.source
  if (src = 1 ∨ src = 2) ∧ rising ≠ v.prof.ppsEdge then
    let lag := if v.prof.todS = 0 then v.todLag else (v.prof.todS : Int) - nearSecond s
    let s := { s with servo := { v with todLag := lag, ppsAt := some s.ref, prof := { v.prof with todS := 0 } } }
    .next (measure s (some (ppsError s)) (if src = 1 then some word else none))
  else .next s

/-- TEN_MHZ_GATE: a gate of 1 s; `measured` is the frequency against the time base, in 0.01 ppm. Outside ±50 ppm the source is
lost and gives no measurement. With SOURCE = 2 it gives frequency while the servo follows its source. -/
def execTenMhzGate (measured word : Int) (s : State) : Host.Outcome State Fault Refusal :=
  let src := s.servo.prof.source
  if src = 2 ∨ src = 3 then
    let bad := decide (5000 < measured.natAbs)
    let s := { s with servo := { s.servo with tenBad := bad } }
    if bad then .next s
    else if src = 3 then .next (measure s none (some word))
    else if s.servo.st = .locked ∨ s.servo.st = .acquiring then .next (requestWord s word)
    else .next s
  else .next s

/-! ### Edges (R331 to R333) -/

/-- PULSE_EDGE: the next edge of a pulse output, when the time base has reached it. -/
def pulseEdge (s : State) (n : Nat) (p : PulseSt) (t : Nat) : State :=
  if p.active then
    let c := p.pend.getD p.cfg
    putPulse s n { cfg := c, next := pulseFrom s c (t + 1), missed := p.missed } (t * halfNs)
  else
    let s := putPulse s n { p with active := true, next := some (t + 4 * p.cfg.width), late := false } (t * halfNs)
    if p.late then postFw s 0x23 1 (some (t * halfNs)) [byte n] else s

def execPulseEdge (p : Fin 8) (s : State) : Host.Outcome State Fault Refusal :=
  match (s.pulse p.val).next with
  | some t => if t ≤ tbStamp s then .next (pulseEdge s p.val (s.pulse p.val) t) else .next s
  | none => .next s

/-- EVT_IN_EDGE (R333): a captured edge enters its FIFO, or is lost. -/
def execEvtInEdge (i : Fin 2) (rising : Bool) (s : State) : Host.Outcome State Fault Refusal :=
  let c := s.capture i.val
  if !(if rising then c.mode.testBit 0 else c.mode.testBit 1) then .next s
  else if 16 ≤ c.fifo.length then .next (s.setCapture i.val { c with lost := min 255 (c.lost + 1) })
  else .next (s.setCapture i.val { c with fifo := c.fifo ++ [(tbStamp s * halfNs, rising)] })

/-- One entry of a capture FIFO drains into its event. -/
def drainCapture (s : State) (i : Nat) : State :=
  let c := s.capture i
  match c.fifo with
  | [] => s
  | (t, rising) :: r =>
    postHw (s.setCapture i { c with fifo := r }) 0x22 1 t
      ([byte i, byte (b2n (!rising))] ++ leBytes 2 (t % nsT * 65536 / nsT))

/-- What the block does in a PAN cycle in which no command waits: the capture FIFOs drain, groups that a wake releases
restart, time passes, detectors ask for what ended frames let them read (R307), access units are skipped and pool waits counted
(R234, R250), a lane termination takes its next step (R485), the FENCE commands whose changes are visible complete (R440), what the
Welond lanes have carried leaves (R349), and the heads' FIFOs hand over what is due (R108; notes/assumptions/1.md). -/
def idleCycle (s : State) : State :=
  let s := (List.range 2).foldl pumpLine s
  let s := finishFences (powerCycle (drainCapture (drainCapture s 0) 1)).pass
  let s := prepareDecode ((s.ctxs.map (·.1)).foldl startDetector (trimCycle s))
  (s.heads.map (·.1)).foldl pump s

end Sys2Proof.Machine
end

