-- ==== Sys2Proof/Machine/TouchMap.lean ====
section
/-! DEFINITION. The routing of touches (spec/18 R472 to R479): TOUCH_REPORT and TOUCH_PACKET_RECEIVE. -/

namespace Sys2Proof.Machine

/-! ### Touch frames (R461, R472) -/

/-- Length of a touch frame: 104,167 AON cycles. -/
def touchFrameT : Nat := 104167 * 960

/-- The touch frame that ends last before now; the four desks share it (notes/assumptions/52.md). -/
def touchIndex (s : State) : Nat := s.aon / touchFrameT

/-- `n` more touch frames have ended than `ix`; they stretch with AON while it runs from the ring oscillator (R522). -/
def framesDue (s : State) (ix n : Nat) : Bool := decide (ix + n ≤ touchIndex s)

/-- The touch time of a report that becomes visible now: the first TIME cycle (R472). -/
def touchTime (s : State) : Ticks := s.tbNext

/-! ### The window touched (R473, R474) -/

/-- The route entry of a desk whose glass rectangle holds a position; a contact keeps that of its down (R473, R481). -/
def entryAt (k : Desk) (x y : Int) : Option (Nat × Route) :=
  k.routes.find? (fun e => decide ((e.2.gx : Int) ≤ x) && decide (x < e.2.gx + e.2.gw) && decide ((e.2.gy : Int) ≤ y) &&
    decide (y < e.2.gy + e.2.gh))

/-- The slot that contributes with the greatest weight at a pixel of the frame shown, the topmost among equals (R130, R474). -/
def touchedSlot (s : State) (h : Head) (line x : Nat) : Option Slot :=
  match h.gen with
  | none => none
  | some t =>
    let h := { h with force := bankShown h, taken := h.shown }
    let w := (composePixel s h t line x).weights
    (slotsAt h.force line x).reverse.foldl (fun (b : Option Slot) k =>
      let mine := tget 0 w k.d.g.layer
      if b.elim 0 (fun j => tget 0 w j.d.g.layer) < mine then some k else b) none

/-- The blocking verdict of a window on a head (R476). -/
def blockingVerdict (h : Head) (win : Nat) : Nat :=
  max ((tfind h.done win).elim 0 (·.verdict)) ((tfind h.spans win).elim 0 (·.verdict))

/-- Verdicts that block: UNVERIFIED, STALE, FROZEN and DARK. -/
def blocks (r : Route) (h : Head) (win : Nat) : Bool := r.blockNotLive && decide (2 ≤ blockingVerdict h win)

/-- A contact at the report of its down, which has its entry: its window and context, or how it is turned away (R473, R476). -/
def mapDown (s : State) (c : Contact) : Contact :=
  let c := { c with mapped := true }
  match c.route with
  | none => { c with delivery := .discarded }
  | some (_, r) =>
    let h := s.head r.head
    let (hx, hy) := headAt r c.x c.y
    if h.st ≠ .running then { c with delivery := .host 2 false }
    else match touchedSlot s h (hy / 256).toNat (hx / 256).toNat with
      | none => { c with delivery := .host 3 false }
      | some q =>
        let c := { c with
          win := q.win, ctx := match q.d.g.context, q.opening with
            | some n, some o => some (n, o)
            | _, _ => none }
        if c.delivery = .open_ ∧ blocks r h q.win = true then { c with delivery := .blocked } else c

/-! ### Delivery (R476, R477) -/

/-- What a report gives for one contact: the contact after it, a record for its source, an event for the host ring (window,
reason, BLOCKED), and whether REMOTE_LOST and BLOCKED count it. -/
structure Delivered where
  c : Contact
  record : Option (Nat × TouchRecord) := none
  event : Option (Nat × Nat × Bool) := none
  lost : Bool := false
  blocked : Bool := false
  deriving DecidableEq, Repr

/-- R477: the reasons that a frame gives for ending a contact at its source; the answer says whether the verdict is one. -/
def cancelled (s : State) (c : Contact) : Option Bool :=
  match c.route, c.ctx with
  | some (_, r), some (n, o) =>
    let x := s.ctx n
    let placed := (contactSlot s c).elim false (fun e => e.2.d.g.context == some n && e.2.opening == some o)
    if !placed || x.state != .opened || x.opening != o || x.isolated then some false
    else if blocks r (s.head r.head) c.win then some true
    else none
  | _, _ => none

/-- The rows of R476 for a contact that no earlier frame turned away. -/
def deliverOpen (s : State) (desk n : Nat) (c : Contact) (r : Route) : Delivered :=
  if (s.head r.head).st ≠ .running then { c := c, event := some (0xFFFF, 2, false) }
  else match c.ctx with
    | none => { c := c, event := some (c.win, 0, false) }
    | some (m, o) =>
      let x := s.ctx m
      let rec' := some (m, contactRecord s desk n c.state c)
      let extra := if r.hostAll then some (c.win, 0, false) else none
      let live := x.state == .opened && x.opening == o
      if live && returns x then { c := { c with delivery := .source }, record := rec', event := extra }
      else if live && x.p.type == 3 && x.p.format == 0x10 then
        if (linkTo s x.p.originDevice).isSome then { c := { c with delivery := .source }, record := rec', event := extra }
        else { c := { c with lost := true }, event := some (c.win, 4, true), lost := !c.lost, blocked := c.state == 0 }
      else { c := c, event := some (c.win, 0, false) }

/-- One contact of a report. Of the rows of R476 that keep a contact from its source at the down, the first holds while the head is not
RUNNING; reason 1 of R477 stays. -/
def deliver (s : State) (desk n : Nat) (c : Contact) : Delivered :=
  match c.delivery, c.route with
  | .blocked, some (_, r) =>
    { c := c, event := some (if (s.head r.head).st = .running then (c.win, 1, true) else (0xFFFF, 2, false)), blocked := c.state == 0 }
  | .host reason b, some (_, r) =>
    let off := if (s.head r.head).st = .running then 3 else 2
    { c := c, event := some (c.win, if reason = 1 then 1 else off, b) }
  | .source, some (_, r) =>
    match cancelled s c with
    | some b =>
      { c := { c with delivery := .host 1 b }, record := c.ctx.map (fun e => (e.1, contactRecord s desk n 3 c)),
        event := if r.hostAll then some (c.win, 1, b) else none }
    | none => deliverOpen s desk n c r
  | .open_, some (_, r) => deliverOpen s desk n c r
  | _, _ => { c := c }

/-- TOUCH event (R479). -/
def postTouch (s : State) (t : Ticks) (desk n : Nat) (c : Contact) (e : Nat × Nat × Bool) : State :=
  let (x, y) := if e.1 = 0xFFFF then
      match c.route with
      | some (_, r) => (unsigned 32 (headAt r c.x c.y).1, unsigned 32 (headAt r c.x c.y).2)
      | none => (0, 0)
    else contactXY s c
  postFw s 0x50 1 (some t) ([byte (desk + 4 * c.state + 16 * b2n e.2.2 + 32 * b2n c.stuck), byte n] ++ leBytes 2 e.1 ++
    leBytes 4 x ++ leBytes 4 y ++ [byte (c.route.elim 0 (·.2.head)), byte e.2.1] ++ zeros 2)

/-! ### TOUCH_REPORT -/

/-- The report of one desk: its contacts are mapped and judged, ended ones first; the answer holds the records. -/
def reportDesk (t : Ticks) (acc : State × List (Nat × TouchRecord)) (d : Nat) : State × List (Nat × TouchRecord) :=
  let (s, out) := acc
  let k := s.desk d
  if k.report = false then acc
  else
    let judge (e : Nat × Contact) : Nat × Bool × Delivered :=
      let c := if e.2.mapped then e.2 else mapDown s e.2
      let c := { c with seen := contactView s c }
      (e.1, !e.2.mapped && c.delivery == .discarded, deliver s d e.1 c)
    let ended := k.ended.map judge
    let live := k.contacts.map judge
    let all_ := ended ++ live
    let count (p : Nat × Bool × Delivered → Bool) : Nat := (all_.filter p).length
    let s := s.setDesk d { k with
      contacts := live.map (fun e => (e.1, e.2.2.c)), ended := [], report := false,
      unrouted := satAdd 32 k.unrouted (count (·.2.1)), remoteLost := satAdd 32 k.remoteLost (count (·.2.2.lost)),
      blocked := satAdd 32 k.blocked (count (·.2.2.blocked)) }
    let s := all_.foldl (fun s e => match e.2.2.event with
      | some v => postTouch s t d e.1 e.2.2.c v
      | none => s) s
    (s, out ++ all_.filterMap (·.2.2.record))

/-- The reports of a touch frame: one datagram or packet for each stream that has contacts, and the repeats of R224. -/
def touchReport (s : State) : State :=
  let t := touchTime s
  let (s, l) := (List.range 4).foldl (reportDesk t) (s, [])
  let named := (l.map (·.1)).foldl insertAsc []
  let s := (s.ctxs.map (·.1)).foldl (fun s n => if named.contains n then s else repeatInput s n) s
  let s := { s with touchIx := touchIndex s }
  named.foldl (fun s n => sendRecords s n t ((l.filter (fun e => e.1 == n)).map (·.2))) s

/-- Every desk in full scan has ended the touch frame whose reports are due. -/
def reportsReady (s : State) : Bool :=
  framesDue s s.touchIx 1 &&
    (List.range 4).all (fun d => (s.desk d).st != .full || (s.desk d).report || touchIndex s ≤ (s.desk d).frameIx)

/-- TOUCH_REPORT (R472, R476): the reports of the touch frame, that of `desk` among them, are mapped. -/
def execTouchReport (desk : Fin 4) (s : State) : Host.Outcome State Fault Refusal :=
  if released s = true ∧ ((s.desk desk.val).report = true ∨ s.ctxs.any (fun c => c.2.repeats != 0) = true) ∧
      reportsReady s = true then .next (touchReport s)
  else .next s

/-! ### TOUCH_PACKET_RECEIVE (R478) -/

/-- Contacts of a stream that a packet leaves down. -/
def remoteDownAfter (l : List (Nat × Nat × Nat)) (p : TouchPacket) : List (Nat × Nat × Nat) :=
  p.records.foldl (fun l r =>
    let key := (p.device, r.desk, r.contact)
    if 2 ≤ r.state then l.filter (· != key) else if l.contains key then l else l ++ [key]) l

/-- TOUCH_PACKET_RECEIVE: a packet for another device goes on over the other link (R363); the origin sends its contents as one INPUT
datagram, or discards the packet. One whose EOP fails or whose blocks are out of order is discarded and counted (R352). -/
def execTouchPacketReceive (l : Fin 2) (blocks : List (Bool × List Byte)) (s : State) : Host.Outcome State Fault Refusal :=
  if (s.wel l.val).st ≠ .active then .next s
  else match packetIn s l.val 2 blocks with
    | (none, s) => .next s
    | (some payload, s) =>
      if sopDest blocks ≠ s.ring.device then
        if (s.wel (1 - l.val)).st = .active then
          .next (sendPacket s (1 - l.val) 2 (sopDest blocks) (sopSrc blocks) payload)
        else .next s
      else match touchPacketOf (sopDest blocks) payload with
        | none => .next s
        | some p =>
          if returns (s.ctx p.context) then
            let c := s.ctx p.context
            let s := s.setCtx p.context { c with remoteDown := remoteDownAfter c.remoteDown p }
            .next (sendInput s p.context (ofCap p.touchS p.touchNs) (streamDown s p.context) p.records)
          else .next s

end Sys2Proof.Machine
end

