-- ==== Sys2Proof/Machine/Touch.lean ====
section
/-! DEFINITION. The desk touch sensors (spec/18 R459 to R471): the touch frame with baselines, contacts and charger noise, slow
scan, and TOUCH_CONFIG, TOUCH_REBASE and TOUCH_ROUTE. -/

namespace Sys2Proof.Machine

/-! ### Nodes (R459) -/

def nodeCount (k : Desk) : Nat := k.cfg.drive * k.cfg.sense

/-- The value of a node (R460): 16 for each burst before the trip, and the fraction; 511 without a trip in 32 bursts. -/
def nodeValue (r : NodeReading) : Nat := if 32 ≤ r.bursts then 511 else 16 * r.bursts + r.fraction

/-- Readings of `n` nodes. -/
def readingsOk (n : Nat) (l : List NodeReading) : Bool := l.length == n && l.all (fun r => decide (r.fraction ≤ 15))

/-! ### Deltas (R462, R469) -/

/-- The middle one of a short list, the lower of two. -/
def median (l : List Int) : Int :=
  nth 0 (l.foldl (fun acc (x : Int) => insertBy (fun (y : Int) => (y + 2 ^ 20).toNat) x acc) []) ((l.length - 1) / 2)

/-- A node takes a value: its raw delta joins the last five. A saturated node takes no part (R460). -/
def scanNode (rebase : Bool) (n : Node) (v : Nat) : Node :=
  let n := { n with value := v, base := if rebase then 256 * (v : Int) else n.base }
  if v = 511 then n else { n with raw := (Int.tdiv (256 * (v : Int) - n.base) 256 :: n.raw).take 5 }

/-- Delta of a node in this frame: raw, or the median of the last five in charger-noise mode; 0 when saturated. -/
def nodeDelta (cn : Bool) (n : Node) : Int :=
  if n.value = 511 then 0 else if cn then median n.raw else nth 0 n.raw 0

/-! ### Peaks (R466) -/

structure Peak where
  node : Nat
  d : Nat
  s : Nat
  x : Int
  y : Int
  delta : Int
  deriving DecidableEq, Repr

/-- Delta at a grid position; beyond the grid 0. -/
def deltaAt (k : Desk) (ds : List Int) (d s : Int) : Int :=
  if 0 ≤ d ∧ d < k.cfg.drive ∧ 0 ≤ s ∧ s < k.cfg.sense then nth 0 ds (s.toNat * k.cfg.drive + d.toNat) else 0

/-- A node's delta tops its neighbours and reaches 3/4 of THRESHOLD. -/
def isPeak (k : Desk) (ds : List Int) (i : Nat) : Bool :=
  let d : Int := ((i % k.cfg.drive : Nat) : Int)
  let s : Int := ((i / k.cfg.drive : Nat) : Int)
  let v := nth 0 ds i
  [((-1 : Int), (-1 : Int)), (0, -1), (1, -1), (-1, 0)].all (fun o => decide (deltaAt k ds (d + o.1) (s + o.2) < v)) &&
    [((1 : Int), (0 : Int)), (-1, 1), (0, 1), (1, 1)].all (fun o => decide (deltaAt k ds (d + o.1) (s + o.2) ≤ v)) &&
    decide (3 * (k.threshold : Int) ≤ 4 * v)

/-- The peak at a node, with its position. -/
def peakAt (k : Desk) (ds : List Int) (i : Nat) : Peak :=
  let d := i % k.cfg.drive
  let s := i / k.cfg.drive
  let f (a b : Int) : Int := max 0 (deltaAt k ds ((d : Int) + a) ((s : Int) + b))
  let col (a : Int) : Int := f a (-1) + f a 0 + f a 1
  let row (b : Int) : Int := f (-1) b + f 0 b + f 1 b
  let total := col (-1) + col 0 + col 1
  let x := 256 * (d : Int) + 128 + 256 * (col 1 - col (-1)) / total
  let y := 256 * (s : Int) + 128 + 256 * (row 1 - row (-1)) / total
  ⟨i, d, s, if k.cfg.flipX then 256 * (k.cfg.drive : Int) - x else x,
    if k.cfg.flipY then 256 * (k.cfg.sense : Int) - y else y, nth 0 ds i⟩

/-- Peaks of a frame by ascending node; saturated nodes are none. -/
def peaksOf (k : Desk) (ds : List Int) : List Peak :=
  ((List.range (nodeCount k)).filter (fun i => isPeak k ds i && (tget {} k.nodes i).value != 511)).map (peakAt k ds)

/-! ### Contacts (R467) -/

def distSq (c : Contact) (p : Peak) : Nat := ((c.x - p.x) * (c.x - p.x) + (c.y - p.y) * (c.y - p.y)).toNat

/-- Existing contacts take peaks, in ascending number, each the nearest unclaimed one within 2,048 units. The answer: claims,
contacts without a peak, peaks left. -/
def claimPeaks : List (Nat × Contact) → List Peak → List (Nat × Contact × Peak) × List (Nat × Contact) × List Peak
  | [], ps => ([], [], ps)
  | (n, c) :: r, ps =>
    match minBy (distSq c) (ps.filter (fun p => decide (distSq c p ≤ 2048 * 2048))) with
    | some p =>
      let (a, b, q) := claimPeaks r (ps.filter (fun q => q.node != p.node))
      ((n, c, p) :: a, b, q)
    | none =>
      let (a, b, q) := claimPeaks r ps
      (a, (n, c) :: b, q)

/-- A contact at a peak. -/
def moveContact (c : Contact) (p : Peak) (state : Nat) : Contact := { c with x := p.x, y := p.y, d := p.d, s := p.s, state := state }

/-- A contact begins. -/
def newContact (k : Desk) (now : Ticks) (p : Peak) : Contact :=
  { x := p.x, y := p.y, d := p.d, s := p.s, state := 0, since := now, route := entryAt k p.x p.y }

/-- The nodes of the 10 largest of some peaks, the lower node winning a tie. -/
def largest (l : List Peak) : List Nat :=
  ((l.foldl (fun acc p => insertBy (fun (q : Peak) => (2048 - q.delta).toNat * 4096 + q.node) p acc) []).take 10).map (·.node)

/-- The contacts after a frame. -/
def trackContacts (k : Desk) (now : Ticks) (ps : List Peak) : Desk :=
  let (claims, lost, left) := claimPeaks k.contacts ps
  let fresh := left.filter (fun p => decide ((k.threshold : Int) ≤ p.delta))
  let all_ := claims.map (·.2.2) ++ fresh
  let keep := largest all_
  let (on, off) := claims.partition (fun e => keep.contains e.2.2.node)
  let ended := (lost ++ off.map (fun e => (e.1, e.2.1))).map (fun e => (e.1, { e.2 with state := 2 }))
  let live : Tab Contact := on.map (fun e => (e.1, moveContact e.2.1 e.2.2 1))
  let live := (fresh.filter (fun p => keep.contains p.node)).foldl (fun t p =>
    match tfree t 10 with
    | some n => tset t n (newContact k now p)
    | none => t) live
  { k with contacts := live, ended := ended, overContacts := satAdd 32 k.overContacts (all_.length - 10) }

/-! ### Baselines (R462 to R464) -/

/-- Integer division of a sum, rounded down or, when it is inexact and `up` holds, up (notes/assumptions/53.md). -/
def roundDiv (up : Bool) (a : Int) (n : Nat) : Int := a / n + (if up && a % n != 0 then 1 else 0)

def inFootprint (c : Contact) (d s : Nat) : Bool :=
  decide (c.d ≤ d + 1) && decide (d ≤ c.d + 1) && decide (c.s ≤ s + 1) && decide (s ≤ c.s + 1)

/-- The delta that freezes a node: that of a saturated one is its reading less its baseline. -/
def freezeDelta (n : Node) (delta : Int) : Int := if n.value = 511 then Int.tdiv (256 * 511 - n.base) 256 else delta

/-- A node is frozen in a frame (R463). -/
def frozen (k : Desk) (i : Nat) (delta : Int) : Bool :=
  decide ((k.threshold : Int) ≤ 2 * delta) ||
    k.contacts.any (fun c => inFootprint c.2 (i % k.cfg.drive) (i / k.cfg.drive))

/-- The nodes that track, with their deltas. -/
def trackers (k : Desk) (ds : List Int) : List (Nat × Int) :=
  ((List.range (nodeCount k)).map (fun i => (i, nth 0 ds i))).filter (fun e =>
    (tget {} k.nodes e.1).value != 511 && !frozen k e.1 e.2)

/-- Mean move of some tracking nodes in 1/256 of a value unit: a node moves by delta / 64. -/
def meanMove (up : Bool) (l : List (Nat × Int)) : Int :=
  if l = [] then 0 else roundDiv up (4 * (l.map (·.2)).foldl (· + ·) 0) l.length

/-- The move of a node's baseline in a frame: a saturated node moves when it is frozen, with its line. -/
def baseMove (k : Desk) (up : Bool) (tr : List (Nat × Int)) (i : Nat) : Int :=
  let n := tget {} k.nodes i
  if n.value = 511 ∧ frozen k i (freezeDelta n 0) = false then 0
  else match tr.find? (fun e => e.1 == i) with
    | some e => 4 * e.2
    | none =>
      let line := tr.filter (fun e => e.1 / k.cfg.drive == i / k.cfg.drive)
      meanMove up (if line = [] then tr else line)

/-- R464: the values of the run of frames in which a node is negative. -/
def negRunOf (k : Desk) (n : Node) (delta : Int) : Node :=
  if n.value = 511 ∨ ¬ (2 * delta ≤ -(k.threshold : Int)) then { n with negRun := [] }
  else { n with negRun := (n.value :: n.negRun).take 60 }

/-- Both conditions of R464 have held for 60 frames. -/
def negSteady (k : Desk) (n : Node) : Bool :=
  n.negRun.length == 60 && decide (n.negRun.foldl max 0 - n.negRun.foldl min 511 ≤ 4 * k.noiseRms)

/-- R471: the run of frames in which a node is saturated. -/
def satRunOf (n : Node) : Node :=
  if n.value = 511 then { n with satRun := n.satRun + 1 } else { n with satRun := 0, satRaised := false }

/-- Baselines and runs after a frame. -/
def trackBaselines (k : Desk) (up : Bool) (ds : List Int) : Desk :=
  let tr := trackers k ds
  { k with
    nodes := tmap (fun i n => satRunOf (negRunOf k { n with base := n.base + baseMove k up tr i } (nth 0 ds i))) k.nodes,
    noise := (((tr.map (fun e => (e.2 * e.2).toNat)).foldl (· + ·) 0, tr.length) :: k.noise).take 64 }

/-! ### NOISE_RMS and THRESHOLD (R465) -/

/-- Integer square root, bit by bit from bit `b - 1`. -/
def sqrtBits : (b n r : Nat) → Nat
  | 0, _, r => r
  | b + 1, n, r => sqrtBits b n (if (r + 2 ^ b) * (r + 2 ^ b) ≤ n then r + 2 ^ b else r)

/-- Root mean square of the deltas noted, rounded down or up; `other` when no node tracked. -/
def rmsOf (up : Bool) (other : Nat) (l : List (Nat × Nat)) : Nat :=
  let q := sumNat (l.map (·.1))
  let n := sumNat (l.map (·.2))
  if n = 0 then other
  else
    let r := sqrtBits 12 (q / n) 0
    if r * r * n = q then r else r + b2n up

def thresholdOf (k : Desk) : Nat :=
  min 511 (max k.cfg.thMin (min k.cfg.thMax (6 * k.noiseRms)) * (if k.cn then k.cfg.noiseMult else 8) / 8)

def setThreshold (k : Desk) : Desk := { k with threshold := thresholdOf k }

/-! ### Charger noise (R469) -/

/-- Sum of the squares of the readings of the sense channels with the drive off, SENSE times the square of the score. -/
def squares (l : List Int) : Nat := sumNat (l.map (fun x => (x * x).toNat))

/-- The desk hops, and the runs of noisy and quiet frames go on; `noise` holds the readings at F0 to F3. -/
def monitor (k : Desk) (noise : List (List Int)) : Desk :=
  let scores := noise.map squares
  let mine := nth 0 scores k.freq
  let noisy := decide (k.cfg.noiseLimit * k.cfg.noiseLimit * k.cfg.sense < mine)
  let best := (minBy (nth 0 scores) (List.range 4)).getD k.freq
  let hop := decide (16 ≤ k.hopAge) && decide (16 * nth 0 scores best < 9 * mine)
  { k with
    noisyRun := if noisy then k.noisyRun + 1 else 0, quietRun := if noisy || !k.cn then 0 else k.quietRun + 1,
    freq := if hop then best else k.freq, hopAge := if hop then 0 else k.hopAge + 1 }

def enterNoise (k : Desk) : Desk :=
  setThreshold { k with cn := true, quietRun := 0, cnEntries := sat32 k.cnEntries }

def leaveNoise (k : Desk) : Desk := setThreshold { k with cn := false, noisyRun := 0 }

def noiseBegins (k : Desk) : Bool := !k.cn && k.cfg.cnEn && decide (3 ≤ k.noisyRun)
def noiseEnds (k : Desk) : Bool := k.cn && decide (480 ≤ k.quietRun)
def thresholdDue (k : Desk) : Bool := k.st == .full && k.frame64 == 0 && k.frames != 0

/-! ### TOUCH_FRAME (R461) -/

/-- A selection of integration capacitance takes effect on the lines that no footprint covers; their nodes take their next
values as baselines (R488). -/
def applyLines (s : State) (d : Nat) : State :=
  let k := s.desk d
  let free (r : NvmRec) : Bool :=
    r.item == 5 && r.index / 32 == d && !k.contacts.any (fun c => decide (c.2.s ≤ r.index % 32 + 1) && decide (r.index % 32 ≤ c.2.s + 1))
  let lines := ((s.trim.deferred.map (·.2)).filter free).map (fun r => r.index % 32)
  let nodes := lines.flatMap (fun l => (List.range k.cfg.drive).map (fun i => l * k.cfg.drive + i))
  releaseDeferred (s.setDesk d { k with rebase := k.rebase ++ nodes }) free

/-- BASELINING ends: the sums of 16 frames are the means in 1/256 units (R462). -/
def endBaselining (k : Desk) : Desk :=
  if k.st = .baselining ∧ 16 ≤ k.baseFrames then { k with st := .full } else k

/-- A node that has been negative and steady for 60 frames takes its value as its baseline (R464). -/
def negRebase (k : Desk) (node : Nat) : Desk :=
  let n := tget {} k.nodes node
  { k with nodes := tset k.nodes node { n with base := 256 * (n.value : Int), negRun := [] }, negRebases := sat32 k.negRebases }

/-- What the frames before left due on the desk happens first. -/
def settleDesk (k : Desk) : Desk :=
  let k := endBaselining k
  let k := ((k.nodes.filter (fun e => negSteady k e.2)).map (·.1)).foldl negRebase k
  let k := if thresholdDue k then setThreshold k else k
  if noiseBegins k then enterNoise k else if noiseEnds k then leaveNoise k else k

/-- A frame of BASELINING: 16 times each value is added (R462). What TOUCH_REBASE or a trim asks of this frame is done with it: the
baselines it would set become the means of the 16 frames all the same. -/
def baseFrame (k : Desk) (values : List Nat) : Desk :=
  { k with baseFrames := k.baseFrames + 1, rebase := [],
           nodes := values.zipIdx.map (fun e => (e.2, satRunOf { tget {} k.nodes e.2 with
             value := e.1, base := (tget {} k.nodes e.2).base + 16 * (e.1 : Int) })) }

/-- A frame of full scan. -/
def fullFrame (k : Desk) (now : Ticks) (up : Bool) (other : Nat) (values : List Nat) : Desk :=
  let k := { k with rebase := [], nodes := values.zipIdx.map (fun e =>
    (e.2, scanNode (k.rebase.contains e.2) (tget {} k.nodes e.2) e.1)) }
  let ds := k.nodes.map (fun e => nodeDelta k.cn e.2)
  let k := trackBaselines (trackContacts k now (peaksOf k ds)) up ds
  { k with
    noiseRms := min 65535 (rmsOf up other k.noise), report := true,
    lastContact := if k.contacts = [] ∧ k.ended = [] then k.lastContact else now }

/-- One touch frame of a desk: `values` by node, `noise` by frequency. -/
def touchFrame (s : State) (d : Nat) (values : List Nat) (noise : List (List Int)) : State :=
  let s := if (s.desk d).report then touchReport s else s
  let (up, s) := s.drawBool
  let (other, s) := s.drawNat
  let k := settleDesk (s.desk d)
  let k := if k.st = .baselining then baseFrame k values else fullFrame k s.aon up (other % 512) values
  let k := monitor { k with frames := sat32 k.frames, frame64 := (k.frame64 + 1) % 64, frameIx := touchIndex s } noise
  let s := s.setDesk d { k with cfg := k.next.getD k.cfg, next := none }
  let s := applyLines s d
  if k.contacts = [] then s else wake s 1

/-! ### Slow scan (R470) -/

def superCount (k : Desk) : Nat := k.cfg.drive / 8 * k.cfg.sense

/-- A super-node shows an approach. -/
def approach (k : Desk) (values : List Nat) : Bool :=
  values.zipIdx.any (fun e => e.1 != 511 &&
    decide ((k.cfg.approachTh : Int) ≤ Int.tdiv (256 * (e.1 : Int) - tget 0 k.slowNodes e.2) 256))

/-- A slow frame: the first four give the baselines, the others may show an approach. -/
def slowFrame (s : State) (d : Nat) (values : List Nat) : State :=
  let k := { s.desk d with frameIx := touchIndex s, cfg := (s.desk d).next.getD (s.desk d).cfg, next := none }
  if k.slowFrames < 4 then
    applyLines (s.setDesk d { k with slowFrames := k.slowFrames + 1, slowNodes := values.zipIdx.map (fun e =>
      (e.2, tget 0 k.slowNodes e.2 + 64 * (e.1 : Int))) }) d
  else if approach k values then
    if k.slowByPower then wake (s.setDesk d k) 1 else s.setDesk d (wakeDesk k)
  else applyLines (s.setDesk d k) d

/-! ### The rows of a desk -/

/-- TOUCH_FRAME: every node is measured, then the noise monitor reads each sense channel at F0 to F3 (R460, R461, R469). -/
def execTouchFrame (desk : Fin 4) (readings : List NodeReading) (noise : List (List Int)) (s : State) :
    Host.Outcome State Fault Refusal :=
  let k := s.desk desk.val
  if (k.st = .baselining ∨ k.st = .full) ∧ framesDue s k.frameIx 1 = true ∧ readingsOk (nodeCount k) readings = true ∧
      noise.length = 4 ∧ noise.all (fun l => l.length == k.cfg.sense) = true then
    .next (touchFrame s desk.val (readings.map nodeValue) noise)
  else .next s

def execBaselineDone (desk : Fin 4) (s : State) : Host.Outcome State Fault Refusal :=
  .next (s.setDesk desk.val (endBaselining (s.desk desk.val)))

/-- NEG_REBASE (R464). -/
def execNegRebase (desk : Fin 4) (node : Nat) (s : State) : Host.Outcome State Fault Refusal :=
  let k := s.desk desk.val
  match tfind k.nodes node with
  | none => .next s
  | some n => if k.st = .full ∧ negSteady k n = true then .next (s.setDesk desk.val (negRebase k node)) else .next s

def execThresholdUpdate (desk : Fin 4) (s : State) : Host.Outcome State Fault Refusal :=
  let k := s.desk desk.val
  if thresholdDue k then .next (s.setDesk desk.val (setThreshold k)) else .next s

def execChargerNoiseEntry (desk : Fin 4) (s : State) : Host.Outcome State Fault Refusal :=
  let k := s.desk desk.val
  if (k.st = .full ∨ k.st = .baselining) ∧ noiseBegins k = true then .next (s.setDesk desk.val (enterNoise k)) else .next s

def execChargerNoiseExit (desk : Fin 4) (s : State) : Host.Outcome State Fault Refusal :=
  let k := s.desk desk.val
  if (k.st = .full ∨ k.st = .baselining) ∧ noiseEnds k = true then .next (s.setDesk desk.val (leaveNoise k)) else .next s

/-- SLOW_SCAN_ENTRY (R470): no contact has existed for SLOW_AFTER_S. -/
def execSlowScanEntry (desk : Fin 4) (s : State) : Host.Outcome State Fault Refusal :=
  let k := s.desk desk.val
  if k.st = .full ∧ k.cfg.slowEn = true ∧ k.cfg.slowAfterS ≠ 0 ∧ k.contacts = [] ∧
      k.lastContact + k.cfg.slowAfterS * secT ≤ s.aon then
    .next (s.setDesk desk.val (slowDesk false k))
  else .next s

def execSlowScanFrame (desk : Fin 4) (readings : List NodeReading) (s : State) : Host.Outcome State Fault Refusal :=
  let k := s.desk desk.val
  if k.st = .slow ∧ framesDue s k.frameIx 30 = true ∧ readingsOk (superCount k) readings = true then
    .next (slowFrame s desk.val (readings.map nodeValue))
  else .next s

/-- TOUCH_STUCK (R468, R471). -/
def execTouchStuck (desk : Fin 4) (contact : Fin 10) (s : State) : Host.Outcome State Fault Refusal :=
  let k := s.desk desk.val
  match tfind k.contacts contact.val with
  | none => .next s
  | some c =>
    if c.stuck = false ∧ c.since + k.cfg.stuckS * secT < s.aon then
      .next (raiseClass (s.setDesk desk.val { k with
        contacts := tset k.contacts contact.val { c with stuck := true }, stuck := sat32 k.stuck })
        0x0301 1 (desk.val + 256 * contact.val) (256 * c.d + c.s) ((s.aon - c.since) / secT))
    else .next s

/-- TOUCH_SATURATED (R471). -/
def execTouchSaturated (desk : Fin 4) (node : Nat) (s : State) : Host.Outcome State Fault Refusal :=
  let k := s.desk desk.val
  match tfind k.nodes node with
  | none => .next s
  | some n =>
    if n.satRaised = false ∧ 240 ≤ n.satRun then
      .next (raiseClass (s.setDesk desk.val { k with nodes := tset k.nodes node { n with satRaised := true } })
        0x0302 1 desk.val (256 * (node % k.cfg.drive) + node / k.cfg.drive) 0)
    else .next s

/-! ### TOUCH_CONFIG (R480) -/

/-- Ranges of the settings, and the sense phase of R461. -/
def deskConfigOk (c : DeskConfig) : Bool :=
  let fs := [c.f0, c.f1, c.f2, c.f3]
  let fmin := fs.foldl min 1000
  c.drive % 8 == 0 && decide (8 ≤ c.drive) && decide (c.drive ≤ 48) && decide (8 ≤ c.sense) && decide (c.sense ≤ 32) &&
    fs.all (fun f => decide (300 ≤ f) && decide (f ≤ 1000)) && decide (8 ≤ c.thMin) && decide (c.thMin ≤ c.thMax) &&
    decide (c.thMax ≤ 511) && decide (1 ≤ c.noiseLimit) && decide (c.noiseLimit ≤ 511) && decide (8 ≤ c.noiseMult) &&
    decide (c.noiseMult ≤ 32) && decide (c.slowAfterS ≤ 3600) && decide (8 ≤ c.approachTh) && decide (c.approachTh ≤ 511) &&
    decide (60 ≤ c.stuckS) && decide (c.stuckS ≤ 86400) && decide (c.drive * 32000 + 256 * fmin ≤ 4100 * fmin)

/-- DRIVE, SENSE and the flips differ. -/
def geometryDiffers (a b : DeskConfig) : Bool :=
  a.drive != b.drive || a.sense != b.sense || a.flipX != b.flipX || a.flipY != b.flipY

/-- A desk is enabled: counters and contacts are cleared, and BASELINING begins with the next touch frame (R462, R482). What
THRESHOLD is before the first 64 frames is open within its bounds (notes/assumptions/54.md). -/
def enableDesk (s : State) (d : Nat) (c : DeskConfig) : State :=
  let (t, s) := s.drawNat
  let k : Desk := { cfg := c, st := .baselining, threshold := c.thMin + t % (c.thMax - c.thMin + 1), lastContact := s.aon,
                    frameIx := ceilDiv s.aon touchFrameT, routes := (s.desk d).routes }
  s.setDesk d (if memoryRests s then restDesk k else k)

/-- A desk stops scanning: its contacts end. -/
def disableDesk (s : State) (d : Nat) (c : DeskConfig) : State :=
  let k := s.desk d
  s.setDesk d { k with
    cfg := c, next := none, st := .off, contacts := [], rebase := [], slowByPower := false, cn := false,
    ended := k.ended ++ k.contacts.map (fun e => (e.1, { e.2 with state := 2 })), report := k.report || k.contacts != [] }

/-- New settings of a desk that goes on scanning: those of the noise monitor and the thresholds wait for the next frame. -/
def changeDesk (s : State) (d : Nat) (c : DeskConfig) : State :=
  let k := s.desk d
  let now_ : DeskConfig := { c with
    f0 := k.cfg.f0, f1 := k.cfg.f1, f2 := k.cfg.f2, f3 := k.cfg.f3, thMin := k.cfg.thMin, thMax := k.cfg.thMax,
    noiseLimit := k.cfg.noiseLimit, noiseMult := k.cfg.noiseMult }
  let k := { k with cfg := now_, next := some c }
  s.setDesk d (if k.st = .slow ∧ c.slowEn = false ∧ k.slowByPower = false then wakeDesk k else k)

def cmdTouchConfig (p : TouchConfigP) (s : State) : Reply :=
  let k := s.desk p.desk
  if 3 < p.desk then refuse s stBadParam
  else if k.cfg.enable && geometryDiffers k.cfg p.cfg then refuse s stBusy
  else if deskConfigOk p.cfg = false then refuse s stBadParam
  else if k.cfg.enable then ok (if p.cfg.enable then changeDesk s p.desk p.cfg else disableDesk s p.desk p.cfg)
  else if p.cfg.enable then ok (enableDesk s p.desk p.cfg)
  else ok (s.setDesk p.desk { k with cfg := p.cfg, next := none })

def execTouchConfig (c : Caller) (p : TouchConfigP) (s : State) : Host.Outcome State Fault Refusal :=
  .next (command c 0x0D01 (cmdTouchConfig p) s)

/-! ### TOUCH_REBASE (R482) -/

def deskCode : DeskState → Nat
  | .off => 0
  | .baselining => 1
  | .full => 2
  | .slow => 3

def deskBlock (k : Desk) : List Byte :=
  [byte (deskCode k.st + 4 * b2n k.cn + 8 * k.freq), byte k.contacts.length] ++ leBytes 2 k.threshold ++ leBytes 2 k.noiseRms ++
    zeros 2 ++ [k.frames, k.cnEntries, k.negRebases, k.overContacts, k.unrouted, k.blocked, k.remoteLost, k.stuck].flatMap (leBytes 4)

/-- Nodes of the 3 × 3 footprint of a contact. -/
def footprint (k : Desk) (c : Contact) : List Nat :=
  (List.range (nodeCount k)).filter (fun i => inFootprint c (i % k.cfg.drive) (i / k.cfg.drive))

/-- Nodes that an operation covers. -/
def rebased (k : Desk) (op : Nat) : List Nat :=
  if k.st = .off then []
  else if op = 1 then List.range (nodeCount k)
  else if op = 2 then (k.contacts.filter (fun c => c.2.stuck)).flatMap (fun c => footprint k c.2)
  else []

def cmdTouchRebase (p : TouchRebaseP) (s : State) : Reply :=
  if 3 < p.desk ∨ p.op = 3 then refuse s stBadParam
  else
    let k := s.desk p.desk
    let l := rebased k p.op
    let s := s.setDesk p.desk { k with rebase := k.rebase ++ l }
    let s := cancelContacts s (fun d _ c => d == p.desk && (footprint k c).any (fun i => l.contains i))
    ok s (deskBlock (s.desk p.desk))

def execTouchRebase (c : Caller) (p : TouchRebaseP) (s : State) : Host.Outcome State Fault Refusal :=
  .next (command c 0x0D02 (cmdTouchRebase p) s)

/-! ### TOUCH_ROUTE (R481) -/

def glassRect (r : Route) : Rect := ⟨r.gx, r.gy, r.gx + r.gw, r.gy + r.gh⟩

/-- A new entry is refused (R481). -/
def routeBad (s : State) (k : Desk) (entry : Nat) (r : Route) : Bool :=
  let h := s.head r.head
  decide (31 < r.head) || h.force.place.isNone || r.gw == 0 || r.gh == 0 || r.hw == 0 || r.hh == 0 ||
    decide (256 * k.cfg.drive < r.gx + r.gw) || decide (256 * k.cfg.sense < r.gy + r.gh) ||
    !(timingOf h).elim false (fun t => decide (r.hx + r.hw ≤ t.hactive) && decide (r.hy + r.hh ≤ t.vactive)) ||
    k.routes.any (fun e => e.1 != entry && (rectMeet (glassRect e.2) (glassRect r)).isSome)

/-- An entry is cleared: a contact of it whose down no report has mapped yet goes to the host ring too (R477, R481). -/
def clearRoute (k : Desk) (entry : Nat) : Desk :=
  { k with
    routes := tdel k.routes entry,
    contacts := k.contacts.map (fun e =>
      if !e.2.mapped && (e.2.route.map (·.1)) == some entry then (e.1, { e.2 with delivery := .host 1 false }) else e) }

def cmdTouchRoute (p : TouchRouteP) (s : State) : Reply :=
  let k := s.desk p.desk
  if 3 < p.desk ∨ 7 < p.entry then refuse s stBadParam
  else if p.clear then
    if thas k.routes p.entry then
      ok (cancelContacts (s.setDesk p.desk (clearRoute k p.entry))
        (fun d _ c => d == p.desk && (c.route.map (·.1)) == some p.entry))
    else refuse s stBadParam
  else if routeBad s k p.entry p.r then refuse s stBadParam
  else ok (s.setDesk p.desk { k with routes := tset k.routes p.entry p.r })

def execTouchRoute (c : Caller) (p : TouchRouteP) (s : State) : Host.Outcome State Fault Refusal :=
  .next (command c 0x0D03 (cmdTouchRoute p) s)

end Sys2Proof.Machine
end

