-- ==== Sys2Proof/Machine/Parse.lean ====
section
/-! DEFINITION. Parameters of the commands as bytes (spec/15 R425, R429, and the parameter tables of the commands): what row 7 of
R429 finds, the reserved fields of row 8, and the command that the bytes spell. BED_LOAD, the skim commands, CONFIG_QUERY, ERR_READ
and ERR_ACK follow in Mailbox.lean. -/

namespace Sys2Proof.Machine

/-- A parameter block as row 7 of R429 finds it: the size it implies, its reserved fields as byte offset, first bit and width, and
the command. -/
structure Form where
  size : Nat
  zero : List (Nat × Nat × Nat)
  run : Caller → State → Reply

/-- The field of `w` bits from bit `b` of byte `o`, the bytes read as one little-endian number (R3). -/
def fld (n o b w : Nat) : Nat := field n (8 * o + b) w
def bit1 (n o b : Nat) : Bool := n.testBit (8 * o + b)

/-- An IP address of 16 bytes at `o` in network order (R195). -/
def ipAt (l : List Byte) (o : Nat) (v6 : Bool) : IpAddr := ⟨v6, beNat (slice l o (if v6 then 16 else 4))⟩

/-- The bytes that an IPv4 address leaves 0. -/
def ipRest (o : Nat) (v6 : Bool) : List (Nat × Nat × Nat) := if v6 then [] else [(o + 4, 0, 96)]

/-! ### Heads and windows -/

def readTiming (n : Nat) : Timing :=
  { hpol := bit1 n 1 0, vpol := bit1 n 1 1, colour := bit1 n 1 2, depth := bit1 n 1 3, matrix := fld n 1 4 2, range := bit1 n 1 6,
    vrrEn := bit1 n 1 7, mult := fld n 2 0 3, hactive := fld n 4 0 16, hfp := fld n 6 0 16, hsync := fld n 8 0 16,
    hbp := fld n 0x0A 0 16, vactive := fld n 0x0C 0 16, vfpMin := fld n 0x0E 0 16, vfpNom := fld n 0x10 0 16,
    vfpMax := fld n 0x12 0 16, vsync := fld n 0x14 0 16, vbp := fld n 0x16 0 16, phaseLines := fld n 0x18 0 16,
    waitMask := fld n 0x1A 0 12 }

def formTiming (n : Nat) : Form :=
  ⟨32, [(2, 3, 5), (3, 0, 8), (0x1A, 12, 4), (0x1C, 0, 32)], fun _ => cmdHeadSetTiming ⟨fld n 0 0 8, readTiming n⟩⟩

/-- Heads: 0x0301 to 0x0305 (R433). -/
def formHead (code n : Nat) : Option Form :=
  match code with
  | 0x0301 => some (formTiming n)
  | 0x0302 => some ⟨8, [(4, 0, 32)], fun _ => cmdHeadCommit (fld n 0 0 32)⟩
  | 0x0303 => some ⟨4, [(0, 4, 4), (1, 1, 7), (2, 0, 16)], fun _ => cmdHeadTwin ⟨fld n 0 0 4, bit1 n 1 0⟩⟩
  | 0x0304 => some ⟨4, [(1, 0, 24)], fun _ => cmdHeadStateQuery (fld n 0 0 8)⟩
  | 0x0305 => some ⟨4, [(1, 2, 6), (2, 0, 16)], fun _ => cmdHeadEnable ⟨fld n 0 0 8, bit1 n 1 0, bit1 n 1 1⟩⟩
  | _ => none

/-- A field that is absent at a value of all ones. -/
def optField (w v : Nat) : Option Nat := if v = 2 ^ w - 1 then none else some v

def formWindow (n : Nat) : Option Form :=
  match fld n 0 0 8 with
  | 0 => some ⟨20, [(1, 0, 8), (5, 0, 8), (0x10, 0, 32)], fun _ => cmdWindowDefine (.define (fld n 2 0 16)
      ⟨fld n 4 0 8, optField 16 (fld n 6 0 16), fld n 8 0 16, fld n 0x0A 0 16, fld n 0x0C 0 16, fld n 0x0E 0 16⟩)⟩
  | 1 => some ⟨4, [(1, 0, 8)], fun _ => cmdWindowDefine (.delete (fld n 2 0 16))⟩
  | 2 => some ⟨8, [(1, 0, 8), (3, 0, 8)], fun _ => cmdWindowDefine (.place (fld n 2 0 8) (fld n 4 0 16) (fld n 6 0 16))⟩
  | _ => none

def layerSettingsOf (n : Nat) : LayerSettings :=
  { srcX := fld n 4 0 16, srcY := fld n 6 0 16, srcW := fld n 8 0 16, srcH := fld n 0x0A 0 16, globalAlpha := fld n 0x0C 0 11,
    filterH := fld n 0x0E 0 4, filterV := fld n 0x0E 4 4, matrix := fld n 0x0F 0 2, range := bit1 n 0x0F 2,
    premult := bit1 n 0x0F 3, decimateOk := bit1 n 0x0F 4 }

def formLayer (l : List Byte) (n : Nat) : Option Form :=
  match fld n 0 0 8 with
  | 0 => some ⟨16, [(1, 0, 8), (0x0C, 11, 5), (0x0F, 5, 3)], fun _ => cmdLayerSet (.settings (fld n 2 0 16) (layerSettingsOf n))⟩
  | 1 =>
    let k := fld n 5 0 8
    some ⟨8 + 4 * k, [(1, 0, 8), (6, 0, 16)], fun _ => cmdLayerSet (.palette (fld n 2 0 16) (fld n 4 0 8)
      ((List.range k).map (fun i => leAt l (8 + 4 * i) 4)))⟩
  | _ => none

def formLayerAddress (n : Nat) : Form :=
  ⟨16, [(3, 2, 6), (0x0E, 0, 16)], fun _ => cmdLayerAddress
    ⟨fld n 0 0 16, fld n 2 0 8, bit1 n 3 0, bit1 n 3 1, fld n 4 0 32, fld n 8 0 48⟩⟩

def formZorder (n : Nat) : Form :=
  ⟨24, [(1, 1, 7), (2, 0, 16), (4, 30, 2), (0x14, 0, 32)], fun _ => cmdZorderSet
    ⟨fld n 0 0 8, ⟨bit1 n 1 0, fld n 4 0 30, (List.range 12).map (fun i => fld n (8 + i) 0 8)⟩⟩⟩

def policyOf (n : Nat) : Policy :=
  { budgetUs := fld n 4 0 32, frozenRepeat := fld n 8 0 8, recover := fld n 9 0 8, colourSet := fld n 0x0A 0 8,
    glyphEn := bit1 n 0x0B 7, glyphCorner := fld n 0x0B 5 2, critical := bit1 n 0x0C 0, expectMotion := bit1 n 0x0C 1,
    taintCrust := bit1 n 0x0C 2, unverifiedBorder := bit1 n 0x0C 3, crustOff := bit1 n 0x0C 4, crustReplace := bit1 n 0x0C 5 }

def formFreshness (n : Nat) : Option Form :=
  match fld n 0 0 8 with
  | 0 => some ⟨16, [(1, 0, 8), (0x0B, 0, 5), (0x0C, 6, 10), (0x0E, 0, 16)],
      fun c => cmdFreshnessSet c (.policy (fld n 2 0 16) (policyOf n))⟩
  | 1 => some ⟨44, (2, 0, 16) :: (List.range 10).map (fun i => (4 + 4 * i, 30, 2)), fun c => cmdFreshnessSet c (.colours (fld n 1 0 8)
      ⟨(List.range 5).map (fun v => fld n (4 + 8 * v) 0 32), (List.range 5).map (fun v => fld n (8 + 8 * v) 0 32)⟩)⟩
  | 2 => some ⟨8, [(1, 0, 8), (5, 0, 8), (6, 0, 16)], fun c => cmdFreshnessSet c (.membership (fld n 2 0 16) (fld n 4 0 8))⟩
  | _ => none

/-! ### Contexts, decode, encode -/

def ctxParamsOf (n : Nat) : CtxParams :=
  { type := fld n 2 0 4, method := fld n 2 4 4, format := fld n 3 0 8, width := fld n 4 0 16, height := fld n 6 0 16,
    ring := fld n 8 0 4, extId := fld n 9 0 8, extForm := fld n 0x0A 0 1, clockRate := fld n 0x0C 0 32,
    timeoutUs := fld n 0x10 0 32, stream := fld n 0x14 0 16, returnPort := fld n 0x16 0 16, originDevice := fld n 0x18 0 8,
    originContext := fld n 0x1A 0 16, base := fld n 0x20 0 64, pitch := fld n 0x28 0 32, plane1 := fld n 0x2C 0 32,
    stride0 := fld n 0x30 0 32, stride1 := fld n 0x34 0 32 }

def formOpen (n : Nat) : Form :=
  ⟨64, [(8, 4, 4), (0x0A, 1, 7), (0x0B, 0, 8), (0x19, 0, 8), (0x1C, 0, 32), (0x38, 0, 64)],
    fun _ => cmdContextOpen ⟨fld n 0 0 16, ctxParamsOf n⟩⟩

def formFlow (l : List Byte) (n : Nat) : Form :=
  let v6 := bit1 n 2 3
  ⟨48, [(2, 7, 1), (3, 4, 4), (6, 12, 4), (0x2C, 0, 32)] ++ ipRest 8 v6 ++ ipRest 0x18 v6, fun _ => cmdFlowBind
    ⟨fld n 0 0 16, bit1 n 2 0,
      { path := fld n 2 1 1, join := bit1 n 2 2, anyVlan := bit1 n 2 4, anySrc := bit1 n 2 5, anySport := bit1 n 2 6,
        port := fld n 3 0 4, context := fld n 4 0 16, vlan := fld n 6 0 12, src := ipAt l 8 v6, dst := ipAt l 0x18 v6,
        srcPort := fld n 0x28 0 16, dstPort := fld n 0x2A 0 16 }⟩⟩

/-- A number of 16 bits followed by 16 reserved ones. -/
def formNumber (n : Nat) (run : Nat → State → Reply) : Form := ⟨4, [(2, 0, 16)], fun _ => run (fld n 0 0 16)⟩

/-- Contexts: 0x0501 to 0x0506. -/
def formContext (code : Nat) (l : List Byte) (n : Nat) : Option Form :=
  match code with
  | 0x0501 => some (formOpen n)
  | 0x0502 => some (formNumber n cmdContextClose)
  | 0x0503 => some (formFlow l n)
  | 0x0504 => some ⟨4, [(2, 2, 6), (3, 0, 8)], fun _ => cmdSourceIsolate ⟨fld n 0 0 16, bit1 n 2 0, bit1 n 2 1⟩⟩
  | 0x0505 => some (formNumber n cmdContextStats)
  | 0x0506 => some ⟨8, [(0, 4, 4), (1, 1, 7)],
      fun c => cmdSluiceSet c ⟨fld n 0 0 4, bit1 n 1 0, fld n 2 0 16, fld n 4 0 32⟩⟩
  | _ => none

def attachOf (n : Nat) : Attach :=
  { codec := fld n 2 0 2, cls := fld n 2 2 2, priority := bit1 n 2 4, pool := fld n 3 0 8, maxRate := fld n 4 0 32,
    maxAu := fld n 8 0 32, lagMs := fld n 0x0C 0 16, rtcpPort := fld n 0x0E 0 16, poolBase := fld n 0x10 0 64,
    poolPitch := fld n 0x18 0 32, refBase := fld n 0x20 0 64, refPitch := fld n 0x28 0 32 }

/-- Decode: 0x0601 to 0x0603. -/
def formDecode (code n : Nat) : Option Form :=
  match code with
  | 0x0601 => some ⟨48, [(2, 5, 3), (0x1C, 0, 32), (0x2C, 0, 32)], fun _ => cmdDecodeAttach ⟨fld n 0 0 16, attachOf n⟩⟩
  | 0x0602 => some ⟨8, [(2, 3, 5), (3, 0, 8), (6, 0, 16)],
      fun _ => cmdDecodePriority ⟨fld n 0 0 16, fld n 2 0 2, bit1 n 2 2, fld n 4 0 16⟩⟩
  | 0x0603 => some (formNumber n cmdDecodeStats)
  | _ => none

def encParamsOf (l : List Byte) (n : Nat) : EncParams :=
  { engine := fld n 1 0 1, tapContext := bit1 n 1 1, twinBoth := bit1 n 1 2, main10 := bit1 n 1 3, rotate := fld n 1 4 2,
    matrix := fld n 1 6 2, source := fld n 2 0 16, filterH := fld n 4 0 4, filterV := fld n 4 4 4, frameDiv := fld n 5 0 4,
    sliceRows := fld n 6 0 8, outKind := fld n 7 0 2, srcX := fld n 8 0 16, srcY := fld n 0x0A 0 16, srcW := fld n 0x0C 0 16,
    srcH := fld n 0x0E 0 16, outW := fld n 0x10 0 16, outH := fld n 0x12 0 16, idrFrames := fld n 0x14 0 16, mtu := fld n 0x16 0 16,
    inputBase := fld n 0x18 0 64, reconBase := fld n 0x20 0 64, ringBase := fld n 0x28 0 64, ringBytes := fld n 0x30 0 32,
    port := fld n 0x34 0 4, dst := ipAt l 0x38 (bit1 n 0x34 4), dscp := fld n 0x35 0 6, pt := fld n 0x36 0 7,
    extId := fld n 0x37 0 8, srcPort := fld n 0x48 0 16, dstPort := fld n 0x4A 0 16, ssrc := fld n 0x4C 0 32,
    paceMbps := fld n 0x50 0 16 }

/-- Encode: 0x0701 to 0x0703. -/
def formEncode (code : Nat) (l : List Byte) (n : Nat) : Option Form :=
  match code with
  | 0x0701 => some ⟨84, [(5, 4, 4), (7, 2, 6), (0x34, 5, 3), (0x35, 6, 2), (0x36, 7, 1), (0x52, 0, 16)] ++
      ipRest 0x38 (bit1 n 0x34 4), fun _ => cmdEncodeOpen ⟨fld n 0 0 8, encParamsOf l n⟩⟩
  | 0x0702 => some ⟨12, [(1, 2, 6), (3, 0, 8)], fun c => cmdEncodeRate c
      ⟨fld n 0 0 8, bit1 n 1 0, bit1 n 1 1, ⟨fld n 2 0 8, fld n 4 0 32, fld n 8 0 32⟩⟩⟩
  | 0x0703 => some ⟨4, [(1, 0, 24)], fun _ => cmdEncodeClose (fld n 0 0 8)⟩
  | _ => none

/-! ### Crystallizer, checks -/

def crysParamsOf (n : Nat) : CrysParams :=
  { decompress := bit1 n 1 0, filter := bit1 n 1 1, indexEn := bit1 n 1 2, blockKib := fld n 2 0 16, row := fld n 4 0 16,
    inBase := fld n 8 0 64, inBytes := fld n 0x10 0 32, outBytes := fld n 0x14 0 32, outBase := fld n 0x18 0 64,
    stateBase := fld n 0x20 0 64, indexBase := fld n 0x28 0 64, indexEntries := fld n 0x30 0 32 }

/-- Crystallizer: 0x0801 to 0x0803. -/
def formCrys (code n : Nat) : Option Form :=
  match code with
  | 0x0801 => some ⟨56, [(1, 3, 5), (6, 0, 16), (0x34, 0, 32)], fun _ => cmdCrysJob ⟨fld n 0 0 8, crysParamsOf n⟩⟩
  | 0x0802 => some ⟨16, [(1, 0, 24)], fun _ => cmdCrysResume ⟨fld n 0 0 8, fld n 4 0 32, fld n 8 0 64⟩⟩
  | 0x0803 => some ⟨8, [(1, 0, 24)], fun _ => cmdCrysFlush ⟨fld n 0 0 8, fld n 4 0 32⟩⟩
  | _ => none

/-- Checks: 0x0901 to 0x0903. -/
def formCheck (code n : Nat) : Option Form :=
  match code with
  | 0x0901 => some ⟨8, [(2, 4, 4), (3, 0, 8), (6, 0, 16)], fun _ => cmdCheckBind
      ⟨fld n 0 0 16, bit1 n 2 0, bit1 n 2 1, bit1 n 2 2, bit1 n 2 3, fld n 4 0 16⟩⟩
  | 0x0902 => if 2 < fld n 2 0 2 then none else some ⟨12, [(1, 3, 5), (2, 4, 4), (3, 0, 8)], fun c => cmdSealRegion c
      ⟨fld n 0 0 8, fld n 1 0 3, fld n 2 0 2, fld n 2 2 2, fld n 4 0 16, fld n 6 0 16, fld n 8 0 16, fld n 0x0A 0 16⟩⟩
  | 0x0903 => some (formNumber n cmdCheckStats)
  | _ => none

/-! ### Time, links, memory -/

def profileOf (n : Nat) : Profile :=
  { source := fld n 0 0 3, slaveOnly := bit1 n 0 3, transport := fld n 0 4 2, ppsEdge := bit1 n 0 6, domain := fld n 1 0 8,
    priority1 := fld n 2 0 8, priority2 := fld n 3 0 8, logSync := signed 8 (fld n 4 0 8), logAnnounce := signed 8 (fld n 5 0 8),
    announceTimeout := fld n 6 0 8, logDelayReq := signed 8 (fld n 7 0 8), ports := fld n 8 0 16, todS := fld n 0x0C 0 48 }

def pulseOf (n : Nat) : Pulse :=
  { mode := fld n 1 0 2, polarity := bit1 n 1 2, fine := fld n 1 3 2, startNs := fld n 4 0 32, startS := fld n 8 0 48,
    period := fld n 0x10 0 32, width := fld n 0x14 0 32, offset := signed 32 (fld n 0x18 0 32), div := fld n 0x1C 0 8 }

/-- Time: 0x0A01 to 0x0A04. -/
def formTime (code n : Nat) : Option Form :=
  match code with
  | 0x0A01 => some ⟨20, [(0, 7, 1), (0x0A, 0, 16), (0x12, 0, 16)], fun _ => cmdTimeSetProfile (profileOf n)⟩
  | 0x0A02 => some ⟨32, [(0, 4, 4), (1, 5, 3), (2, 0, 16), (0x0E, 0, 16), (0x1D, 0, 24)],
      fun _ => cmdPulseSet ⟨fld n 0 0 4, pulseOf n⟩⟩
  | 0x0A03 => some ⟨0, [], fun _ => cmdTimeQuery⟩
  | 0x0A04 => some ⟨8, [], fun _ => cmdTideSet ⟨fld n 0 0 32, fld n 4 0 32⟩⟩
  | _ => none

def eyeOf (n : Nat) : EyeScanP :=
  { kind := fld n 0 0 8, lane := fld n 1 0 8, phaseLo := signed 8 (fld n 2 0 8), phaseHi := signed 8 (fld n 3 0 8),
    voltLo := signed 8 (fld n 4 0 8), voltHi := signed 8 (fld n 5 0 8), step := fld n 6 0 4, dwell := fld n 7 0 6,
    resultBase := fld n 8 0 64 }

/-- A kind below `k` or none, and an index. -/
def formKind (n k : Nat) (run : KindIndexP → State → Reply) : Option Form :=
  if fld n 0 0 8 < k then some ⟨4, [(2, 0, 16)], fun _ => run ⟨fld n 0 0 8, fld n 1 0 8⟩⟩ else none

/-- Links: 0x0B01 to 0x0B03. -/
def formLink (code n : Nat) : Option Form :=
  match code with
  | 0x0B01 => formKind n 3 cmdLinkState
  | 0x0B02 => if fld n 0 0 8 = 1 ∨ fld n 0 0 8 = 2 then some ⟨16, [(6, 4, 4), (7, 6, 2)], fun _ => cmdEyeScan (eyeOf n)⟩ else none
  | 0x0B03 => formKind n 3 cmdEqTableQuery
  | _ => none

def dykeRuleOf (n : Nat) : DykeRuleP :=
  ⟨fld n 0 0 16, bit1 n 2 0, ⟨bit1 n 2 1, fld n 4 0 24, fld n 8 0 24, fld n 0x0C 0 20, fld n 0x10 0 20⟩⟩

/-- Reserved fields of DYKE_RULE (R395). -/
def dykeRuleZero : List (Nat × Nat × Nat) :=
  [(2, 2, 6), (3, 0, 8), (4, 24, 8), (8, 24, 8), (0x0C, 20, 12), (0x10, 20, 12), (0x14, 0, 32)]

/-- Memory: 0x0C01 to 0x0C05. -/
def formMemory (code n : Nat) : Option Form :=
  match code with
  | 0x0C01 => some ⟨24, dykeRuleZero, fun _ => cmdDykeRule (dykeRuleOf n)⟩
  | 0x0C02 => some ⟨4, [(0, 0, 32)], cmdDykeSync⟩
  | 0x0C03 => some ⟨4, [(2, 0, 16)], fun c => cmdDykeLock c (fld n 0 0 16)⟩
  | 0x0C04 => formKind n 2 cmdMemErrQuery
  | 0x0C05 => some ⟨4, [(0, 1, 7), (1, 0, 8)], fun _ => cmdScrubSet ⟨bit1 n 0 0, fld n 2 0 16⟩⟩
  | _ => none

/-! ### Touch, trim, power, errors -/

def deskConfigOf (n : Nat) : DeskConfig :=
  { enable := bit1 n 1 0, cnEn := bit1 n 1 1, slowEn := bit1 n 1 2, flipX := bit1 n 1 3, flipY := bit1 n 1 4, drive := fld n 2 0 8,
    sense := fld n 3 0 8, f0 := fld n 4 0 16, f1 := fld n 6 0 16, f2 := fld n 8 0 16, f3 := fld n 0x0A 0 16,
    thMin := fld n 0x0C 0 16, thMax := fld n 0x0E 0 16, noiseLimit := fld n 0x10 0 16, noiseMult := fld n 0x12 0 8,
    slowAfterS := fld n 0x14 0 16, approachTh := fld n 0x16 0 16, stuckS := fld n 0x18 0 32 }

def routeOf (n : Nat) : Route :=
  { blockNotLive := bit1 n 2 1, hostAll := bit1 n 2 2, head := fld n 3 0 8, gx := fld n 4 0 16, gy := fld n 6 0 16,
    gw := fld n 8 0 16, gh := fld n 0x0A 0 16, hx := fld n 0x0C 0 16, hy := fld n 0x0E 0 16, hw := fld n 0x10 0 16,
    hh := fld n 0x12 0 16 }

/-- Touch: 0x0D01 to 0x0D03. -/
def formTouch (code n : Nat) : Option Form :=
  match code with
  | 0x0D01 => some ⟨32, [(0, 2, 6), (1, 5, 3), (0x13, 0, 8), (0x1C, 0, 32)],
      fun _ => cmdTouchConfig ⟨fld n 0 0 2, deskConfigOf n⟩⟩
  | 0x0D02 => some ⟨4, [(0, 4, 4), (1, 0, 24)], fun _ => cmdTouchRebase ⟨fld n 0 0 2, fld n 0 2 2⟩⟩
  | 0x0D03 => some ⟨24, [(0, 2, 6), (1, 3, 5), (2, 3, 5), (0x14, 0, 32)],
      fun _ => cmdTouchRoute ⟨fld n 0 0 2, fld n 1 0 3, bit1 n 2 0, routeOf n⟩⟩
  | _ => none

/-- Trim and power: 0x0E01 to 0x0E04. -/
def formPower (code n : Nat) : Option Form :=
  match code with
  | 0x0E01 => some ⟨4, [(0, 2, 6), (2, 0, 16)], fun c => cmdTrimRun c ⟨bit1 n 0 0, bit1 n 0 1, fld n 1 0 8⟩⟩
  | 0x0E02 => if fld n 0 0 8 < 2 then some ⟨4, [], fun _ => cmdTrimQuery ⟨fld n 0 0 8, fld n 1 0 8, fld n 2 0 16⟩⟩ else none
  | 0x0E03 => some ⟨12, [(0x0A, 0, 16)], fun _ => cmdWakeBudget
      ⟨fld n 0 0 16, fld n 2 0 16, fld n 4 0 16, fld n 6 0 16, fld n 8 0 16⟩⟩
  | 0x0E04 => some ⟨0, [], fun _ => cmdPowerQuery⟩
  | _ => none

/-- FENCE and DEBUG_UNLOCK. -/
def formWarden (code n : Nat) : Option Form :=
  match code with
  | 0x0F03 => some ⟨4, [(2, 1, 7)], fun c => cmdFence c ⟨fld n 0 0 8, fld n 1 0 8, bit1 n 2 0, fld n 3 0 8⟩⟩
  | 0x0F04 => some ⟨8, [(0, 1, 7), (1, 0, 24)], fun c => cmdDebugUnlock c ⟨bit1 n 0 0, fld n 4 0 32⟩⟩
  | _ => none

/-- Windows: 0x0401 to 0x0406. -/
def formWall (code : Nat) (l : List Byte) (n : Nat) : Option Form :=
  match code with
  | 0x0401 => formWindow n
  | 0x0402 => formLayer l n
  | 0x0403 => some (formLayerAddress n)
  | 0x0404 => some (formZorder n)
  | 0x0405 => formFreshness n
  | 0x0406 => some (formNumber n cmdVerdictQuery)
  | _ => none

/-- Bytes that a record must hold for its selecting fields to be read (row 7 of R429). -/
def selectBytes (code : Nat) (l : List Byte) : Nat :=
  if code = 0x0402 then (if leAt l 0 1 = 1 then 6 else 1)
  else if code = 0x0902 then 3
  else if code ∈ [0x0205, 0x0401, 0x0405, 0x0B01, 0x0B02, 0x0B03, 0x0C04, 0x0E02] then 1 else 0

/-- The form of a command of the objects' chapters. -/
def objectForm (code : Nat) (l : List Byte) : Option Form :=
  let n := leNat l
  match code / 256 with
  | 0x03 => formHead code n
  | 0x04 => formWall code l n
  | 0x05 => formContext code l n
  | 0x06 => formDecode code n
  | 0x07 => formEncode code l n
  | 0x08 => formCrys code n
  | 0x09 => formCheck code n
  | 0x0A => formTime code n
  | 0x0B => formLink code n
  | 0x0C => formMemory code n
  | 0x0D => formTouch code n
  | 0x0E => formPower code n
  | 0x0F => formWarden code n
  | _ => none

/-- Every reserved field is 0 (row 8 of R429). -/
def zeroFields (f : Form) (l : List Byte) : Bool :=
  let n := leNat l
  f.zero.all (fun z => fld n z.1 z.2.1 z.2.2 == 0)

/-- Rows 7 and 8 of R429 on parameters, then the command's own checks and effect. -/
def runForm (c : Caller) (code : Nat) (l : List Byte) (f : Option Form) (headOk : Bool) (s : State) : Reply :=
  if l.length < selectBytes code l then refuse s stBadLength
  else match f with
    | none => refuse s stBadParam
    | some f =>
      if l.length ≠ f.size then refuse s stBadLength
      else if !(headOk && zeroFields f l) then refuse s stBadParam
      else f.run c s

end Sys2Proof.Machine
end

