-- ==== Sys2Proof/Machine/Image.lean ====
section
/-! DEFINITION. Bed and skim images (spec/17 R443 to R448): header, section table, sections and records, the checks of step 1 of
R449, and what the sections of a bed hold (R174, R175, R182, R338, R343, R344, R409, R447). -/

namespace Sys2Proof.Machine

/-! ### Header and section table (R443 to R445) -/

/-- A section of an image: its type, its offset, its bytes, and the CRC that its entry gives. -/
structure Section where
  type : Nat
  off : Nat
  bytes : List Byte
  crc : Nat

/-- Entries of the section table, at most 16. -/
def sectionCount (l : List Byte) : Nat := leAt l 0x0C 2

def sectionOf (l : List Byte) (i : Nat) : Section :=
  let e := slice l (0x40 + 16 * i) 16
  ⟨leAt e 0 2, leAt e 4 4, (l.drop (leAt e 4 4)).take (leAt e 8 4), leAt e 0x0C 4⟩

def sectionsOf (l : List Byte) : List Section := (List.range (min 16 (sectionCount l))).map (sectionOf l)

/-- Bytes of a section of a type, none when the image has none. -/
def secBytes (l : List Byte) (type : Nat) : Option (List Byte) :=
  ((sectionsOf l).find? (fun x => x.type == type)).map (·.bytes)

/-- The entry `i` keeps R445 by itself, in an image of `n` bytes. -/
def entryOk (l : List Byte) (n i : Nat) : Bool :=
  let o := leAt l (0x40 + 16 * i + 4) 4
  o % 8 == 0 && decide (0x40 + 16 * sectionCount l ≤ o) && decide (o + leAt l (0x40 + 16 * i + 8) 4 + 4 ≤ n)

/-- Two entries overlap or share a type. -/
def entriesClash (a b : Section) : Bool :=
  a.type == b.type || (decide (a.off < b.off + b.bytes.length) && decide (b.off < a.off + a.bytes.length))

/-- The first entry that breaks R445, as the type that it names; `none` when the table is right. -/
def tableFault (l : List Byte) (n : Nat) : Option Nat :=
  let k := sectionCount l
  if k = 0 ∨ 16 < k then some 0
  else
    let secs := sectionsOf l
    ((List.range k).find? (fun i => !entryOk l n i ||
      (secs.take i).any (fun x => entriesClash x (sectionOf l i)))).map (fun i => (sectionOf l i).type)

/-! ### Records (R448) -/

/-- The command records of a section from offset `o` of it; `none` when one does not end inside. -/
def recordsFrom (l : List Byte) : (fuel o : Nat) → Option (List ImageRec)
  | 0, _ => none
  | f + 1, o =>
    if l.length ≤ o then some []
    else
      let n := leAt l (o + 2) 2
      let next := o + 8 + ceilDiv n 4 * 4
      if l.length < next then none
      else (recordsFrom l f next).map (fun r => ⟨o, leAt l o 2, leAt l (o + 4) 1 % 16, slice l (o + 8) n⟩ :: r)

def recordsOf (l : List Byte) : Option (List ImageRec) := recordsFrom l (l.length + 1) 0

/-- Reserved fields and padding of a record are 0. -/
def recordZero (l : List Byte) (r : ImageRec) : Bool :=
  leAt l (r.offset + 4) 1 / 16 == 0 && leAt l (r.offset + 5) 3 == 0 &&
    leNat (slice l (r.offset + 8 + r.params.length) (ceilDiv r.params.length 4 * 4 - r.params.length)) == 0

/-- Codes that a bed may carry, and those that a skim may carry (R448). -/
def bedCodes : List Nat :=
  [0x0501, 0x0503, 0x0601, 0x0602, 0x0701, 0x0702, 0x0301, 0x0303, 0x0305, 0x0401, 0x0402, 0x0404, 0x0405, 0x0901, 0x0902] ++
  [0x0506, 0x0A01, 0x0A04, 0x0A02, 0x0C05, 0x0D01, 0x0D03, 0x0E03, 0x0F03]

def bedRecordOk (r : ImageRec) : Bool :=
  bedCodes.contains r.code && (r.code != 0x0F03 || (leAt r.params 0 2 == 0 && leAt r.params 2 1 % 2 == 1))

def skimRecordOk (r : ImageRec) : Bool :=
  (r.code == 0x0401 && decide (leAt r.params 0 1 < 2)) || r.code == 0x0402 || r.code == 0x0404 || r.code == 0x0405

/-! ### Section contents -/

/-- The 8-byte number of entry `i` from offset `o`. -/
def word8 (l : List Byte) (o i : Nat) : Nat := leAt l (o + 8 * i) 8

/-- Lane map entry of a head (R174). -/
def mapEntry (l : List Byte) (i : Nat) : Link :=
  let n := leAt l (4 * i) 4
  { mapped := n.testBit 7, quad := field n 0 4, width := field n 8 2, first := field n 10 2, maxRate := field n 12 3,
    invert := field n 16 4 }

/-- Display equalization entry of a lane (R182). -/
def dplEntry (l : List Byte) (i : Nat) : DplEq :=
  let n := word8 l 128 i
  { allowedLv := field n 0 16, startSwing := field n 16 2, startPre := field n 18 2, startPreset := field n 20 4,
    allowedPreset := field n 32 16 }

/-- Serial equalization entry of a lane (R338). -/
def laneEntryOf (l : List Byte) (i : Nat) : LaneEq :=
  let n := word8 l 640 i
  { txPre := field n 0 5, txMain := field n 8 6, txPost := field n 16 5, txInvert := n.testBit 21, rxInvert := n.testBit 22,
    ctleMin := field n 24 4, ctleMax := field n 28 4, dfeLimit := field n 32 6 }

/-- Bits s + p > 3 of ALLOWED_LV are reserved. -/
def lvReserved : Nat := maskOf ((List.range 16).filter (fun i => decide (3 < i / 4 + i % 4)))

def boardZero (l : List Byte) : Bool :=
  (List.range 32).all (fun i =>
    let n := leAt l (4 * i) 4
    field n 4 3 == 0 && field n 15 1 == 0 && field n 20 12 == 0) &&
  (List.range 64).all (fun i =>
    let n := word8 l 128 i
    n &&& lvReserved == 0 && field n 24 8 == 0 && field n 48 16 == 0) &&
  (List.range 32).all (fun i =>
    let n := word8 l 640 i
    field n 5 3 == 0 && field n 14 2 == 0 && field n 23 1 == 0 && field n 38 26 == 0)

/-- Quad lanes that a lane map entry takes. -/
def laneMask (k : Link) : Nat := maskOf ((List.range (mappedLanes k)).map (fun i => dplOf k i))

/-- R175 for mapped heads, and the codes that R174 refuses. -/
def mapOk (m : List Link) : Bool :=
  let used := m.filter (·.mapped)
  m.all (fun k => decide (k.width ≤ 2) && decide (k.maxRate ≤ 6)) &&
    used.all (fun k => k.first % mappedLanes k == 0 && decide (k.first + mappedLanes k ≤ 4) &&
      used.all (fun j => j.quad != k.quad || j.width == k.width)) &&
    decide (sumNat (used.map mappedLanes) = (bitsOf 64 (used.foldl (fun a k => a ||| laneMask k) 0)).length)

/-- R182: starting levels and presets are allowed. -/
def dplOk (e : DplEq) : Bool :=
  e.allowedLv != 0 && e.allowedPreset != 0 && e.allowedLv.testBit (4 * e.startSwing + e.startPre) &&
    e.allowedPreset.testBit e.startPreset

/-- R338. -/
def laneEqOk (e : LaneEq) : Bool := decide (e.txPre + e.txMain + e.txPost ≤ 63) && decide (e.ctleMin ≤ e.ctleMax)

/-- PORTS entry of a logical port (R447); addresses in network order. -/
def portEntry (l : List Byte) (i : Nat) : PortCfg :=
  let e := slice l (48 * i) 48
  let n := leAt e 0 8
  { mode := field n 0 1, fec := field n 1 2, mgmtVlan := field n 16 12, rxDelay := field n 32 16, txDelay := field n 48 16,
    ipv4 := beNat (slice e 8 4), ipv6 := beNat (slice e 0x10 16), mac := beNat (slice e 0x20 6) }

def portsZero (l : List Byte) : Bool :=
  (List.range 16).all (fun i =>
    let e := slice l (48 * i) 48
    let n := leAt e 0 8
    field n 3 13 == 0 && field n 28 4 == 0 && leAt e 0x0C 4 == 0 && leAt e 0x26 10 == 0)

/-- A logical port exists in its port's mode (R191). -/
def portExists (p : List PortCfg) (i : Nat) : Bool := i % 4 == 0 || (nth {} p (i / 4 * 4)).mode == 1

/-- R447: modes of a physical port agree, FEC fits the mode, and an entry for no port is all zero. -/
def portsOk (p : List PortCfg) : Bool :=
  (List.range 16).all (fun i =>
    let e := nth {} p i
    let lead := nth {} p (i / 4 * 4)
    if portExists p i then e.mode == lead.mode && (if e.mode = 0 then e.fec == 0 else decide (e.fec ≤ 2))
    else e == {})

/-- DEMANDS is 0 for the classes whose demand firmware computes, for refresh and for best-effort (R446). -/
def computedClass (c : Nat) : Bool := decide (c ≤ 0x23) || c == 0x33 || c == 0x34 || c == 0x3E || c == 0x3F

/-- Coefficient words by ascending key; the section holds each set's horizontal and then its vertical ones, phase-major
(R446). -/
def coeffWords (l : List Byte) : List (Nat × Nat) :=
  (List.range 14).flatMap (fun k =>
    (List.range 512).map (fun i => (coefKey false (k + 2) (i / 8) (i % 8), leAt l (1792 * k + 2 * i) 2))) ++
  (List.range 14).flatMap (fun k =>
    (List.range 384).map (fun i => (coefKey true (k + 2) (i / 6) (i % 6), leAt l (1792 * k + 1024 + 2 * i) 2)))

/-- An 11-bit value, sign-extended to 16 bits. -/
def coeffOk (w : Nat) : Bool := decide (w < 1024) || decide (65536 - 1024 ≤ w)

/-- The taps of every phase sum to 512 (R125). -/
def rowsOk (l : List Byte) : Bool :=
  let sum (o n : Nat) : Int := ((List.range n).map (fun i => signed 16 (leAt l (o + 2 * i) 2))).foldl (· + ·) 0
  (List.range 14).all (fun k =>
    (List.range 64).all (fun p => sum (1792 * k + 16 * p) 8 == 512) &&
    (List.range 64).all (fun p => sum (1792 * k + 1024 + 12 * p) 6 == 512))

/-- The ring's block and mirror entries (R343, R344). -/
def mirrorEntry (l : List Byte) (i : Nat) : MirrorDecl :=
  let e := slice l (8 + 12 * i) 12
  ⟨leAt e 0 1 % 4, (leAt e 0 1).testBit 2, leAt e 1 1, leAt e 2 2, leAt e 4 4, leAt e 8 4⟩

def ringOf (l : List Byte) : RingCfg :=
  { device := leAt l 0 1 % 4, ring := field (leAt l 0 1) 2 2, fenceProp := leAt l 1 1,
    mirrors := (List.range (leAt l 6 2)).map (mirrorEntry l) }

/-- Enable, rate code and fitted lanes of a link. -/
def welOf (l : List Byte) (k : Nat) : Bool × Nat × Nat :=
  let n := leAt l (2 + k) 1
  (n.testBit 0, field n 1 3, leAt l (4 + k) 1)

def welZero (l : List Byte) : Bool :=
  leAt l 0 1 / 16 == 0 && leAt l 2 1 / 16 == 0 && leAt l 3 1 / 16 == 0 &&
    (List.range (leAt l 6 2)).all (fun i => leAt l (8 + 12 * i) 1 / 8 == 0)

/-- R342, R343, R344; the format of a mirrored context is that of the PEER context that a record opens for it. -/
def welContents (l : List Byte) (records : List ImageRec) : Bool :=
  let r := ringOf l
  let peers (m : MirrorDecl) : List CtxParams := (records.filter (·.code == 0x0501)).filterMap (fun x =>
    let p := ctxParamsOf (leNat x.params)
    if p.type = 3 ∧ p.originDevice = m.originDevice ∧ p.originContext = m.originContext then some p else none)
  let compressed (m : MirrorDecl) : Bool :=
    (peers m) != [] && (peers m).all (fun p => decide (0x10 ≤ p.format) && decide (p.format ≤ 0x13))
  decide (r.device < r.ring + 1) && decide ((welOf l 0).2.1 ≤ 5) && decide ((welOf l 1).2.1 ≤ 5) &&
    r.mirrors.all (fun m => if m.compress then compressed m else m.compKbs == 0)

/-- SESSIONS (R409): each role, IDLE_S and SLUICE_RESERVE in range, and an OWNER. -/
def rolesOf (l : List Byte) : List Nat := (List.range 8).map (fun i => leAt l i 1 % 4)

def sessionsZero (l : List Byte) : Bool := (List.range 8).all (fun i => leAt l i 1 / 4 == 0) && leAt l 0x0B 5 == 0

def sessionsOk (l : List Byte) : Bool :=
  (rolesOf l).contains 3 && decide (10 ≤ leAt l 8 2) && decide (leAt l 8 2 ≤ 3600) && decide (leAt l 0x0A 1 ≤ 4)

def crystalZero (l : List Byte) : Bool := (List.range 16).all (fun i => leAt l i 1 / 4 == 0) && leAt l 0x1C 4 == 0

/-- The rules of a DYKE section (R446). -/
def dykeRulesOf (l : List Byte) : List DykeRuleP := (chunks 24 (l.length / 24) l).map (fun b => dykeRuleOf (leNat b))

def dykeZero (l : List Byte) : Bool :=
  (chunks 24 (l.length / 24) l).all (fun b => dykeRuleZero.all (fun z => fld (leNat b) z.1 z.2.1 z.2.2 == 0))

/-- Regions 254 and 255 and their ranges belong to the warden (R452, R510). -/
def reservedRange : Region := ⟨false, 0xB3FD00, 0x300, 0, 0⟩

def dykeOk (r : DykeRuleP) : Bool := r.region != 254 && r.region != 255 && (r.delete || !pagesMeet r.r reservedRange)

/-! ### The checks of step 1 of R449 -/

/-- Types of sections that a bed may hold, and those that it must hold (R446). -/
def bedTypes : List Nat := [1, 2, 3, 4, 5, 6, 7, 8, 9, 0x0A, 0x10]
def bedRequired : List Nat := [1, 2, 3, 4, 5, 8]

/-- The type of the first section that is missing or refused. -/
def presenceFault (kind : Nat) (secs : List Section) : Option Nat :=
  let types := secs.map (·.type)
  match types.find? (fun t => !(if kind = 0 then bedTypes else [0x10]).contains t) with
  | some t => some t
  | none => (if kind = 0 then bedRequired else [0x10]).find? (fun t => !types.contains t)

/-- A section has the size that its type gives. -/
def sizeRight (x : Section) : Bool :=
  let n := x.bytes.length
  match x.type with
  | 1 => n == 896
  | 2 => n == 768
  | 3 => n == 32
  | 4 => n == 2048
  | 5 => n == 256
  | 6 => n == 25088
  | 7 => n == 8 + 12 * leAt x.bytes 6 2 && decide (leAt x.bytes 6 2 ≤ 192)
  | 8 => n == 16
  | 9 => n == 32
  | 0x0A => n % 24 == 0
  | _ => (recordsOf x.bytes).isSome

/-- Every reserved field of a section is 0. -/
def sectionZero (x : Section) : Bool :=
  let l := x.bytes
  match x.type with
  | 1 => boardZero l
  | 2 => portsZero l
  | 4 => l.all (fun b => decide (b.toNat < 64))
  | 7 => welZero l
  | 8 => sessionsZero l
  | 9 => crystalZero l
  | 0x0A => dykeZero l
  | 0x10 => ((recordsOf l).getD []).all (recordZero l)
  | _ => true

/-- Every reserved field of the header and the section table is 0; a bed has DUAL and BED_CRC 0. -/
def headerZero (kind : Nat) (l : List Byte) : Bool :=
  leAt l 7 1 / 2 == 0 && leNat (slice l 0x1C 36) == 0 && (kind != 0 || (leAt l 7 1 == 0 && leAt l 0x18 4 == 0)) &&
    (List.range (min 16 (sectionCount l))).all (fun i => leAt l (0x40 + 16 * i + 2) 2 == 0)

/-- The contents of a section keep the rules of its chapter. -/
def contentsOk (records : List ImageRec) (x : Section) : Bool :=
  let l := x.bytes
  match x.type with
  | 1 => mapOk ((List.range 32).map (mapEntry l)) && (List.range 64).all (fun i => dplOk (dplEntry l i)) &&
      (List.range 32).all (fun i => laneEqOk (laneEntryOf l i))
  | 2 => portsOk ((List.range 16).map (portEntry l))
  | 3 => l.all (fun b => decide (b.toNat ≤ 3) || b == 0xFF#8)
  | 5 => (List.range 64).all (fun c => !computedClass c || leAt l (4 * c) 4 == 0)
  | 6 => (coeffWords l).all (fun w => coeffOk w.2) && rowsOk l
  | 7 => welContents l records
  | 8 => sessionsOk l
  | 0x0A => (dykeRulesOf l).all dykeOk
  | _ => true

/-- The head or class code of the first entry that breaks a rule of PANS, DEMANDS or the lane map (R450). -/
def contentObject (x : Section) : Nat :=
  let l := x.bytes
  let first (n : Nat) (ok : Nat → Bool) : Nat := ((List.range n).find? (fun i => !ok i)).getD 0
  match x.type with
  | 1 => first 32 (fun i => mapOk ((List.range (i + 1)).map (mapEntry l)))
  | 3 => first 32 (fun i => decide (leAt l i 1 ≤ 3) || leAt l i 1 == 0xFF)
  | 5 => first 64 (fun c => !computedClass c || leAt l (4 * c) 4 == 0)
  | _ => 0

/-- A failing check of step 1: its status, its number, the section's type and the object concerned (R450;
notes/assumptions/60.md). -/
structure ImageFault where
  status : Nat
  check : Nat
  sec : Nat
  obj : Nat
  deriving DecidableEq, Repr

/-- Records of the COMMANDS section. -/
def imageRecords (l : List Byte) : List ImageRec := ((secBytes l 0x10).bind recordsOf).getD []

/-- The first section that fails a test. -/
def failing (secs : List Section) (ok : Section → Bool) : Option Nat := (secs.find? (fun x => !ok x)).map (·.type)

/-- Sections, from check 7 on. -/
def sectionFault (kind : Nat) (l : List Byte) (n : Nat) : Option ImageFault :=
  let secs := sectionsOf l
  match tableFault l n with
  | some t => some ⟨stBadParam, 7, t, 0⟩
  | none => match presenceFault kind secs with
    | some t => some ⟨stBadParam, 8, t, 0⟩
    | none => match failing secs (fun x => crc 1 x.bytes == x.crc) with
      | some t => some ⟨stBadParam, 9, t, 0⟩
      | none => match failing secs sizeRight with
        | some t => some ⟨stBadParam, 10, t, 0⟩
        | none => if headerZero kind l = false then some ⟨stBadParam, 11, 0, 0⟩
          else match failing secs sectionZero with
            | some t => some ⟨stBadParam, 11, t, 0⟩
            | none => (secs.find? (fun x => !contentsOk (imageRecords l) x)).map (fun x =>
                ⟨stBadParam, 12, x.type, contentObject x⟩)

/-- The image checks on an image of `n` bytes: bed (kind 0) or skim (1). -/
def imageFault (kind : Nat) (l : List Byte) (n : Nat) : Option ImageFault :=
  let bad (k : Nat) : Option ImageFault := some ⟨stBadParam, k, 0, 0⟩
  if leAt l 8 4 ≠ n ∨ (if kind = 0 then 2 ^ 20 else 2 ^ 16) < n ∨ n % 4 ≠ 0 then some ⟨stBadLength, 1, 0, 0⟩
  else if leAt l 0 4 ≠ (if kind = 0 then 0x59424544 else 0x594D4B53) then bad 2
  else if leAt l 4 2 ≠ 1 then bad 3
  else if leAt l 6 1 ≠ kind then bad 4
  else if 0x0302 < leAt l 0x0E 2 then bad 5
  else if crc 1 (l.take (n - 4)) ≠ leAt l (n - 4) 4 then bad 6
  else sectionFault kind l n

/-! ### The bed that an image spells (R446) -/

def bedOf (l : List Byte) : Bed :=
  let board := (secBytes l 1).getD []
  let ports := (secBytes l 2).getD []
  let pans := (secBytes l 3).getD []
  let sched := (secBytes l 4).getD []
  let wel := (secBytes l 7).getD (zeros 8)
  let ses := (secBytes l 8).getD []
  let crys := secBytes l 9
  { crc := leAt l (l.length - 4) 4, imageId := leAt l 0x14 4, wall := leAt l 0x10 4,
    laneMap := (List.range 32).map (mapEntry board),
    dpl := (List.range 64).map (dplEntry board),
    eq := (List.range 32).map (laneEntryOf board),
    ports := (List.range 16).map (portEntry ports),
    pans := (List.range 32).map (fun i => if leAt pans i 1 ≤ 3 then some (leAt pans i 1) else none),
    sched := (sched.zipIdx.map (fun e => (e.2, e.1.toNat))).filter (fun e => e.2 != classAt [] e.1),
    demands := (List.range 64).map (fun c => leAt ((secBytes l 5).getD []) (4 * c) 4),
    coeffs := ((secBytes l 6).map coeffWords).elim [] (fun w =>
      (w.filter (fun e => e.2 != 0)).map (fun e => (e.1, signed 16 e.2))),
    ring := if (secBytes l 7).isSome then ringOf wel else {},
    wels := if (secBytes l 7).isSome then [welOf wel 0, welOf wel 1] else [(false, 2, 0xFF), (false, 2, 0xFF)],
    roles := rolesOf ses, idleS := leAt ses 8 2, sluiceReserve := leAt ses 0x0A 1,
    lanes := (List.range 16).map (fun i => crys.elim 2 (fun c => leAt c i 1 % 4)),
    rates := crys.elim (0, 0, 0) (fun c => (leAt c 0x10 4, leAt c 0x14 4, leAt c 0x18 4)),
    dyke := (secBytes l 0x0A).map dykeRulesOf,
    records := imageRecords l }

/-- The records that a device carries out (R448). -/
def ownRecords (device : Nat) (l : List ImageRec) : List ImageRec := l.filter (fun r => r.devices.testBit device)

end Sys2Proof.Machine
end

