-- ==== Sys2Proof/Machine/Bed.lean ====
section
/-! DEFINITION. Beds (spec/17 R449 to R452, spec/01 R34 and R36, spec/06 R175, spec/13 R338): the state that a bed would produce, the
checks of BED_LOAD, the command, and the bed's application at its tide. -/

namespace Sys2Proof.Machine

/-! ### What the sections put in place -/

/-- The caller of a bed's records: they run as OWNER (notes/assumptions/60.md). -/
def bedCaller : Caller := ⟨.image 3, 0xFF, 0⟩

/-- A record of an image, under its command's own rows 7 to 9 of R429. -/
def runRecord (c : Caller) (r : ImageRec) (s : State) : Reply :=
  runForm c r.code r.params (objectForm r.code r.params) true s

/-- Pan and lane map entry of head `i`. -/
def bedHead (b : Bed) (i : Nat) (h : Head) : Head :=
  let m := nth {} b.laneMap i
  { h with
    pan := nth none b.pans i,
    link := { h.link with mapped := m.mapped, quad := m.quad, width := m.width, first := m.first, maxRate := m.maxRate,
                          invert := m.invert } }

/-- A logical port under the entries of a bed: its link stays while its mode and FEC do; its buckets are full (R199). -/
def bedPort (s : State) (b : Bed) (i : Nat) : Port :=
  let p := s.port i
  let c := nth {} b.ports i
  let up := portExists b.ports i
  { p with exists_ := up, cfg := c, link := p.link && up && c.mode == p.cfg.mode && c.fec == p.cfg.fec,
           sluiceTokens := tokens 65536, mgmtTokens := tokens 16384, tokensAt := s.net }

/-- The slot frame whose start is the first boundary at or after now (R36). -/
def nextBoundary (s : State) : Nat := ceilDiv (s.clk.ref - s.clk.origin) (4096 * memT * one40)

/-- A new schedule comes into force at the next boundary. -/
def bedSchedule (s : State) (b : Bed) : Slots := { s.slots with sched := scheduleNow s, nextSched := some (b.sched, nextBoundary s) }

/-- Tables of a bed that replace what they describe (R451). -/
def bedTables (s : State) (b : Bed) : State :=
  { s with
    heads := (List.range 32).map (fun i => (i, bedHead b i (s.head i))),
    dpl := b.dpl.zipIdx.map (fun e => (e.2, e.1)),
    laneEq := b.eq.zipIdx.map (fun e => (e.2, e.1)),
    ports := (List.range 16).map (fun i => (i, bedPort s b i)),
    coeffs := b.coeffs,
    demands := (b.demands.zipIdx.filter (fun e => e.1 != 0)).map (fun e => (e.2, e.1)),
    rates := b.rates,
    ring := b.ring,
    lanes := (List.range 16).map (fun i => (i, { s.lane i with use := nth 3 b.lanes i })) }

/-- Nothing of a refused run stays but its refusal counters (R8). -/
def keepRefusals (s u : State) : State := { s with cfg := { s.cfg with refusals := u.cfg.refusals } }

/-! ### The dyke rules of a bed (R391, R446) -/

/-- A rule that changes nothing in the staged table. -/
def ruleInPlace (s : State) (r : DykeRuleP) : Bool := !r.delete && tfind s.mem.dyke.staged r.region == some r.r

/-- The first rule that DYKE_RULE refuses with what it leaves, or the staged table with all of them. -/
def stageAll (s : State) : List DykeRuleP → Except (Nat × State) State
  | [] => .ok s
  | r :: l =>
    if ruleInPlace s r then stageAll s l
    else
      let q := cmdDykeRule r s
      if q.status = stOk then stageAll q.st l else .error (q.status, q.st)

/-- A DYKE section replaces the regions that are not locked (R451, R392). -/
def stageBed (s : State) : Option (List DykeRuleP) → Except (Nat × State) State
  | none => .ok s
  | some l => stageAll (stageRules s (s.mem.dyke.staged.filter (fun e => holdsRule s e.1))) l

/-! ### The state that a bed would produce (R449 step 3) -/

/-- A context of an earlier opening, free for a record to open. -/
def unopened (c : Ctx) : Ctx := { ({} : Ctx) with opening := c.opening }

/-- Sealed regions of a head that hold a check channel, for the bed's records to find it: those in force and those of the shadow
(R305). -/
def heldSeals (h : Head) : Tab Seal := h.force.seals ++ h.shadow.seals

/-- The configuration of a bed without its records: sections in force, no object that a record could create. What the heads show has
no window there, and detectors and sealed regions keep their check channels (R305). -/
def bedBase (s : State) (b : Bed) : State :=
  let s := bedTables s b
  { s with
    slots := { s.slots with sched := b.sched, nextSched := none },
    heads := tmap (fun _ (h : Head) => { h with
      shadow := { h.shadow with seals := [] },
      force := { h.force with slots := [], seals := heldSeals h },
      armed := h.armed.map (fun a => { a with bank := { a.bank with slots := [] } }) }) s.heads,
    ports := tmap (fun _ (p : Port) => { p with joined := [] }) s.ports,
    ctxs := tmap (fun _ => unopened) s.ctxs,
    wins := [], flows := [], encs := [], checks := s.checks.filter (fun e => e.2.use != 0),
    desks := tmap (fun _ (k : Desk) => { k with routes := [] }) s.desks,
    cfg := { s.cfg with
      applies := [], motion := (s.checks.filter (fun e => e.2.use == 1)).map (fun e => (0, e.2.object)) } }

/-- The timing and the place in the shadow of every head count as in force. -/
def commitAll (s : State) : State :=
  { s with heads := tmap (fun _ (h : Head) => { h with force := { h.force with timing := h.shadow.timing, place := h.shadow.place } }) s.heads }

/-- A tide rate that a record has set counts for the records after it. -/
def settleRate (s : State) : State :=
  match s.tide.pendRate with
  | some (n, d) => { s with tide := { s.tide with num := n, den := d, pendRate := none } }
  | none => s

/-- A HEAD_TWIN record that changes nothing, for heads that run and that have a pan (R104, R451). -/
def twinInPlace (s : State) (r : ImageRec) : Bool :=
  let k := 2 * (leAt r.params 0 1 % 16)
  let on := (leAt r.params 1 1).testBit 0
  r.code == 0x0303 && r.params.length == 4 && (s.head k).twin == on && (s.head (k + 1)).twin == on &&
    (s.head k).pan.isSome && (s.head (k + 1)).pan.isSome

/-- A record run without effect on the device: HEAD_ENABLE and TOUCH_ROUTE are judged with the bed's timings in force. -/
def dryRecord (r : ImageRec) (s : State) : Reply :=
  if twinInPlace s r then ok s
  else
    let q := runRecord bedCaller r (if r.code = 0x0305 ∨ r.code = 0x0D03 then commitAll s else s)
    { q with st := settleRate q.st }

/-- The records in image order: the state that they give, or the first refusal with its record. -/
def dryRecords : List ImageRec → State → Except (ImageRec × Nat × State) State
  | [], s => .ok s
  | r :: l, s =>
    if bedRecordOk r = false then .error (r, stBadParam, s)
    else if r.devices.testBit s.ring.device = false then dryRecords l s
    else
      let q := dryRecord r s
      if q.status = stOk then dryRecords l q.st else .error (r, q.status, q.st)

/-- The records with those that are refused left out. -/
def runAll (l : List ImageRec) (s : State) : State :=
  l.foldl (fun s r =>
    let q := dryRecord r s
    if q.status = stOk then q.st else s) s

/-- The records of a bed for this device. -/
def bedRecords (b : Bed) : List ImageRec := ownRecords b.ring.device b.records

/-! ### Checks 1 to 5 of R34 and the BUSY rules (step 2 of R449) -/

/-- The number that a record names, or the lowest that is free for it. -/
def recordNumber (r : ImageRec) (o n : Nat) (free : Option Nat) : Nat :=
  if leAt r.params o n = 2 ^ (8 * n) - 1 then free.getD 0 else leAt r.params o n

/-- What a record writes that the checks of R34 read, without its own checks: timings, twins, contexts, windows, places, crops
and the tide rate. -/
def layRecord (s : State) (r : ImageRec) : State :=
  let n := leNat r.params
  match r.code with
  | 0x0301 => modHeads s (withTwin s (fld n 0 0 8)) (fun _ h => { h with shadow := { h.shadow with timing := some (readTiming n) } })
  | 0x0303 =>
    let a := 2 * fld n 0 0 4
    modHeads s [a, a + 1] (fun i h => { h with
      twin := bit1 n 1 0,
      shadow := { h.shadow with timing := if bit1 n 1 0 && i != a then (s.head a).shadow.timing else h.shadow.timing } })
  | 0x0501 => openFresh s (recordNumber r 0 2 (ctxTarget s 0xFFFF)) (ctxParamsOf n)
  | 0x0401 => match fld n 0 0 8 with
    | 0 =>
      let w := recordNumber r 2 2 (freeWindow s)
      setWin s w (redefine s w
        ⟨fld n 4 0 8, optField 16 (fld n 6 0 16), fld n 8 0 16, fld n 0x0A 0 16, fld n 0x0C 0 16, fld n 0x0E 0 16⟩)
    | 1 => { s with wins := tdel s.wins (fld n 2 0 16) }
    | _ => modHeads s [fld n 2 0 8] (fun _ h => { h with shadow := { h.shadow with
        place := if fld n 4 0 32 = 2 ^ 32 - 1 then none else some (fld n 4 0 16, fld n 6 0 16) } })
  | 0x0402 => match tfind s.wins (fld n 2 0 16), fld n 0 0 8 with
    | some d, 0 => setWin s (fld n 2 0 16) { d with l := layerSettingsOf n }
    | _, _ => s
  | 0x0A04 => { s with tide := { s.tide with num := fld n 0 0 32, den := fld n 4 0 32 } }
  | _ => s

/-- A position whose class is not defined, or whose refresh entry is not that of R29. -/
def slotBad (t : Tab Nat) (p : Nat) : Bool :=
  !classDefined (classAt t p) || (classAt t p == 0x3E) != (p % 32 == 31)

/-- A failing check of step 2: its number, status, section and object. -/
structure BedFault where
  status : Nat
  step : Nat
  check : Nat
  sec : Nat
  off : Nat
  obj : Nat
  deriving DecidableEq, Repr

/-- The first pan with more than 8 heads. -/
def fullPan (s : State) : Option Nat := (List.range 4).find? (fun p => decide (8 < (panHeads s p).length))

/-- Two heads have pans, and not the same; a head with no pan counts in no check (R104). -/
def pansDiffer : Option Nat → Option Nat → Bool
  | some a, some b => a != b
  | _, _ => false

/-- Heads of a pan above 8, or a twinned pair that does not share its pan: the object (check 2). -/
def panFault (s : State) : Option Nat :=
  match fullPan s with
  | some p => some p
  | none => ((List.range 16).find? (fun k => (s.head (2 * k)).twin && pansDiffer (s.head (2 * k)).pan (s.head (2 * k + 1)).pan)).map
      (2 * ·)

/-- The link by which what comes from a device reaches this one, as the ring is wired (R343, R344): on equal hops it left over
WL_0 (R363) and arrives on WL_1. -/
def routedIn (b : Bed) (origin : Nat) : Nat :=
  let n := b.ring.ring + 1
  let a := (origin + n - b.ring.device) % n
  let z := (b.ring.device + n - origin) % n
  match (nth (false, 0, 0) b.wels 0).1, (nth (false, 0, 0) b.wels 1).1 with
  | true, false => 0
  | false, true => 1
  | _, _ => if z ≤ a then 1 else 0

/-- Demand of a class in bytes per second, times DEN (R34 check 5, R344): a physical port has a line rate of 100 Gbit/s in
either mode (R191), and a head with no pan counts in no check (R104). -/
def classDemand (s : State) (b : Bed) (c : Nat) : Nat :=
  if c < 0x20 then (if (s.head c).pan.isSome then headDemand s (s.head c).shadow else 0)
  else if c < 0x24 then 12500000000 * s.tide.den
  else if c = 0x33 ∨ c = 0x34 then
    sumNat ((b.ring.mirrors.filter (fun m => routedIn b m.originDevice == c - 0x33)).map (·.rateKbs)) * 1000 * s.tide.den
  else nth 0 b.demands c * 1000000 * s.tide.den

/-- Checks 1 to 5 of R34. -/
def scheduleFault (s : State) (b : Bed) : Option BedFault :=
  match (List.range 2048).find? (slotBad b.sched) with
  | some p => some ⟨stBadParam, 2, 1, 4, 0, classAt b.sched p⟩
  | none => match panFault s with
    | some o => some ⟨stLimit, 2, 2, 3, 0, o⟩
    | none => match (List.range 4).find? (fun p => decide (4800000000 * s.tide.den < panRate s p)) with
      | some p => some ⟨stPanOverload, 2, 3, 3, 0, p⟩
      | none =>
        if ownedPositions b.sched 0x3F + 1638 < 2048 then some ⟨stBudget, 2, 4, 4, 0, 0⟩
        else ((List.range 64).find? (fun c =>
          decide (ownedPositions b.sched c * 800000000 * s.tide.den < classDemand s b c))).map (fun c => ⟨stBudget, 2, 5, 4, 0, c⟩)

/-- R175: the lane map entry of a head that is not DISABLED changes. -/
def mapBusy (s : State) (b : Bed) : Option Nat :=
  (List.range 32).find? (fun i =>
    let h := s.head i
    h.st != .disabled && (bedHead b i h).link != h.link)

/-- A serial lane is in use: its Ethernet port has link, or its Welond link is neither DISABLED nor ABSENT (R338). -/
def laneBusy (s : State) (i : Nat) : Bool :=
  if i < 16 then (s.port i).link || ((s.port (i / 4 * 4)).link && (s.port (i / 4 * 4)).cfg.mode == 0)
  else (s.wel ((i - 16) / 8)).st != .disabled && (s.wel ((i - 16) / 8)).st != .absent

def eqBusy (s : State) (b : Bed) : Option Nat :=
  (List.range 32).find? (fun i => nth {} b.eq i != tget {} s.laneEq i && laneBusy s i)

/-- Step 2. -/
def stepTwo (s : State) (b : Bed) : Option BedFault :=
  match scheduleFault ((bedRecords b).foldl layRecord (bedBase s b)) b with
  | some f => some f
  | none => match mapBusy s b with
    | some i => some ⟨stBusy, 2, 6, 1, 0, i⟩
    | none => (eqBusy s b).map (fun i => ⟨stBusy, 2, 7, 1, 0, i⟩)

/-! ### Steps 3 and 4 -/

/-- The head, window or context that a record concerns. -/
def recordObject (r : ImageRec) : Nat :=
  let p := r.params
  match r.code with
  | 0x0301 => leAt p 0 1
  | 0x0303 => 2 * (leAt p 0 1 % 16)
  | 0x0305 => leAt p 0 1
  | 0x0401 => if leAt p 0 1 = 2 then leAt p 2 1 else leAt p 2 2
  | 0x0402 => leAt p 2 2
  | 0x0404 => leAt p 0 1
  | 0x0405 => if leAt p 0 1 = 1 then 0 else leAt p 2 2
  | 0x0501 => leAt p 0 2
  | 0x0503 => leAt p 4 2
  | 0x0601 => leAt p 0 2
  | 0x0602 => leAt p 0 2
  | 0x0901 => leAt p 4 2
  | 0x0701 => leAt p 2 2
  | 0x0702 => leAt p 0 1
  | 0x0902 => leAt p 0 1
  | 0x0D03 => leAt p 3 1
  | _ => 0

/-- An enabled head that would move to another pan. -/
def panBusy (s : State) (b : Bed) : Option Nat :=
  (List.range 32).find? (fun i => headEnabled (s.head i) && (s.head i).pan != nth none b.pans i)

/-- The first failure of steps 2 to 4, with the refusals that a record's own checks have counted (R8). -/
def bedFault (s : State) (b : Bed) : Option (BedFault × State) :=
  match stepTwo s b with
  | some f => some (f, if f.check = 2 ∧ (fullPan ((bedRecords b).foldl layRecord (bedBase s b))).isSome = true then s.countRefusal 3 else s)
  | none => match dryRecords b.records (bedBase s b) with
    | .error (r, st, t) =>
      some (⟨st, 3, 0, 0x10, r.offset, recordObject r⟩, keepRefusals s t)
    | .ok t => match panBusy s b with
      | some i => some (⟨stBusy, 3, 0, 3, 0, i⟩, s)
      | none => if decodeFits t (pairs t) then none else some (⟨stBudget, 4, 6, 0, 0, 0⟩, s)

/-- The refusal block of R450. -/
def faultBlockBed (f : BedFault) : List Byte := [byte f.step, byte f.check] ++ leBytes 2 f.sec ++ leBytes 4 f.off ++ leBytes 4 f.obj

/-- BED_LOAD's checks on an image: the fault and the state it leaves, or the bed and the state with its rules staged. -/
def checkBed (s : State) (l : List Byte) (n : Nat) : Except (BedFault × State) (Bed × State) :=
  match imageFault 0 l n with
  | some f => .error (⟨f.status, 1, f.check, f.sec, 0, f.obj⟩, s)
  | none =>
    let b := bedOf l
    match stageBed s b.dyke with
    | .error (st, u) => .error (⟨st, 1, 12, 0x0A, 0, 0⟩, keepRefusals s u)
    | .ok t => match bedFault { t with mem := { t.mem with dyke := { t.mem.dyke with force := t.mem.dyke.staged } } } b with
      | some (f, u) => .error (f, keepRefusals s u)
      | none => .ok (b, t)

/-! ### BED_LOAD (R449 to R451, R510) -/

/-- Count of the next tide (R21, R23, R24). -/
def nextCount (s : State) : Nat :=
  if s.tide.rebaseArmed && decide (s.tide.count < nextIndex s) then nextIndex s else s.tide.count + 1

/-- Start of the retained bed's region, and of the skim slots (R510, R452). -/
def retainedBase : Nat := 0xB3FD00000
def skimBase (k : Nat) : Nat := 0xB3FE00000 + k * 65536

/-- A bed that has passed waits for the next tide; its rules are synced before it. -/
def acceptBed (s : State) (b : Bed) : State :=
  let s := if b.dyke = none then s else startSync s none none
  { s with cfg := { s.cfg with next := some b } }

/-- Firmware's copy of a bed in region 254. -/
def retainBed (s : State) (l : List Byte) : State :=
  let s := wardenWrite s retainedBase l
  { s with cfg := { s.cfg with retained := some l.length } }

def cmdBedLoad (p : BedLoadP) (s : State) : Reply :=
  if s.start.failedChans ≠ [] then refuse s stBusy
  else if !dykePermits s idWarden p.addr p.bytes false then refuse s stDykeDenied
  else
    let (l, _, s) := if p.bytes ≤ 2 ^ 20 then wardenRead s p.addr p.bytes else ([], false, s)
    match checkBed s l p.bytes with
    | .error (f, s) => ⟨s, f.status, faultBlockBed f⟩
    | .ok (b, s) =>
      let n := nextCount s
      ok (acceptBed (retainBed s l) b) (leBytes 8 n)

def execBedLoad (c : Caller) (p : BedLoadP) (s : State) : Host.Outcome State Fault Refusal :=
  .next (command c 0x0201 (cmdBedLoad p) s)

/-! ### The bed applies (R451) -/

/-- The attachment of a context with the PRIORITY that commands have left it (R254). -/
def attachWanted (c : Ctx) : Option Attach := c.attach.map (fun a => { a with priority := wantsPriority c })

/-- An open context that the bed holds with the same parameters, attachment included. -/
def keptCtx (s t : State) (n : Nat) : Bool :=
  let a := s.ctx n
  let b := t.ctx n
  a.state == .opened && b.state == .opened && a.p == b.p && attachWanted a == attachWanted b

def keptEnc (s t : State) (n : Nat) : Bool :=
  match tfind s.encs n, tfind t.encs n with
  | some a, some b => a.p == b.p
  | _, _ => false

/-- A taken channel that keeps its use and settings. -/
def keptCheck (s t : State) (n : Nat) : Bool :=
  match tfind s.checks n, tfind t.checks n with
  | some a, some b => a.use == b.use && a.object == b.object && a.region == b.region && a.poly == b.poly &&
      a.crcEn == b.crcEn && a.aliveEn == b.aliveEn && a.aliveW == b.aliveW &&
      (a.use != 0 || keptCtx s t a.object)
  | _, _ => false

/-- Objects that the bed does not hold as they are end as their close or delete command ends them. -/
def endObjects (s t : State) : State :=
  let s := ((s.ctxs.map (·.1)).filter (fun n => (s.ctx n).state == .opened && !keptCtx s t n)).foldl
    (fun s n => (cmdContextClose n s).st) s
  let s := ((s.encs.map (·.1)).filter (fun n => !keptEnc s t n)).foldl (fun s n => (cmdEncodeClose n s).st) s
  (List.range 4).foldl (fun s d =>
    (((s.desk d).routes.filter (fun e => tfind (t.desk d).routes e.1 != some e.2)).map (·.1)).foldl
      (fun s e => (cmdTouchRoute ⟨d, e, true, ⟨false, false, 0, 0, 0, 0, 0, 0, 0, 0, 0⟩⟩ s).st) s) s

/-- A context of the device after the bed: the one in force where it stays, else the one that the records open. -/
def mergeCtx (s t : State) (kept : Nat → Bool) (bound : Nat → Option Check) (n : Nat) : Ctx :=
  let c := s.ctx n
  if kept n then
    { c with
      contentFirst := c.contentFirst || ((detectorOf s n).isNone && (detectorOf t n).isSome),
      binds := if (bound n).isSome then c.binds + 1 else c.binds,
      aliveFirst := c.aliveFirst || (bound n).elim false (·.aliveEn) }
  else if (t.ctx n).state = .opened then t.ctx n
  else s.ctx n

/-- An encode context that stays takes the rate of its record. -/
def keepEnc (old new : Enc) : Enc :=
  { old with nextRate := match new.nextRate with
      | some r => some r
      | none => old.nextRate }

/-- The source binding that the bed `t` gives a context and that was not in force before it. -/
def newBinding (s0 t : State) (n : Nat) : Option Check :=
  (t.checks.find? (fun e => e.2.use == 0 && e.2.object == n && !keptCheck s0 t e.1)).map (·.2)

/-- Two channel numbers of a bed change places. -/
def swapChannels (t : State) (a m : Nat) : State :=
  let swap (n : Nat) : Nat := if n = a then m else if n = m then a else n
  { t with
    checks := t.checks.foldl (fun l e => tset l (swap e.1) e.2) [],
    heads := tmap (fun _ (h : Head) => { h with shadow := { h.shadow with
      seals := tmap (fun _ (r : Seal) => { r with channel := swap r.channel }) h.shadow.seals } }) t.heads }

/-- A record of the bed names a channel number. -/
def namesChannel (l : List ImageRec) (n : Nat) : Bool := l.any (fun r => r.code == 0x0901 && leAt r.params 0 2 == n)

/-- A source binding of the bed whose settings are in force keeps its channel number, unless a record names another (R305, R451). -/
def keepNumbers (l : List ImageRec) (s0 t : State) : State :=
  (t.checks.filter (fun e => e.2.use == 0)).foldl (fun t e =>
    match s0.checks.find? (fun x => x.2.use == 0 && x.2.object == e.2.object) with
    | some (m, k) =>
      if m = e.1 ∨ namesChannel l e.1 = true ∨ namesChannel l m = true ∨ k.crcEn ≠ e.2.crcEn ∨ k.aliveEn ≠ e.2.aliveEn ∨
          k.aliveW ≠ e.2.aliveW then t
      else swapChannels t e.1 m
    | none => t) t

/-- Objects of the bed `t` come into being beside those of `s` that stay; `s0` is the state before any ended. -/
def mergeObjects (s0 s t : State) : State :=
  let s' := { s with
    ctxs := (List.range 192).filterMap (fun n =>
      let c := mergeCtx s t (keptCtx s0 t) (newBinding s0 t) n
      if c = {} then none else some (n, c)),
    flows := t.flows, wins := t.wins,
    encs := tmap (fun n (e : Enc) => if keptEnc s0 t n then
      keepEnc ((tfind s.encs n).getD e) e else e) t.encs,
    checks := tmap (fun n (c : Check) =>
      if keptCheck s0 t n then (tfind s.checks n).getD c
      else if c.use = 0 ∧ keptCtx s0 t c.object = true then { c with serial := (s.ctx c.object).binds + 1 }
      else c) t.checks,
    heads := tmap (fun i (h : Head) => { h with shadow := (t.head i).shadow, twin := (t.head i).twin }) s.heads }
  settleGroups s'

/-- Records that set something which is not an object of the merge. -/
def settingCodes : List Nat := [0x0506, 0x0A01, 0x0A02, 0x0A04, 0x0C05, 0x0D01, 0x0E03, 0x0F03]

/-- The settings of the records: clocks, pulses, scrub, sluices, desks, budgets, BALL_MAP and colour sets. -/
def runSettings (l : List ImageRec) (s : State) : State :=
  (l.filter (fun r => settingCodes.contains r.code || (r.code == 0x0405 && leAt r.params 0 1 == 1))).foldl
    (fun s r => (runRecord bedCaller r s).st) s

/-- The routes of the records, judged with the bed's timings. -/
def runRoutes (l : List ImageRec) (s : State) : State :=
  (l.filter (fun r => r.code == 0x0D03)).foldl
    (fun s r => { s with desks := (runRecord bedCaller r (commitAll s)).st.desks }) s

/-- HEAD_ENABLE records; a head without one that enables it is disabled. -/
def runEnables (l : List ImageRec) (s : State) : State :=
  let recs := l.filter (fun r => r.code == 0x0305)
  let named (i : Nat) : Bool := recs.any (fun r => bit1 (leNat r.params) 1 0 && (withTwin s (leAt r.params 0 1)).contains i)
  let s := recs.foldl (fun s r => (runRecord bedCaller r s).st) s
  releaseContexts (releaseChannels ((List.range 32).foldl (fun s i => if named i then s else disableOne s i) s))

/-- A Welond link under its part of the bed: it starts, stops or starts anew when that part changes. -/
def bedWel (b : Bed) (s : State) (l : Nat) : State :=
  let (en, rate, fitted) := nth (false, 2, 0xFF) b.wels l
  let w := s.wel l
  if w.enable = en ∧ w.rateCode = rate ∧ w.fitted = fitted then s
  else
    let s := if w.st = .disabled then s else stopWel s l .disabled
    let w := { s.wel l with enable := en, rateCode := rate, fitted := fitted, reason := 0, rate := 7, attempts := 0, sensing := 0,
                            sensedAt := none }
    s.setWel l (if en then { w with st := .detect, since := s.ref } else w)

/-- Sessions of key slots whose role changes close (R409). -/
def bedRoles (s : State) (b : Bed) : State :=
  let old := s
  endSessions { s with cfg := { s.cfg with bed := some b, next := none, bedTide := s.tide.count, wall := b.wall, idleS := b.idleS,
                                           sluiceReserve := b.sluiceReserve } }
    (fun x => roleOfKey old x.keySlot != nth 0 b.roles x.keySlot) 3

/-- Every skim apply that is scheduled or held is withdrawn; of one held for another device this one knows no session. -/
def dropApplies (s : State) : State :=
  let s := dropApprovals s (fun _ => true) 3
  let s := (s.cfg.applies.filter (·.held)).foldl (fun s a => postApproval s a.skim 3 0xFF 0xFF a.tide) s
  settleMotion { s with cfg := { s.cfg with applies := [] } }

/-- PEER contexts that the bed opens are asked for; all of them when the ring's section changes. -/
def askPeers (s0 s t : State) : State :=
  if s0.ring ≠ s.ring then requestPeers s
  else (s.ctxs.map (·.1)).foldl (fun s n =>
    if (s.ctx n).state = .opened ∧ (s.ctx n).p.type = 3 ∧ keptCtx s0 t n = false then requestMirror s n else s) s

/-- The sync that firmware started for the bed is complete before its tide. -/
def finishBedSync (s : State) : State := completeSyncs (syncsOfBeds s.mem.dyke.syncs) s

/-- The groups that this device sends on Welond were `old`: a change is sent at once (R364). -/
def propagate (old : Nat) (s : State) : State :=
  if ownFences s = old then s
  else (List.range 2).foldl (fun s l => sendFence s l (ownFences s) s.ring.device 0) s

/-- A bed applies at the tide that has just begun. -/
def applyBed (s : State) (b : Bed) : State :=
  let l := bedRecords b
  let s := finishBedSync s
  let t := keepNumbers l s (runAll l (bedBase s b))
  let s0 := s
  let s := endObjects (dropApplies s) t
  let s := { bedTables s b with slots := bedSchedule s b }
  let s := propagate (ownFences s0) (settleMirrors ((List.range 2).foldl (bedWel b) (mergeObjects s0 s t)))
  let s := runSettings l s
  let s := (armCommit s (List.range 32)).2
  let s := runRoutes l (runEnables l s)
  bedRoles (askPeers s0 s t) b

end Sys2Proof.Machine
end

