-- ==== Sys2Proof/Machine/Errors.lean ====
section
/-! DEFINITION. The error queue as commands see it (spec/16 R435, R437, R438) and the end of SAFE state (spec/20 R521): ERR_READ and
ERR_ACK. -/

namespace Sys2Proof.Machine

/-- An error record of 32 bytes (R435). -/
def errorBytes (r : ErrRec) : List Byte :=
  leBytes 2 r.code ++ [byte (r.cls % 4), 0#8] ++ leBytes 2 r.id ++ leBytes 2 r.count ++ leBytes 4 r.object ++
    leBytes 4 (timeNs r.time) ++ leBytes 6 (timeS r.time) ++ leBytes 2 0 ++ leBytes 4 r.detailA ++ leBytes 4 r.detailB

def cmdErrRead (p : ErrReadP) (s : State) : Reply :=
  if p.count < 1 ∨ 14 < p.count then refuse s stBadParam
  else
    let l := (s.errs.drop p.first).take p.count
    ok s ([byte s.errs.length, byte l.length] ++ leBytes 2 s.errOverflow ++ zeros 4 ++ l.flatMap errorBytes)

def execErrRead (c : Caller) (p : ErrReadP) (s : State) : Host.Outcome State Fault Refusal :=
  .next (command c 0x0F01 (cmdErrRead p) s)

/-! ### The end of SAFE state (R521) -/

/-- The conditions of R521: READY, REFCLK present for 1 s, the junction below 110 °C, and no FATAL record left. -/
def safeMayEnd (s : State) : Bool :=
  decide (s.start.warden = .ready) && s.clk.refclk && decide (s.clk.refclkSince + secT ≤ s.ref) &&
    s.start.junction.elim true (fun t => decide (t < 110 * 16)) && !s.errs.any (fun r => r.cls == 3)

/-- SAFE_EXIT: the SAFE bit clears on the next PAN cycle, and each head's fence leaves at its next flip (R96, R97). -/
def exitSafe (s : State) : State :=
  let s := setFences { s with start := { s.start with safe := false } } { s.fences with safe := false } s.now
  postFence s (s.pt + panT) 3 0 0 0xFF 0

/-- An ERR_ACK that completes with OK ends SAFE state when its conditions hold. -/
def endSafe (s : State) : State := if s.start.safe && safeMayEnd s then exitSafe s else s

/-! ### ERR_ACK (R438) -/

/-- `a` precedes `b` in 16-bit serial arithmetic. -/
def precedes (a b : Nat) : Bool := a != b && decide ((b + 65536 - a) % 65536 < 32768)

/-- Whether ERR_ACK removes a record. -/
def acked (p : ErrAckP) (r : ErrRec) : Bool := !p.none && (r.id == p.id || (p.older && precedes r.id p.id))

/-- The records leave the queue; a FATAL record that was handled is handled no more. -/
def ackErrors (p : ErrAckP) (s : State) : State :=
  { s with
    errs := s.errs.filter (fun r => !acked p r),
    errOverflow := if p.clearOverflow then 0 else s.errOverflow,
    start := { s.start with handling := s.start.handling.filter (fun n => !s.errs.any (fun r => acked p r && r.id == n)) } }

def cmdErrAck (c : Caller) (p : ErrAckP) (s : State) : Reply :=
  let gone := s.errs.filter (acked p)
  if p.none then
    if p.id ≠ 0 ∨ p.older = true then refuse s stBadParam
    else if s.start.safe = true ∧ callerRole s c < 2 then refuse s stRoleDenied
    else
      let s := endSafe (ackErrors p s)
      ok s ([0#8, byte s.errs.length] ++ zeros 2)
  else if !s.errs.any (fun r => r.id == p.id) then refuse s stBadParam
  else if gone.any (fun r => decide (2 ≤ r.cls)) && decide (callerRole s c < 2) then refuse s stRoleDenied
  else
    let s := endSafe (ackErrors p s)
    ok s ([byte gone.length, byte s.errs.length] ++ zeros 2)

def execErrAck (c : Caller) (p : ErrAckP) (s : State) : Host.Outcome State Fault Refusal :=
  .next (command c 0x0F02 (cmdErrAck c p) s)

end Sys2Proof.Machine
end

