-- ==== Sys2Proof/Machine/Gauges.lean ====
section
/-! DEFINITION. The gauges (spec/03): span evaluation and the vote (R79 to R84), channel states and state copies (R85 to R87), and
the salinity pass (R88 to R90). -/

namespace Sys2Proof.Machine

/-! ### Channels (R84, R85) -/

def Pan.chan (p : Pan) (c : Nat) : Gauge := if c = 0 then p.a else if c = 1 then p.b else p.c

def Pan.setChan (p : Pan) (c : Nat) (g : Gauge) : Pan :=
  if c = 0 then { p with a := g } else if c = 1 then { p with b := g } else { p with c := g }

/-- GAUGE_SHORT is raised when fewer than two channels of a pan are left ACTIVE (R85). -/
def checkShort (s : State) (p : Nat) : State :=
  let q := s.pan p
  let short := decide ((activeChans q).length < 2)
  let s' := s.setPan p { q with short := short }
  if short && !q.short then raiseErr s' 0x0012 p (maskOf (activeChans q)) 0 else s'

/-- A participating channel is in the minority (R84): counted, SUSPECT from the next evaluation on, and logged with
both words. -/
def outvote (p i win mine used : Nat) (s : State) (c : Nat) : State :=
  let q := s.pan p
  let g := q.chan c
  let g := { g with
    outvoted := sat32 g.outvoted, st := if g.st = .active then .suspect else g.st,
    copied := if g.st = .active then none else g.copied, goodPasses := 0 }
  let s := s.setPan p { q.setChan c g with lastWindow := win, lastHead := i, lastChannel := c }
  checkShort (raiseErr s 0x0010 (p + 4 * c + 256 * i) mine used { perTide := true }) p

/-! ### Span evaluation (R53, R54, R78 to R84) -/

/-- What the distribution tree delivers for the span of a slot (R78), to a channel that holds policy `pol` and sees the window
fenced or not. A buffer's POISON may be set after the take (R67). A slot that shows no buffer of an open, bound context bears
NEVER (notes/assumptions/21.md), and one whose context has been opened anew bears NEVER and CLOSED. -/
def spanInput (s : State) (h : Head) (k : Slot) (wireNs : Nat) (pol : Policy) (fenced : Bool) : SpanInput :=
  let shown := tfind h.shown k.d.g.layer
  let record := shown.map (fun b =>
    let c := s.ctx b.ctx
    let now := if c.opening = b.opening then (c.buf b.buf).record.causes &&& 4 else 0
    { b.record with causes := b.record.causes ||| now })
  match k.d.g.context, k.opening with
  | some n, some o =>
    let c := s.ctx n
    let reopened := c.opening != o
    let closed := reopened || c.state != .opened
    ⟨record, shown.elim false (·.recordPoison), reopened || c.never || c.mirrorHeld || (!closed && !c.isolated && shown.isNone), closed,
      !reopened && c.isolated, pol, wireNs, fenced⟩
  | _, _ => ⟨record, false, true, false, false, pol, wireNs, fenced⟩

/-- What channel `c` holds of a slot (R77). -/
def chanEntry (q : Pan) (c i : Nat) (k : Slot) : GaugeEntry :=
  (tfind (q.chan c).table.wins (16 * i + k.d.g.layer)).getD ⟨k.win, k.d.g, k.d.pol, k.d.groups⟩

/-- A channel's table entry of a slot is damaged. -/
def damageChan (q : Pan) (c i : Nat) (k : Slot) (u : Upset) : Pan :=
  match u.entry with
  | some e => q.setChan c { q.chan c with table := { (q.chan c).table with
      wins := tset (q.chan c).table.wins (16 * i + k.d.g.layer) e } }
  | none => q

/-- The fence vector that channel `c` passes of the vector `v`, with its upset (R83). -/
def chanFence (v : Nat) (u : List Upset) (c : Nat) : BitVec 17 := BitVec.ofNat 17 v ^^^ (nth ⟨0, 0, none⟩ u c).fence

/-- The span word that channel `c` delivers from its own tables and its own fence vector (R77 to R81). -/
def chanWord (s : State) (i : Nat) (k : Slot) (wireNs v : Nat) (u : List Upset) (c : Nat) : Nat :=
  let h := s.head i
  let e := chanEntry (s.pan (h.pan.getD 0)) c i k
  let fenced := vectorHolds h.force { k.d with g := e.g, groups := e.groups } (chanFence v u c).toNat
  (BitVec.ofNat 32 (packWord (channelWord (spanInput s h k wireNs e.pol fenced) e.win)) ^^^ (nth ⟨0, 0, none⟩ u c).word).toNat

/-- The vote of a pan on a span (R82, R86, R90). No channel is in the minority where the voter is bypassed, though fence-vector
bits are still voted (DESIGN CHOICE; notes/assumptions/106.md). -/
def panVote (q : Pan) (win : Nat) (l : List (Nat × Nat)) : Vote :=
  if q.noVote then ⟨⟨1 <<< 14, win, 3⟩, false, []⟩
  else if q.reload then ⟨noMajorityWord win (l.map (·.2)), false, []⟩
  else voteWords win l

/-- A frame's verdict of a window takes one more span (R75, R76). -/
def addSpan (f : Option WinFrame) (w : SpanWord) (line : Nat) (i : SpanInput) (frame : Nat) : WinFrame :=
  match f with
  | none => ⟨w.verdict, w.causes, line, (i.record.map (·.capNs)).getD 0, (i.record.map (·.capS)).getD 0,
      inputAge i, frame⟩
  | some f =>
    { f with
      verdict := max f.verdict w.verdict, causes := f.causes ||| w.causes,
      firstLine := if f.verdict < w.verdict then line else f.firstLine }

/-- Bits that the voted vector holds on a head beyond its sources: they act from PAN clock `t` until the next flip (R83, R95,
R96). -/
def holdVoted (h : Head) (extra : Nat) (t : Ticks) : Head :=
  if extra = 0 then h
  else { h with fence := { h.fence with voted := h.fence.voted ||| extra },
                fenceAt := (bitsOf 17 extra).foldl (fun l b => tset l b t) h.fenceAt }

/-- Evaluate the span of a slot on a line (R79): every participating channel gives its word and passes its fence vector, the
voter settles both, and the crust stage takes them. -/
def evalSpan (s : State) (i : Nat) (t : Timing) (k : Slot) (line x : Nat) (u : List Upset) : State :=
  let s := pump s i
  let p := (s.head i).pan.getD 0
  let s := s.setPan p ((List.range 3).foldl (fun q c => damageChan q c i k (nth ⟨0, 0, none⟩ u c)) (s.pan p))
  let h := s.head i
  let q := s.pan p
  let due := (evalTime s t h.flipT line x).toNat
  let wireNs := wholeNs (tbAt s due + 34 * panT)
  let v := fenceVector s h due
  let words := (activeChans q).map (fun c => (c, chanWord s i k wireNs v u c))
  let vote := panVote q k.win words
  let vectors := (activeChans q).map (fun c => (c, chanFence v u c))
  let fences := voteFence vectors
  let extra := if vectors.length < 2 then 0 else fences.1.toNat &&& ((2 ^ 17 - 1) ^^^ v)
  let inp := spanInput s h k wireNs k.d.pol false
  let s := if vote.word.causes.testBit 14 then s.setPan p { q with noMajority := sat32 q.noMajority } else s
  let s := s.setHead i (holdVoted { h with
    words := tset h.words k.d.g.layer ⟨line, k.win, vote.word.verdict, vote.word.causes⟩,
    spans := tset h.spans k.win (addSpan (tfind h.spans k.win) vote.word line inp h.frameCount) } extra due)
  let s := vote.minority.foldl (fun s c =>
    outvote p i k.win (((words.find? (fun e => e.1 == c)).map (·.2)).getD 0) (packWord vote.word) s c) s
  let s := fences.2.foldl (fun s c => outvote p i k.win (chanFence v u c).toNat fences.1.toNat s c) s
  drain s i

/-- SPAN_EVALUATE (R79, R100): the span of layer `layer` on line `line` of head `h` enters gauge evaluate. `a`, `b` and
`c` are hardware upsets of the three channels. -/
def execSpanEvaluate (h : Fin 32) (layer : Fin 12) (line : Nat) (a b c : Upset) (s : State) :
    Host.Outcome State Fault Refusal :=
  let x := s.head h.val
  match x.gen, x.force.slots.find? (fun k => k.d.g.layer == layer.val) with
  | some t, some k =>
    match spanStart x.force k line with
    | some px =>
      let done := (tfind x.words layer.val).elim false (fun w => w.win == k.win && decide (line ≤ w.line))
      if x.phase = .active ∧ blackFrame x = false ∧ line < t.vactive ∧ px < t.hactive ∧ done = false ∧
          evalTime s t x.flipT line px ≤ s.now then
        .next (evalSpan s h.val t k line px [a, b, c])
      else .next s
    | none => .next s
  | _, _ => .next s

/-! ### State copies (R86; notes/assumptions/107.md) -/

/-- The bytes of a policy in a table's signature. -/
def policyBytes (p : Policy) : List Byte :=
  leBytes 4 p.budgetUs ++ [byte p.frozenRepeat, byte p.recover, byte p.colourSet,
    byte (b2n p.glyphEn + 2 * p.glyphCorner), byte (b2n p.critical + 2 * b2n p.expectMotion + 4 * b2n p.taintCrust +
      8 * b2n p.unverifiedBorder + 16 * b2n p.crustOff + 32 * b2n p.crustReplace)]

/-- The bytes of a channel's tables, in the order of their keys. -/
def tableBytes (t : GaugeTable) : List Byte :=
  t.wins.flatMap (fun e => leBytes 2 e.1 ++ leBytes 2 e.2.win ++ [byte e.2.g.layer, byte e.2.groups] ++
    leBytes 2 (e.2.g.context.getD 0xFFFF) ++ leBytes 2 e.2.g.x ++ leBytes 2 e.2.g.y ++ leBytes 2 e.2.g.w ++ leBytes 2 e.2.g.h ++
    policyBytes e.2.pol) ++
  t.colours.flatMap (fun e => [byte e.1] ++ (e.2.a ++ e.2.b).flatMap (leBytes 4))

/-- The table signature that a channel keeps: a CRC-32C over its tables. -/
def signature (g : Gauge) : Nat := crc 1 (tableBytes g.table)

/-- A copy source: an ACTIVE channel whose signature equals that of another ACTIVE one. -/
def copySource (q : Pan) : Option Nat :=
  let l := (activeChans q).map (fun c => (c, signature (q.chan c)))
  (l.find? (fun e => decide (2 ≤ (l.filter (fun x => x.2 == e.2)).length))).map (·.1)

/-- At a tide, the channels of a pan that are not ACTIVE start a state copy; without a copy source, firmware is asked to reload
the tables of all three. -/
def tideCopies (s : State) (p : Nat) : State :=
  let q := s.pan p
  let out := (List.range 3).filter (fun c => !(activeChans q).contains c)
  match copySource q with
  | some k => s.setPan p (out.foldl (fun q c => q.setChan c { q.chan c with copying := some ⟨s.now, k⟩ }) q)
  | none => s.setPan p { q with reload := true }

/-- STATE_COPY_COMPLETE (R86): the tables are those of the copy source. A copy that completes during a pass replaces the one that
completed before it, so that the pass no longer counts (DESIGN CHOICE; notes/assumptions/108.md). -/
def execStateCopyComplete (p : Fin 4) (ch : Fin 3) (s : State) : Host.Outcome State Fault Refusal :=
  let q := s.pan p.val
  let g := q.chan ch.val
  match g.copying with
  | some c =>
    if c.start < s.now then
      .next (s.setPan p.val (q.setChan ch.val { g with table := (q.chan c.src).table, copying := none, copied := some s.now }))
    else .next s
  | none => .next s

/-- The tables of a pan as the commits of its heads have left them. -/
def commitTable (s : State) (p : Nat) : GaugeTable :=
  (panHeads s p).foldl (fun t i => loadTable i (gaugeEntries i (s.head i).force) t) { colours := s.colours }

/-- A reload rewrites the tables of a channel from the commit shadow; for one out of the vote it is the copy that its
re-admission awaits (notes/assumptions/25.md). -/
def reloadChan (t : GaugeTable) (now : Ticks) (g : Gauge) : Gauge :=
  { g with table := t, copying := none, copied := if g.st = .active then g.copied else some now }

/-- GAUGE_RELOAD (R86). -/
def execGaugeReload (p : Fin 4) (s : State) : Host.Outcome State Fault Refusal :=
  let q := s.pan p.val
  if q.reload && s.start.warden == .ready then
    .next (s.setPan p.val { q.mapChans (reloadChan (commitTable s p.val) s.now) with reload := false })
  else .next s

/-! ### The salinity pass (R87 to R90) -/

/-- A channel at the end of a pass that started at `t` and that it answered correctly (R87). -/
def passedChan (t : Ticks) (g : Gauge) : Gauge :=
  if g.copied.elim false (fun c => decide (c ≤ t)) then
    match g.st with
    | .active => g
    | .suspect => { g with st := .active, goodPasses := 0, copied := none }
    | .failed => if g.goodPasses + 1 < 8 then { g with goodPasses := g.goodPasses + 1 }
        else { g with st := .active, goodPasses := 0, copied := none }
  else g

/-- One channel's result: `fail` is its first failing cycle (R90). -/
def passChan (p : Nat) (t : Ticks) (fail : Option Nat) (c : Nat) (s : State) : State :=
  let q := s.pan p
  let g := q.chan c
  match fail with
  | none => s.setPan p (q.setChan c (passedChan t g))
  | some k =>
    let s := s.setPan p (q.setChan c { g with
      st := .failed, salFails := sat32 g.salFails, goodPasses := 0,
      copied := if g.st = .active then none else g.copied })
    if g.st = .failed then s else raiseErr s 0x0011 (p + 4 * c) k 0

/-- The first failing cycle of a pass, 0xFF for none. -/
def firstFail (l : List (Option Nat)) : Nat := l.foldl (fun m e => min m (e.getD 0xFF)) 0xFF

/-- The end of a pass that started at `t` (R88 to R90, R101). -/
def endPass (s : State) (p : Nat) (t : Ticks) (fa fb fc fv : Option Nat) : State :=
  let q := s.pan p
  let s := s.setPan p { q with
    salDue := none, salTide := q.salDueTide % 2 ^ 32, salFailCycle := firstFail [fa, fb, fc, fv],
    salPass := b2n fa.isNone + 2 * b2n fb.isNone + 4 * b2n fc.isNone + 8 * b2n fv.isNone,
    noVote := q.noVote || fv.isSome }
  let s := if fv.isSome && !q.noVote then raiseErr s 0x0013 p (firstFail [fv]) 0 else s
  checkShort (passChan p t fc 2 (passChan p t fb 1 (passChan p t fa 0 s))) p

/-! ### The synthetic set (R89; notes/assumptions/109.md) -/

/-- A synthetic record with no cause, captured at 1 s. -/
def passRecord : FreshRecord := ⟨0, 1, 0, 0, 0, 255, 0, 0⟩

def passPolicy : Policy := ⟨2000000, 2, 2, 0, false, 0, false, false, false, false, false, false⟩

/-- A synthetic span that bears no cause. -/
def passInput : SpanInput := ⟨some passRecord, false, false, false, false, passPolicy, 1000000000, false⟩

/-- A case with an age under a budget in µs. -/
def ageCase (budgetUs wireNs : Nat) : SpanInput := { passInput with pol := { passPolicy with budgetUs := budgetUs }, wireNs := wireNs }

/-- A case with a record and a policy. -/
def runCase (r : FreshRecord) (p : Policy) : SpanInput := { passInput with record := some r, pol := p }

/-- A case that bears exactly the causes of a mask, of bits 0 to 13 and 15. -/
def causeCase (m : Nat) : SpanInput :=
  { record := some { passRecord with
      causes := m % 128, aliveRun := if m.testBit 8 then 2 else 0, contentRun := if m.testBit 9 then 2 else 0,
      goodRun := if m.testBit 15 then 1 else 255 },
    recordPoison := false, never := m.testBit 10, closed := m.testBit 11, isolated := m.testBit 12,
    pol := { passPolicy with expectMotion := m.testBit 9 }, wireNs := if m.testBit 7 then 4000000000 else 1000000000,
    fenced := m.testBit 13 }

/-- A case in which a fence vector does or does not hold the window. -/
def fenceCase (held : Bool) : SpanInput := { passInput with fenced := held }

/-- The 64 synthetic cases by cycle, each a list of spans of one line. -/
def passCases : List (List SpanInput) :=
  let s := 1000000000
  let one := { passPolicy with recover := 1 }
  let bits := [0, 1, 2, 3, 4, 5, 6, 7, 8, 9, 10, 11, 12, 13, 15]
  let all := 0xBFFF
  let frozen (n : Nat) := [runCase { passRecord with aliveRun := n - 1 } { passPolicy with frozenRepeat := n },
    runCase { passRecord with aliveRun := n } { passPolicy with frozenRepeat := n },
    runCase { passRecord with contentRun := n } { passPolicy with frozenRepeat := n },
    runCase { passRecord with contentRun := n } { passPolicy with frozenRepeat := n, expectMotion := true }]
  let good := [runCase { passRecord with goodRun := 0 } one, runCase { passRecord with goodRun := 1 } one,
    runCase { passRecord with goodRun := 254 } { passPolicy with recover := 255 },
    runCase { passRecord with goodRun := 255 } { passPolicy with recover := 255 }]
  ([ageCase 1000 (s + 1000000 - 1), ageCase 1000 (s + 1000000), ageCase 1000 (s + 1000000 + 1),
    ageCase 10000000 (s + 10000000000 - 1), ageCase 10000000 (s + 10000000000), ageCase 10000000 (s + 10000000000 + 1),
    ageCase 1000 (s - 1), ageCase 10000000 (s + 2 ^ 48)] ++ frozen 1 ++ frozen 255 ++ good ++ good ++
    [passInput] ++ bits.map (fun b => causeCase (2 ^ b)) ++
    [causeCase (1 + 32), causeCase (32 + 128), causeCase (128 + 256), causeCase (256 + 1024),
     causeCase all, causeCase all, causeCase all, causeCase all]).map (fun c => [c]) ++
  (List.range 8).map (fun g => [fenceCase ((2 ^ g).testBit g), fenceCase (((2 ^ g) &&& (255 ^^^ 2 ^ g)) != 0)]) ++
  [[fenceCase true], [fenceCase false], [fenceCase true], [fenceCase true]] ++ List.replicate 4 [passInput]

/-- The expected words held in ROM: causes and verdict of each span, by cycle. -/
def passRom : List (List (Nat × Nat)) :=
  ([(0, 0), (0, 0), (0x80, 3), (0, 0), (0, 0), (0x80, 3), (0, 0), (0x80, 3),
    (0, 0), (0x100, 4), (0, 0), (0x200, 4), (0, 0), (0x100, 4), (0, 0), (0x200, 4),
    (0x8000, 2), (0, 0), (0x8000, 2), (0, 0), (0x8000, 2), (0, 0), (0x8000, 2), (0, 0),
    (0, 0), (1, 1), (2, 1), (4, 1), (8, 1), (0x10, 1), (0x20, 2), (0x40, 2), (0x80, 3), (0x100, 4), (0x200, 4), (0x400, 5),
    (0x800, 5), (0x1000, 5), (0x2000, 3), (0x8000, 2),
    (0x21, 2), (0xA0, 3), (0x180, 4), (0x500, 5), (0xBFFF, 5), (0xBFFF, 5), (0xBFFF, 5), (0xBFFF, 5)]).map (fun c => [c]) ++
  List.replicate 8 [(0x2000, 3), (0, 0)] ++
  [[(0x2000, 3)], [(0, 0)], [(0x2000, 3)], [(0x2000, 3)]] ++ List.replicate 4 [(0, 0)]

/-- The bits that hardware faults flip in a unit's output on a cycle. -/
def faultBits (l : List PassFault) (unit cycle : Nat) : BitVec 32 :=
  (l.filter (fun f => f.unit == unit && f.cycle == cycle)).foldl (fun b f => b ^^^ f.bits) 0#32

/-- The words that a channel answers on a cycle: those of its evaluators, with its faults. -/
def passWords (l : List PassFault) (unit cycle : Nat) : List Nat :=
  (nth [] passCases cycle).map (fun i => (BitVec.ofNat 32 (packWord (channelWord i 0)) ^^^ faultBits l unit cycle).toNat)

/-- The expected words of a cycle. -/
def romWords (cycle : Nat) : List Nat := (nth [] passRom cycle).map (fun e => packWord ⟨e.1, 0, e.2⟩)

/-- The first cycle of 0 to 59 on which a channel answers wrongly (R90). -/
def chanFails (l : List PassFault) (unit : Nat) : Option Nat :=
  (List.range 60).find? (fun c => passWords l unit c != romWords c)

/-- The voter's output on a cycle of 60 to 63: the port inverts the word of A, B or C on 60, 61 and 62, and all three channels
participate. -/
def passVote (l : List PassFault) (cycle : Nat) : Nat :=
  let words := (List.range 3).map (fun c =>
    let w := BitVec.ofNat 32 ((passWords l c cycle).headD 0)
    (c, (if cycle = 60 + c then w ^^^ BitVec.allOnes 32 else w).toNat))
  (BitVec.ofNat 32 (packWord (voteWords 0 words).word) ^^^ faultBits l 3 cycle).toNat

/-- The first cycle of 60 to 63 on which the voter's output is wrong. -/
def voterFails (l : List PassFault) : Option Nat :=
  [60, 61, 62, 63].find? (fun c => [passVote l c] != romWords c)

/-- SALINITY_PASS (R88): the pass ends 64 PAN cycles after its start; `faults` are those of the hardware in it. -/
def execSalinityPass (p : Fin 4) (faults : List PassFault) (s : State) : Host.Outcome State Fault Refusal :=
  match (s.pan p.val).salDue with
  | some t =>
    if (earliestHead s p.val).isNone then .next (s.setPan p.val { s.pan p.val with salDue := none })
    else if t + 64 * panT ≤ s.now then
      .next (endPass s p.val t (chanFails faults 0) (chanFails faults 1) (chanFails faults 2) (voterFails faults))
    else .next s
  | none => .next s

/-! ### Gauge summary registers (R101) -/

def chanCode : ChanState → Nat
  | .active => 0
  | .suspect => 1
  | .failed => 2

/-- VOTE of R101. -/
def voteCode (q : Pan) : Nat :=
  if q.noVote then 3
  else match (activeChans q).length with
    | 3 => 0
    | 2 => 1
    | _ => 2

/-- A word of the gauge summary of a pan, by its offset. -/
def gaugeWord (s : State) (p off : Nat) : Nat :=
  let q := s.pan p
  let hs := (s.heads.filter (fun e => e.2.pan == some p && fenceable e.2)).map (·.2)
  let groups (src : Fences → Nat) (kept : HeadFence → Nat) : Nat :=
    hs.foldl (fun m h => m ||| src s.fences ||| kept h.fence) 0 % 256
  match off with
  | 0x00 => chanCode q.a.st + 4 * chanCode q.b.st + 16 * chanCode q.c.st + 256 * voteCode q
  | 0x04 => q.a.outvoted
  | 0x08 => q.b.outvoted
  | 0x0C => q.c.outvoted
  | 0x10 => q.noMajority
  | 0x14 => q.salPass + 256 * q.salFailCycle
  | 0x18 => q.a.salFails
  | 0x1C => q.b.salFails
  | 0x20 => q.c.salFails
  | 0x24 => q.salTide
  | 0x28 => groups ballGroups (·.ball) + 256 * groups (fun f => f.sw ||| welGroups f) (fun f => f.sw ||| f.wel) +
      65536 * b2n (hs.any (fun h => headSeals h != 0)) + 131072 * b2n (hs.any (headSafe s.fences))
  | 0x2C => q.lastWindow + 65536 * q.lastHead + 2 ^ 24 * q.lastChannel
  | _ => 0

end Sys2Proof.Machine
end

