-- ==== Sys2Proof/Machine/Host.lean ====
section
/-! DEFINITION. Host window A and the MSI-X table (spec/15 R401 to R407, R420 to R423, spec/05 R166, spec/03 R101): the registers as
they read, and the writes to interrupt, event-ring and HW-B registers. -/

namespace Sys2Proof.Machine

/-! ### Registers as they read (R402, R406, R420) -/

def wardenCode : WardenState → Nat
  | .booting => 0
  | .ready => 1
  | .restarting => 2

def hbStatus (s : State) : Nat :=
  wardenCode s.start.warden + 4 * b2n s.cfg.bed.isSome + 8 * b2n s.start.safe + 16 * servoCode s.servo.st

/-- Mask of the classes that queued records have. -/
def errClasses (s : State) : Nat := maskOf ((List.range 4).filter (fun c => s.errs.any (fun r => r.cls == c)))

def hbErrSummary (s : State) : Nat := s.errs.length + 256 * errClasses s + 65536 * s.errOverflow

/-- CMDSET: 0 while BOOTING. -/
def cmdsetOf (s : State) : Nat := if s.start.warden = .booting then 0 else 0x0302

/-- The session slot bound to a mailbox (R406). -/
def mailboxSession (s : State) (n : Nat) : Nat :=
  ((s.sessions.find? (fun e => e.2.binding == .mailbox n)).map (·.1)).getD 0xF

/-- A word of mailbox `n` by its offset. -/
def mailboxWord (s : State) (n off : Nat) : Nat :=
  let m := s.mailbox n
  if 0x100 ≤ off ∧ off < 0x300 then leNat ((List.range 4).map (fun i => byte (tget 0 m.request (off - 0x100 + i))))
  else if 0x300 ≤ off ∧ off < 0x500 then leAt m.response (off - 0x300) 4
  else match off with
    | 0x000 => 4 * b2n m.irqEn
    | 0x004 => m.state + 65536 * (if m.state = 1 then stPending else m.status)
    | 0x008 => m.respLen
    | 0x00C => mailboxSession s n
    | 0x010 => m.abCode + 65536 * m.abStatus
    | 0x014 => m.abSeq
    | _ => 0

/-- A word of the event-ring control. -/
def evrWord (e : EventRing) (off : Nat) : Nat :=
  match off with
  | 0x00 => e.base % 2 ^ 32
  | 0x04 => e.base / 2 ^ 32
  | 0x08 => e.size
  | 0x0C => b2n e.enable
  | 0x10 => e.prod
  | 0x14 => e.cons
  | 0x18 => e.lost
  | _ => 0

/-- A global register. -/
def globalWord (s : State) (off : Nat) : Nat :=
  match off with
  | 0x00 => 0x0C0C4B59
  | 0x04 => 0x4201 + 65536 * cmdsetOf s
  | 0x08 => hbStatus s
  | 0x0C => hbErrSummary s
  | 0x10 => s.tide.count % 2 ^ 32
  | 0x14 => s.tide.latchedHigh
  | 0x18 => timeNs s.tb
  | 0x1C => s.tide.latchedSec % 2 ^ 32
  | 0x20 => s.tide.latchedSec / 2 ^ 32 % 2 ^ 16
  | 0x28 => s.irq.status.toNat
  | 0x2C => s.irq.mask.toNat
  | 0x40 => hbFence s
  | 0x80 => s.hwbBase % 2 ^ 32
  | 0x84 => s.hwbBase / 2 ^ 32
  | 0x88 => s.hwbIdent
  | _ => 0

/-- What the word of HW-A at an offset reads as; reserved offsets read 0 (R402). -/
def hwaWord (s : State) (off : Nat) : Nat :=
  let o := off / 4 * 4
  if o < 0x100 then globalWord s o
  else if 0x1000 ≤ o ∧ o < 0x1800 then leAt (headStatus s ((o - 0x1000) / 0x40)) (o % 0x40) 4
  else if 0x2000 ≤ o ∧ o < 0x6000 then mailboxWord s ((o - 0x2000) / 0x800) (o % 0x800)
  else if 0x6000 ≤ o ∧ o < 0x6100 then evrWord s.evr (o - 0x6000)
  else if 0x7000 ≤ o ∧ o < 0x7100 then gaugeWord s ((o - 0x7000) / 0x40) (o % 0x40)
  else 0

/-- TIDE_COUNT_LOW_READ, alone or as a single 64-bit read of HB_TIDE_COUNT (R403). -/
def execTideCountLowRead (wide : Bool) (s : State) : Host.Outcome State Fault Refusal :=
  if hostUp s then
    .next ({ s with tide := { s.tide with latchedHigh := s.tide.count / 2 ^ 32 } }.emit
      (.completion (leBytes (if wide then 8 else 4) s.tide.count) false))
  else .next s

/-- TIME_NS_READ (R403). -/
def execTimeNsRead (s : State) : Host.Outcome State Fault Refusal :=
  if hostUp s then
    .next ({ s with tide := { s.tide with latchedSec := timeS s.tb } }.emit (.completion (leBytes 4 (timeNs s.tb)) false))
  else .next s

/-! ### Interrupts (R423) -/

def clearStatus (value : BitVec 32) (s : State) : State := { s with irq := { s.irq with status := s.irq.status &&& ~~~value } }

/-- IRQ_STATUS_CLEAR: W1C; pending messages stay. -/
def execIrqStatusClear (value : BitVec 32) (s : State) : Host.Outcome State Fault Refusal :=
  if hostUp s then .next (clearStatus value s) else .next s

/-- The mask changes: a vector whose mask bit is cleared while its status bit is set has a message due. -/
def writeMask (value : BitVec 32) (s : State) : State :=
  let old := s.irq.mask
  (List.range 32).foldl (fun s v =>
    if old.getLsbD v && !value.getLsbD v && s.irq.status.getLsbD v then msixDue s v else s)
    { s with irq := { s.irq with mask := value } }

/-- IRQ_MASK_WRITE. -/
def execIrqMaskWrite (value : BitVec 32) (s : State) : Host.Outcome State Fault Refusal :=
  if hostUp s then .next (writeMask value s) else .next s

/-- Messages that no MSI-X mask holds any more are sent. -/
def sendPending (s : State) : State :=
  if s.irq.funcMask then s
  else (List.range 32).foldl (fun s v =>
    if s.irq.pba.getLsbD v && !s.irq.entryMask.getLsbD v then
      { s with irq := { s.irq with pba := s.irq.pba &&& ~~~(1#32 <<< v) } }|> (sendMsix · v)
    else s) s

/-- MSIX_UNMASK: the mask bits of entries, and the function mask, are cleared. -/
def execMsixUnmask (entries : BitVec 32) (function : Bool) (s : State) : Host.Outcome State Fault Refusal :=
  if hostUp s then
    .next (sendPending { s with irq := { s.irq with
      entryMask := s.irq.entryMask &&& ~~~entries, funcMask := s.irq.funcMask && !function } })
  else .next s

/-- The word of BAR4 at an offset as it reads: entries of 16 bytes with address, data and the mask bit, and the pending bits at
0x1000 (R401; PRESUMED: PCI Express; notes/assumptions/63.md). -/
def msixWord (s : State) (off : Nat) : Nat :=
  let e := tget (0, 0) s.irq.table (off / 16)
  if off = 0x1000 then s.irq.pba.toNat
  else if 0x200 ≤ off then 0
  else match off % 16 / 4 with
    | 0 => e.1 % 2 ^ 32
    | 1 => e.1 / 2 ^ 32
    | 2 => e.2
    | _ => b2n (s.irq.entryMask.getLsbD (off / 16))

/-- A write of a word of BAR4; clearing a mask bit sends what it held. -/
def writeMsix (off : Nat) (value : BitVec 32) (s : State) : State :=
  let n := off / 16
  let v := value.toNat
  let e := tget (0, 0) s.irq.table n
  let put (e : Nat × Nat) : State := { s with irq := { s.irq with table := tset s.irq.table n e } }
  if 0x200 ≤ off then s
  else match off % 16 / 4 with
    | 0 => put (e.1 / 2 ^ 32 * 2 ^ 32 + v / 4 * 4, e.2)
    | 1 => put (e.1 % 2 ^ 32 + v * 2 ^ 32, e.2)
    | 2 => put (e.1, v)
    | _ =>
      let others := s.irq.entryMask &&& ~~~(1#32 <<< n)
      sendPending { s with irq := { s.irq with entryMask := if value.getLsbD 0 then others ||| (1#32 <<< n) else others } }

/-- A write of the MSI-X message control word: bit 30 of its word of the configuration space is the function mask. -/
def writeMsixControl (value : BitVec 32) (s : State) : State :=
  sendPending { s with irq := { s.irq with funcMask := value.getLsbD 30 } }

/-! ### Event ring (R420, R421) -/

def writeEnable (value : BitVec 32) (s : State) : State :=
  let e := s.evr
  if value.getLsbD 0 = false then { s with evr := { e with enable := false } }
  else if e.enable then s
  else { s with evr := { e with enable := true, prod := 0, cons := 0, phase := true, seq := 0, fullLost := 0 } }

/-- EVR_ENABLE_WRITE. -/
def execEvrEnableWrite (value : BitVec 32) (s : State) : Host.Outcome State Fault Refusal :=
  if hostUp s then .next (writeEnable value s) else .next s

/-- EVR_CONS changes; the first entry freed after a full ring takes the OVERFLOW record. -/
def writeCons (value : BitVec 32) (s : State) : State :=
  let v := value.toNat % 65536
  let e := s.evr
  if evrSize e ≤ v then s
  else
    let s := { s with evr := { e with cons := v } }
    if s.evr.enable && decide (0 < s.evr.fullLost) && !evrFull s.evr then
      writeRecord { s with evr := { s.evr with fullLost := 0 } } 0x7F 1 s.tb (leBytes 4 s.evr.fullLost)
    else s

/-- EVR_CONS_WRITE. -/
def execEvrConsWrite (value : BitVec 32) (s : State) : Host.Outcome State Fault Refusal :=
  if hostUp s then .next (writeCons value s) else .next s

/-- EVR_BASE and EVR_SIZE, ignored while the ring is enabled. -/
def writeEvr (off : Nat) (value : BitVec 32) (s : State) : State :=
  let e := s.evr
  if e.enable then s
  else match off with
    | 0x00 => { s with evr := { e with base := e.base / 2 ^ 32 * 2 ^ 32 + value.toNat / 4096 * 4096 } }
    | 0x04 => { s with evr := { e with base := value.toNat * 2 ^ 32 + e.base % 2 ^ 32 } }
    | 0x08 => let n := value.toNat % 32
      if 6 ≤ n ∧ n ≤ 16 then { s with evr := { e with size := n } } else s
    | _ => s

/-! ### HW-B base by halves (R404) -/

def writeHwbBase (b : Nat) (s : State) : State :=
  let b := b / 2 ^ 21 * 2 ^ 21
  if b + 2 ^ 30 ≤ memTop then { s with hwbBase := b } else s

/-- REQUEST bytes of a mailbox, in IDLE only (R407). -/
def writeRequest (n off : Nat) (value : BitVec 32) (s : State) : State :=
  let m := s.mailbox n
  if m.state ≠ 0 then s
  else s.setMailbox n { m with request := ((leBytes 4 value.toNat).zipIdx).foldl (fun t e =>
    if e.1 = 0#8 then tdel t (off + e.2) else tset t (off + e.2) e.1.toNat) m.request }

end Sys2Proof.Machine
end

