-- ==== Sys2Proof/Machine/Skims.lean ====
section
/-! DEFINITION. Skims (spec/17 R453 to R458) and dual approval (spec/15 R418, R419): SKIM_STORE, SKIM_APPLY, SKIM_APPROVE,
CONFIG_QUERY, SKIM_MESSAGE_RECEIVE, and the application of a scheduled skim at its tide. -/

namespace Sys2Proof.Machine

/-! ### Messages between the devices of a ring (R453 to R455) -/

/-- What a skim message says, by its fields. -/
def skimArgs : SkimMsg → List Nat
  | .store k role image => [0, k, role] ++ image.map (·.toNat)
  | .apply skim tide count held => [1, skim, tide, count, b2n held]
  | .cancel skim tide => [2, skim, tide]
  | .approve skim tide => [3, skim, tide]
  | .withdraw skim tide => [4, skim, tide]
  | .ack device code args => [5, device, code] ++ args

/-! ### Storing (R453) -/

/-- Every other device of the ring has an ACTIVE path. -/
def ringReachable (s : State) : Bool :=
  (List.range (s.ring.ring + 1)).all (fun d => d == s.ring.device || (linkTo s d).isSome)

/-- An apply of a slot is scheduled or held. -/
def slotLive (s : State) (k : Nat) : Bool := s.cfg.applies.any (fun a => a.skim == k)

/-- What the checks of an image for the skim slots find (R453). -/
def skimFault (s : State) (l : List Byte) (n : Nat) : Option Nat :=
  match imageFault 1 l n with
  | some f => some f.status
  | none =>
    if leAt l 0x10 4 ≠ s.cfg.wall ∨ (s.cfg.bed.map (·.crc)) ≠ some (leAt l 0x18 4) then some stBadParam
    else if !(imageRecords l).all skimRecordOk then some stBadParam
    else none

def skimOf (l : List Byte) (role : Nat) : Skim :=
  { length := l.length, crc := leAt l (l.length - 4) 4, imageId := leAt l 0x14 4, bedCrc := leAt l 0x18 4,
    dual := (leAt l 7 1).testBit 0, role := role, records := imageRecords l }

/-- The image lies in its slot of region 255, and firmware knows its records. -/
def storeSkim (s : State) (k : Nat) (l : List Byte) (role : Nat) : State :=
  let s := wardenWrite s (skimBase k) l
  { s with cfg := { s.cfg with skims := tset s.cfg.skims k (skimOf l role) } }

def skimTarget (s : State) (k : Nat) : Option Nat := if k = 0xFF then tfree s.cfg.skims 32 else some k

def cmdSkimStore (c : Caller) (p : SkimStoreP) (s : State) : Reply :=
  match skimTarget s p.skim with
  | none => refuseFull s stLimit 7
  | some k =>
    if 31 < k then refuse s stBadParam
    else if slotLive s k || (!p.loc && !ringReachable s) then refuse s stBusy
    else if !dykePermits s idWarden p.addr p.bytes false then refuse s stDykeDenied
    else
      let (l, _, s) := if p.bytes ≤ 2 ^ 16 then wardenRead s p.addr p.bytes else ([], false, s)
      match skimFault s l p.bytes with
      | some st => refuse s st
      | none =>
        let role := callerRole s c
        if !p.loc && s.ring.ring != 0 && !p.acked then refuse s stBusy
        else
          let s := if p.loc then s else sendSkim s (skimArgs (.store k role l))
          ok (storeSkim s k l role) ([byte k, 0#8, 0#8, 0#8] ++ leBytes 4 (leAt l (l.length - 4) 4))

def execSkimStore (c : Caller) (p : SkimStoreP) (s : State) : Host.Outcome State Fault Refusal :=
  .next (command c 0x0202 (cmdSkimStore c p) s)

/-! ### The records of a skim (R454, R456) -/

/-- A record with the role that stored its skim (R453). -/
def skimRecord (role : Nat) (r : ImageRec) (s : State) : Reply :=
  if role < baseRole r.code then refuse s stRoleDenied else runRecord ⟨.image role, 0xFF, 0⟩ r s

/-- The first record that its checks refuse: its offset, its status, and the state with its refusal counted (R8). -/
def recordsFault (role : Nat) : List ImageRec → State → Option (Nat × Nat × State)
  | [], _ => none
  | r :: l, s =>
    let q := skimRecord role r s
    if q.status = stOk then recordsFault role l q.st else some (r.offset, q.status, q.st)

/-- The records of a skim, in order. One that its checks refuse at its tide is left out, its refusal counted under R8, and the others
are carried out (notes/assumptions/62.md). -/
def runSkim (k : Skim) (s : State) : State :=
  (ownRecords s.ring.device k.records).foldl (fun s r =>
    let q := skimRecord k.role r s
    if q.status = stOk then q.st else keepRefusals s q.st) s

/-- The scheduled applies whose tide lies before `tide`, by their tides. -/
def appliesBefore (s : State) (tide : Nat) : List Apply :=
  (s.cfg.applies.filter (fun a => !a.held && decide (a.tide < tide))).foldl (fun l a => insertBy (fun (x : Apply) => x.tide) a l) []

/-- The configuration against which an apply at `tide` is checked: skims scheduled before it applied, and none live (R454,
R457). -/
def stateBefore (s : State) (tide : Nat) : State :=
  let l := appliesBefore s tide
  keepRefusals
    (l.foldl (fun s a => (tfind s.cfg.skims a.skim).elim s (fun k => runSkim k s)) { s with cfg := { s.cfg with applies := [] } }) s

/-! ### SKIM_APPLY (R454, R418) -/

/-- This device's own checks of an apply, in the order of R454: the refusal with its response block. -/
def applyFault (s : State) (skim tide : Nat) : Option Reply :=
  match tfind s.cfg.skims skim with
  | none => some (refuse s stBadParam)
  | some k =>
    if tide < s.tide.count + 2 ∨ (s.cfg.bed.map (·.crc)) ≠ some k.bedCrc then some (refuse s stBadParam)
    else (recordsFault k.role (ownRecords s.ring.device k.records) (stateBefore s tide)).map
      (fun f => ⟨keepRefusals s f.2.2, f.2.1, [byte s.ring.device, 0#8, 0#8, 0#8] ++ leBytes 4 f.1⟩)

/-- An answer that refuses with a status that no command completes a refusal with is no answer. -/
def noAnswer : PeerAnswer → Bool
  | .unreachable => true
  | .refused _ st _ => !refusalStatuses.contains st
  | _ => false

/-- What the answers of other devices refuse: BED_CRC, then records, then reach and tide count. -/
def peersFault (l : List PeerAnswer) : Option (Nat × List Byte) :=
  if l.contains .bedDiffers then some (stBadParam, [])
  else match (l.filter (fun a => !noAnswer a)).findSome? (fun a => match a with
    | .refused d st off => some (st, [byte d, 0#8, 0#8, 0#8] ++ leBytes 4 off)
    | _ => none) with
  | some f => some f
  | none => if l.any noAnswer || l.contains .tideDiffers then some (stBusy, []) else none

/-- Contexts that the windows a skim names will name with EXPECT_MOTION = 1, once it has applied after those before it (R66). -/
def skimMotion (s : State) (a : Apply) : List Nat :=
  match tfind s.cfg.skims a.skim with
  | none => []
  | some k =>
    let t := runSkim k (stateBefore s a.tide)
    t.wins.filterMap (fun w =>
      if w.2.pol.expectMotion && k.records.any (fun r => recordWindow r == some w.1) then w.2.g.context else none)

/-- Add an apply. The detectors that its windows need are taken with it (R66). -/
def addApply (s : State) (a : Apply) : State :=
  let l := skimMotion s a
  let s := l.foldl (fun s c => (takeDetector s c).getD s) s
  { s with cfg := { s.cfg with applies := s.cfg.applies ++ [a], motion := s.cfg.motion ++ l.map (fun c => (a.tide, c)) } }

/-- A dual skim is held: a pending approval names it, its tide and its session (R418). -/
def holdApply (c : Caller) (s : State) (skim tide : Nat) (loc : Bool) : State :=
  let key := (openSession s c).elim 0 (·.keySlot)
  let s := addApply s ⟨skim, tide, true, loc⟩
  let s := { s with approvals := s.approvals ++ [⟨skim, tide, c.slot, key, s.ref⟩] }
  postApproval s skim 0 c.slot 0xFF tide

/-- The apply passes on this device and on the others: counts and room, then it is held or scheduled. -/
def finishApply (c : Caller) (p : SkimApplyP) (k : Skim) (s : State) : Reply :=
  if s.cfg.applies.any (fun a => a.tide == p.tide) then refuse s stBusy
  else if 8 ≤ s.cfg.applies.length then refuseFull s stLimit 8
  else if p.loc = true ∧ callerRole s c < 2 then refuse s stRoleDenied
  else
    let note (s : State) : State :=
      if p.loc then s else sendSkim s (skimArgs (.apply p.skim p.tide s.tide.count k.dual))
    if k.dual then
      if s.approvals.any (fun a => a.skim == p.skim) then refuse s stBusy
      else if 4 ≤ s.approvals.length then refuseFull s stLimit 10
      else ⟨holdApply c (note s) p.skim p.tide p.loc, stApprovalNeeded, []⟩
    else ok (addApply (note s) ⟨p.skim, p.tide, false, p.loc⟩)

/-- Other devices answer only when the apply covers them. -/
def answersOf (p : SkimApplyP) (s : State) : List PeerAnswer :=
  if p.loc ∨ s.ring.ring = 0 then []
  else if ringReachable s then p.peers
  else [.unreachable]

/-- CANCEL: the apply of the skim at the tide is withdrawn on every device that it covers, whatever LOCAL says. -/
def cancelApply (c : Caller) (p : SkimApplyP) (s : State) : Reply :=
  match s.cfg.applies.find? (fun a => a.skim == p.skim && a.tide == p.tide) with
  | none => refuse s stBadParam
  | some a =>
    if p.tide < s.tide.count + 2 then refuse s stBusy
    else match peersFault (answersOf { p with loc := a.loc } s) with
      | some (st, b) => ⟨s, st, b⟩
      | none =>
        if p.loc = true ∧ callerRole s c < 2 then refuse s stRoleDenied
        else
          let s := dropApprovals s (fun x => x.skim == p.skim && x.tide == p.tide) 3
          let s := settleMotion { s with cfg := { s.cfg with applies := s.cfg.applies.filter (fun x => x != a) } }
          ok (if a.loc then s else sendSkim s (skimArgs (.cancel p.skim p.tide)))

def cmdSkimApply (c : Caller) (p : SkimApplyP) (s : State) : Reply :=
  if p.cancel then cancelApply c p s
  else if (answersOf p s).contains .bedDiffers then refuse s stBadParam
  else match applyFault s p.skim p.tide with
    | some r => r
    | none => match peersFault (answersOf p s) with
      | some (st, b) => ⟨s, st, b⟩
      | none => match tfind s.cfg.skims p.skim with
        | some k => finishApply c p k s
        | none => refuse s stBadParam

def execSkimApply (c : Caller) (p : SkimApplyP) (s : State) : Host.Outcome State Fault Refusal :=
  .next (command c 0x0203 (cmdSkimApply c p) s)

/-! ### SKIM_APPROVE (R419, R455) -/

/-- A pending approval is withdrawn, on every device, with its event. -/
def withdraw (s : State) (a : Approval) (state : Nat) : State := dropApprovals s (fun x => x == a) state

/-- Other devices hold the apply of an approval. -/
def appliesAway (s : State) (a : Approval) : Bool :=
  s.ring.ring != 0 && s.cfg.applies.any (fun x => x.skim == a.skim && x.tide == a.tide && !x.loc)

def approve (c : Caller) (a : Approval) (s : State) : State :=
  let shared := appliesAway s a
  let s := { s with
    approvals := s.approvals.filter (fun x => x != a),
    cfg := { s.cfg with applies := s.cfg.applies.map (fun x =>
      if x.skim = a.skim ∧ x.tide = a.tide then { x with held := false } else x) } }
  let s := if shared then sendSkim s (skimArgs (.approve a.skim a.tide)) else s
  postApproval s a.skim 1 a.session c.slot a.tide

def cmdSkimApprove (c : Caller) (p : SkimApproveP) (s : State) : Reply :=
  let key := (openSession s c).map (·.keySlot)
  match s.approvals.find? (fun a => a.skim == p.skim) with
  | none => refuse s stBadParam
  | some a =>
    if key = some a.keySlot then refuse s stRoleDenied
    else if a.tide ≠ p.tide then refuse s stBadParam
    else if a.at_ + 30 * secT ≤ s.ref then ⟨withdraw s a 2, stApprovalTimeout, []⟩
    else if a.tide < s.tide.count + 2 ∨ (p.acked = false ∧ appliesAway s a = true) then ⟨withdraw s a 3, stApprovalTimeout, []⟩
    else ok (approve c a s)

def execSkimApprove (c : Caller) (p : SkimApproveP) (s : State) : Host.Outcome State Fault Refusal :=
  .next (command c 0x0204 (cmdSkimApprove c p) s)

/-! ### A skim applies at its tide (R456) -/

/-- The heads that have a place, with the other head of each twinned pair of which one has (R456, R162). -/
def placedHeads (s : State) : List Nat :=
  (s.heads.filter (fun e => e.2.shadow.place.isSome)).foldl (fun l e => (withTwin s e.1).foldl insertAsc l) []

/-- One scheduled apply: its records, and one commit naming every placed head. -/
def applyOne (s : State) (a : Apply) : State :=
  let s := { s with cfg := { s.cfg with applies := s.cfg.applies.filter (fun x => x != a) } }
  match tfind s.cfg.skims a.skim with
  | none => s
  | some k =>
    let live := s.cfg.applies
    let s := runSkim k { s with cfg := { s.cfg with applies := [] } }
    let s := { s with cfg := { s.cfg with applies := live, lastSkim := a.skim, lastTide := a.tide } }
    (armCommit (settleMotion s) (placedHeads s)).2

/-- The scheduled applies whose tide has come (notes/assumptions/62.md). -/
def applySkims (s : State) : State := (appliesBefore s (s.tide.count + 1)).foldl applyOne s

/-! ### SKIM_MESSAGE_RECEIVE (R453 to R455) -/

/-- The answer of this device to the one that asks: 0 acknowledged, 1 BED_CRC differs, 2 records refused, 3 tide count differs,
4 not done. -/
def answerSkim (s : State) (src code : Nat) (args : List Nat) : State :=
  sendSkimTo s src (skimArgs (.ack s.ring.device code args))

/-- An apply that another device asks for. -/
def takeApply (s : State) (src skim tide count : Nat) (held : Bool) : State :=
  if count ≠ s.tide.count then answerSkim s src 3 []
  else match tfind s.cfg.skims skim with
    | none => answerSkim s src 4 []
    | some k =>
      if (s.cfg.bed.map (·.crc)) ≠ some k.bedCrc then answerSkim s src 1 []
      else match recordsFault k.role (ownRecords s.ring.device k.records) (stateBefore s tide) with
        | some (off, st, u) => answerSkim (keepRefusals s u) src 2 [st, off]
        | none =>
          if s.cfg.applies.any (fun a => a.tide == tide) then answerSkim s src 4 []
          else if 8 ≤ s.cfg.applies.length then answerSkim (s.countRefusal 8) src 4 []
          else answerSkim (addApply s ⟨skim, tide, held, false⟩) src 0 []

/-- A skim that another device stores here. -/
def takeStore (s : State) (src k role : Nat) (image : List Byte) : State :=
  if 31 < k ∨ slotLive s k = true ∨ (skimFault s image image.length).isSome = true then answerSkim s src 4 []
  else answerSkim (storeSkim s k image role) src 0 []

def removeApply (s : State) (skim tide : Nat) : State :=
  settleMotion { s with cfg := { s.cfg with applies := s.cfg.applies.filter (fun a => !(a.skim == skim && a.tide == tide)) } }

/-- A skim message for this device from another one. -/
def skimMessage (s : State) (src : Nat) : SkimMsg → State
  | .store k role image => takeStore s src k role image
  | .apply skim tide count held => takeApply s src skim tide count held
  | .cancel skim tide => answerSkim (removeApply s skim tide) src 0 []
  | .approve skim tide => answerSkim { s with cfg := { s.cfg with applies := s.cfg.applies.map (fun a =>
      if a.skim = skim ∧ a.tide = tide then { a with held := false } else a) } } src 0 []
  | .withdraw skim tide => removeApply s skim tide
  | .ack .. => s

/-- SKIM_MESSAGE_RECEIVE: a message for another device goes on over the other link (R363); firmware handles the others. -/
def execSkimMessageReceive (l : Fin 2) (blocks : List (Bool × List Byte)) (m : SkimMsg) (s : State) : Host.Outcome State Fault Refusal :=
  if (s.wel l.val).st ≠ .active then .next s
  else match packetIn s l.val 1 blocks with
  | (none, s) => .next s
  | (some _, s) =>
    if sopDest blocks ≠ s.ring.device then
      .next (if (s.wel (1 - l.val)).st = .active then
        sendBlocks (s.emit (.passed (1 - l.val) (packetOnly blocks))) (1 - l.val) (packetOnly blocks) else s)
    else if s.start.warden = .ready then .next (skimMessage s (sopSrc blocks) m)
    else .next s

/-! ### CONFIG_QUERY (R458) -/

def configBlock (s : State) : List Byte :=
  let b := s.cfg.bed
  [byte (b2n b.isSome), byte s.cfg.skims.length, byte (s.cfg.applies.filter (fun a => !a.held)).length, 0#8] ++
    leBytes 4 s.cfg.wall ++ leBytes 4 (b.elim 0 (·.crc)) ++ leBytes 4 (b.elim 0 (·.imageId)) ++ leBytes 8 s.cfg.bedTide ++
    [byte s.cfg.lastSkim, 0#8, 0#8, 0#8] ++ leBytes 4 (maskOf (s.cfg.skims.map (·.1))) ++ leBytes 8 s.cfg.lastTide

def slotBlock (s : State) (i : Nat) (k : Skim) : List Byte :=
  let a := minBy (fun (x : Apply) => x.tide) (s.cfg.applies.filter (fun x => x.skim == i))
  [byte (a.elim 0 (fun x => if x.held then 2 else 1) + 4 * b2n k.dual), 0#8, 0#8, 0#8] ++ leBytes 4 k.length ++
    leBytes 4 k.crc ++ leBytes 4 k.imageId ++ leBytes 8 (a.elim 0 (·.tide))

/-- The schedule in force as its 2,048 entries. -/
def scheduleBytes (s : State) : List Byte := (List.range 2048).map (fun p => byte (classAt (scheduleNow s) p))

def writeSchedule (s : State) (addr : Nat) : Reply :=
  if 2 ≤ s.power.state then refuse s stBusy
  else if !dykePermits s idWarden addr 2048 true then refuse s stDykeDenied
  else ok (wardenWrite s addr (scheduleBytes s))

def cmdConfigQuery (p : ConfigQueryP) (s : State) : Reply :=
  if 3 < p.kind ∨ 31 < p.index ∨ (p.kind ≠ 2 ∧ p.addr ≠ 0) then refuse s stBadParam
  else match p.kind with
    | 0 => ok s (configBlock s)
    | 1 => ok s ((List.range 16).flatMap (fun i => leBytes 4 (tget 0 s.cfg.refusals i)))
    | 2 => writeSchedule s p.addr
    | _ => match tfind s.cfg.skims p.index with
      | some k => ok s (slotBlock s p.index k)
      | none => refuse s stBadParam

def execConfigQuery (c : Caller) (p : ConfigQueryP) (s : State) : Host.Outcome State Fault Refusal :=
  .next (command c 0x0205 (cmdConfigQuery p) s)

end Sys2Proof.Machine
end

