-- ==== Sys2Proof/Machine/Mailbox.lean ====
section
/-! DEFINITION. Command records as bytes (spec/15 R405 to R407, R414, R415; spec/16 R425 to R429; spec/07 R199): the table of all
commands, rows 1 to 9 of R429, the mailbox writes, the other registers of host window A, and sluice datagrams. -/

namespace Sys2Proof.Machine

/-! ### Parameters of the remaining commands -/

/-- What the other devices of a ring answer: free (notes/assumptions/61.md). -/
def drawAnswer (s : State) : PeerAnswer × State :=
  let (k, s) := s.drawNat
  let (d, s) := s.drawNat
  let (st, s) := s.drawNat
  let (off, s) := s.drawNat
  (nth (.refused (d % 4) (nth stBadParam refusalStatuses (st % 13)) (off % 2 ^ 32)) [.acked, .bedDiffers, .tideDiffers, .unreachable]
    (k % 5), s)

/-- A command that the other devices of a ring must acknowledge. -/
def withAck (run : Bool → State → Reply) (s : State) : Reply :=
  if s.ring.ring = 0 then run true s
  else
    let (b, s) := s.drawBool
    run b s

def withPeers (run : List PeerAnswer → State → Reply) (s : State) : Reply :=
  if s.ring.ring = 0 then run [] s
  else
    let (a, s) := drawAnswer s
    run [a] s

/-- Beds and skims: 0x0201 to 0x0205. -/
def formConfig (code n : Nat) : Option Form :=
  match code with
  | 0x0201 => some ⟨16, [(0x0C, 0, 32)], fun _ => cmdBedLoad ⟨fld n 0 0 64, fld n 8 0 32⟩⟩
  | 0x0202 => some ⟨24, [(1, 1, 7), (2, 0, 16), (4, 0, 32), (0x14, 0, 32)],
      fun c => withAck (fun a => cmdSkimStore c ⟨fld n 0 0 8, bit1 n 1 0, fld n 8 0 64, fld n 0x10 0 32, a⟩)⟩
  | 0x0203 => some ⟨16, [(1, 2, 6), (2, 0, 16), (4, 0, 32)],
      fun c => withPeers (fun l => cmdSkimApply c ⟨fld n 0 0 8, bit1 n 1 0, bit1 n 1 1, fld n 8 0 64, l⟩)⟩
  | 0x0204 => some ⟨12, [(1, 0, 24)], fun c => withAck (fun a => cmdSkimApprove c ⟨fld n 0 0 8, fld n 4 0 64, a⟩)⟩
  | 0x0205 => if fld n 0 0 8 < 4 then some ⟨16, [(2, 0, 16), (4, 0, 32)],
      fun _ => cmdConfigQuery ⟨fld n 0 0 8, fld n 1 0 8, fld n 8 0 64⟩⟩ else none
  | _ => none

/-- The form of every command but HELLO and PROVE. -/
def formOf (code : Nat) (l : List Byte) : Option Form :=
  let n := leNat l
  match code with
  | 0x0103 => some ⟨0, [], cmdClose⟩
  | 0x0104 => some ⟨0, [], cmdRoleQuery⟩
  | 0x0F01 => some ⟨4, [(2, 0, 16)], fun _ => cmdErrRead ⟨fld n 0 0 8, fld n 1 0 8⟩⟩
  | 0x0F02 => some ⟨4, [(2, 2, 6), (3, 1, 7)], fun c => cmdErrAck c ⟨fld n 0 0 16, bit1 n 2 0, bit1 n 2 1, bit1 n 3 0⟩⟩
  | _ => if code / 256 = 2 then formConfig code n else objectForm code l

/-- The forms of HELLO and PROVE, which need no session. -/
def openForm (code : Nat) (l : List Byte) : Form :=
  let n := leNat l
  if code = 0x0101 then ⟨20, [(0, 3, 5), (1, 0, 24)], fun c => cmdHello c ⟨fld n 0 0 3, slice l 4 16⟩⟩
  else ⟨36, [(0x20, 1, 7), (0x21, 0, 24)], fun c => cmdProve c ⟨slice l 0 32, bit1 n 0x20 0⟩⟩

/-! ### Acceptance (R429) -/

/-- The reserved fields of the header are 0, and RESP is 0 (row 8). -/
def headerOk (rec : List Byte) : Bool := leAt rec 9 1 == 0 && leAt rec 0x0C 4 == 0

/-- One more wrong tag in a session; the eighth closes it (R414). -/
def wrongTag (s : State) (slot : Nat) (x : Session) : State :=
  let n := x.badTags + 1
  let s := s.setSession slot { x with badTags := n }
  if 8 ≤ n then endSession (raiseErr s 0x0080 slot x.keySlot 0) slot 6 else s

/-- HELLO and PROVE: a tag of zeros, then their parameters (R426). -/
def runOpen (c : Caller) (code : Nat) (rec : List Byte) (s : State) : State :=
  if slice rec 16 16 ≠ zeros 16 then complete c code none (refuse s stBadTag)
  else complete c code none (runForm c code (rec.drop 32) (some (openForm code (rec.drop 32))) (headerOk rec) s)

/-- A command that needs a resting block completes with BUSY where its own checks would come (R429, R499). -/
def restingForm (rests : Bool) (f : Form) : Form := if rests then { f with run := fun _ s => refuse s stBusy } else f

/-- Rows 5 to 9 for an accepted record. -/
def runTagged (c : Caller) (code : Nat) (rec : List Byte) (x : Session) (s : State) : State :=
  let done := completeAccepted c code (some x.key)
  if !codeTable.any (fun e => e.1 == code) then done (refuse s stBadCommand)
  else if roleOfKey s x.keySlot < baseRole code then done (refuse s stRoleDenied)
  else done (runForm c code (rec.drop 32) ((formOf code (rec.drop 32)).map (restingForm (needsResting s code))) (headerOk rec) s)

/-- The caller that a record's header names. -/
def callerOf (via : Via) (rec : List Byte) : Caller := ⟨via, leAt rec 8 1, leAt rec 4 4⟩

/-- A record examined in the order of R429; `fits`: its length is as row 1 asks. -/
def examine (via : Via) (rec : List Byte) (fits : Bool) (s : State) : State :=
  let code := leAt rec 0 2
  let c := callerOf via rec
  if !fits then
    complete c code (if code = 0x0101 ∨ code = 0x0102 then none else openKey s c.slot) (refuse s stBadLength)
  else if code = 0x0101 ∨ code = 0x0102 then runOpen c code rec s
  else match openSession s c with
    | none => complete c code (openKey s c.slot) (refuse s stNotAuth)
    | some x =>
      if slice rec 16 16 ≠ tagOf x.key 0x43 (rec.take 16) (rec.drop 32) then
        complete c code (some x.key) (refuse (wrongTag s c.slot x) stBadTag)
      else if c.seq ≤ x.lastSeq then complete c code (some x.key) (refuse s stReplay)
      else runTagged c code rec x (noteCode (acceptSeq s c x rec) code)

/-! ### Mailboxes (R407) -/

/-- The record in the REQUEST buffer, 512 bytes. -/
def requestBytes (m : Mailbox) : List Byte := (List.range 512).map (fun i => byte (tget 0 m.request i))

/-- A record of a mailbox is examined; its header is that of the buffer, whatever its LENGTH (R425, R427). -/
def takeRecord (n : Fin 8) (rec : List Byte) (s : State) : State :=
  let len := leAt rec 2 2
  examine (.mailbox n) (rec.take (max 32 len)) (decide (32 ≤ len) && decide (len ≤ 512)) s

/-- A command of the mailbox runs on or waits (R399). -/
def mailboxBusy (s : State) (n : Nat) : Bool := (busyMailboxes s).contains n || !(s.mailbox n).waiting.isEmpty

/-- GO in IDLE: while HB_STATUS does not show READY the hardware answers BUSY (R400, R507); a record waits while an earlier command of
the mailbox, which went away with its host link, still runs (R399, R405). -/
def submit (n : Fin 8) (s : State) : State :=
  let rec' := requestBytes (s.mailbox n.val)
  let c := callerOf (.mailbox n) rec'
  if s.start.warden ≠ .ready then mailboxDone s n.val stBusy (bareResponse (leAt rec' 0 2) c.slot c.seq stBusy)
  else if mailboxBusy s n.val then
    let m := s.mailbox n.val
    noteHost (s.setMailbox n.val { m with state := 1, waiting := m.waiting ++ [(rec', false)] }) 2
  else takeRecord n rec' (noteHost s 2)

/-- A record whose mailbox went away has been taken: its response is discarded, so that the mailbox shows what it showed in `old`, and
its session closes once it has completed (R405). -/
def goneTaken (n : Fin 8) (rec : List Byte) (old : Mailbox) (s : State) : State :=
  let m := s.mailbox n.val
  let shown := { old with state := if m.waiting.any (fun e => !e.2) then 1 else 0, waiting := m.waiting }
  if m.state = 1 then abandonRunning (s.setMailbox n.val shown) (fun k => k == n.val)
  else endSessions (s.setMailbox n.val { shown with abCode := leAt rec 0 2, abStatus := m.status, abSeq := leAt rec 4 4 })
    (fun x => x.binding == .mailbox n.val) 4

/-- The record that waits longest on a mailbox starts when the command before it has completed (R399). -/
def startWaiting (s : State) (n : Fin 8) : State :=
  let m := s.mailbox n.val
  match m.waiting with
  | [] => s
  | (rec, gone) :: r =>
    if (busyMailboxes s).contains n.val || s.start.warden != .ready then s
    else
      let s := takeRecord n rec (s.setMailbox n.val { m with waiting := r, irqEn := m.irqEn && !gone })
      if gone then goneTaken n rec m s else s

/-- What the block does on an empty queue: one PAN cycle, and the records that wait (notes/assumptions/1.md, 144.md). -/
def idleStep (s : State) : State := (List.finRange 8).foldl startWaiting (idleCycle s)

/-- A write of the first word of a mailbox: IRQ_EN, GO and ACK (R406, R407). -/
def writeMailbox (n : Fin 8) (value : BitVec 32) (s : State) : State :=
  let s := s.setMailbox n.val { s.mailbox n.val with irqEn := value.getLsbD 2 }
  let m := s.mailbox n.val
  if m.state = 2 ∧ value.getLsbD 1 = true then s.setMailbox n.val { m with state := 0 }
  else if m.state = 0 ∧ value.getLsbD 0 = true then submit n s
  else s

/-- MAILBOX_GO. -/
def execMailboxGo (n : Fin 8) (value : BitVec 32) (s : State) : Host.Outcome State Fault Refusal :=
  if hostUp s then .next (writeMailbox n value s) else .next s

/-- MAILBOX_ACK. -/
def execMailboxAck (n : Fin 8) (value : BitVec 32) (s : State) : Host.Outcome State Fault Refusal :=
  if hostUp s then .next (writeMailbox n value s) else .next s

/-! ### Writes of host window A (R5, R402, R406, R420) -/

/-- A write of a word of mailbox `n`. -/
def writeMailboxWord (n : Fin 8) (off : Nat) (value : BitVec 32) (s : State) : State :=
  if off = 0 then writeMailbox n value s
  else if 0x100 ≤ off ∧ off < 0x300 then writeRequest n.val (off - 0x100) value s
  else s

/-- A write of a word of the event-ring control. -/
def writeEvrWord (off : Nat) (value : BitVec 32) (s : State) : State :=
  match off with
  | 0x0C => writeEnable value s
  | 0x14 => writeCons value s
  | _ => writeEvr off value s

/-- A write of a word of HW-A; what is read-only or reserved ignores it. -/
def writeHwa (offset : Nat) (value : BitVec 32) (s : State) : State :=
  let o := offset / 4 * 4
  if 0x2000 ≤ o ∧ o < 0x6000 then writeMailboxWord (Fin.ofNat 8 ((o - 0x2000) / 0x800)) (o % 0x800) value s
  else if 0x6000 ≤ o ∧ o < 0x6100 then writeEvrWord (o - 0x6000) value s
  else match o with
    | 0x28 => clearStatus value s
    | 0x2C => writeMask value s
    | 0x40 => writeHbFence value s
    | 0x80 => writeHwbBase (s.hwbBase / 2 ^ 32 * 2 ^ 32 + value.toNat) s
    | 0x84 => writeHwbBase (value.toNat * 2 ^ 32 + s.hwbBase % 2 ^ 32) s
    | _ => s

/-- REGISTER_WRITE: a write of a word of HW-A, of BAR4, or of the MSI-X message control. -/
def execRegisterWrite (space : RegSpace) (offset : Nat) (value : BitVec 32) (s : State) : Host.Outcome State Fault Refusal :=
  if hostUp s = false then .next s
  else match space with
    | .hwa => .next (if offset < 65536 then writeHwa offset value s else s)
    | .msix => .next (if offset < 8192 then writeMsix (offset / 4 * 4) value s else s)
    | .msixControl => .next (writeMsixControl value s)

/-! ### The sluice (R199, R415, R428, R430) -/

/-- A datagram that repeats the session's last accepted command exactly. -/
def sluiceRepeat (s : State) (c : Caller) (rec : List Byte) : Option Session :=
  (openSession s c).filter (fun x => x.lastRecord == rec && !x.response.isEmpty)

/-- A datagram of at least 32 bytes that has reached the warden. -/
def sluiceRecord (p : Fin 16) (src : IpAddr) (u : Nat) (rec : List Byte) (s : State) : State :=
  let via := Via.sluice p src u
  let code := leAt rec 0 2
  let c := callerOf via rec
  let len := leAt rec 2 2
  if s.start.warden ≠ .ready then sluiceDropped s p.val
  else if 16 ≤ s.running.length ∧ (code = 0x0101 ∨ code = 0x0102) then sluiceDropped s p.val
  else if stillRunning s c then complete c code (openKey s c.slot) (refuse s stBusy)
  else
    let s := noteHost s 3
    match sluiceRepeat s c rec with
    | some x => s.emit (.sluice p.val src u x.response)
    | none => examine via rec (decide (32 ≤ len) && decide (len ≤ 512) && len == rec.length) s

/-- SLUICE_DATAGRAM: through the port's bucket to the warden. `frameLen` is the frame's length from the destination address
through the FCS. -/
def execSluiceDatagram (port : Fin 16) (src : IpAddr) (uport frameLen : Nat) (payload : List Byte) (s : State) :
    Host.Outcome State Fault Refusal :=
  if portUp s port.val && (s.port port.val).sluiceEn then
    let p := fillBuckets (s.port port.val) s.net
    if p.sluiceTokens < tokens frameLen then .next (sluiceDropped (s.setPort port.val p) port.val)
    else
      let s := s.setPort port.val { p with sluiceRx := sat32 p.sluiceRx, sluiceTokens := p.sluiceTokens - tokens frameLen }
      if payload.length < 32 then .next (sluiceDropped s port.val)
      else .next (sluiceRecord port src uport payload s)
  else .next s

end Sys2Proof.Machine
end

