-- ==== Sys2Proof/Machine/Tide.lean ====
section
/-! DEFINITION. TIDE (spec/01 R18 to R24, R547): the count and its re-base, the step of the frequency word, and everything that
takes effect at a tide. -/

namespace Sys2Proof.Machine

/-- The count at a re-base to instant `n`: never lowered (R22, R24). -/
def rebaseCount (count n : Nat) : Nat := if count < n then n else count + 1

/-- Difference between the instant index and the count, as an unsigned number of 64 bits (R24, R335). -/
def rebaseLag (count n : Nat) : Nat := if count < n then 0 else (n + 2 ^ 64 - (count + 1) % 2 ^ 64) % 2 ^ 64

/-- TIDE_REBASE: the count, its event, the lag, and a re-alignment of every head that runs (R22, R24, R148). -/
def tideRebase (s : State) (old : TideSt) (n : Nat) (due : Ticks) : State :=
  let count := rebaseCount old.count n
  let s := { s with
    tide := { s.tide with count := count, lag := rebaseLag old.count n, rebaseArmed := false },
    heads := tmap (fun _ (h : Head) => if h.gen.isSome then { h with realign := some due } else h) s.heads }
  let s := if n ≤ old.count then raiseErr s 0x0005 0 (rebaseLag old.count n) 0 else s
  postFw s 0x20 1 (some s.tide.lastAt.toNat)
    (leBytes 8 count ++ leBytes 4 old.count ++ [byte ((due - old.lastNow) / panT)])

/-- The tide that is due takes effect: index, times and count (R19, R21). -/
def advanceTide (s : State) : State :=
  let old := s.tide
  let n := nextIndex s
  let due := (tideNow s n).toNat
  let s := { s with tide := { old with
    count := old.count + 1, index := n, lastAt := (tbAt s due : Int), lastNow := due, lastRef := s.ref,
    hist := (old.lastNow :: old.hist).take 7, taken := old.taken + 1 } }
  if old.rebaseArmed then tideRebase s old n due else s

/-- Pulse outputs locked to tides take the new rate (R330). -/
def ratePulse (s : State) (p : PulseSt) : PulseSt :=
  if p.cfg.mode = 3 ∧ p.active = false then { p with next := pulseFrom s p.cfg (tbHalf s) } else p

/-- A rate that a TIDE_SET has left comes into force; the next tide is a re-base (R547). -/
def takeRate (s : State) : State :=
  match s.tide.pendRate with
  | none => s
  | some (n, d) =>
    let s := { s with tide := { s.tide with num := n, den := d, pendRate := none, rebaseArmed := true } }
    { s with pulses := tmap (fun _ (p : PulseSt) => ratePulse s p) s.pulses }

/-- Colour sets written since the last tide, in every channel too (R60, R77). -/
def takeColours (s : State) : State :=
  let l := s.nextColours
  let put (t : Tab ColourSet) : Tab ColourSet := l.foldl (fun t e => tset t e.1 e.2) t
  { s with
    colours := put s.colours, nextColours := [],
    pans := (List.range 4).foldl (fun t p => tset t p
      ((tget {} t p).mapChans (fun g => { g with table := { g.table with colours := put g.table.colours } }))) s.pans }

/-- The bed that passed applies (R451). -/
def takeBed (s : State) : State :=
  match s.cfg.next with
  | some b => applyBed s b
  | none => s

/-- The salinity pass of the tide is due again on every pan, and channels out of the vote are copied (R86, R88). -/
def tidePans (s : State) : State :=
  (List.range 4).foldl (fun s p => tideCopies (s.setPan p { s.pan p with salDone := false }) p) s

/-- What takes effect at a tide, the bed before the skims. -/
def tideEffects (s : State) (began : Ticks) : State :=
  tideMessages (decodeTide (tidePans (takeColours (takeRate (applySkims (takeBed s))))) began)

/-- The PAN time equals or passes the next instant (R19). -/
def tideDue (s : State) : Bool := released s && decide (tideNow s (nextIndex s) ≤ (s.now : Int))

def execTide (s : State) : Host.Outcome State Fault Refusal :=
  if tideDue s then .next (tideEffects (pruneWords (slewWord (advanceTide s))) s.tide.lastRef) else .next s

end Sys2Proof.Machine
end

