-- ==== Sys2Proof/Machine/Startup.lean ====
section
/-! DEFINITION. Start-up, reset and faults (spec/20): power-up, firmware, memory and the bed at start-up (R506 to R510), warm reset
(R511, R512), the reference inputs (spec/01 R14), the host link (spec/15 R405), thermal limits (R524), FATAL handling, and the entry to a
power state that rests groups (spec/19 R497, R498). -/

namespace Sys2Proof.Machine

/-! ### What a reset leaves (R506, R511) -/

/-- The sink at a head's connector, which no reset of the device changes. -/
def sinkOnly (h : Head) : Head :=
  { link := { sink := h.link.sink, sinkRate := h.link.sinkRate, sinkLanes := h.link.sinkLanes, asyncCap := h.link.asyncCap,
              fmin := h.link.fmin, fmax := h.link.fmax } }

/-- PORST_N low: everything but NVM, fuses, and what lies outside the device (R506). -/
def powerOff (s : State) : State :=
  { ({} : State) with
    clk := { ({} : Clocks) with now := s.clk.now, ref := s.clk.ref, aon := s.clk.aon, net := s.clk.net, wel := s.clk.wel,
                                host := s.clk.host, origin := s.clk.origin, refclk := s.clk.refclk, aonRing := s.clk.aonRing, lrefA := s.clk.lrefA, lrefB := s.clk.lrefB,
                                pcieRefclk := s.clk.pcieRefclk, refclkSince := s.clk.refclkSince },
    heads := tmap (fun _ => sinkOnly) s.heads,
    fences := { ({} : Fences) with ballLow := s.fences.ballLow },
    keys := tmap (fun _ (k : KeySlot) => { ({} : KeySlot) with key := k.key }) s.keys,
    trim := { ({} : Trim) with copyA := s.trim.copyA, copyB := s.trim.copyB },
    fresh := s.fresh, out := s.out, pending := s.pending }

/-- PORST_N_ASSERT. -/
def execPorstNAssert (s : State) : Host.Outcome State Fault Refusal := .next (powerOff s)

/-- SAFE_N is low while PORST_N is low and while SAFE state lasts (R523). -/
def safeNLow (s : State) : Bool := decide (s.start.boot = .porst) || s.start.safe

/-! ### Release of the main die (R507 step 3) -/

/-- The time base starts at 0 s, the tide count is 0, and the first slot frame starts. A FENCE_N ball that is low acts from here on,
as captured now (R94, R97, R540). -/
def releaseDie (s : State) : State :=
  let s := { s with clk := { s.clk with base := 0, panTime := 0, steppedAt := s.now, steppedBy := 0, origin := refEdge s.clk.ref },
                    tide := { s.tide with lastNow := s.now, lastRef := s.ref, lastAt := 0 },
                    start := { s.start with boot := .dieUp, warden := .booting, restartAt := s.ref, restartImage := false },
                    power := { s.power with vdd := 800, lastDisplay := s.ref, lastTouch := s.ref, lastHost := s.ref,
                                            lastIngest := s.ref } }
  let s := { s with slots := { s.slots with started := 0 },
                    mem := { s.mem with scrub := { s.mem.scrub with lastFrame := 0 } } }
  if s.fences.ballLow then
    ballChange { s with fences := { s.fences with ballLow := false } } { s.fences with ballLow := true } (s.now + 7 * panT) s.pt
  else s

/-- PWR_GOOD: NVM and CALREF, the boot trim run, and the main die (R507 steps 1 to 3); the edge die reads VOUT_MODE, and VDD_CORE back
(R494). -/
def execPwrGood (calrefUv : Nat) (s : State) : Host.Outcome State Fault Refusal :=
  if s.start.boot = .porst then
    let s := pmbus (pmbus (loadNvm (releaseDie s)) 0x20 none) 0x8B none
    if s.clk.refclk = false then
      .next (raiseErr { s with trim := { s.trim with calrefUv := calrefUv } } 0x0001 0 0 0)
    else .next (startRun s s.trim.deltaC none calrefUv)
  else .next s

/-! ### Firmware (R508, R520, R510, R452) -/

/-- A region of whole pages that WARDEN alone reads and writes. -/
def wardenRegion (base pages : Nat) : Region := ⟨false, base, pages, 2 ^ idWarden, 2 ^ idWarden⟩

/-- Define and lock a region that is not locked yet. -/
def lockNew (d : Dyke) (n : Nat) (r : Region) : Dyke :=
  if d.locked.contains n then d
  else { d with force := tset d.force n r, staged := tset d.staged n r, locked := insertAsc d.locked n }

/-- Firmware defines and locks regions 254 and 255. -/
def bootRegions (d : Dyke) : Dyke :=
  lockNew (lockNew d 254 (wardenRegion 0xB3FD00 0x100)) 255 (wardenRegion 0xB3FE00 0x200)

/-- The verified image of a slot runs. -/
def runImage (s : State) (slot : Nat) (image : List Byte) : State :=
  { s with
    mem := { s.mem with dyke := bootRegions s.mem.dyke },
    start := { s.start with boot := if s.start.boot = .dieUp then .running else s.start.boot, slot := some slot, sram := image.take (2 ^ 21),
                            restartImage := decide (s.start.warden = .restarting ∨ s.start.warmCause ≠ 0) } }

/-- No image is verified: the warden halts with FW_NONE. HB_STATUS shows what it showed. -/
def haltWarden (s : State) : State :=
  let shown := s.start.warden
  let s := raiseErr { s with start := { s.start with boot := .halted, slot := none } } 0x0105 0 0 0
  { s with start := { s.start with warden := shown } }

/-- The boot ROM verifies a slot: at most 4 MiB, the key that hashes to the fused value, and the ECDSA P-384 signature (R398, R508;
notes/assumptions/143.md). -/
def slotVerified (f : FlashSlot) : Bool :=
  decide (f.image.length ≤ 2 ^ 22) && sha384 (beBytes 48 f.key.1 ++ beBytes 48 f.key.2) == Config.fusedKeyHash &&
    ecdsaP384 f.key f.sig (sha384 f.image)

/-- The verified image with the higher version word, slot 0's when they are equal, or the only one, with its slot. -/
def chosenImage (a b : FlashSlot) : Option (Nat × List Byte) :=
  match slotVerified a, slotVerified b with
  | true, true => some (if a.version < b.version then (1, b.image) else (0, a.image))
  | true, false => some (0, a.image)
  | false, true => some (1, b.image)
  | false, false => none

/-- FW_IMAGE_BAD for a slot that fails verification. -/
def imageBad (s : State) (n : Nat) (f : FlashSlot) : State := if slotVerified f then s else raiseErr s 0x0104 n f.version 0

/-- FIRMWARE_BOOT: the boot ROM ends at power-up, at warm reset or in a warden restart. -/
def execFirmwareBoot (a b : FlashSlot) (s : State) : Host.Outcome State Fault Refusal :=
  let restart := decide (s.start.warden = .restarting) && released s && !s.start.restartImage
  if s.start.boot = .halted ∨ (s.start.boot ≠ .dieUp ∧ restart = false) then .next s
  else match chosenImage a b with
    | none => .next (haltWarden s)
    | some (n, image) => .next (runImage (imageBad (imageBad s 0 a) 1 b) n image)

/-- MEMORY_TRAINING_DONE: memory is trained once after PORST_N (R509), and restored after a warm reset (R512). -/
def execMemoryTrainingDone (failed : List Nat) (s : State) : Host.Outcome State Fault Refusal :=
  if s.start.boot ≠ .running then .next s
  else if s.start.trained then .next { s with start := { s.start with boot := .memory } }
  else
    let l := (failed.filter (fun c => decide (c < 32))).foldl insertAsc []
    let s := l.foldl (fun s c => raiseErr s 0x0106 c 3 0) s
    .next { s with start := { s.start with boot := .memory, trained := true, failedChans := l } }

/-! ### The bed at start-up (R510) -/

/-- DEFAULT_BED_BAD with its source and the refusal block of R450. -/
def defaultBedBad (s : State) (source : Nat) (f : BedFault) : State :=
  raiseErr s 0x0107 source (f.step + 256 * f.check + 65536 * f.sec) f.off

/-- The bytes of the retained bed. -/
def readRetained (s : State) : Option (List Byte) × State :=
  match s.cfg.retained with
  | none => (none, s)
  | some n =>
    let (l, _, s) := wardenRead s retainedBase n
    (some l, s)

/-- The first source whose image passes BED_LOAD's checks, of those given with their numbers. -/
def firstBed : List (Nat × List Byte) → State → State
  | [], s => s
  | (k, l) :: r, s => match checkBed s l l.length with
    | .ok (b, s) => acceptBed s b
    | .error (f, s) => firstBed r (defaultBedBad s k f)

/-- Step 8 of the start-up; a channel that failed training keeps the heads dark (R509). -/
def startBed (flash : Option (List Byte)) (s : State) : State :=
  if s.start.failedChans ≠ [] then s
  else
    let (kept, s) := readRetained s
    firstBed ((kept.elim [] (fun l => [(1, l)])) ++ flash.elim [] (fun l => [(2, l)])) s

/-- WARDEN_READY: HB_STATUS shows READY; after a reset the bed at start-up is loaded. -/
def execWardenReady (flash : Option (List Byte)) (s : State) : Host.Outcome State Fault Refusal :=
  let first := decide (s.start.boot = .memory)
  if (s.start.warden = .booting ∨ s.start.restartImage = true) ∧ s.start.warden ≠ .ready ∧ (first = true ∨ s.start.boot = .up) then
    let s := flushHeld { s with start := { s.start with boot := .up, warden := .ready, restartImage := false } }
    .next (if first then startBed flash s else s)
  else .next s

/-! ### Warm reset (R511, R512) -/

/-- The rules of the locked regions. -/
def lockedRules (d : Dyke) : Tab Region := d.force.filter (fun e => d.locked.contains e.1)

/-- No tide of the new count is that of an older record. -/
def pastTide : Nat := 2 ^ 64

/-- What memory keeps: contents, locked regions with their rules, the fault log. -/
def warmMem (m : Mem) : Mem :=
  { ({} : Mem) with
    cells := m.cells, upset := m.upset,
    dyke := { ({} : Dyke) with force := lockedRules m.dyke, staged := lockedRules m.dyke, locked := m.dyke.locked,
                               log := m.dyke.log.map (fun r => { r with old := true }) } }

/-- What the power groups keep: the budgets, and the state when it is left by this reset. -/
def warmPower (p : Power) (cause : Nat) : Power :=
  let deep := decide (cause = 2)
  { ({} : Power) with budgets := p.budgets, wakeReason := p.wakeReason, state := if deep then p.state else 0,
                      waking := deep && p.waking, resume := true }

/-- What a mailbox shows after a warm reset: the completion that the restart wrote (R400), and no abandoned command (R406;
notes/assumptions/144.md). -/
def warmMailbox (m : Mailbox) : Mailbox := { m with abCode := 0, abStatus := 0, abSeq := 0 }

/-- The main die in reset, with what R511 keeps. The events that firmware owes stay owed (R400). -/
def warmState (s : State) (cause : Nat) : State :=
  { powerOff s with
    clk := { s.clk with base := 0, panTime := 0, freqWord := 0, freqTarget := 0 },
    mem := warmMem s.mem, mailboxes := tmap (fun _ => warmMailbox) s.mailboxes, evr := { ({} : EventRing) with held := s.evr.held },
    ctxs := (tmap (fun _ => unopened) s.ctxs).filter (fun e => e.2 != {}),
    cfg := { ({} : Config) with retained := s.cfg.retained, skims := s.cfg.skims },
    errs := s.errs.map (fun r => { r with tide := pastTide }), errNext := s.errNext, errOverflow := s.errOverflow,
    desks := tmap (fun _ (d : Desk) => { d with routes := [] }) s.desks, touchIx := s.touchIx,
    trim := s.trim, power := warmPower s.power cause,
    start := { s.start with boot := .warm, safe := false, warden := .restarting, restartImage := false, warmCause := cause, slot := none,
                            handling := none } }

/-- WARM_RESET: the debug session ends, the warden restarts, which ends the sessions, the pending approvals and the commands in
progress (R400), and the main die enters reset. -/
def beginWarm (s : State) (cause : Nat) : State :=
  let s := match s.debug with
    | .opened o _ _ => endDebug s o
    | _ => s
  releaseDeferred (warmState (restartWarden s) cause) (fun r => r.item == 4)

/-- The power state DEEP is being left. -/
def leavingDeep (s : State) : Bool := decide (s.start.boot = .warm) && s.power.waking && s.power.state == 3

/-- The restart watchdog is due: an image runs in a restart, and READY has not come for 1,200 ms. -/
def restartLate (s : State) : Bool :=
  s.start.restartImage && decide (s.start.warden ≠ .ready) && decide (s.start.restartAt + 1200 * msT ≤ s.ref)

/-- WARM_RESET with its cause: 1 WARM_N, ignored while PORST_N is low; 2 the exit of DEEP; 3 the restart watchdog. -/
def execWarmReset (cause : Nat) (s : State) : Host.Outcome State Fault Refusal :=
  if s.start.boot = .porst then .next s
  else if cause = 1 ∨ (cause = 2 ∧ leavingDeep s = true) ∨ (cause = 3 ∧ restartLate s = true) then .next (beginWarm s cause)
  else .next s

/-- RESTART_WATCHDOG. -/
def execRestartWatchdog (s : State) : Host.Outcome State Fault Refusal :=
  if restartLate s then .next (beginWarm s 3) else .next s

/-- SAFE state is entered again at once when REFCLK is absent or the junction is at 125 °C or above (R521). -/
def safeAgain (s : State) : Bool := !s.clk.refclk || s.start.junction.elim false (fun t => decide (125 * 16 ≤ t))

/-- WARM_RESET_RELEASE: the main die restarts from step 3 of R507, and the reset is logged with its cause. SAFE state has ended
with the reset. -/
def execWarmResetRelease (s : State) : Host.Outcome State Fault Refusal :=
  if s.start.boot ≠ .warm ∨ (s.start.warmCause = 2 ∧ s.power.state = 3 ∧ s.power.waking = false) then .next s
  else
    let s := releaseDie { s with start := { s.start with safe := false }, fences := { s.fences with safe := false } }
    let s := raiseErr s 0x0108 s.start.warmCause 0 0
    .next (if safeAgain s then enterSafe s else s)

/-! ### Reference inputs (R14, R522) -/

/-- REFCLK_LOST: SAFE state, the ring oscillator, and the end of a trim run. -/
def execRefclkLost (s : State) : Host.Outcome State Fault Refusal :=
  if s.clk.refclk = false then .next s
  else if s.start.boot = .porst then .next { s with clk := { s.clk with refclk := false, aonRing := true } }
  else
    let run := s.trim.run
    let s := raiseErr { s with clk := { s.clk with refclk := false, aonRing := true }, trim := abandonTrim s.trim } 0x0001 0 0 0
    match run.bind (·.caller) with
    | some c => .next (finishRunning s c 0x0E01 stInternal [])
    | none => .next s

/-- The AON clock where it goes back to REFCLK: on an edge of it, in phase with REFCLK again (R12, R522). -/
def alignAon (k : Clocks) : Nat :=
  let p := aonT * one40
  k.aon + (k.ref % p + p - k.aon % p) % p

/-- REFCLK_RETURN: REFCLK has been present for `us` µs; AON switches back to it after 1 ms (R522). -/
def execRefclkReturn (us : Nat) (s : State) : Host.Outcome State Fault Refusal :=
  if s.clk.refclk || decide (us < 1000) then .next s
  else .next { s with clk := { s.clk with
    refclk := true, aonRing := false, refclkSince := s.ref - us * usT, aon := alignAon s.clk } }

/-- LREF_A_LOST: every Ethernet port goes link-down. -/
def execLrefALost (s : State) : Host.Outcome State Fault Refusal :=
  if released s && s.clk.lrefA then
    let s := raiseErr { s with clk := { s.clk with lrefA := false } } 0x0002 0 0 0
    .next { s with ports := tmap (fun _ (p : Port) => { p with link := false }) s.ports }
  else .next s

/-- LREF_B_LOST: both Welond links go to ABSENT. -/
def execLrefBLost (s : State) : Host.Outcome State Fault Refusal :=
  if released s && s.clk.lrefB then
    let s := raiseErr { s with clk := { s.clk with lrefB := false } } 0x0002 1 0 0
    .next ((List.range 2).foldl (fun s l => if (s.wel l).st = .disabled then s else enterAbsent s l 0) s)
  else .next s

/-! ### The host link (R405) -/

/-- A link-down or a function-level reset. -/
def hostLinkDown (s : State) : State :=
  let busy := (List.range 8).filter (fun n => (busyMailboxes s).contains n || !(s.mailbox n).waiting.isEmpty)
  let s := endSessions (abandonRunning s (fun _ => true)) (fun x => idleBinding busy x.binding) 4
  { s with hwbIdent := 0,
           mailboxes := tmap (fun _ (m : Mailbox) => { m with state := 0, waiting := m.waiting.map (fun e => (e.1, true)) }) s.mailboxes,
           evr := { s.evr with enable := false } }

/-- PCIE_LINK_DOWN. -/
def execPcieLinkDown (s : State) : Host.Outcome State Fault Refusal :=
  if hostUp s then .next (hostLinkDown s) else .next s

/-- PCIE_REFCLK_LOST. -/
def execPcieRefclkLost (s : State) : Host.Outcome State Fault Refusal :=
  if hostUp s then
    .next (hostLinkDown (raiseErr { s with clk := { s.clk with pcieRefclk := false } } 0x0003 0 0 0))
  else .next s

/-- PERST_N: the controller is reset, its MSI-X function with it, and starts anew with its clock (PRESUMED: PCI Express;
notes/assumptions/63.md). -/
def execPerstN (s : State) : Host.Outcome State Fault Refusal :=
  if released s then
    let s := hostLinkDown s
    .next { s with clk := { s.clk with pcieRefclk := true },
                   irq := { s.irq with entryMask := 0xFFFFFFFF#32, funcMask := false, pba := 0#32, table := [] } }
  else .next s

/-! ### Faults (R516, R517, R524, R525) -/

/-- THERMAL_CHECK, every 1 ms: the readings of the 20 sensors in 1/16 °C; the highest acts. -/
def execThermalCheck (readings : List Int) (s : State) : Host.Outcome State Fault Refusal :=
  if s.start.boot = .porst ∨ readings.length ≠ 20 ∨ s.start.checkedAt.elim false (fun t => decide (s.aon < t + msT)) = true then .next s
  else
    let (sixteenths, sensor) := hottest s readings
    let s := { s with start := { s.start with
      junction := some sixteenths, checkedAt := some s.aon, alertArmed := s.start.alertArmed || decide (sixteenths < 110 * 16) } }
    let a := unsigned 32 sixteenths
    let s := if s.start.alertArmed && decide (115 * 16 ≤ sixteenths) then
        raiseErr { s with start := { s.start with alertArmed := false } } 0x0103 sensor a 0
      else s
    .next (if 125 * 16 ≤ sixteenths then raiseErr s 0x0102 sensor a 0 else s)

/-- WATCHDOG: a core has left the hardware watchdog unserviced for `ms` ms, 100 of which are an error. -/
def execWatchdog (core : Fin 4) (ms : Nat) (s : State) : Host.Outcome State Fault Refusal :=
  if released s && decide (100 ≤ ms) then .next (raiseErr s 0x0101 core.val 0 0) else .next s

/-- FABRIC_PARITY: a parity error at an access of a master. -/
def execFabricParity (identity : Nat) (addr : Nat) (s : State) : Host.Outcome State Fault Refusal :=
  if released s then .next (raiseErr s 0x0109 identity addr (addr / 2 ^ 32)) else .next s

/-- FATAL_HANDLING: firmware has completed its action for the FATAL record. -/
def execFatalHandling (s : State) : Host.Outcome State Fault Refusal :=
  if s.start.warden = .ready then .next { s with start := { s.start with handling := none } } else .next s

/-! ### Entry to a power state (R497, R498) -/

/-- The device may rest, and its target lies below its state. -/
def restReady (s : State) : Bool :=
  decide (s.start.boot = .up) && decide (s.start.warden = .ready) && !s.start.safe && !s.power.waking &&
    decide (s.power.state < powerTarget s.power.budgets) && restDue s (powerTarget s.power.budgets)

/-- REST_TIMEOUT: entry to the target; in DEEP the main die is gated, and it comes back as after a warm reset. -/
def execRestTimeout (s : State) : Host.Outcome State Fault Refusal :=
  if restReady s then
    let k := powerTarget s.power.budgets
    let s := enterPower s k
    .next (if k = 3 then beginWarm s 2 else s)
  else .next s

end Sys2Proof.Machine
end

