-- ==== Sys2Proof/Machine/Dispatch.lean ====
section
/-! DEFINITION. One arm per command: its meaning. -/

namespace Sys2Proof.Machine

def exec (i : Instr) (s : State) : Host.Outcome State Fault Refusal :=
  match i with
  | .hello c p => Sys2Proof.Machine.execHello c p s
  | .prove c p => Sys2Proof.Machine.execProve c p s
  | .close c => Sys2Proof.Machine.execClose c s
  | .roleQuery c => Sys2Proof.Machine.execRoleQuery c s
  | .bedLoad c p => Sys2Proof.Machine.execBedLoad c p s
  | .skimStore c p => Sys2Proof.Machine.execSkimStore c p s
  | .skimApply c p => Sys2Proof.Machine.execSkimApply c p s
  | .skimApprove c p => Sys2Proof.Machine.execSkimApprove c p s
  | .configQuery c p => Sys2Proof.Machine.execConfigQuery c p s
  | .headSetTiming c p => Sys2Proof.Machine.execHeadSetTiming c p s
  | .headCommit c heads => Sys2Proof.Machine.execHeadCommit c heads s
  | .headTwin c p => Sys2Proof.Machine.execHeadTwin c p s
  | .headStateQuery c head => Sys2Proof.Machine.execHeadStateQuery c head s
  | .headEnable c p => Sys2Proof.Machine.execHeadEnable c p s
  | .windowDefine c p => Sys2Proof.Machine.execWindowDefine c p s
  | .layerSet c p => Sys2Proof.Machine.execLayerSet c p s
  | .layerAddress c p => Sys2Proof.Machine.execLayerAddress c p s
  | .zorderSet c p => Sys2Proof.Machine.execZorderSet c p s
  | .freshnessSet c p => Sys2Proof.Machine.execFreshnessSet c p s
  | .verdictQuery c window => Sys2Proof.Machine.execVerdictQuery c window s
  | .contextOpen c p => Sys2Proof.Machine.execContextOpen c p s
  | .contextClose c context => Sys2Proof.Machine.execContextClose c context s
  | .flowBind c p => Sys2Proof.Machine.execFlowBind c p s
  | .sourceIsolate c p => Sys2Proof.Machine.execSourceIsolate c p s
  | .contextStats c context => Sys2Proof.Machine.execContextStats c context s
  | .sluiceSet c p => Sys2Proof.Machine.execSluiceSet c p s
  | .decodeAttach c p => Sys2Proof.Machine.execDecodeAttach c p s
  | .decodePriority c p => Sys2Proof.Machine.execDecodePriority c p s
  | .decodeStats c context => Sys2Proof.Machine.execDecodeStats c context s
  | .encodeOpen c p => Sys2Proof.Machine.execEncodeOpen c p s
  | .encodeRate c p => Sys2Proof.Machine.execEncodeRate c p s
  | .encodeClose c enc => Sys2Proof.Machine.execEncodeClose c enc s
  | .crysJob c p => Sys2Proof.Machine.execCrysJob c p s
  | .crysResume c p => Sys2Proof.Machine.execCrysResume c p s
  | .crysFlush c p => Sys2Proof.Machine.execCrysFlush c p s
  | .checkBind c p => Sys2Proof.Machine.execCheckBind c p s
  | .sealRegion c p => Sys2Proof.Machine.execSealRegion c p s
  | .checkStats c channel => Sys2Proof.Machine.execCheckStats c channel s
  | .timeSetProfile c p => Sys2Proof.Machine.execTimeSetProfile c p s
  | .pulseSet c p => Sys2Proof.Machine.execPulseSet c p s
  | .timeQuery c => Sys2Proof.Machine.execTimeQuery c s
  | .tideSet c p => Sys2Proof.Machine.execTideSet c p s
  | .linkState c p => Sys2Proof.Machine.execLinkState c p s
  | .eyeScan c p => Sys2Proof.Machine.execEyeScan c p s
  | .eqTableQuery c p => Sys2Proof.Machine.execEqTableQuery c p s
  | .dykeRule c p => Sys2Proof.Machine.execDykeRule c p s
  | .dykeSync c => Sys2Proof.Machine.execDykeSync c s
  | .dykeLock c region => Sys2Proof.Machine.execDykeLock c region s
  | .memErrQuery c p => Sys2Proof.Machine.execMemErrQuery c p s
  | .scrubSet c p => Sys2Proof.Machine.execScrubSet c p s
  | .touchConfig c p => Sys2Proof.Machine.execTouchConfig c p s
  | .touchRebase c p => Sys2Proof.Machine.execTouchRebase c p s
  | .touchRoute c p => Sys2Proof.Machine.execTouchRoute c p s
  | .trimRun c p => Sys2Proof.Machine.execTrimRun c p s
  | .trimQuery c p => Sys2Proof.Machine.execTrimQuery c p s
  | .wakeBudget c p => Sys2Proof.Machine.execWakeBudget c p s
  | .powerQuery c => Sys2Proof.Machine.execPowerQuery c s
  | .errRead c p => Sys2Proof.Machine.execErrRead c p s
  | .errAck c p => Sys2Proof.Machine.execErrAck c p s
  | .fence c p => Sys2Proof.Machine.execFence c p s
  | .debugUnlock c p => Sys2Proof.Machine.execDebugUnlock c p s
  | .swFence value => Sys2Proof.Machine.execSwFence value s
  | .swRelease value => Sys2Proof.Machine.execSwRelease value s
  | .mailboxGo n value => Sys2Proof.Machine.execMailboxGo n value s
  | .mailboxAck n value => Sys2Proof.Machine.execMailboxAck n value s
  | .irqStatusClear value => Sys2Proof.Machine.execIrqStatusClear value s
  | .irqMaskWrite value => Sys2Proof.Machine.execIrqMaskWrite value s
  | .msixUnmask entries function => Sys2Proof.Machine.execMsixUnmask entries function s
  | .hwbBaseWrite value => Sys2Proof.Machine.execHwbBaseWrite value s
  | .hwbAccess offset op => Sys2Proof.Machine.execHwbAccess offset op s
  | .evrEnableWrite value => Sys2Proof.Machine.execEvrEnableWrite value s
  | .evrConsWrite value => Sys2Proof.Machine.execEvrConsWrite value s
  | .tideCountLowRead wide => Sys2Proof.Machine.execTideCountLowRead wide s
  | .timeNsRead => Sys2Proof.Machine.execTimeNsRead s
  | .registerWrite space offset value => Sys2Proof.Machine.execRegisterWrite space offset value s
  | .debugProbeToken token => Sys2Proof.Machine.execDebugProbeToken token s
  | .debugAccess addr op => Sys2Proof.Machine.execDebugAccess addr op s
  | .keyProgram slot key => Sys2Proof.Machine.execKeyProgram slot key s
  | .sluiceDatagram port src uport frameLen payload => Sys2Proof.Machine.execSluiceDatagram port src uport frameLen payload s
  | .tide => Sys2Proof.Machine.execTide s
  | .headFlip h => Sys2Proof.Machine.execHeadFlip h s
  | .headLatchEdge h => Sys2Proof.Machine.execHeadLatchEdge h s
  | .frontPorchEnd h => Sys2Proof.Machine.execFrontPorchEnd h s
  | .vrrLineBoundary h => Sys2Proof.Machine.execVrrLineBoundary h s
  | .waitTimeout h => Sys2Proof.Machine.execWaitTimeout h s
  | .takePoint h poisoned => Sys2Proof.Machine.execTakePoint h poisoned s
  | .groupCompose p => Sys2Proof.Machine.execGroupCompose p s
  | .spanEvaluate h layer line a b c => Sys2Proof.Machine.execSpanEvaluate h layer line a b c s
  | .salinityPass p faults => Sys2Proof.Machine.execSalinityPass p faults s
  | .stateCopyComplete p ch => Sys2Proof.Machine.execStateCopyComplete p ch s
  | .gaugeReload p => Sys2Proof.Machine.execGaugeReload p s
  | .fenceNCapture => Sys2Proof.Machine.execFenceNCapture s
  | .fenceNRelease => Sys2Proof.Machine.execFenceNRelease s
  | .sealCompare h r fault => Sys2Proof.Machine.execSealCompare h r fault s
  | .hpdPresent h samples sink => Sys2Proof.Machine.execHpdPresent h samples sink s
  | .hpdUnplug h samples => Sys2Proof.Machine.execHpdUnplug h samples s
  | .irqHpd h samples lockLost => Sys2Proof.Machine.execIrqHpd h samples lockLost s
  | .dpLinkLockLoss h => Sys2Proof.Machine.execDpLinkLockLoss h s
  | .auxTimeout h transaction defer => Sys2Proof.Machine.execAuxTimeout h transaction defer s
  | .linkTrainingDone h ok reqs => Sys2Proof.Machine.execLinkTrainingDone h ok reqs s
  | .trainingTimeout h => Sys2Proof.Machine.execTrainingTimeout h s
  | .memoryRequest r => Sys2Proof.Machine.execMemoryRequest r s
  | .slotPosition => Sys2Proof.Machine.execSlotPosition s
  | .memoryAccessComplete errs parity => Sys2Proof.Machine.execMemoryAccessComplete errs parity s
  | .scrubPacingRead errs => Sys2Proof.Machine.execScrubPacingRead errs s
  | .dykeSyncComplete => Sys2Proof.Machine.execDykeSyncComplete s
  | .ethFrameReceive port f => Sys2Proof.Machine.execEthFrameReceive port f s
  | .ethLinkChange port up => Sys2Proof.Machine.execEthLinkChange port up s
  | .mgmtFrame port f => Sys2Proof.Machine.execMgmtFrame port f s
  | .mediaPacketProcess eth => Sys2Proof.Machine.execMediaPacketProcess eth s
  | .frameTimeout ctx => Sys2Proof.Machine.execFrameTimeout ctx s
  | .dgsTileDecode ctx tile => Sys2Proof.Machine.execDgsTileDecode ctx tile s
  | .fillCopy ctx => Sys2Proof.Machine.execFillCopy ctx s
  | .bufferComplete ctx => Sys2Proof.Machine.execBufferComplete ctx s
  | .checkCompareEnd ctx => Sys2Proof.Machine.execCheckCompareEnd ctx s
  | .detectorComplete ctx => Sys2Proof.Machine.execDetectorComplete ctx s
  | .decodePictureStart e head => Sys2Proof.Machine.execDecodePictureStart e head s
  | .decodePictureEnd e => Sys2Proof.Machine.execDecodePictureEnd e s
  | .pictureOutput ctx => Sys2Proof.Machine.execPictureOutput ctx s
  | .decodeLagDiscard ctx => Sys2Proof.Machine.execDecodeLagDiscard ctx s
  | .encodeFrameDue e => Sys2Proof.Machine.execEncodeFrameDue e s
  | .encodeLineComplete e => Sys2Proof.Machine.execEncodeLineComplete e s
  | .encodeFrameStart e => Sys2Proof.Machine.execEncodeFrameStart e s
  | .slicePublish e c => Sys2Proof.Machine.execSlicePublish e c s
  | .rtpTransmit e => Sys2Proof.Machine.execRtpTransmit e s
  | .crysJobStart => Sys2Proof.Machine.execCrysJobStart s
  | .crysDone lane => Sys2Proof.Machine.execCrysDone lane s
  | .eyeDone kind lane counts => Sys2Proof.Machine.execEyeDone kind lane counts s
  | .ptpReceive port m word => Sys2Proof.Machine.execPtpReceive port m word s
  | .ptpSyncTransmit port => Sys2Proof.Machine.execPtpSyncTransmit port s
  | .ptpAnnounceTransmit port => Sys2Proof.Machine.execPtpAnnounceTransmit port s
  | .ptpDelayReqTransmit port => Sys2Proof.Machine.execPtpDelayReqTransmit port s
  | .sourceLost => Sys2Proof.Machine.execSourceLost s
  | .ppsEdge rising word => Sys2Proof.Machine.execPpsEdge rising word s
  | .tenMhzGate measured word => Sys2Proof.Machine.execTenMhzGate measured word s
  | .pulseEdge p => Sys2Proof.Machine.execPulseEdge p s
  | .evtInEdge k rising => Sys2Proof.Machine.execEvtInEdge k rising s
  | .welondDetect l sensing => Sys2Proof.Machine.execWelondDetect l sensing s
  | .welondLock l lane bits => Sys2Proof.Machine.execWelondLock l lane bits s
  | .welondAttemptTimeout l => Sys2Proof.Machine.execWelondAttemptTimeout l s
  | .welondRetry l sensing => Sys2Proof.Machine.execWelondRetry l sensing s
  | .welondTerminationLost l => Sys2Proof.Machine.execWelondTerminationLost l s
  | .capabilitySend l => Sys2Proof.Machine.execCapabilitySend l s
  | .capabilityReceive l blocks => Sys2Proof.Machine.execCapabilityReceive l blocks s
  | .welondLaneLockLoss l lane bits => Sys2Proof.Machine.execWelondLaneLockLoss l lane bits s
  | .widthBlockReceive l lane bits => Sys2Proof.Machine.execWidthBlockReceive l lane bits s
  | .laneRetrain l lane bits => Sys2Proof.Machine.execLaneRetrain l lane bits s
  | .mirrorSetReceive l blocks held => Sys2Proof.Machine.execMirrorSetReceive l blocks held s
  | .mirrorRequest l blocks a => Sys2Proof.Machine.execMirrorRequest l blocks a s
  | .mirrorBufferSend l context => Sys2Proof.Machine.execMirrorBufferSend l context s
  | .mirrorPacketReceive l p => Sys2Proof.Machine.execMirrorPacketReceive l p s
  | .fenceBlockReceive l lane bits => Sys2Proof.Machine.execFenceBlockReceive l lane bits s
  | .fenceBlockPeriodic l => Sys2Proof.Machine.execFenceBlockPeriodic l s
  | .tideMessageReceive l blocks count depart echo => Sys2Proof.Machine.execTideMessageReceive l blocks count depart echo s
  | .skimMessageReceive l blocks m => Sys2Proof.Machine.execSkimMessageReceive l blocks m s
  | .touchPacketReceive l blocks => Sys2Proof.Machine.execTouchPacketReceive l blocks s
  | .touchFrame desk readings noise => Sys2Proof.Machine.execTouchFrame desk readings noise s
  | .baselineDone desk => Sys2Proof.Machine.execBaselineDone desk s
  | .negRebase desk node => Sys2Proof.Machine.execNegRebase desk node s
  | .thresholdUpdate desk => Sys2Proof.Machine.execThresholdUpdate desk s
  | .chargerNoiseEntry desk => Sys2Proof.Machine.execChargerNoiseEntry desk s
  | .chargerNoiseExit desk => Sys2Proof.Machine.execChargerNoiseExit desk s
  | .slowScanEntry desk => Sys2Proof.Machine.execSlowScanEntry desk s
  | .slowScanFrame desk readings => Sys2Proof.Machine.execSlowScanFrame desk readings s
  | .touchStuck desk contact => Sys2Proof.Machine.execTouchStuck desk contact s
  | .touchSaturated desk node => Sys2Proof.Machine.execTouchSaturated desk node s
  | .touchReport desk => Sys2Proof.Machine.execTouchReport desk s
  | .temperatureSample readings => Sys2Proof.Machine.execTemperatureSample readings s
  | .trimElementStep item index step => Sys2Proof.Machine.execTrimElementStep item index step s
  | .trimRunComplete => Sys2Proof.Machine.execTrimRunComplete s
  | .avsSample margins => Sys2Proof.Machine.execAvsSample margins s
  | .voutReadback ack microvolts => Sys2Proof.Machine.execVoutReadback ack microvolts s
  | .thermalCheck readings => Sys2Proof.Machine.execThermalCheck readings s
  | .restTimeout => Sys2Proof.Machine.execRestTimeout s
  | .wakeIn us => Sys2Proof.Machine.execWakeIn us s
  | .powerExitDone => Sys2Proof.Machine.execPowerExitDone s
  | .refclkLost => Sys2Proof.Machine.execRefclkLost s
  | .refclkReturn us => Sys2Proof.Machine.execRefclkReturn us s
  | .lrefALost => Sys2Proof.Machine.execLrefALost s
  | .lrefBLost => Sys2Proof.Machine.execLrefBLost s
  | .pcieRefclkLost => Sys2Proof.Machine.execPcieRefclkLost s
  | .pcieLinkDown => Sys2Proof.Machine.execPcieLinkDown s
  | .perstN => Sys2Proof.Machine.execPerstN s
  | .pwrGood calrefUv => Sys2Proof.Machine.execPwrGood calrefUv s
  | .porstNAssert => Sys2Proof.Machine.execPorstNAssert s
  | .firmwareBoot slot0 slot1 => Sys2Proof.Machine.execFirmwareBoot slot0 slot1 s
  | .memoryTrainingDone failed => Sys2Proof.Machine.execMemoryTrainingDone failed s
  | .wardenReady flash => Sys2Proof.Machine.execWardenReady flash s
  | .warmReset cause => Sys2Proof.Machine.execWarmReset cause s
  | .warmResetRelease => Sys2Proof.Machine.execWarmResetRelease s
  | .restartWatchdog => Sys2Proof.Machine.execRestartWatchdog s
  | .watchdog core ms => Sys2Proof.Machine.execWatchdog core ms s
  | .fabricParity identity addr => Sys2Proof.Machine.execFabricParity identity addr s
  | .fatalHandling => Sys2Proof.Machine.execFatalHandling s
  | .halfOpenExpiry slot => Sys2Proof.Machine.execHalfOpenExpiry slot s
  | .sessionIdleTimeout slot => Sys2Proof.Machine.execSessionIdleTimeout slot s
  | .approvalExpiry skim => Sys2Proof.Machine.execApprovalExpiry skim s
  | .debugTokenExpiry => Sys2Proof.Machine.execDebugTokenExpiry s
  | .debugSessionExpiry => Sys2Proof.Machine.execDebugSessionExpiry s
  | .pictureAbandoned e => Sys2Proof.Machine.execPictureAbandoned e s
  | .encodeFrameAbandoned e => Sys2Proof.Machine.execEncodeFrameAbandoned e s
  | .receiverAdapted l lanes => Sys2Proof.Machine.execReceiverAdapted l lanes s
  | .narrowingTimeout l => Sys2Proof.Machine.execNarrowingTimeout l s

end Sys2Proof.Machine
end

