-- ==== Sys2Proof/Safety.lean ====
section
/-! DEFINITION. The terms of the statements: when a command reaches the warden, when it is admitted, and what state it then
runs on (spec/15 R405 to R417, spec/16 R429). -/

namespace Sys2Proof.Safety

open Sys2Proof.Machine

/-- The record of `c` reaches the warden: over an idle mailbox, none of whose earlier
commands runs or waits, while the host link works, or as a datagram while the
session's previous command no longer runs; in both cases the main die is out of reset and HB_STATUS shows READY. -/
def Received (c : Caller) (s : State) : Prop :=
  match c.via with
  | .mailbox n => hostUp s = true ∧ (s.mailbox n.val).state = 0 ∧ mailboxBusy s n.val = false ∧ s.start.warden = .ready
  | .sluice .. => released s = true ∧ s.start.warden = .ready ∧ stillRunning s c = false
  | .image _ => False

/-- The state after the arrival of the record, which wakes the device (R499). -/
def arrived (c : Caller) (s : State) : State :=
  noteHost s (match c.via with
    | .mailbox _ => 2
    | _ => 3)

/-- Rows 2, 4 and 6 of R429 pass: the open session `x` is bound to the transport, the sequence number is new, the role reaches,
and the device memory that the command needs does not rest. -/
def Admitted (c : Caller) (code : Nat) (s : State) (x : Session) : Prop :=
  Received c s ∧ openSession (arrived c s) c = some x ∧ x.lastSeq < c.seq ∧
    baseRole code ≤ roleOfKey (noteCode (acceptSeq (arrived c s) c x []) code) x.keySlot ∧
    needsResting (noteCode (acceptSeq (arrived c s) c x []) code) code = false

/-- The command with code `code` runs on state `a`, and a response is tagged with `key`: a record of an image runs on the state
as it is, under the role recorded with it; a record of a transport runs after its session has accepted it. -/
def Runs (c : Caller) (code : Nat) (s : State) (key : List Byte) (a : State) : Prop :=
  match c.via with
  | .image r => baseRole code ≤ r ∧ a = s
  | _ => ∃ x, Admitted c code s x ∧ key = x.key ∧ a = noteCode (acceptSeq (arrived c s) c x []) code

/-- What the host sees of a command that has run: its reply on the transport, over the state that it leaves. -/
def done (c : Caller) (code : Nat) (key : List Byte) (r : Reply) : State := completeAccepted c code (some key) r

end Sys2Proof.Safety
end

