-- ==== Sys2Proof/Certificates/Slice0/Obligations.lean ====
section
/-! DEFINITION. The statements about the model, each formalising rules of spec/. -/

open Sys2Proof Sys2Proof.Machine Sys2Proof.Safety

/-- A step runs the command at the front of the queue. For every command c, queue rest and state s, step at s with the
queue c :: rest is exec c at s with the queue rest. Model choice: notes/assumptions/1.md. (spec/00_scope.md). -/
def Obligations.StepRunsFrontCommand : Prop :=
  ∀ (c : Instr) (rest : List Instr) (s : State),
      step { s with pending := c :: rest } = exec c { s with pending := rest }

/-- On an empty queue one PAN cycle passes. For every state whose queue is empty, step answers a next state in which
the main die's clock is 20 ticks (one PAN cycle) later and whose queue is still empty. Model choice:
notes/assumptions/1.md. (spec/00_scope.md, spec/01_tide_and_clocks.md). -/
def Obligations.EmptyQueueLetsOnePanCyclePass : Prop :=
  ∀ s : State, s.pending = [] → ∃ t, step s = .next t ∧ t.now = s.now + panT ∧ t.pending = []

/-- Memory is in canonical form at reset. The memory bytes of State.reset are in canonical form, and its queue is
empty. (spec/14_memory_dyke.md). -/
def Obligations.ResetMemoryIsCanonical : Prop :=
  Memory.wf State.reset.mem.cells = true ∧ State.reset.pending = []

/-- Every step keeps the memory bytes in canonical form. From every state whose memory bytes are in canonical form
(addresses strictly rising, no zero byte listed), a step that answers a next state leaves them in canonical form.
(spec/14_memory_dyke.md). -/
def Obligations.EveryStepKeepsMemoryCanonical : Prop :=
  ∀ s t : State, Memory.wf s.mem.cells = true → step s = .next t → Memory.wf t.mem.cells = true

/-- A command leaves the queue and the clock alone and takes no output back. For every command and state whose memory
is in canonical form, the next state has the same waiting commands and the same time on the main die's clock, and
every output that had left the block before is still recorded, in order. (spec/00_scope.md). -/
def Obligations.CommandsKeepQueueTimeAndOutputs : Prop :=
  ∀ (c : Instr) (s t : State), Memory.wf s.mem.cells = true → exec c s = .next t →
      t.pending = s.pending ∧ t.now = s.now ∧ s.out <:+ t.out

/-- A programmed key slot keeps its key. From every state with canonical memory, a step that answers a next state
leaves every key that a key slot holds as it is: a key slot is programmed once. (spec/15_warden.md). -/
def Obligations.ProgrammedKeysNeverChange : Prop :=
  ∀ (s t : State) (k : Nat) (x : List Byte), Memory.wf s.mem.cells = true → step s = .next t →
      (s.keySlot k).key = some x → (t.keySlot k).key = some x

/-- A locked region stays locked and keeps its rule until PORST_N. For every command but PORST_N_ASSERT, and every
state with canonical memory, a next state still has every locked region locked, with the rule in force that it had.
(spec/14_memory_dyke.md). -/
def Obligations.LockedRegionsStayLocked : Prop :=
  ∀ (c : Instr) (s t : State) (n : Nat) (r : Region), c ≠ .porstNAssert → Memory.wf s.mem.cells = true →
      exec c s = .next t → n ∈ s.mem.dyke.locked → tfind s.mem.dyke.force n = some r →
      n ∈ t.mem.dyke.locked ∧ tfind t.mem.dyke.force n = some r

/-- A byte written reads back, and every other byte reads as before. For memory bytes in canonical form, writing a
byte makes its address read as that byte and leaves every other address reading as before. (spec/14_memory_dyke.md).
-/
def Obligations.OneByteWriteReadsBack : Prop :=
  ∀ (m : List Host.Cell) (a b : Nat) (v : Byte), Memory.wf m = true →
      readCell (writeCell m a v) a = v ∧ (b ≠ a → readCell (writeCell m a v) b = readCell m b)

/-- HELLO takes a slot and draws a nonce; PROVE opens the session. HELLO that reaches the warden, on a transport
without a session of its own (for a mailbox), with a free slot and a programmed key slot that does not back off,
leaves the slot half-open with the client's and a drawn nonce and answers with the slot and the nonce. PROVE within 1
s with the right proof opens the session with its key, and answers the device's proof, the role and IDLE_S.
(spec/15_warden.md, spec/16_commands.md). -/
def Obligations.SessionsOpenWithHelloAndProve : Prop :=
  (∀ (c : Caller) (p : HelloP) (s : State) (b : Binding) (n : Nat), Received c s →
        let a := arrived c s
        let nd := (a.drawBytes 16).1
        bindingOf c.via = some b → (isMailbox c.via = true → boundTo a b = false) →
        (isMailbox c.via = false → s.running.length < 16) →
        tfree a.sessions (slotLimit a c.via) = some n → p.keySlot ≤ 7 → (a.keySlot p.keySlot).until_ ≤ a.ref →
        (a.keySlot p.keySlot).key ≠ none →
        exec (.hello c p) s = .next (complete c 0x0101 none (ok
          ((a.drawBytes 16).2.setSession n { isOpen := false, keySlot := p.keySlot, binding := b, nc := slice p.nc 0 16,
                                             nd := nd, at_ := a.ref })
          ([byte n, 0#8, 0#8, 0#8] ++ nd)))) ∧
      (∀ (c : Caller) (p : ProveP) (s : State) (x : Session) (k : List Byte), Received c s →
        let a := arrived c s
        tfind a.sessions c.slot = some x → x.isOpen = false → some x.binding = bindingOf c.via → a.ref < x.at_ + secT →
        (a.keySlot x.keySlot).key = some k → p.proof = proofOf k x.nc x.nd c.slot x.keySlot →
        (p.claimHwb = true → isMailbox c.via = true ∧ a.hwbIdent = 0) → (isMailbox c.via = false → s.running.length < 16) →
        exec (.prove c p) s = .next (complete c 0x0102 none (ok (openSlot a c.slot x k p.claimHwb)
            (proveResponse a c.slot x k))) ∧
          (openSlot a c.slot x k p.claimHwb).hwbIdent = (if p.claimHwb then 1 + c.slot else a.hwbIdent))

/-- CLOSE, ROLE_QUERY and the expiries of slots and approvals. CLOSE frees its session's slot with reason 1.
ROLE_QUERY answers slot, key slot, role, transport, the mask of occupied slots, the last sequence number and the idle
time left, and changes nothing. A half-open slot ends 1 s after HELLO, an idle session after IDLE_S seconds, and
approvals of a skim 30 s after their creation. (spec/15_warden.md). -/
def Obligations.SessionsEndAndAnswer : Prop :=
  (∀ (c : Caller) (s a : State) (key : List Byte), Runs c 0x0103 s key a →
        exec (.close c) s = .next (done c 0x0103 key (ok (endSession a c.slot 1)))) ∧
      (∀ (c : Caller) (s a : State) (key : List Byte) (x : Session), Runs c 0x0104 s key a →
        tfind a.sessions c.slot = some x →
        exec (.roleQuery c) s = .next (done c 0x0104 key (ok a
          ([byte (c.slot % 8 + 8 * (x.keySlot % 8) + 64 * (roleOfKey a x.keySlot % 4)), byte (transportOf x.binding),
            byte (openMask a), 0#8] ++ leBytes 4 x.lastSeq ++ leBytes 2 (idleLeft a x) ++ zeros 2)))) ∧
      (∀ (n : Fin 8) (s : State) (x : Session), tfind s.sessions n.val = some x → x.isOpen = false → x.at_ + secT ≤ s.ref →
        exec (.halfOpenExpiry n) s = .next (endSession s n.val 1)) ∧
      (∀ (n : Fin 8) (s : State) (x : Session), tfind s.sessions n.val = some x → x.isOpen = true →
        x.at_ + s.cfg.idleS * secT ≤ s.ref → exec (.sessionIdleTimeout n) s = .next (endSession s n.val 2)) ∧
      (∀ (skim : Nat) (s : State), exec (.approvalExpiry skim) s =
        .next (dropApprovals s (fun a => a.skim == skim && decide (a.at_ + 30 * secT ≤ s.ref)) 2))

/-- DEBUG_UNLOCK, its token, the two expiries, debug accesses, and KEY_PROGRAM. While key slot 0 is programmed,
DEBUG_UNLOCK from a mailbox with OPEN = 1, the port closed and a duration of 60 to 86,400 s draws a token that the
probe must give within 60 s, and answers it; with OPEN = 0 it ends an open debug session. The right token opens the
debug session and logs DEBUG_STATE; the token lapses after 60 s, the session after DURATION_S seconds. Accesses under
the DEBUG identity go through the dyke (best-effort, the model's choice: notes/assumptions/110.md). KEY_PROGRAM writes
a key into a slot that holds none, while the port is open. (spec/15_warden.md, spec/16_commands.md,
spec/14_memory_dyke.md). -/
def Obligations.DebugPortOpensAndCloses : Prop :=
  (∀ (c : Caller) (p : DebugUnlockP) (s a : State) (key k : List Byte), Runs c 0x0F04 s key a → isMailbox c.via = true →
        (a.keySlot 0).key = some k → p.open_ = true → a.debug = .closed → 60 ≤ p.durationS → p.durationS ≤ 86400 →
        exec (.debugUnlock c p) s = .next (done c 0x0F04 key (ok
          { (a.drawBytes 16).2 with debug := .awaiting (leNat (a.drawBytes 16).1) c.slot p.durationS a.ref }
          (a.drawBytes 16).1))) ∧
      (∀ (c : Caller) (p : DebugUnlockP) (s a : State) (key k : List Byte) (o d : Nat) (u : Ticks), Runs c 0x0F04 s key a →
        isMailbox c.via = true → (a.keySlot 0).key = some k → p.open_ = false → p.durationS = 0 → a.debug = .opened o d u →
        exec (.debugUnlock c p) s = .next (done c 0x0F04 key (ok (endDebug a c.slot)))) ∧
      (∀ (token : BitVec 128) (s : State) (o d : Nat) (u : Ticks), s.debug = .awaiting token.toNat o d u →
        s.ref < u + 60 * secT →
        exec (.debugProbeToken token) s = .next (raiseErr { s with debug := .opened o d s.ref } 0x0082 o 1 d)) ∧
      (∀ (s : State) (t o d : Nat) (u : Ticks), s.debug = .awaiting t o d u → u + 60 * secT ≤ s.ref →
        exec .debugTokenExpiry s = .next { s with debug := .closed }) ∧
      (∀ (s : State) (o d : Nat) (u : Ticks), s.debug = .opened o d u → u + d * secT ≤ s.ref →
        exec .debugSessionExpiry s = .next (endDebug s 0xFF) ∧ (endDebug s 0xFF).debug = .closed) ∧
      (∀ (s : State) (addr : Nat) (l : List Byte), released s = true →
        let r := classStore s 0x3F 16 addr l .plain {}
        exec (.debugAccess addr (.write l)) s = .next (if r.1 then r.2.2 else r.2.2.emit (.acked 16 addr r.2.1))) ∧
      (∀ (s : State) (addr n : Nat), released s = true →
        exec (.debugAccess addr (.read n)) s = .next ((classPieces s 0x3F 16 addr n).1.foldl (fun t p =>
          t.emit (if p.denied then .denied 16 p.addr p.data else .burst 16 p.addr p.data p.poison))
          (classPieces s 0x3F 16 addr n).2)) ∧
      (∀ (n : Fin 8) (key : List Byte) (s : State), debugOpen s = true → (s.keySlot n.val).key = none →
        exec (.keyProgram n key) s =
          .next (s.setKeySlot n.val { s.keySlot n.val with key := some (slice key 0 32) }))

/-- DYKE_RULE stages, DYKE_SYNC brings into force, DYKE_LOCK locks. DYKE_RULE defines a region of the staged table, or
deletes a defined one, at the number that its REGION gives (0xFFFF: the lowest undefined one), and answers the number;
staging leaves the rules in force and the locks as they are. DYKE_SYNC and DYKE_LOCK start a sync of the staged table
and stay pending. At DYKE_SYNC_COMPLETE the oldest sync takes effect, and the command that asked for it completes,
DYKE_SYNC with the CORE cycles taken; one past its bound is undone instead. A sync that takes effect brings its rules
into force, but for locked regions, and locks the region of its DYKE_LOCK without DEBUG access.
(spec/14_memory_dyke.md). -/
def Obligations.DykeRulesAreStagedSyncedAndLocked : Prop :=
  (∀ (c : Caller) (p : DykeRuleP) (s a : State) (key : List Byte) (n : Nat), Runs c 0x0C01 s key a → dykeTarget a p.region = some n → n ≤ 255 → holdsRule a n = false → p.delete = false → regionFields p.r = true → (∀ e ∈ a.mem.dyke.staged, e.1 ≠ n → pagesMeet e.2 p.r = false) → 
        exec (.dykeRule c p) s = .next (done c 0x0C01 key (ok (stageRules a (tset a.mem.dyke.staged n p.r)) (leBytes 2 n)))) ∧
      (∀ (c : Caller) (p : DykeRuleP) (s a : State) (key : List Byte) (n : Nat), Runs c 0x0C01 s key a → dykeTarget a p.region = some n → n ≤ 255 → holdsRule a n = false → p.delete = true → thas a.mem.dyke.staged n = true → 
        exec (.dykeRule c p) s = .next (done c 0x0C01 key (ok (stageRules a (tdel a.mem.dyke.staged n)) (leBytes 2 n)))) ∧
      (∀ (s : State) (t : Tab Region), (stageRules s t).mem.dyke.staged = t ∧ (stageRules s t).mem.dyke.force = s.mem.dyke.force ∧
        (stageRules s t).mem.dyke.locked = s.mem.dyke.locked ∧ dykeTarget s 0xFFFF = tfree s.mem.dyke.staged 256) ∧
      (∀ (c : Caller) (s a : State) (key : List Byte), Runs c 0x0C02 s key a → 
        exec (.dykeSync c) s = .next (done c 0x0C02 key (⟨startSync a (some c) none, stPending, []⟩))) ∧
      (∀ (c : Caller) (s a : State) (key : List Byte) (n : Nat), Runs c 0x0C03 s key a → n ∉ a.mem.dyke.locked → thas a.mem.dyke.staged n = true → 
        exec (.dykeLock c n) s = .next (done c 0x0C03 key (⟨startSync a (some c) (some n), stPending, []⟩))) ∧
      (∀ (s : State) (j : SyncJob) (rest : List SyncJob) (c : Caller), s.mem.dyke.syncs = j :: rest → j.caller = some c →
        exec .dykeSyncComplete s = .next (if overdue s c (syncCode j) then faultRunning (dropSync s j) c (syncCode j)
          else finishRunning (applySync s j) c (syncCode j) stOk
            (if j.lock.isSome then [] else leBytes 4 (min 2048 (ceilDiv (s.ref - j.at_) coreT))))) ∧
      (∀ (s : State) (j : SyncJob) (rest : List SyncJob), s.mem.dyke.syncs = j :: rest → j.caller = none →
        exec .dykeSyncComplete s = .next (applySync s j)) ∧
      (∀ (s : State) (j : SyncJob),
        (j.lock = none → (applySync s j).mem.dyke.locked = s.mem.dyke.locked) ∧
        (∀ m, m ∉ s.mem.dyke.locked → j.lock ≠ some m → tfind (applySync s j).mem.dyke.force m = tfind j.rules m) ∧
        (∀ n r, j.lock = some n → n ∉ s.mem.dyke.locked → tfind j.rules n = some r →
          n ∈ (applySync s j).mem.dyke.locked ∧ tfind (applySync s j).mem.dyke.force n = some (clearDebug r)))

/-- Locking an undefined region is refused; locking a locked one returns OK and changes nothing. A DYKE_LOCK of a
region that is neither locked nor defined in the staged table completes with BAD_PARAM, one of a locked region with
OK; neither changes the dyke. A DYKE_RULE of a locked region completes with LOCKED. (spec/14_memory_dyke.md). -/
def Obligations.DykeLockRefusals : Prop :=
  (∀ (c : Caller) (s a : State) (key : List Byte) (n : Nat), Runs c 0x0C03 s key a → n ∉ a.mem.dyke.locked → thas a.mem.dyke.staged n = false → 
        exec (.dykeLock c n) s = .next (done c 0x0C03 key (refuse a stBadParam))) ∧
      (∀ (c : Caller) (s a : State) (key : List Byte) (n : Nat), Runs c 0x0C03 s key a → n ∈ a.mem.dyke.locked → 
        exec (.dykeLock c n) s = .next (done c 0x0C03 key (ok a))) ∧
      (∀ (c : Caller) (p : DykeRuleP) (s a : State) (key : List Byte), Runs c 0x0C01 s key a → p.region ≠ 0xFFFF → p.region ∈ a.mem.dyke.locked → 
        exec (.dykeRule c p) s = .next (done c 0x0C01 key (refuseFull a stLocked 11))) ∧
      (∀ (s : State) (n : Nat), (refuse s n).st = s ∧ (refuseFull s n 11).st.mem = s.mem)

/-- SCRUB_SET and MEM_ERR_QUERY answer. SCRUB_SET with a period of 1 to 168 hours stores ENABLE and PERIOD_H (ENABLE =
1 needs a position of class 0x32) and answers P, PASS_POS and PASSES. MEM_ERR_QUERY answers a channel's counters,
their sum, or a fault record, and changes nothing. (spec/14_memory_dyke.md). -/
def Obligations.ScrubAndMemoryQueries : Prop :=
  (∀ (c : Caller) (p : ScrubSetP) (s a : State) (key : List Byte), Runs c 0x0C05 s key a → 1 ≤ p.periodH → p.periodH ≤ 168 →
        (p.enable = true → ownedPositions (scheduleNow a) 0x32 ≠ 0) →
        ∃ t, exec (.scrubSet c p) s = .next (done c 0x0C05 key (ok t (leBytes 2 (scrubP p.periodH) ++ zeros 2 ++
            leBytes 4 a.mem.scrub.passPos ++ leBytes 4 a.mem.scrub.passes))) ∧
          t = { a with mem := { a.mem with scrub := t.mem.scrub } } ∧ t.mem.scrub.enable = p.enable ∧
          t.mem.scrub.periodH = p.periodH ∧ t.mem.scrub.passPos = a.mem.scrub.passPos ∧ t.mem.scrub.passes = a.mem.scrub.passes) ∧
      (∀ (c : Caller) (s a : State) (key : List Byte) (n : Fin 32), Runs c 0x0C04 s key a → 
        exec (.memErrQuery c ⟨0, n.val⟩) s = .next (done c 0x0C04 key (ok a (chanBlock [a.memChan n.val] (a.memChan n.val).lastAddr (a.memChan n.val).lastSynd)))) ∧
      (∀ (c : Caller) (s a : State) (key : List Byte), Runs c 0x0C04 s key a → 
        exec (.memErrQuery c ⟨0, 0xFF⟩) s = .next (done c 0x0C04 key (ok a (chanBlock ((List.range 32).map a.memChan) a.mem.lastAddr a.mem.lastSynd)))) ∧
      (∀ (c : Caller) (s a : State) (key : List Byte) (n : Fin 16), Runs c 0x0C04 s key a → 
        exec (.memErrQuery c ⟨1, n.val⟩) s = .next (done c 0x0C04 key (ok a (faultBlock a.mem.dyke.log[n.val]?))))

/-- Requests reach the slot engine, positions serve them, accesses complete. While memory is served, a request of a
defined class that is not refresh, by an identity of R387, passes the dyke check and its allowed lines join the slot
engine's queue. A position that has not started starts once: a refresh position then serves nothing, any other one
serves a request per channel by its owner's rule, and a scrub position with a pacing read due is left to that read,
which reads one row group. An access completes once 94 MEM cycles have passed since its position started, with the
damage that hardware has done to its line and a parity error counted. (spec/01_tide_and_clocks.md,
spec/14_memory_dyke.md). -/
def Obligations.SlotEngineServesRequests : Prop :=
  (∀ (r : MemRequest) (s : State), memoryUp s = true → classDefined r.cls = true → r.cls ≠ 0x3E → r.identity < 20 →
        exec (.memoryRequest r) s = .next (requestMemory s r)) ∧
      (∀ s : State, memoryUp s = true → s.slots.started ≤ posNow s →
        ¬(classAt (scheduleNow s) (posNow s % 2048) = 0x32 ∧ scrubDue s = true) →
        ∃ t, exec .slotPosition s = .next t ∧ t.slots.started = posNow s + 1 ∧
          (classAt (scheduleNow s) (posNow s % 2048) = 0x3E → t.slots.queue = s.slots.queue ∧ t.slots.flight = s.slots.flight) ∧
          (classAt (scheduleNow s) (posNow s % 2048) ≠ 0x3E → ∃ u : State,
            u = { s with slots := { s.slots with sched := scheduleNow s, started := posNow s + 1,
                                                 nextSched := s.slots.nextSched.filter (fun n => decide (s.slotFrame < n.2)) } } ∧
            t = (List.range 32).foldl (serveChannel (scheduleNow s) (classAt (scheduleNow s) (posNow s % 2048))) u)) ∧
      (∀ s : State, memoryUp s = true → s.slots.started ≤ posNow s → classAt (scheduleNow s) (posNow s % 2048) = 0x32 →
        scrubDue s = true → ∃ t, exec .slotPosition s = .next t ∧ t.slots.started = s.slots.started ∧
          t.slots.queue = s.slots.queue ∧ t.slots.flight = s.slots.flight ∧ t.mem = s.mem) ∧
      (∀ (s : State) (f : InFlight) (rest : List InFlight) (errs : List (Nat × Byte)) (parity : Bool), s.slots.flight = f :: rest →
        f.doneAt ≤ s.memCycle →
        let a : State := { s with slots := { s.slots with flight := rest } }
        let c := a.memChan (lineChan f.req.line)
        let b := if parity then a.setMemChan (lineChan f.req.line) { c with parity := sat32 c.parity } else a
        exec (.memoryAccessComplete errs parity) s = .next (match f.req.op with
          | .read _ => finishRequest (errs.foldl (fun t e => damageSymbol t f.req.line e.1 e.2) b) f.req
          | _ => errs.foldl (fun t e => damageSymbol t f.req.line e.1 e.2) (finishRequest b f.req))) ∧
      (∀ (s : State) (errs : List (Nat × Nat × Byte)), memoryUp s = true → scrubDue s = true →
        classAt (scheduleNow s) (posNow s % 2048) = 0x32 → s.slots.started ≤ posNow s →
        exec (.scrubPacingRead errs) s = .next (scrubRead s errs) ∧ (scrubRead s errs).slots.started = posNow s + 1)

/-- HWB_BASE_WRITE moves the aperture; HWB_ACCESS goes through the dyke under HB_HWB_IDENT. With the host link up,
HWB_BASE_WRITE sets the base (bits 20 to 0 reserved), and changes nothing else; a base that would put the aperture
past the last address changes nothing. A write through the aperture is a write of class 0x30 by the identity of
HB_HWB_IDENT at base + offset; a read answers one completion per line piece, with EP where a byte is poisoned or
denied. (spec/15_warden.md, spec/14_memory_dyke.md). -/
def Obligations.HostWindowBAccesses : Prop :=
  (∀ (v : BitVec 64) (s : State), hostUp s = true → v.toNat / 2 ^ 21 * 2 ^ 21 + 2 ^ 30 ≤ memTop →
        exec (.hwbBaseWrite v) s = .next { s with hwbBase := v.toNat / 2 ^ 21 * 2 ^ 21 }) ∧
      (∀ (v : BitVec 64) (s : State), memTop < v.toNat / 2 ^ 21 * 2 ^ 21 + 2 ^ 30 → exec (.hwbBaseWrite v) s = .next s) ∧
      (∀ (off : Nat) (d : List Byte) (s : State), hostUp s = true → off + d.length ≤ 2 ^ 30 →
        exec (.hwbAccess off (.write d)) s = .next (classWrite s 0x30 s.hwbIdent (s.hwbBase + off) d).2) ∧
      (∀ (off n : Nat) (s : State), hostUp s = true → off + n ≤ 2 ^ 30 →
        exec (.hwbAccess off (.read n)) s = .next ((classPieces s 0x30 s.hwbIdent (s.hwbBase + off) n).1.foldl
          (fun t p => t.emit (.completion p.data (p.poison || p.denied)))
          (classPieces s 0x30 s.hwbIdent (s.hwbBase + off) n).2))

/-- A write changes granted bytes of its range and no other byte of memory. On a sound memory (no line upset) while
the staged rules are those in force, a write by a master in any class leaves every byte outside its range, and every
byte of a page that the rules do not grant it, reading as before; every byte of its range in a granted page reads as
the data written. (spec/14_memory_dyke.md). -/
def Obligations.WritesStayWithinTheDyke : Prop :=
  ∀ (s : State) (cls ident addr : Nat) (d : List Byte) (p : Purpose) (i : Issue) (x : Nat), Memory.wf s.mem.cells = true →
      s.mem.upset = [] → s.mem.dyke.staged = s.mem.dyke.force →
      let t := (classWrite s cls ident addr d p i).2
      (x < addr ∨ addr + d.length ≤ x ∨ judgePage s s.mem.dyke.force ident true (x / 4096) = false →
        readCell t.mem.cells x = readCell s.mem.cells x) ∧
      (addr ≤ x → x < addr + d.length → judgePage s s.mem.dyke.force ident true (x / 4096) = true →
        readCell t.mem.cells x = nth 0#8 d (x - addr))

/-- A line with one damaged symbol reads as its data. On a sound line of canonical memory, any one symbol (data byte
or check symbol) that hardware changes is corrected on the next read: the line reads as before the damage, unpoisoned,
in strict and in wide mode. (spec/14_memory_dyke.md). -/
def Obligations.OneDamagedSymbolIsCorrected : Prop :=
  ∀ (s : State) (line i : Nat) (v : Byte) (wide control : Bool), Memory.wf s.mem.cells = true → lineUpset s line = [0, 0, 0, 0] →
      i < 68 → v ≠ 0#8 →
      (readLine (damageSymbol s line i v) line wide control).1 = ⟨s.readMem (64 * line) 64, false, false⟩

/-- Stored poison keeps its data and has the poison syndromes. Storing a line as poison leaves its 64 data bytes
reading as before and its check symbols different from the codeword's by 0xA5, 0x5A, 0xC3, 0x3C. For every 64 data
bytes, the syndromes r(alpha^j), j = 0 to 3, of the line whose check symbols are those of its codeword XORed with that
pattern are the syndromes of the pattern. (R374). -/
def Obligations.StoredPoisonHasThePoisonSyndromes : Prop :=
  (∀ (s : State) (line : Nat), Memory.wf s.mem.cells = true →
        (poisonLine s line).readMem (64 * line) 64 = s.readMem (64 * line) 64 ∧
        lineUpset (poisonLine s line) line = [0xA5, 0x5A, 0xC3, 0x3C]) ∧
      (∀ (d : List Byte) (j : Nat), d.length = 64 → j < 4 →
        let sym := d.map (·.toNat)
        let evalAt (l : List Nat) (x : Nat) : Nat := l.foldl (fun r b => gfMul r x ^^^ b) 0
        evalAt (sym ++ xorChecks (rsChecks sym) [0xA5, 0x5A, 0xC3, 0x3C]) (gfExp j) =
          evalAt (List.replicate 64 0 ++ [0xA5, 0x5A, 0xC3, 0x3C]) (gfExp j))

/-- A whole line written reads back, and clears upset, queued write-back and poison. Writing all 64 bytes of a line
makes it read as those bytes, sound, whatever it held before (damage and stored poison included); its address leaves
the write-back queue. Every byte outside the line reads as before. (spec/14_memory_dyke.md). -/
def Obligations.LineWriteReadsBack : Prop :=
  ∀ (s : State) (line : Nat) (d : List Byte) (wide control : Bool) (x : Nat), Memory.wf s.mem.cells = true → d.length = 64 →
      let t := (writeLine s line 0 d wide).2
      (readLine t line wide control).1 = ⟨d, false, false⟩ ∧
      (∀ e ∈ (t.memChan (lineChan line)).wb, e.1 ≠ line) ∧
      (x < 64 * line ∨ 64 * line + 64 ≤ x → readCell t.mem.cells x = readCell s.mem.cells x)

/-- WINDOW_DEFINE defines or redefines a window, deletes one, and places a head. A window that passes every check of
R139 is written to the shadow (a redefined one keeps its settings, a new one takes the defaults; 0xFFFF takes the
lowest free number) and its number answered; a deletion removes it from the shadow; a head of a pan takes its place,
where the windows that it then meets stand on 16 heads at most and on layers of their own and the demand allows it.
Nothing in force changes. (spec/04_pans.md). -/
def Obligations.WindowsAreDefinedDeletedAndPlaced : Prop :=
  (∀ (c : Caller) (s a : State) (key : List Byte) (n w : Nat) (g : WinGeom), Runs c 0x0401 s key a → (if n = 0xFFFF then freeWindow a else some n) = some w → w ≤ 383 → geomOk g = true → winAwaiting a w = false → skimNamesWindow a w = false → windowFault a (setWin a w (redefine a w g)) w (redefine a w g) = none → 
        exec (.windowDefine c (.define n g)) s = .next (done c 0x0401 key (ok (settleDetectors (setWin a w (redefine a w g)) (redefine a w g)) (leBytes 2 w)))) ∧
      (∀ (c : Caller) (s a : State) (key : List Byte) (w : Nat), Runs c 0x0401 s key a → thas a.wins w = true → skimNamesWindow a w = false → 
        exec (.windowDefine c (.delete w)) s = .next (done c 0x0401 key (ok (releaseChannels { a with wins := tdel a.wins w })))) ∧
      (∀ (c : Caller) (s a : State) (key : List Byte) (h : Fin 32) (x y : Nat), Runs c 0x0401 s key a →
        let b := a.setHead h.val { a.head h.val with shadow := { (a.head h.val).shadow with
          place := if x = 0xFFFF ∧ y = 0xFFFF then none else some (x, y) } }
        let brought := b.wins.filter (fun e => winMeets (b.head h.val).shadow e.2.g)
        x ≤ 65535 → y ≤ 65535 → (a.head h.val).pan ≠ none → (∀ e ∈ brought, (metHeads b e.2.g).length ≤ 16) →
        (∀ e ∈ brought, ∀ f ∈ brought, e.1 ≠ f.1 → e.2.g.layer ≠ f.2.g.layer) → demandOk a b = true →
        exec (.windowDefine c (.place h.val x y)) s = .next (done c 0x0401 key (ok b)))

/-- LAYER_SET and ZORDER_SET write the shadow. LAYER_SET with fields in range, while no skim names the window and the
demand allows it, replaces the window's layer settings; its palette form writes entries of the window's graphic layer
on every head the window meets. ZORDER_SET writes the z-order of a head (and its twin) with LEVEL a permutation.
(spec/04_pans.md). -/
def Obligations.LayersTakeSettingsAndPalettes : Prop :=
  (∀ (c : Caller) (s a : State) (key : List Byte) (w : Nat) (d : WinDef) (l : LayerSettings), Runs c 0x0402 s key a → tfind a.wins w = some d → layerFields d l = true → skimNamesWindow a w = false → demandOk a (setWin a w { d with l := l }) = true → 
        exec (.layerSet c (.settings w l)) s = .next (done c 0x0402 key (ok (setWin a w { d with l := l })))) ∧
      (∀ (c : Caller) (s a : State) (key : List Byte) (w first n : Nat) (l : List Nat) (d : WinDef) (x : Ctx),
        Runs c 0x0402 s key a → tfind a.wins w = some d → 8 ≤ d.g.layer → d.g.context = some n → openCtx a n = some x →
        x.p.format = 0x13 → l ≠ [] → l.length ≤ 64 → first + l.length ≤ 256 → (∀ e ∈ l, e < 2 ^ 32) →
        skimNamesWindow a w = false →
        exec (.layerSet c (.palette w first l)) s = .next (done c 0x0402 key (ok (modHeads a (metHeads a d.g)
          (fun _ h => { h with shadow := writePalette h.shadow d.g.layer first l }))))) ∧
      (∀ (c : Caller) (p : ZOrderSetP) (s a : State) (key : List Byte), Runs c 0x0404 s key a → p.head ≤ 31 → p.z.background < 2 ^ 30 → (p.z.mode = true → levelsOk p.z.level = true) → (∀ h ∈ withTwin a p.head, skimNamesHead a h = false) → 
        exec (.zorderSet c p) s = .next (done c 0x0404 key (ok (modHeads a (withTwin a p.head) (fun _ h => { h with shadow := { h.shadow with z := p.z } })))))

/-- FRESHNESS_SET writes policy, colours and fence membership; VERDICT_QUERY answers. FUNC 0 replaces a window's
policy when its fields, contrast and detectors allow it; FUNC 1 writes a colour set that comes into force at the next
tide; FUNC 2 writes the fence groups. VERDICT_QUERY answers one entry per head that shows the window, and changes
nothing. (spec/02_freshness.md, spec/03_gauges.md). -/
def Obligations.FreshnessPoliciesAndVerdictsAnswer : Prop :=
  (∀ (c : Caller) (s a : State) (key : List Byte) (w : Nat) (d : WinDef) (p : Policy), Runs c 0x0405 s key a → policyFields p = true → criticalOk a p = true → tfind a.wins w = some d → ((d.pol.critical = true ∧ p.critical = false) ∨ (p.critical = true ∧ d.groups = 0) → 2 ≤ callerRole a c) → detectorShort a { d with pol := p } = false → skimNamesWindow a w = false → 
        exec (.freshnessSet c (.policy w p)) s = .next (done c 0x0405 key (ok (settleDetectors (setWin a w { d with pol := p }) { d with pol := p })))) ∧
      (∀ (c : Caller) (s a : State) (key : List Byte) (n : Nat) (x : ColourSet), Runs c 0x0405 s key a → 1 ≤ n → n ≤ 7 → coloursFields x = true → (criticalUses a n = true → contrastOk x = true) → 
        exec (.freshnessSet c (.colours n x)) s = .next (done c 0x0405 key (ok { a with nextColours := tset a.nextColours n x }))) ∧
      (∀ (c : Caller) (s a : State) (key : List Byte) (w g : Nat) (d : WinDef), Runs c 0x0405 s key a → tfind a.wins w = some d → g ≤ 255 → (d.pol.critical = true → g = 0 → 2 ≤ callerRole a c) → skimNamesWindow a w = false → 
        exec (.freshnessSet c (.membership w g)) s = .next (done c 0x0405 key (ok (setWin a w { d with groups := g })))) ∧
      (∀ (c : Caller) (s a : State) (key : List Byte) (w : Nat), Runs c 0x0406 s key a → (thas a.wins w = true ∨ winAwaiting a w = true) → 
        exec (.verdictQuery c w) s = .next (done c 0x0406 key (ok a (leBytes 2 w ++ [byte ((showingHeads a w).take 16).length, 0#8] ++ ((showingHeads a w).take 16).flatMap (verdictEntry a w)))))

/-- HEAD_SET_TIMING, HEAD_COMMIT, HEAD_TWIN, HEAD_ENABLE and LAYER_ADDRESS take effect. HEAD_SET_TIMING with a timing
that passes R144 on every head it names writes their shadow timing and answers the pixel rate. HEAD_COMMIT of named
heads whose windows pass R140 takes the next commit sequence, arms it and answers it with the PAN time. HEAD_TWIN of
two disabled heads of one pan twins them. HEAD_ENABLE starts disabled heads that have a timing in force and drops the
scheduled stop of the others, or stops or schedules the stop of heads. LAYER_ADDRESS completes the named HOST buffer
with its capture time, and with the content value where a detector is bound (taint POISON where a sampled byte is
poisoned), makes it the latest, and with AUTO_COMMIT commits the heads that show it. (spec/05_heads.md,
spec/04_pans.md). -/
def Obligations.HeadCommandsComplete : Prop :=
  (∀ (c : Caller) (p : HeadSetTimingP) (s a : State) (key : List Byte), Runs c 0x0301 s key a →
        let l := withTwin a p.head
        let b := modHeads a l (fun _ h => { h with shadow := { h.shadow with timing := some p.t } })
        (∀ h ∈ l, headUsable a h = true) → timingFields p.t a.tide.num a.tide.den = true →
        (∀ h ∈ l, carries p.t a.tide.num a.tide.den (mappedLanes (a.head h).link) (a.head h).link.maxRate = true) →
        (∀ h ∈ l, panRate b ((a.head h).pan.getD 0) ≤ 4800000000 * a.tide.den) →
        (∀ h ∈ l, headDemand b (b.head h).shadow ≤ classSupply b h) → timingBreaksTap a l p.t = false →
        exec (.headSetTiming c p) s =
          .next (done c 0x0301 key (ok b (leBytes 8 (rateNum p.t a.tide.num * 1000 / a.tide.den))))) ∧
      (∀ (c : Caller) (s a : State) (key : List Byte) (m : Nat), Runs c 0x0302 s key a → m ≠ 0 → commitFault a (namedHeads a m) = none → 
        exec (.headCommit c m) s = .next (done c 0x0302 key (ok (armCommit a (namedHeads a m)).2 (leBytes 4 (armCommit a (namedHeads a m)).1 ++ leBytes 4 (timeNs a.pt) ++ leBytes 6 (timeS a.pt) ++ zeros 2)))) ∧
      (∀ (c : Caller) (p : HeadTwinP) (s a : State) (key : List Byte), Runs c 0x0303 s key a → p.pair ≤ 15 →
        let ha := a.head (2 * p.pair)
        let hb := a.head (2 * p.pair + 1)
        ha.pan ≠ none → hb.pan = ha.pan → ha.st = .disabled → hb.st = .disabled →
        exec (.headTwin c p) s = .next (done c 0x0303 key (ok ((a.setHead (2 * p.pair) { ha with twin := p.twin }).setHead
          (2 * p.pair + 1) { hb with twin := p.twin, shadow := { hb.shadow with
            timing := if p.twin then ha.shadow.timing else hb.shadow.timing } })))) ∧
      (∀ (c : Caller) (p : HeadEnableP) (s a : State) (key : List Byte), Runs c 0x0305 s key a →
        (∀ h ∈ withTwin a p.head, headUsable a h = true) →
        let b := modHeads a (withTwin a p.head) (fun _ h => { h with flipEvents := p.flipEvents })
        (p.enable = true → (∀ h ∈ withTwin a p.head, (a.head h).force.timing ≠ none) →
          exec (.headEnable c p) s = .next (done c 0x0305 key (ok (settle ((withTwin a p.head).foldl (fun t i =>
            if (t.head i).st = .disabled then enableOne t i
            else t.setHead i { t.head i with disableSched := false }) b) p.head)))) ∧
        (p.enable = false → exec (.headEnable c p) s = .next (done c 0x0305 key
          (ok (releaseContexts (releaseChannels ((withTwin a p.head).foldl disableOne b))))))) ∧
      (∀ (c : Caller) (p : LayerAddressP) (s a : State) (key : List Byte) (x : Ctx), Runs c 0x0403 s key a →
        openCtx a p.context = some x → isHost x.p = true → p.buffer < x.p.ring → (p.capGiven = true → p.capNs < 1000000000) →
        x.isolated = false → (x.latest = none → demandOk (a.setCtx p.context { x with state := .free }) a = true) →
        let heads := (showingCtx a p.context).foldl (fun l h => (withTwin a h).foldl insertAsc l) []
        (p.autoCommit = true → commitFault a heads = none) →
        let v : Option Nat × State := if (detectorOf a p.context).isSome then
          contentValue (askSamples a p.context p.buffer) p.context p.buffer else (none, a)
        let cap := if p.capGiven then (p.capS, p.capNs) else (timeS v.2.tb, timeNs v.2.tb)
        let poison := if (detectorOf a p.context).isSome && v.1.isNone then 4 else 0
        let b := completeBuf (countSample v.2 p.context v.1) p.context p.buffer ⟨cap.1, cap.2, none, poison, none, x.binds⟩ v.1
        let d := b.setCtx p.context { b.ctx p.context with latest := some (p.buffer, ((b.ctx p.context).buf p.buffer).record) }
        exec (.layerAddress c p) s = .next (done c 0x0403 key (if p.autoCommit = true ∧ heads ≠ []
          then ok (armCommit d heads).2 (leBytes 4 (armCommit d heads).1) else ok d (leBytes 4 0))))

/-- HEAD_STATE_QUERY returns the timing in force in the layout of R143 and the status of R166. For HEAD at most 31,
HEAD_STATE_QUERY answers 96 bytes: bytes 0 to 31 are the HEAD_SET_TIMING block in force (read back by the block's own
field map they give HEAD and the timing), bytes 32 to 95 the 64 bytes of R166; nothing changes. A HEAD above 31 is
refused with BAD_PARAM. Its parameters are HEAD in bits 7:0 and 24 reserved bits. (R170). -/
def Obligations.HeadStateQueryAnswers : Prop :=
  (∀ (c : Caller) (s a : State) (key : List Byte) (h : Nat) (t : Timing), Runs c 0x0304 s key a → h ≤ 31 →
        (a.head h).force.timing = some t → timingFields t a.tide.num a.tide.den = true → t.vactive < 65536 → t.vfpMax < 65536 →
        t.vsync < 65536 → t.vbp < 65536 → t.phaseLines < 65536 →
        ∃ r, exec (.headStateQuery c h) s = .next (done c 0x0304 key (ok a r)) ∧ r.length = 96 ∧
          fld (leNat (slice r 0 32)) 0 0 8 = h ∧ readTiming (leNat (slice r 0 32)) = t ∧ slice r 0x20 64 = headStatus a h) ∧
      (∀ (c : Caller) (s a : State) (key : List Byte) (h : Nat), Runs c 0x0304 s key a → 31 < h → 
        exec (.headStateQuery c h) s = .next (done c 0x0304 key (refuse a stBadParam))) ∧
      (∀ n : Nat, formHead 0x0304 n = some ⟨4, [(1, 0, 24)], fun _ => cmdHeadStateQuery (fld n 0 0 8)⟩)

/-- Every timing block reads back as the timing it was written from. For every head number and every timing whose
fields fit their widths in R143, the 32-byte parameter block has its reserved bits 0, and reading the block by its
field map gives the same head and the same timing: no bit of any field is dropped or misplaced. (spec/05_heads.md). -/
def Obligations.TimingBlocksRoundTrip : Prop :=
  ∀ (h : Nat) (t : Timing), h < 256 → t.matrix < 4 → t.mult < 8 → t.hactive < 65536 → t.hfp < 65536 → t.hsync < 65536 →
      t.hbp < 65536 → t.vactive < 65536 → t.vfpMin < 65536 → t.vfpNom < 65536 → t.vfpMax < 65536 → t.vsync < 65536 →
      t.vbp < 65536 → t.phaseLines < 65536 → t.waitMask < 4096 →
      (timingBytes h t).length = 32 ∧ zeroFields (formTiming (leNat (timingBytes h t))) (timingBytes h t) = true ∧
      fld (leNat (timingBytes h t)) 0 0 8 = h ∧ readTiming (leNat (timingBytes h t)) = t

/-- HEAD_LATCH_EDGE, FRONT_PORCH_END, VRR_LINE_BOUNDARY and WAIT_TIMEOUT complete. HEAD_LATCH_EDGE of a group whose
latch edge is due: with no stop scheduled in the group, every head of it is in its front porch, which starts at the
exact time of the edge; its armed commits that are ripe (armed 64 PAN cycles ago or more) are no longer armed, and
where there is one, the bank in force and its sequence number are those of the last. With a stop scheduled on a head
of the group, every head of it is DISABLED and stopped. FRONT_PORCH_END, when the porch end of the flip that follows
is due, gives every head of the group that flip and the porch's number of lines. VRR_LINE_BOUNDARY, on a line boundary
with at least VFP_MIN lines before it whose flip is at or after the own anchor, or with VFP_MAX lines before it, ends
the porch there when every WAIT layer of the group is ready. WAIT_TIMEOUT, with VFP_MAX lines before it and a WAIT
layer not ready, ends it there, sets TIMEOUT and increments WAIT_TIMEOUTS. (spec/05_heads.md). -/
def Obligations.HeadCycleEventsComplete : Prop :=
  (∀ (h : Fin 32) (s : State) (e : Rat), latchAt s (s.head (leadOf s h.val)) = some e → isDue s e = true →
        (∀ i ∈ withTwin s h.val, (s.head i).disableSched = false) →
        ∃ t, exec (.headLatchEdge h) s = .next t ∧ ∀ i ∈ withTwin s h.val,
          (t.head i).phase = .porch ∧ (t.head i).base = e ∧
          (t.head i).armed = (s.head i).armed.drop (ripe s (s.head i)).length ∧
          ∀ a, (ripe s (s.head i)).getLast? = some a → (t.head i).forceSeq = a.seq ∧ (t.head i).force = a.bank) ∧
      (∀ (h : Fin 32) (s : State) (e : Rat), latchAt s (s.head (leadOf s h.val)) = some e → isDue s e = true →
        (∃ i ∈ withTwin s h.val, (s.head i).disableSched = true) →
        ∃ t, exec (.headLatchEdge h) s = .next t ∧ ∀ i ∈ withTwin s h.val, (t.head i).st = .disabled ∧ (t.head i).phase = .stopped) ∧
      (∀ (h : Fin 32) (s : State) (n : NextFlip) (t : Timing), blankingEnd s h.val = some n →
        (s.head (leadOf s h.val)).gen = some t → isDue s (porchEndAt s t n) = true →
        exec (.frontPorchEnd h) s = .next (modHeads s (withTwin s h.val) (fun _ h =>
          { h with phase := .sync, next := some n, took := false, porchEnded := true, porchLines := n.lines,
                   timeout := h.timeout && h.porchEnded }))) ∧
      (∀ (h : Fin 32) (s : State) (t : Timing) (k : Nat) (b : Ticks), openPorch s h.val = some (t, k, b) →
        let x := s.head (leadOf s h.val)
        (t.vfpMax ≤ k ∨ (t.vfpMin ≤ k ∧ ∃ a, ownAnchor s t x = some a ∧
          a.at_ ≤ natRat (panCycle (x.base + natRat (k + backLines t) * lineRat s t)))) →
        (∀ i ∈ withTwin s h.val, waitReady s b i = true) →
        exec (.vrrLineBoundary h) s = .next (modHeads s (withTwin s h.val) (fun _ h =>
          { h with porchEnded := true, porchLines := k, timeout := false }))) ∧
      (∀ (h : Fin 32) (s : State) (t : Timing) (k : Nat) (b : Ticks), openPorch s h.val = some (t, k, b) → t.vfpMax ≤ k →
        (∃ i ∈ withTwin s h.val, waitReady s b i = false) →
        exec (.waitTimeout h) s = .next (modHeads s (withTwin s h.val) (fun _ h =>
          { h with porchEnded := true, porchLines := k, timeout := true, waitTimeouts := sat32 h.waitTimeouts })))

/-- The take point takes each slot's buffer and the flip shows what was taken. Two line times before the flip every
layer slot of the group takes its buffer. At the flip, every head of the group counts its frame, shows what its slots
took, brings its applied sequence up to the bank in force, and its active lines begin; its shadow and the bank in
force stay. (spec/05_heads.md, spec/04_pans.md). -/
def Obligations.TakePointAndFlipShowTheTakenBuffers : Prop :=
  (∀ (h : Fin 32) (bad : List RecordRead) (s : State) (n : NextFlip) (t : Timing), (s.head (leadOf s h.val)).next = some n →
        (s.head (leadOf s h.val)).gen = some t → (s.head (leadOf s h.val)).took = false →
        isDue s (n.at_ - 2 * lineRat s t) = true →
        exec (.takePoint h bad) s = .next (releaseContexts ((withTwin s h.val).foldl (takeHead bad) s))) ∧
      (∀ (h : Fin 32) (s : State) (n : NextFlip) (t : Timing), (s.head (leadOf s h.val)).next = some n →
        (s.head (leadOf s h.val)).gen = some t → (s.head (leadOf s h.val)).took = true → isDue s n.at_ = true →
        ∃ u, exec (.headFlip h) s = .next u ∧ ∀ i ∈ withTwin s h.val,
          (u.head i).phase = .active ∧ (u.head i).frameCount = ((s.head i).frameCount + 1) % 2 ^ 32 ∧
          (u.head i).shown = (s.head i).taken ∧ (u.head i).appliedSeq = (s.head i).forceSeq ∧ (u.head i).flipT = n.at_ ∧
          (u.head i).lastVfp = n.lines % 65536 ∧ (u.head i).late = decide (panCycle n.anchor < panCycle n.at_) ∧
          (u.head i).force = (s.head i).force ∧ (u.head i).shadow = (s.head i).shadow)

/-- A pan composes one group a cycle; a span is judged when it enters gauge evaluate. GROUP_COMPOSE composes the next
group of the composable line with the earliest due cycle, once per PAN cycle. SPAN_EVALUATE of a span of a layer in
force that is due on an active line not yet judged gives its words, vote and verdict. (spec/03_gauges.md,
spec/04_pans.md). -/
def Obligations.ComposingAndJudgingSpans : Prop :=
  (∀ (p : Fin 4) (s : State) (k : NextGroup), let u := (panHeads s p.val).foldl pump s
        mostUrgent u p.val = some k → (u.pan p.val).composedAt ≠ some (u.now / panT) →
        exec (.groupCompose p) s = .next (drain (composeGroup
          (u.setPan p.val { u.pan p.val with composedAt := some (u.now / panT) }) k) k.head)) ∧
      (∀ (h : Fin 32) (layer : Fin 12) (line : Nat) (a b c : Upset) (s : State) (t : Timing) (k : Slot) (x : Nat),
        (s.head h.val).gen = some t → (s.head h.val).force.slots.find? (fun k => k.d.g.layer == layer.val) = some k →
        spanStart (s.head h.val).force k line = some x → (s.head h.val).phase = .active → blackFrame (s.head h.val) = false →
        line < t.vactive → x < t.hactive →
        (∀ w, tfind (s.head h.val).words layer.val = some w → w.win = k.win → w.line < line) →
        evalTime s t (s.head h.val).flipT line x ≤ s.now →
        exec (.spanEvaluate h layer line a b c) s = .next (evalSpan s h.val t k line x [a, b, c]))

/-- A channel never sets NO_MAJORITY and never gives verdict 6 or 7. For every input of a span, the word that a
channel gives has cause bit 14 clear and a verdict of 0 to 5. The voter sets bit 14 whenever its vote finds no
majority, and a vote that finds one gives a word of a channel. (R80). -/
def Obligations.ChannelsNeverSetNoMajority : Prop :=
  (∀ (i : SpanInput) (w : Nat), (channelWord i w).causes.testBit 14 = false ∧ (channelWord i w).verdict ≤ 5) ∧
      (∀ (w : Nat) (l : List (Nat × Nat)), (voteWords w l).majority = false → (voteWords w l).word.causes.testBit 14 = true) ∧
      (∀ (w : Nat) (l : List (Nat × Nat)), (voteWords w l).majority = true → ∃ e ∈ l, (voteWords w l).word = unpackWord e.2)

/-- With three channels, one disagreeing channel is outvoted with no gap. For every span input and window number,
whatever a single one of the three channels delivers, the word used is the word that the other two gave, and only the
disagreeing channel is in the minority. With two channels that disagree, the verdict used is at least 3 and bit 14 is
set. (spec/03_gauges.md). -/
def Obligations.OneWrongChannelIsOutvoted : Prop :=
  (∀ (i : SpanInput) (win bad : Nat), win < 512 →
        let w := packWord (channelWord i win)
        (voteWords win [(0, bad), (1, w), (2, w)]).word = channelWord i win ∧
        (voteWords win [(0, w), (1, bad), (2, w)]).word = channelWord i win ∧
        (voteWords win [(0, w), (1, w), (2, bad)]).word = channelWord i win ∧
        (bad ≠ w → (voteWords win [(0, bad), (1, w), (2, w)]).minority = [0] ∧
          (voteWords win [(0, w), (1, bad), (2, w)]).minority = [1] ∧ (voteWords win [(0, w), (1, w), (2, bad)]).minority = [2])) ∧
      (∀ (win a b : Nat), a ≠ b → (voteWords win [(0, a), (1, b)]).word.causes.testBit 14 = true ∧
        3 ≤ (voteWords win [(0, a), (1, b)]).word.verdict ∧ (voteWords win [(0, a), (1, b)]).word.verdict ≤ 5)

/-- State copies, gauge reload and the salinity pass complete. A state copy that started before now gives its table to
the channel and ends; a reload rewrites all three channels' tables from the commit shadow while the warden is ready; a
salinity pass of a pan with an enabled head that started 64 PAN cycles ago records the outcome of each channel and of
the voter, and a pan whose last head is disabled has no pass. CHECK_STATS answers a channel's counters and changes
nothing. (spec/03_gauges.md, spec/11_check_units.md). -/
def Obligations.GaugesCopyReloadAndPass : Prop :=
  (∀ (p : Fin 4) (ch : Fin 3) (s : State) (c : StateCopy), ((s.pan p.val).chan ch.val).copying = some c → c.start < s.now →
        exec (.stateCopyComplete p ch) s = .next (s.setPan p.val ((s.pan p.val).setChan ch.val
          { (s.pan p.val).chan ch.val with table := ((s.pan p.val).chan c.src).table, copying := none, copied := some s.now }))) ∧
      (∀ (p : Fin 4) (s : State), (s.pan p.val).reload = true → s.start.warden = .ready →
        exec (.gaugeReload p) s = .next (s.setPan p.val
          { (s.pan p.val).mapChans (reloadChan (commitTable s p.val) s.now) with reload := false }) ∧
        ∀ ch, ch < 3 → ((((s.pan p.val).mapChans (reloadChan (commitTable s p.val) s.now)).chan ch).table = commitTable s p.val)) ∧
      (∀ (p : Fin 4) (faults : List PassFault) (s : State) (t : Ticks), (s.pan p.val).salDue = some t →
        (earliestHead s p.val).isSome = true → t + 64 * panT ≤ s.now →
        exec (.salinityPass p faults) s = .next (endPass s p.val t (chanFails faults 0) (chanFails faults 1)
          (chanFails faults 2) (voterFails faults))) ∧
      (∀ (p : Fin 4) (faults : List PassFault) (s : State) (t : Ticks), (s.pan p.val).salDue = some t → earliestHead s p.val = none →
        exec (.salinityPass p faults) s = .next (s.setPan p.val { s.pan p.val with salDue := none })) ∧
      (∀ (c : Caller) (s a : State) (key : List Byte) (n : Nat) (k : Check), Runs c 0x0903 s key a → tfind a.checks n = some k →
        k.use ≠ 2 →
        exec (.checkStats c n) s = .next (done c 0x0903 key (ok a ([byte (k.use + 8 * k.poly), byte k.region] ++
          leBytes 2 k.object ++ leBytes 4 k.compared ++ leBytes 4 k.mismatch ++ leBytes 4 k.voids ++ leBytes 4 k.lastExpected ++
          leBytes 4 k.lastComputed ++ leBytes 4 k.lastAt ++ zeros 4)))) ∧
      (∀ (c : Caller) (s a : State) (key : List Byte) (n : Nat) (k : Check), Runs c 0x0903 s key a → tfind a.checks n = some k →
        k.use = 2 →
        exec (.checkStats c n) s = .next (done c 0x0903 key (ok a ([byte (2 + 4 * b2n ((a.head k.object).sealFlags.testBit k.region) +
          8 * ((tfind (a.head k.object).force.seals k.region).map (·.poly)).getD k.poly), byte k.region] ++
          leBytes 2 k.object ++ leBytes 4 k.compared ++ leBytes 4 k.mismatch ++ leBytes 4 k.voids ++ leBytes 4 k.lastExpected ++
          leBytes 4 k.lastComputed ++ leBytes 4 k.lastAt ++ zeros 4))))

/-- CHECK_BIND binds and unbinds a context's channel; SEAL_REGION defines, deletes and re-arms a region. CHECK_BIND of
a bindable context takes the named channel or the lowest free one; unbinding frees it. SEAL_REGION with OP 0 writes a
region inside the active area to the shadow of the head, with the channel that the region has or the lowest free one,
OP 1 deletes it there, OP 2 re-arms its flag. SEAL_COMPARE of a region of an active head in a comparing state, once
per frame, counts a match, a mismatch or a void comparison. (spec/11_check_units.md). -/
def Obligations.ChecksAndSealsBind : Prop :=
  (∀ (c : Caller) (p : CheckBindP) (s a : State) (key : List Byte) (n : Nat), Runs c 0x0901 s key a → p.unbind = false →
        (if p.channel = 0xFFFF then tfree a.checks 256 else some p.channel) = some n → n ≤ 255 → thas a.checks n = false →
        sourceBinding a p.context = none → bindable a p.context = true → (p.crcEn = true ∨ p.aliveEn = true) →
        let k : Check :=
          { use := 0, crcEn := p.crcEn, aliveEn := p.aliveEn, aliveW := p.aliveW, object := p.context,
            serial := (a.ctx p.context).binds + 1 }
        ∃ t, exec (.checkBind c p) s = .next (done c 0x0901 key (ok t (leBytes 2 n))) ∧ t.checks = tset a.checks n k ∧
          t.ctx p.context = { a.ctx p.context with
            binds := (a.ctx p.context).binds + 1, aliveFirst := (a.ctx p.context).aliveFirst || p.aliveEn }) ∧
      (∀ (c : Caller) (p : CheckBindP) (s a : State) (key : List Byte) (k : Check), Runs c 0x0901 s key a → p.unbind = true →
        tfind a.checks p.channel = some k → k.use = 0 →
        exec (.checkBind c p) s = .next (done c 0x0901 key (ok { a with checks := tdel a.checks p.channel } (leBytes 2 p.channel)))) ∧
      (∀ (c : Caller) (p : SealRegionP) (s a : State) (key : List Byte) (n : Nat), Runs c 0x0902 s key a → 2 ≤ callerRole a c →
        p.head ≤ 31 → p.region ≤ 7 → p.poly ≤ 3 → p.op = 0 → sealChannel a p.head p.region = some n →
        sealInside (a.head p.head).shadow p = true →
        let b := setSeals a p.head (tset (a.head p.head).shadow.seals p.region ⟨p.x, p.y, p.w, p.h, p.poly, n⟩)
        let k : Check := { use := 2, object := p.head, region := p.region, poly := p.poly }
        exec (.sealRegion c p) s = .next (done c 0x0902 key (ok (if thas b.checks n then b else b.setCheck n k) (leBytes 2 n)))) ∧
      (∀ (c : Caller) (p : SealRegionP) (s a : State) (key : List Byte) (r : Seal), Runs c 0x0902 s key a →
        p.head ≤ 31 → p.region ≤ 7 → p.poly ≤ 3 → tfind (a.head p.head).shadow.seals p.region = some r →
        (p.op = 1 → 2 ≤ callerRole a c → exec (.sealRegion c p) s = .next (done c 0x0902 key (ok (releaseChannels
          (setSeals a p.head (tdel (a.head p.head).shadow.seals p.region))) (leBytes 2 r.channel)))) ∧
        (p.op = 2 → exec (.sealRegion c p) s = .next (done c 0x0902 key (ok (rearmSeal a p.head p.region) (leBytes 2 r.channel))))) ∧
      (∀ (h : Fin 32) (r : Fin 8) (fault : BitVec 32) (s : State) (t : Timing) (g : Seal),
        let u := pump s h.val
        let at_ := panCycle ((u.head h.val).flipT + natRat ((g.y + g.h - 1) * htotal t + (g.x + g.w - 1)) * pixelRat u t) - 6 * panT
        (u.head h.val).gen = some t → tfind (u.head h.val).force.seals r.val = some g → (u.head h.val).phase = .active →
        sealRuns (u.head h.val) = true → (u.head h.val).sealDone.testBit r.val = false → at_ ≤ u.now →
        exec (.sealCompare h r fault) s = .next (sealCompare u h.val r.val g at_ fault) ∧
          ((sealCompare u h.val r.val g at_ fault).head h.val).sealDone.testBit r.val = true)

/-- FENCE_N, HB_FENCE and the FENCE command set and release fence groups. A write of HB_FENCE over a working host
link, and the FENCE command, release the groups of the release mask from software and Welond sources and then set the
groups of the set mask, so that a group in both ends set. The capture edge of FENCE_N makes the ball low, its release
high; FENCE with the map enabled changes the map of the ball. FENCE takes effect when it has crossed to the PAN clock,
and completes then with HB_FENCE, or with INTERNAL and no effect past its bound; in an image it takes effect and the
next record follows. (spec/03_gauges.md, spec/16_commands.md). -/
def Obligations.FencesAreSetAndReleased : Prop :=
  (∀ (v : BitVec 32) (s : State), hostUp s = true → ∃ t, exec (.swFence v) s = .next t ∧ t.fences = { s.fences with
        sw := (s.fences.sw &&& (255 ^^^ (field v.toNat 8 8 % 256))) ||| v.toNat % 256 % 256,
        wel := tmap (fun _ g => g &&& (255 ^^^ (field v.toNat 8 8 % 256))) s.fences.wel }) ∧
      (∀ (v : BitVec 32) (s : State), hostUp s = true → ∃ t, exec (.swRelease v) s = .next t ∧ t.fences = { s.fences with
        sw := (s.fences.sw &&& (255 ^^^ (field v.toNat 8 8 % 256))) ||| v.toNat % 256 % 256,
        wel := tmap (fun _ g => g &&& (255 ^^^ (field v.toNat 8 8 % 256))) s.fences.wel }) ∧
      (∀ s : State, s.fences.ballLow = false → ∃ t, exec .fenceNCapture s = .next t ∧ t.fences = { s.fences with ballLow := true }) ∧
      (∀ s : State, s.fences.ballLow = true → ∃ t, exec .fenceNRelease s = .next t ∧ t.fences = { s.fences with ballLow := false }) ∧
      (∀ (c : Caller) (p : FenceP) (s a : State) (key : List Byte), Runs c 0x0F03 s key a → p.set &&& p.release = 0 →
        (p.release ≠ 0 → 1 ≤ callerRole a c) → (p.mapEn = true → 2 ≤ callerRole a c) → (p.mapEn = false → p.ballMap = 0) →
        let x := crossToPan a
        exec (.fence c p) s = .next (done c 0x0F03 key (match c.via with
          | .image _ => ok (takeFences x.2 p x.1)
          | _ => ⟨{ x.2 with fenceRuns := x.2.fenceRuns ++ [⟨c, p, x.1⟩] }, stPending, []⟩))) ∧
      (∀ (s : State) (r : FenceRun), s.fenceRuns = [r] → (r.at_ : Int) ≤ s.now →
        let u : State := { s with fenceRuns := [] }
        let t := takeFences u r.p r.at_
        finishFences s = if overdue u r.c 0x0F03 then faultRunning u r.c 0x0F03
          else finishRunning t r.c 0x0F03 stOk (leBytes 4 (hbFence t))) ∧
      (∀ (s : State) (p : FenceP) (t : Ticks), (softFences s p.set p.release t).fences = softly s.fences p.set p.release ∧
        (p.mapEn = true → (takeFences s p t).fences = { softly s.fences p.set p.release with ballMap := p.ballMap % 256 }) ∧
        (p.mapEn = false → takeFences s p t = softFences s p.set p.release t))

/-- The crust stage reduces a 12-bit component to the output depth. Every 12-bit component x leaves as min(1023, (x +
2) >> 2) on a 10-bit head and as min(255, (x + 8) >> 4) on an 8-bit head, each of the three components by itself.
(R131). -/
def Obligations.CrustReducesComponents : Prop :=
  ∀ (t : Timing) (a b c : Nat), a < 4096 → b < 4096 → c < 4096 →
      reduceComp t ⟨a, b, c⟩ = (if t.depth then (min 1023 ((a + 2) >>> 2), min 1023 ((b + 2) >>> 2), min 1023 ((c + 2) >>> 2))
        else (min 255 ((a + 8) >>> 4), min 255 ((b + 8) >>> 4), min 255 ((c + 8) >>> 4)))

/-- HPD_PRESENT, HPD_UNPLUG, IRQ_HPD, DP_LINK_LOCK_LOSS, AUX_TIMEOUT, LINK_TRAINING_DONE and TRAINING_TIMEOUT
complete. HPD_PRESENT: HPD high for 200 samples gives a head without a sink that sink, and an UNPLUGGED head then
retrains. HPD_UNPLUG: HPD low for 200 samples takes a head's sink and its link away and leaves it UNPLUGGED unless it
is DISABLED. IRQ_HPD: a low pulse of 25 to 199 samples of a head with a sink retrains a LINK_FAILED head, is a loss of
lock when the sink reports one, and else leaves the head as it is. Shorter levels and pulses change nothing but the
time of the last sample read. DP_LINK_LOCK_LOSS of a head whose link is up in STARTING, RUNNING or MODE_CHANGE raises
LINK_LOST and retrains; of another it changes nothing. AUX_TIMEOUT: the first 7 failures of a transaction are retried,
and the next one fails the training in progress with reason 3. LINK_TRAINING_DONE: success takes the first candidate;
failure drops it and tries the next, or fails the training with reason 2 when it was the last. TRAINING_TIMEOUT, 100
ms after the start of training, fails it with reason 4. A training that fails leaves the head LINK_FAILED without a
link and with that reason; retraining a running head with a sink leaves it TRAINING with its candidates, or
LINK_FAILED with reason 1 where it has none; a training that succeeds gives the link its lanes and rate and brings a
TRAINING head to STARTING. (spec/06_display_links.md). -/
def Obligations.DisplayLinkEventsComplete : Prop :=
  (∀ (h : Fin 32) (n : Nat) (k : Sink) (s : State), sampled s h.val n = true → 200 ≤ n →
        let x := (noteHpd s h.val).head h.val
        let u := (noteHpd s h.val).setHead h.val { x with link := { x.link with
          sink := some k, sinkRate := k.maxRate, sinkLanes := k.maxLanes, fmin := k.fmin, fmax := k.fmax } }
        x.link.sink = none → exec (.hpdPresent h n k) s = .next (if x.st = .unplugged then retrain u h.val else u)) ∧
      (∀ (h : Fin 32) (n : Nat) (s : State), sampled s h.val n = true → 200 ≤ n → ((noteHpd s h.val).head h.val).link.sink ≠ none →
        ∃ t, exec (.hpdUnplug h n) s = .next t ∧ (t.head h.val).link.sink = none ∧ (t.head h.val).link.link = 0 ∧ (t.head h.val).link.lanes = 0 ∧
          (t.head h.val).st = (if (s.head h.val).st = .disabled then .disabled else .unplugged)) ∧
      (∀ (h : Fin 32) (n : Nat) (b : Bool) (s : State), sampled s h.val n = true → 25 ≤ n → n < 200 →
        ((noteHpd s h.val).head h.val).link.sink ≠ none →
        exec (.irqHpd h n b) s = .next (if ((noteHpd s h.val).head h.val).st = .linkFailed then retrain (noteHpd s h.val) h.val
          else if b then lockLoss (noteHpd s h.val) h.val else noteHpd s h.val)) ∧
      (∀ (h : Fin 32) (n : Nat) (k : Sink) (b : Bool) (s : State), sampled s h.val n = true →
        (n < 200 → exec (.hpdPresent h n k) s = .next (noteHpd s h.val) ∧ exec (.hpdUnplug h n) s = .next (noteHpd s h.val)) ∧
        (n < 25 → exec (.irqHpd h n b) s = .next (noteHpd s h.val))) ∧
      (∀ (h : Fin 32) (s : State), (s.head h.val).link.link = 2 →
        ((s.head h.val).st = .running ∨ (s.head h.val).st = .starting ∨ (s.head h.val).st = .modeChange) →
        exec (.dpLinkLockLoss h) s = .next (retrain (raiseErr (s.setHead h.val { s.head h.val with
          mc := if (s.head h.val).mc = .retrainBlack then .retrain else (s.head h.val).mc }) 0x0030 h.val 0 0) h.val)) ∧
      (∀ (h : Fin 32) (s : State), ((s.head h.val).link.link ≠ 2 ∨
        ((s.head h.val).st ≠ .running ∧ (s.head h.val).st ≠ .starting ∧ (s.head h.val).st ≠ .modeChange)) →
        exec (.dpLinkLockLoss h) s = .next s) ∧
      (∀ (h : Fin 32) (n : Nat) (defer : Bool) (s : State), let l := (s.head h.val).link
        let r := if l.auxTransaction = n then l.auxRetries else 0
        l.sink ≠ none → (defer = false → l.auxAt + 400 * usT ≤ s.ref) →
        let put (k : Nat) : State := s.setHead h.val { s.head h.val with
          link := { l with auxTransaction := n, auxRetries := k, auxAt := s.ref } }
        exec (.auxTimeout h n defer) s = .next (if r < 7 then put (r + 1)
          else if l.link = 1 then trainingFails (put 0) h.val 3 else put 0)) ∧
      (∀ (h : Fin 32) (reqs : List (List EqRequest)) (s : State) (n c : Nat) (rest : List (Nat × Nat)),
        (s.head h.val).link.link = 1 → (s.head h.val).link.cands = (n, c) :: rest →
        let u := reqs.foldl (fun s r => applyRequests s h.val (decide (4 ≤ c)) (r.take n)) s
        exec (.linkTrainingDone h true reqs) s = .next (trained u h.val n c) ∧
        (rest = [] → exec (.linkTrainingDone h false reqs) s = .next (trainingFails u h.val 2)) ∧
        (rest ≠ [] → exec (.linkTrainingDone h false reqs) s = .next (startLevels (u.setHead h.val { u.head h.val with
          link := { (u.head h.val).link with cands := rest } }) h.val))) ∧
      (∀ (h : Fin 32) (s : State) (t : Ticks), (s.head h.val).link.link = 1 → (s.head h.val).link.trainStart = some t →
        t + 100 * msT ≤ s.ref → exec (.trainingTimeout h) s = .next (trainingFails s h.val 4)) ∧
      (∀ (s : State) (i r : Nat), let f := (failLink s i r).head i
        f.st = .linkFailed ∧ f.link.link = 3 ∧ f.link.reason = r ∧ f.link.lanes = 0 ∧
        ((s.head i).phase ≠ .stopped → trainingFails s i r = failLink s i r)) ∧
      (∀ (s : State) (i : Nat) (k : Sink) (t : Timing), (s.head i).link.sink = some k → (s.head i).gen = some t →
        (s.head i).phase ≠ .stopped → displayRests s = false →
        let l := candidates s (s.head i).link k t
        let x := (retrain s i).head i
        (l ≠ [] → x.st = .training ∧ x.link.link = 1 ∧ x.link.cands = l) ∧
        (l = [] → x.st = .linkFailed ∧ x.link.link = 3 ∧ x.link.reason = 1)) ∧
      (∀ (s : State) (i n c : Nat), (s.head i).phase ≠ .stopped → let x := (trained s i n c).head i
        x.link.link = 2 ∧ x.link.lanes = n ∧ x.link.rate = c ∧ ((s.head i).st = .training → x.st = .starting))

/-- CONTEXT_OPEN, SOURCE_ISOLATE, CONTEXT_STATS and CONTEXT_CLOSE. CONTEXT_OPEN of a free number (0xFFFF: the lowest)
whose parameters and ring pass R204 and R205 begins a new opening with those parameters, re-admits the mirrors of a
source that returns so, and answers the number; a PEER context also asks its origin for the mirror. SOURCE_ISOLATE
isolates or rejoins an open context, and does nothing when it is so already. CONTEXT_STATS answers its sixteen
counters and changes nothing. CONTEXT_CLOSE of an open context leaves it closed, its flows and binding gone.
(spec/07_ingest.md). -/
def Obligations.ContextsOpenIsolateAndClose : Prop :=
  (∀ (c : Caller) (q : ContextOpenP) (s a : State) (key : List Byte) (n : Nat), Runs c 0x0501 s key a →
        ctxTarget a q.context = some n → n ≤ 191 → (q.p.type = 1 → codedOpen a < 128) → (a.ctx n).state = .free →
        methodOk q.p = true → q.p.clockRate = 90000 → sizeOk q.p = true →
        (if q.p.type = 1 then q.p.ring = 0 else within 2 8 q.p.ring = true) → extOk q.p = true →
        within 100 1000000 q.p.timeoutUs = true → ringOk q.p = true →
        writable a (writersOf q.p) q.p.base (ringBytesOf q.p) = true →
        exec (.contextOpen c q) s = .next (done c 0x0501 key (ok
          (if q.p.type = 3 then requestMirror (settleMirrors (openFresh a n q.p)) n else settleMirrors (openFresh a n q.p)) (leBytes 2 n)))) ∧
      (∀ (c : Caller) (p : SourceIsolateP) (s a : State) (key : List Byte) (x : Ctx), Runs c 0x0504 s key a →
        openCtx a p.context = some x →
        exec (.sourceIsolate c p) s = .next (done c 0x0504 key (ok (if x.isolated = p.isolate then a
          else if p.isolate then isolateCtx p.context p.leave a else rejoinCtx p.context a)))) ∧
      (∀ (c : Caller) (s a : State) (key : List Byte) (n : Nat) (x : Ctx), Runs c 0x0505 s key a → openCtx a n = some x →
        let k := x.cnt
        exec (.contextStats c n) s = .next (done c 0x0505 key (ok a ([k.frames, k.lossFrames, k.pktLost, k.path0Lost, k.path1Lost,
          k.dup, k.extBad, k.gap, k.ringFull, k.late, k.fast, k.dgsBad, k.unsupported, k.isolatedDrop, k.refreshSent,
          0].flatMap (leBytes 4))))) ∧
      (∀ (c : Caller) (s a : State) (key : List Byte) (n : Nat), Runs c 0x0502 s key a → openCtx a n ≠ none →
        skimBindsContext a n = false →
        ∃ t, exec (.contextClose c n) s = .next (done c 0x0502 key (ok t)) ∧ (t.ctx n).state ≠ .opened ∧
          (t.ctx n).opening = (a.ctx n).opening ∧ (∀ e ∈ t.flows, e.2.context ≠ n) ∧
          (∀ e ∈ t.checks, ¬(e.2.use = 0 ∧ e.2.object = n)))

/-- FLOW_BIND, SLUICE_SET and ETH_LINK_CHANGE. FLOW_BIND of a rule that passes R196 writes it and answers its number;
unbinding a bound rule removes it; group memberships follow. SLUICE_SET of an existing port writes its switch, UDP
port and rate after filling its buckets. A link change of an existing port is recorded, and a link that comes up shows
that LREF_A is there. (spec/07_ingest.md). -/
def Obligations.FlowsAndPortsAreConfigured : Prop :=
  (∀ (c : Caller) (p : FlowBindP) (s a : State) (key : List Byte) (n : Nat), Runs c 0x0503 s key a → p.unbind = false →
        flowTarget a p.rule = some n → n ≤ 1023 → thas a.flows n = false → flowContext a p.r.context = true →
        flowFields p.r = true → (a.port p.r.port).exists_ = true →
        (∀ e ∈ a.flows, e.2.context = p.r.context → e.2.path ≠ p.r.path) → (∀ e ∈ a.flows, matchFields e.2 ≠ matchFields p.r) →
        (p.r.path = 1 → ∃ e ∈ a.flows, e.2.context = p.r.context ∧ e.2.path = 0) →
        (p.r.join = true → multicast p.r.dst = true ∧
          ((∃ m ∈ (a.port p.r.port).joined, m.group = p.r.dst) ∨ (a.port p.r.port).joined.length < 256)) →
        exec (.flowBind c p) s = .next (done c 0x0503 key (ok (settleGroups { a with flows := tset a.flows n p.r }) (leBytes 2 n)))) ∧
      (∀ (c : Caller) (p : FlowBindP) (s a : State) (key : List Byte), Runs c 0x0503 s key a → p.unbind = true →
        thas a.flows p.rule = true →
        exec (.flowBind c p) s = .next (done c 0x0503 key (ok (settleGroups { a with flows := tdel a.flows p.rule }) (leBytes 2 p.rule)))) ∧
      (∀ (c : Caller) (p : SluiceSetP) (s a : State) (key : List Byte), Runs c 0x0506 s key a → p.port ≤ 15 →
        (a.port p.port).exists_ = true → within 1 65535 p.udpPort = true → within 1000 100000 p.rateKbps = true →
        (p.enable = true ∨ viaPort c ≠ some p.port) →
        exec (.sluiceSet c p) s = .next (done c 0x0506 key (ok (a.setPort p.port { fillBuckets (a.port p.port) a.net with
          sluiceEn := p.enable, udpPort := p.udpPort, rateKbps := p.rateKbps })))) ∧
      (∀ (n : Fin 16) (up : Bool) (s : State), released s = true → (s.port n.val).exists_ = true →
        exec (.ethLinkChange n up) s = .next { s with
          ports := tset s.ports n.val { s.port n.val with link := up },
          clk := { s.clk with lrefA := up || s.clk.lrefA } })

/-- ETH_FRAME_RECEIVE classifies, MGMT_FRAME is answered within its bucket, MEDIA_PACKET_PROCESS reaches its ring
writer. On a port with link, a frame is counted and goes where the first row of R193 that it meets sends it. A
management frame whose bits the bucket holds takes them and is answered; without them it is dropped and counted. The
oldest media packet of a physical port leaves its media space; one of the opening that it was taken for is processed,
and one of a context closed since is dropped. A frame whose TIMEOUT_US has passed completes. (spec/07_ingest.md). -/
def Obligations.FramesAndPacketsArrive : Prop :=
  (∀ (n : Fin 16) (f : EthFrame) (s : State), portUp s n.val = true → exec (.ethFrameReceive n f) s = .next (receiveFrame s n.val f)) ∧
      (∀ (n : Fin 16) (f : EthFrame) (s : State), portUp s n.val = true → classify s n.val f = .stray →
        ∃ t, exec (.ethFrameReceive n f) s = .next t ∧ (t.port n.val).stray = sat32 (s.port n.val).stray ∧
          (t.port n.val).rxFrames = sat32 (s.port n.val).rxFrames ∧ t = { s with ports := t.ports }) ∧
      (∀ (n : Fin 16) (f : EthFrame) (s : State), portUp s n.val = true → classify s n.val f = .mgmt →
        let p := fillBuckets (s.port n.val) s.net
        exec (.mgmtFrame n f) s = .next (if tokens f.len ≤ p.mgmtTokens
          then answerMgmt (s.setPort n.val { p with mgmtTokens := p.mgmtTokens - tokens f.len }) n.val f.kind
          else s.setPort n.val { p with mgmtDrop := sat32 p.mgmtDrop })) ∧
      (∀ (eth : Fin 4) (s : State) (m : MediaFrame) (rest : List MediaFrame), mediaOf s eth.val = m :: rest →
        ((s.ctx m.ctx).state = .opened → (s.ctx m.ctx).opening = m.opening → (s.ctx m.ctx).isolated = false →
          memoryRests (popMedia s eth.val) = false →
          exec (.mediaPacketProcess eth) s = .next (processPacket (popMedia s eth.val) m)) ∧
        ((s.ctx m.ctx).state ≠ .opened ∨ (s.ctx m.ctx).opening ≠ m.opening →
          exec (.mediaPacketProcess eth) s = .next (popMedia s eth.val))) ∧
      (∀ (n : Fin 192) (s : State) (f : Frame), (s.ctx n.val).frame = some f → f.done = false → f.abandoned = false →
        f.lastAt + (s.ctx n.val).p.timeoutUs * usT ≤ s.ref → exec (.frameTimeout n) s = .next (completeAny s n.val))

/-- Tile decode, fill copies, comparisons, detector reads and buffer completion end in turn. A compressed tile with
all its pieces decodes to its pixels or fails once a lane of the crystallizer has run over it. A frame that closes
gets its copies while the media space has room; its comparison ends 24 CORE cycles after its last covered byte and
expected value; its detector reads start after its copies and give their value when the last has been served; and 16
CORE cycles after the last of these its buffer completes. (spec/07_ingest.md, spec/11_check_units.md). -/
def Obligations.BuffersCloseAndComplete : Prop :=
  (∀ (n : Fin 192) (tile e : Nat) (s u : State) (f : Frame) (t : Tile), (s.ctx n.val).frame = some f →
        (s.ctx n.val).dgs.tiles.find? (fun t => t.tile == tile) = some t → f.done = false → f.abandoned = false →
        t.decoded = false → t.bad = false → t.enc ≠ 0 → t.last < t.pieces.length →
        let r := decodeBlock (t.enc == 2) 64 16384 (tileData t)
        laneEnd s 0 t.wholeAt r.2 = some (e, u) → e ≤ s.ref →
        exec (.dgsTileDecode n tile) s = .next (match r.1 with
          | some data =>
            let v := tileDecoded u n.val 0x2E idCrys f t data
            dgsCheck (setDgs v n.val { (v.ctx n.val).dgs with decodedAt := max e (v.ctx n.val).dgs.decodedAt }) n.val
          | none => dgsCheck (tileFailed u n.val t) n.val)) ∧
      (∀ (n : Fin 192) (s : State) (k : Closing), (s.ctx n.val).closing.find? needsCopy = some k → copyRoom s n.val = true →
        exec (.fillCopy n) s = .next (fillCopy s n.val k)) ∧
      (∀ (n : Fin 192) (s : State) (i : Nat) (k : Closing) (e : Nat × Nat),
        (s.ctx n.val).closing.findIdx? (fun k => k.comparing.isSome) = some i → (s.ctx n.val).closing[i]? = some k →
        k.comparing = some e → k.checkAt + 24 * coreT ≤ s.ref → exec (.checkCompareEnd n) s = .next (closeCompare s n.val i k e)) ∧
      (∀ (n : Fin 192) (s : State) (a : AccessUnit) (e : Nat × Nat),
        (s.ctx n.val).closing.findIdx? (fun k => k.comparing.isSome) = none →
        (openAus s n.val).find? (fun a => a.comparing.isSome) = some a → a.comparing = some e → a.checkAt + 24 * coreT ≤ s.ref →
        exec (.checkCompareEnd n) s = .next (auCompare s n.val a e)) ∧
      (∀ (n : Fin 192) (s : State) (k : Closing), (s.ctx n.val).closing.find? (detectorTurn s n.val) = some k →
        (k.reading = false → exec (.detectorComplete n) s = .next (startDetector s n.val)) ∧
        (k.reading = true → outstanding s (fun p => p == .detector n.val) = false →
          exec (.detectorComplete n) s = .next (detectorComplete s n.val k))) ∧
      (∀ (n : Fin 192) (s : State) (p : Picture), (s.ctx n.val).closing.find? (detectorTurn s n.val) = none →
        (s.ctx n.val).dec.waiting.find? (pictureTurn s n.val) = some p → p.reading = true →
        outstanding s (fun p => p == .detector n.val) = false →
        exec (.detectorComplete n) s = .next (pictureDetected s n.val p)) ∧
      (∀ (n : Fin 192) (s : State) (k : Closing), (s.ctx n.val).closing.find? (readyToComplete s n.val) = some k →
        (s.ctx n.val).state = .opened → exec (.bufferComplete n) s = .next (bufferComplete s n.val k) ∧
          (((bufferComplete s n.val k).ctx n.val).buf k.target).complete = true)

/-- A buffer whose capture time is more than 1 ms ahead bears FUTURE. The record of a buffer that completes bears
cause bit 6 exactly when its capture time is more than 1 ms later than the time base at its completion, whatever its
other causes below bit 6. (R46). -/
def Obligations.FutureCauseMarksCaptureTimesAhead : Prop :=
  ∀ (s : State) (n : Nat) (d : Done) (x : Option Nat), d.causes < 64 →
      (makeRecord s n d x).1.causes.testBit 6 = decide (s.tb + msT < ofCap d.capS d.capNs)

/-- DECODE_ATTACH, DECODE_PRIORITY and DECODE_STATS; pictures start, end, are abandoned and are output. DECODE_ATTACH
that passes its checks attaches the context; DECODE_PRIORITY changes class and lag and holds a PRIORITY change for the
next random-access unit; DECODE_STATS answers a context's or the engines' counters. The lowest idle engine takes the
access unit that ranks first: it starts its picture, or discards a unit whose parameter sets the engine does not
support, counts it and asks for a picture; a picture ends when its reads have been served, is abandoned after its
context was closed, and is output 16 CORE cycles after its last write and the output decision; a lagging context drops
to its last random-access unit. (spec/08_decode.md). -/
def Obligations.DecodersAttachStartAndEnd : Prop :=
  (∀ (c : Caller) (p : DecodeAttachP) (s a : State) (key : List Byte), Runs c 0x0601 s key a → attachFault a p.context p.a = none →
        exec (.decodeAttach c p) s = .next (done c 0x0601 key (ok (attachCtx a p.context p.a)))) ∧
      (∀ (c : Caller) (p : DecodePriorityP) (s a : State) (key : List Byte) (x : Ctx) (b : Attach), Runs c 0x0602 s key a →
        openCtx a p.context = some x → x.attach = some b → p.cls ≤ 2 → p.lagMs ≤ 65535 →
        (p.priority = true → b.refPitch ≠ 0 ∧ priorityUsers a p.context < 16) →
        decodeFits a ((x.p, { b with cls := p.cls, lagMs := p.lagMs }) ::
          ((attachedCtxs a).filter (fun y => y.1 != p.context)).map (·.2)) = true →
        exec (.decodePriority c p) s = .next (done c 0x0602 key (ok (a.setCtx p.context { x with
          attach := some { b with cls := p.cls, lagMs := p.lagMs },
          dec := { x.dec with nextPriority := if p.priority = b.priority then none else some p.priority } })))) ∧
      (∀ (c : Caller) (s a : State) (key : List Byte) (n : Nat) (x : Ctx), Runs c 0x0603 s key a → n ≠ 0xFFFF → openCtx a n = some x →
        x.attach ≠ none → exec (.decodeStats c n) s = .next (done c 0x0603 key (ok a (statsBlock x.dec)))) ∧
      (∀ (c : Caller) (s a : State) (key : List Byte), Runs c 0x0603 s key a →
        exec (.decodeStats c 0xFFFF) s = .next (done c 0x0603 key (ok a ((List.range 8).flatMap (fun e => engineBlock (a.dec e)))))) ∧
      (∀ (e : Fin 8) (s : State) (x : Candidate) (u : AccessUnit) (b : Attach) (k : Nat),
        (∀ i, i < e.val → (s.dec i).work ≠ none) → (s.dec e.val).work = none →
        let r := prepareDecode s
        bestOf (r.ctxs.filterMap (fun y => candidate r y.1)) = some x → wantsPicture r x.ctx = some u →
        (r.ctx x.ctx).attach = some b → poolBuffer r x.ctx = some k →
        (∀ h, exec (.decodePictureStart e h) s = .next (takeAu r e.val x.ctx k u b x.due h)) ∧
        (firstSlice b.codec u ≠ none ∨ u.causes.testBit 0 = true → ∀ h,
          (setOk (r.ctx x.ctx).p b h.set = true → (isRasl b.codec u && (r.ctx x.ctx).dec.dropRasl) = false →
            exec (.decodePictureStart e h) s = .next (startPicture r e.val x.ctx k u b x.due h)) ∧
          (setOk (r.ctx x.ctx).p b h.set = false → exec (.decodePictureStart e h) s = .next (sendPli
            (modDec (showSet (popAu r x.ctx) x.ctx h.set) x.ctx (fun d => { d with auUnsupported := sat32 d.auUnsupported })) x.ctx)))) ∧
      (∀ (e : Fin 8) (s : State) (p : Picture) (h : PictureHead), (s.dec e.val).work = some p → (s.dec e.val).head = some h →
        (s.dec e.val).abandon = false → (s.dec e.val).startAt + (if (s.dec e.val).switched then 1024 else 0) * coreT ≤ s.ref →
        outstanding s (fun q => q == .decoder e.val) = false →
        exec (.decodePictureEnd e) s = .next (endPicture s e.val p h) ∧ ((endPicture s e.val p h).dec e.val).work = none) ∧
      (∀ (e : Fin 8) (s : State) (p : Picture), (s.dec e.val).work = some p → (s.dec e.val).abandon = true →
        ∃ t, exec (.pictureAbandoned e) s = .next t ∧ (t.dec e.val).work = none ∧ (t.dec e.val).abandon = false ∧
          t.mem = s.mem) ∧
      (∀ (n : Fin 192) (s : State) (p : Picture), nextOut (s.ctx n.val).dec.waiting = some p →
        (s.ctx n.val).state = .opened → p.au.comparing = none → pictureTurn s n.val p = false →
        pictureDue p ≤ s.ref →
        exec (.pictureOutput n) s = .next (outputPicture s n.val p)) ∧
      (∀ (n : Fin 192) (s : State) (b : Attach), (s.ctx n.val).attach = some b → (s.ctx n.val).state = .opened →
        lagging s (s.ctx n.val) b = true →
        let c := s.ctx n.val
        exec (.decodeLagDiscard n) s = .next (s.setCtx n.val { c with aus := fromLastRandom b.codec c.aus, dec := { c.dec with
          auSkipped := satAdd 32 c.dec.auSkipped (c.aus.length - (fromLastRandom b.codec c.aus).length) } }))

/-- LINK_STATE, EQ_TABLE_QUERY and EYE_SCAN. LINK_STATE answers the block of a head's, a port's or a Welond link;
EQ_TABLE_QUERY answers a display lane's equalizer entry with its clamp count, or a receiver lane's entry with its
adapted values. EYE_SCAN on a locked idle lane with fields in range and a writable result starts the scan and answers
its points; EYE_DONE writes the results, ends the scan and posts the event. (spec/13_welond.md,
spec/06_display_links.md, spec/07_ingest.md). -/
def Obligations.LaneQueriesAndEyeScans : Prop :=
  (∀ (c : Caller) (s a : State) (key : List Byte) (h : Fin 32), Runs c 0x0B01 s key a → a.power.state = 0 → 
        exec (.linkState c ⟨0, h.val⟩) s = .next (done c 0x0B01 key (ok a (linkBlock (a.head h.val).link)))) ∧
      (∀ (c : Caller) (s a : State) (key : List Byte) (n : Fin 16), Runs c 0x0B01 s key a → (a.port n.val).exists_ = true → 
        exec (.linkState c ⟨1, n.val⟩) s = .next (done c 0x0B01 key (ok (fecErrors a n.val) (portBlock ((fecErrors a n.val).port n.val))))) ∧
      (∀ (c : Caller) (s a : State) (key : List Byte) (l : Fin 2), Runs c 0x0B01 s key a → 
        exec (.linkState c ⟨2, l.val⟩) s = .next (done c 0x0B01 key (ok a (welBlock (a.wel l.val))))) ∧
      (∀ (c : Caller) (s a : State) (key : List Byte) (n : Fin 64), Runs c 0x0B03 s key a → 
        exec (.eqTableQuery c ⟨0, n.val⟩) s = .next (done c 0x0B03 key (ok a (dplBytes (tget {} a.dpl n.val) ++ leBytes 4 (tget 0 a.clamps n.val))))) ∧
      (∀ (c : Caller) (s a : State) (key : List Byte) (k : Nat) (n : Fin 16), Runs c 0x0B03 s key a → k = 1 ∨ k = 2 →
        let b := adaptLane a (laneEntry k n.val)
        exec (.eqTableQuery c ⟨k, n.val⟩) s = .next (done c 0x0B03 key (ok b
          (laneEqBytes (tget {} b.laneEq (laneEntry k n.val)) ++ rxBytes (b.rxLane (laneEntry k n.val)))))) ∧
      (∀ (c : Caller) (p : EyeScanP) (s a : State) (key : List Byte), Runs c 0x0B02 s key a → p.kind = 1 ∨ p.kind = 2 →
        (a.rxLane (laneEntry p.kind p.lane)).scan = none → eyeFields p = true → laneLocked a p.kind p.lane = true →
        writable a [idWarden] p.resultBase (4 * eyePoints p) = true →
        exec (.eyeScan c p) s = .next (done c 0x0B02 key (ok (a.setRxLane (laneEntry p.kind p.lane)
          { a.rxLane (laneEntry p.kind p.lane) with scan := some p }) (leBytes 4 (eyePoints p))))) ∧
      (∀ (k : Nat) (n : Fin 16) (counts : List Nat) (s : State) (p : EyeScanP), k = 1 ∨ k = 2 →
        (s.rxLane (laneEntry k n.val)).scan = some p →
        let b := wardenWrite s p.resultBase (eyeResults p counts)
        let d := b.setRxLane (laneEntry k n.val) { b.rxLane (laneEntry k n.val) with scan := none }
        exec (.eyeDone k n counts) s =
          .next (postFw d 0x31 1 none [byte k, byte n.val, 0#8, 0#8, byte (eyePoints p)]))

/-- ENCODE_OPEN, ENCODE_RATE and ENCODE_CLOSE. ENCODE_OPEN that passes its checks creates the context with its
parameters, not yet due for the present flip or tide, and answers its number (0xFF takes the lowest). ENCODE_RATE with
QUERY_ONLY answers the counters; otherwise it holds the rate for the next frame and asks for an IDR picture when told.
ENCODE_CLOSE of an open context abandons a frame in progress and releases the number. (spec/09_encode.md). -/
def Obligations.EncodersOpenRateAndClose : Prop :=
  (∀ (c : Caller) (q : EncodeOpenP) (s a : State) (key : List Byte) (n : Nat), Runs c 0x0701 s key a →
        encTarget a q.enc = some n → encodeFault a n q.p = none →
        exec (.encodeOpen c q) s = .next (done c 0x0701 key (ok (a.setEnc n { p := q.p, lastDue := encKeyNow a q.p }) [byte n]))) ∧
      (∀ (c : Caller) (p : EncodeRateP) (s a : State) (key : List Byte) (e : Enc), Runs c 0x0702 s key a →
        tfind a.encs p.enc = some e →
        (p.queryOnly = true → exec (.encodeRate c p) s = .next (done c 0x0702 key (ok a (encCounters e a.tb)))) ∧
        (p.queryOnly = false → 1 ≤ callerRole a c → rateOk a e p.rate = true →
          exec (.encodeRate c p) s = .next (done c 0x0702 key (ok (a.setEnc p.enc { e with
            nextRate := some p.rate, forceIdr := e.forceIdr || p.forceIdr }) (encCounters e a.tb))))) ∧
      (∀ (c : Caller) (s a : State) (key : List Byte) (n : Nat), Runs c 0x0703 s key a → thas a.encs n = true → 
        exec (.encodeClose c n) s = .next (done c 0x0703 key (ok { abandonEnc a n with encs := tdel a.encs n })))

/-- Due frames, scaled lines, engine starts, slices, abandonment and RTP transmission. At its tide a context tap
begins the frame of its latest buffer, a head tap at its flip the head's frame. A scaled line whose source lines have
passed completes. An idle engine starts the earliest ready frame, publishes its slices within its cycles and budget,
and gives up an abandoned frame, of which an IDR picture is still owed. Once the packets of an entry have left at
their pace CONSUMER passes it, and the transmitter sends the next published entry over a port with link.
(spec/09_encode.md). -/
def Obligations.EncodersCaptureCodeAndSend : Prop :=
  (∀ (e : Fin 16) (s : State) (x : Enc), tfind s.encs e.val = some x → x.lastDue ≠ encKeyNow s x.p → x.p.tapContext = true →
        s.tide.count % max 1 x.p.frameDiv = 0 → exec (.encodeFrameDue e) s = .next (dueContext s e.val x)) ∧
      (∀ (e : Fin 16) (s : State) (x : Enc), tfind s.encs e.val = some x → x.lastDue ≠ encKeyNow s x.p → x.p.tapContext = false →
        let h := s.head x.p.source
        h.st ≠ .disabled → h.frameCount % max 1 x.p.frameDiv = 0 →
        exec (.encodeFrameDue e) s = .next (s.setEnc e.val
          (beginCapture x ⟨h.flipAt, timeNs h.flipAt, timeS h.flipAt, x.half, encKeyNow s x.p⟩ none))) ∧
      (∀ (e : Fin 16) (s : State) (x : Enc) (k : EncCapture) (size : Nat × Nat), let u := pumpTap s e.val
        tfind u.encs e.val = some x → x.capture = some k →
        let t := if x.p.tapContext then none else (u.head x.p.source).gen
        tapSize u x.p t = some size →
        (∀ g, t = some g → x.tapKey = k.fr.key ∧ tapHolds x g (linesNeeded x.p none size k.lines) = true) →
        exec (.encodeLineComplete e) s = .next (lineComplete u e.val x k t size)) ∧
      (∀ (e : Fin 2) (s : State) (n : Nat) (x : Enc) (f : EncFrame), (s.encEngine e.val).work = none →
        readyFrame s e.val = some (n, x, f) → exec (.encodeFrameStart e) s = .next (startFrame s e.val n x f)) ∧
      (∀ (e : Fin 2) (c : SliceCode) (s : State) (w : EncWork) (x : Enc), (s.encEngine e.val).work = some w →
        tfind s.encs w.enc = some x → (s.encEngine e.val).abandon = false → sliceReady s x w = true → codeOk s x w c = true →
        exec (.slicePublish e c) s = .next (putSlice s e.val x w c)) ∧
      (∀ (e : Fin 2) (s : State) (w : EncWork), (s.encEngine e.val).work = some w → (s.encEngine e.val).abandon = true →
        ∃ t, exec (.encodeFrameAbandoned e) s = .next t ∧ (t.encEngine e.val).work = none ∧
          (∀ x, tfind s.encs w.enc = some x → tfind t.encs w.enc = some { x with forceIdr := x.forceIdr || w.idr }) ∧
          t.mem = s.mem) ∧
      (∀ (e : Fin 16) (s : State) (x : Enc), tfind s.encs e.val = some x → x.p.outKind = 2 → x.pacedAt ≤ s.ref →
        let r := settleSent s e.val x
        (r.1.consumer ≠ r.1.producer → portUp r.2 r.1.p.port = true →
          exec (.rtpTransmit e) s = .next (transmit r.2 e.val r.1)) ∧
        (r.1.consumer = r.1.producer → exec (.rtpTransmit e) s = .next r.2)) ∧
      (∀ (e : Nat) (s : State) (x : Enc) (c : Nat), x.sending = some c → x.pacedAt ≤ s.ref →
        (settleSent s e x).1 = { x with consumer := c, sending := none } ∧
        tfind (settleSent s e x).2.encs e = some { x with consumer := c, sending := none })

/-- CRYS_JOB, CRYS_RESUME and CRYS_FLUSH; jobs start on lanes and end. CRYS_JOB that passes its checks queues the job
and answers its number; CRYS_RESUME of a stopped job queues it with its new output space, or drops it for 0 bytes;
CRYS_FLUSH of a job whose offset R303 allows adds it. The first waiting job takes the lowest host lane that is free,
and a job on a lane ends or stops when its bytes have had their cycles. (spec/10_crystallizer.md). -/
def Obligations.CrystallizerJobsRun : Prop :=
  (∀ (c : Caller) (q : CrysJobP) (s a : State) (key : List Byte) (n : Nat), Runs c 0x0801 s key a → crysTarget a q.job = some n →
        crysFault a n q.p = none →
        let j : Job := { p := q.p, st := .queued, outBytes := q.p.outBytes, outBase := q.p.outBase }
        exec (.crysJob c q) s = .next (done c 0x0801 key (ok { a.setJob n j with jobQueue := a.jobQueue ++ [n] } [byte n]))) ∧
      (∀ (c : Caller) (p : CrysResumeP) (s a : State) (key : List Byte) (j : Job), Runs c 0x0802 s key a → tfind a.jobs p.job = some j →
        j.st = .stopped →
        (p.outBytes = 0 → exec (.crysResume c p) s = .next (done c 0x0802 key (ok { a with jobs := tdel a.jobs p.job }))) ∧
        (p.outBytes ≠ 0 → dykePermits a idCrys p.outBase p.outBytes true = true →
          exec (.crysResume c p) s = .next (done c 0x0802 key (ok { a.setJob p.job { j with
            st := .queued, outBytes := p.outBytes, outBase := p.outBase } with jobQueue := a.jobQueue ++ [p.job] })))) ∧
      (∀ (c : Caller) (p : CrysFlushP) (s a : State) (key : List Byte) (j : Job), Runs c 0x0803 s key a → tfind a.jobs p.job = some j →
        let x := readPosition a p.job j
        let k := (tfind x.2.jobs p.job).getD j
        flushFault k x.1 p.at_ = none →
        exec (.crysFlush c p) s = .next (done c 0x0803 key (ok (x.2.setJob p.job { k with flushes := k.flushes ++ [p.at_] })))) ∧
      (∀ (s : State) (n : Nat) (rest : List Nat) (l : Nat) (j : Job), s.jobQueue = n :: rest →
        (List.range 16).find? (fun l => (s.lane l).use == 2 && (s.lane l).job.isNone && decide ((s.lane l).freeAt ≤ s.ref)) = some l → tfind s.jobs n = some j →
        ∃ t, exec .crysJobStart s = .next t ∧ t.jobQueue = rest ∧ t.lanes = tset s.lanes l { s.lane l with job := some n } ∧
          t.jobs = tset s.jobs n { j with st := .running, startAt := s.ref, foundPos := 0 }) ∧
      (∀ (l : Fin 16) (s : State) (n : Nat) (j : Job), (s.lane l.val).job = some n → tfind s.jobs n = some j →
        j.startAt + (runJob j (peekBytes s j.p.inBase j.p.inBytes) 4).cycles * coreT ≤ s.ref →
        exec (.crysDone l) s = .next (endRun s l.val n j) ∧ ((endRun s l.val n j).lane l.val).job = none)

/-- TIDE_SET that changes the rate while a head is enabled is refused with BUSY. A TIDE_SET of a valid rate that
differs from the rate in force in NUM or DEN, while any head is enabled, completes with BUSY and changes nothing. With
every head disabled, it pends for the next tide and answers the PAN cycles of a tide; the rate in force again is
accepted and changes nothing. (R25). -/
def Obligations.TideSetIsBusyWhileAHeadIsEnabled : Prop :=
  (∀ (c : Caller) (p : TideSetP) (s a : State) (key : List Byte), Runs c 0x0A04 s key a → tideRateOk p.num p.den = true → (p.num ≠ a.tide.num ∨ p.den ≠ a.tide.den) → (∃ e ∈ a.heads, e.2.st ≠ .disabled) → 
        exec (.tideSet c p) s = .next (done c 0x0A04 key (refuse a stBusy))) ∧
      (∀ s : State, (refuse s stBusy).st = s ∧ (refuse s stBusy).status = 0x0030) ∧
      (∀ (c : Caller) (p : TideSetP) (s a : State) (key : List Byte), Runs c 0x0A04 s key a → tideRateOk p.num p.den = true → (p.num ≠ a.tide.num ∨ p.den ≠ a.tide.den) → (∀ e ∈ a.heads, e.2.st = .disabled) → 
        exec (.tideSet c p) s = .next (done c 0x0A04 key (ok { a with tide := { a.tide with pendRate := some (p.num, p.den) } } (leBytes 4 (1200000000 * p.den / p.num))))) ∧
      (∀ (c : Caller) (p : TideSetP) (s a : State) (key : List Byte), Runs c 0x0A04 s key a → tideRateOk p.num p.den = true → p.num = a.tide.num → p.den = a.tide.den → 
        exec (.tideSet c p) s = .next (done c 0x0A04 key (ok a (leBytes 4 (1200000000 * p.den / p.num)))))

/-- TIME_SET_PROFILE, PULSE_SET and TIME_QUERY; PTP messages, PPS edges, gates and pulse edges. TIME_SET_PROFILE
writes a valid profile, and a change of source makes the servo acquire again (free-running for source 4). PULSE_SET
writes a pulse output (deferred while it is active) or a capture mode. TIME_QUERY answers the time base, the word, the
count and the port states. A PTP message of the own transport and domain takes the stamp of its frame; Sync and
Announce leave a master port and Delay_Req a slave port at their intervals, with their sequence numbers and stamps;
PPS edges of the profile's kind and gates are measurements, and a gate more than 50 ppm off is a bad one; a lost
source freezes the mean word and enters HOLDOVER; edges fire and are captured. (spec/12_network_time.md). -/
def Obligations.TimeCommandsAndReferences : Prop :=
  (∀ (c : Caller) (p : Profile) (s a : State) (key : List Byte), Runs c 0x0A01 s key a → profileOk a p = true →
        let b := restartPtp a { a.servo with prof := p, todLag := 0 }
        let d : State := { b with servo := { b.servo with
          sourceAt := b.ref, ppsAt := none, tenBad := false, goodRun := 0, badRun := 0 } }
        exec (.timeSetProfile c p) s = .next (done c 0x0A01 key (ok (if a.servo.prof.source = p.source then b
          else if p.source = 4 then setServo (requestWord d 0) .free else setServo d .acquiring)))) ∧
      (∀ (c : Caller) (q : PulseSetP) (s a : State) (key : List Byte), Runs c 0x0A02 s key a → q.target < 8 → pulseOk a q.p = true →
        exec (.pulseSet c q) s = .next (done c 0x0A02 key (ok (putPulse a q.target
          (if (a.pulse q.target).active then { a.pulse q.target with pend := some q.p }
            else loadPulse a q.p (a.pulse q.target).missed) a.tb)))) ∧
      (∀ (c : Caller) (q : PulseSetP) (s a : State) (key : List Byte), Runs c 0x0A02 s key a → q.target = 8 ∨ q.target = 9 →
        captureOk q.p = true → exec (.pulseSet c q) s = .next (done c 0x0A02 key
          (ok (a.setCapture (q.target - 8) { a.capture (q.target - 8) with mode := q.p.mode })))) ∧
      (∀ (c : Caller) (s a : State) (key : List Byte), Runs c 0x0A03 s key a →
        ∃ r, exec (.timeQuery c) s = .next (done c 0x0A03 key (ok (decidePtp a) r)) ∧ r.length = 80 ∧
          slice r 4 4 = leBytes 4 (a.clk.base / one40 % 1000000000) ∧ slice r 8 6 = leBytes 6 (a.clk.base / one40 / 1000000000) ∧
          slice r 24 4 = leBytes 4 (unsigned 32 a.clk.freqWord) ∧ slice r 40 8 = leBytes 8 a.tide.count ∧
          slice r 56 4 = leBytes 4 a.servo.phaseSteps ∧
          ∀ i, i < 16 → slice r (64 + i) 1 = [byte (portState (decidePtp a) i)]) ∧
      (∀ (n : Fin 16) (m : PtpMsg) (w : Int) (s : State) (len stamp : Nat) (rest : List (Nat × Nat)),
        (s.port n.val).timeIn = (len, stamp) :: rest →
        let u := s.setPort n.val { s.port n.val with timeIn := rest }
        (ptpPort u n.val = true → m.transport = u.servo.prof.transport → m.domain = u.servo.prof.domain →
          exec (.ptpReceive n m w) s = .next (ptpMessage u n.val m stamp w)) ∧
        (m.domain ≠ u.servo.prof.domain → exec (.ptpReceive n m w) s = .next u)) ∧
      (∀ (n : Fin 16) (s : State), masterPort s n.val = true →
        intervalDue s s.servo.prof.logSync (s.ptpOf n.val).syncAt = true →
        let q := s.ptpOf n.val
        let half := txStamp s n.val
        exec (.ptpSyncTransmit n) s = .next (sendPtp (s.setPtp n.val { q with seqSync := (q.seqSync + 1) % 65536, syncAt := some s.ref }) n.val q.seqSync
          (fine16 (half % 2)) (.sync false (half / 2)))) ∧
      (∀ (n : Fin 16) (s : State), let d := decidePtp s
        masterPort d n.val = true → intervalDue d d.servo.prof.logAnnounce (d.ptpOf n.val).announceAt = true →
        let q := d.ptpOf n.val
        exec (.ptpAnnounceTransmit n) s = .next (sendPtp (d.setPtp n.val { q with
            seqAnnounce := (q.seqAnnounce + 1) % 65536, announceAt := some d.ref })
          n.val q.seqAnnounce 0 (.announce (announced d)))) ∧
      (∀ (n : Fin 16) (s : State), ptpPort s n.val = true → portState s n.val = 9 →
        intervalDue s s.servo.prof.logDelayReq (s.ptpOf n.val).delayAt = true →
        let q := s.ptpOf n.val
        exec (.ptpDelayReqTransmit n) s = .next (sendPtp (s.setPtp n.val { q with
          delayAt := some s.ref, seqDelay := (q.seqDelay + 1) % 65536, delay := some (q.seqDelay, fine16 (txStamp s n.val)) }) n.val q.seqDelay 0 .delayReq)) ∧
      (∀ s : State, sourceGone s = true → s.servo.st = .locked ∨ s.servo.st = .acquiring →
        exec .sourceLost s = .next (setServo (targetWord s (meanWord s)) .holdover)) ∧
      (∀ (rising : Bool) (w : Int) (s : State), s.servo.prof.source = 1 ∨ s.servo.prof.source = 2 → rising ≠ s.servo.prof.ppsEdge →
        let v := s.servo
        let b : State := { s with servo := { v with
          todLag := if v.prof.todS = 0 then v.todLag else (v.prof.todS : Int) - nearSecond s, ppsAt := some s.ref,
          prof := { v.prof with todS := 0 } } }
        exec (.ppsEdge rising w) s = .next (Machine.measure b (some (ppsError b)) (if v.prof.source = 1 then some w else none))) ∧
      (∀ (w : Int) (s : State), exec (.ppsEdge s.servo.prof.ppsEdge w) s = .next s) ∧
      (∀ (m w : Int) (s : State), let b : State := { s with servo := { s.servo with tenBad := decide (5000 < m.natAbs) } }
        (s.servo.prof.source = 3 → m.natAbs ≤ 5000 → exec (.tenMhzGate m w) s = .next (Machine.measure b none (some w))) ∧
        (s.servo.prof.source = 2 → m.natAbs ≤ 5000 → s.servo.st = .locked ∨ s.servo.st = .acquiring →
          exec (.tenMhzGate m w) s = .next (requestWord b w)) ∧
        (s.servo.prof.source = 2 ∨ s.servo.prof.source = 3 → 5000 < m.natAbs → exec (.tenMhzGate m w) s = .next b)) ∧
      (∀ (p : Fin 8) (s : State) (t : Nat), (s.pulse p.val).next = some t → t ≤ tbStamp s →
        exec (.pulseEdge p) s = .next (pulseEdge s p.val (s.pulse p.val) t)) ∧
      (∀ (i : Fin 2) (rising : Bool) (s : State),
        (if rising then (s.capture i.val).mode.testBit 0 else (s.capture i.val).mode.testBit 1) = true →
        exec (.evtInEdge i rising) s = .next (s.setCapture i.val (if 16 ≤ (s.capture i.val).fifo.length
          then { s.capture i.val with lost := min 255 ((s.capture i.val).lost + 1) }
          else { s.capture i.val with fifo := (s.capture i.val).fifo ++ [(tbStamp s * halfNs, rising)] })))

/-- A Welond link senses, adapts, locks, exchanges capability and times out. In DETECT or ABSENT, sensing termination
on fitted lanes starts an attempt; all receivers adapted means LOCK; bits that leave a lane without lock note the
first bit lock; the first lane whose received bits give bit and block lock starts EXCHANGE; 20 ms of an attempt or 10
ms of EXCHANGE end it with the next attempt; after 1 s ABSENT tries again and FOREIGN exchanges again; loss of
termination makes the link ABSENT. Capability messages leave every 10 microseconds once the pattern of TRAIN has
stopped, 1 ms after bit lock; the control blocks of a packet that comes have their effect, a packet that fails is
counted, a message of channel 3 and version 1 is taken, and one that passes every check and acknowledges makes the
link ACTIVE. (spec/13_welond.md). -/
def Obligations.WelondLinksTrain : Prop :=
  (∀ (l : Fin 2) (m : Nat) (s : State), canSense s l.val = true → (∀ t, (s.wel l.val).sensedAt = some t → t + 100 * msT ≤ s.ref) → (s.wel l.val).st = .detect →
        m &&& (s.wel l.val).fitted ≠ 0 →
        exec (.welondDetect l m) s = .next (startAttempt (s.setWel l.val { s.wel l.val with
          sensing := m &&& (s.wel l.val).fitted, sensedAt := some s.ref }) l.val)) ∧
      (∀ (l : Fin 2) (m : Nat) (s : State), (s.wel l.val).st = .train → ∃ t, exec (.receiverAdapted l m) s = .next t ∧
        (t.wel l.val).adapted = (s.wel l.val).adapted ||| (m &&& (s.wel l.val).sensing) ∧
        (t.wel l.val).st = (if (t.wel l.val).adapted = (s.wel l.val).sensing then .lock else .train)) ∧
      (∀ (l : Fin 2) (i : Fin 8) (bits : List Bool) (s : State), (s.wel l.val).st = .lock ∨ (s.wel l.val).st = .exchange →
        (s.wel l.val).sensing.testBit i.val = true → (s.wel l.val).rxLocked.testBit i.val = false →
        let u := (lineIn s l.val i.val bits).2
        (laneReady (u.laneRx l.val i.val) = true → ∃ t, exec (.welondLock l i bits) s = .next t ∧ (t.wel l.val).st = .exchange ∧
          (t.wel l.val).rxLocked = (s.wel l.val).rxLocked ||| 1 <<< i.val ∧ t.laneRx l.val i.val = u.laneRx l.val i.val ∧
          (t.wel l.val).exchange = (if (s.wel l.val).st = .lock then some s.ref else (s.wel l.val).exchange)) ∧
        (laneReady (u.laneRx l.val i.val) = false → exec (.welondLock l i bits) s = .next (u.setWel l.val { u.wel l.val with
          bitAt := if (u.laneRx l.val i.val).bit = true ∧ (u.wel l.val).bitAt = none then some u.ref else (u.wel l.val).bitAt }))) ∧
      (∀ (l : Fin 2) (s : State), ((s.wel l.val).st = .train ∨ (s.wel l.val).st = .lock) → (s.wel l.val).since + 20 * msT ≤ s.ref →
        exec (.welondAttemptTimeout l) s = .next (startAttempt s l.val)) ∧
      (∀ (l : Fin 2) (s : State) (t : Ticks), (s.wel l.val).st = .exchange → (s.wel l.val).exchange = some t → t + 10 * msT ≤ s.ref →
        exec (.welondAttemptTimeout l) s = .next (startAttempt s l.val)) ∧
      (∀ (l : Fin 2) (m : Nat) (s : State), released s = true → (s.wel l.val).enable = true →
        (s.wel l.val).since + 1000 * msT ≤ s.ref → (s.wel l.val).st = .foreign →
        exec (.welondRetry l m) s =
          .next (s.setWel l.val { s.wel l.val with since := s.ref, exchange := some s.ref, capAt := none })) ∧
      (∀ (l : Fin 2) (m : Nat) (s : State), released s = true → (s.wel l.val).enable = true →
        (s.wel l.val).since + 1000 * msT ≤ s.ref → (s.wel l.val).st = .absent → m &&& (s.wel l.val).fitted ≠ 0 →
        let b : State := { s with clk := { s.clk with lrefB := true } }
        exec (.welondRetry l m) s =
          .next (retryAttempt (b.setWel l.val { s.wel l.val with sensing := m &&& (s.wel l.val).fitted }) l.val)) ∧
      (∀ (l : Fin 2) (s : State), (s.wel l.val).st = .train ∨ (s.wel l.val).st = .lock ∨ (s.wel l.val).st = .exchange →
        exec (.welondTerminationLost l) s = .next (enterAbsent (s.setWel l.val { s.wel l.val with sensing := 0 }) l.val 5)) ∧
      (∀ (l : Fin 2) (s : State), (s.wel l.val).st = .exchange → wireOf s (s.wel l.val) = .blocks →
        (∀ t, (s.wel l.val).capAt = some t → t + 10 * usT ≤ s.ref) →
        exec (.capabilitySend l) s = .next (sendPacket (s.setWel l.val { s.wel l.val with capAt := some s.ref }) l.val 3
          (s.wel l.val).partner s.ring.device (capabilityBytes (ownCapability s l.val)))) ∧
      (∀ (l : Fin 2) (bs : List (Bool × List Byte)) (p : List Byte) (m : Capability) (s : State),
        (s.wel l.val).st = .exchange ∨ (s.wel l.val).st = .foreign → (packetIn s l.val 3 bs).1 = some p →
        capabilityOf p = some m → m.ver = 1 →
        exec (.capabilityReceive l bs) s = .next (takeCapability (packetIn s l.val 3 bs).2 l.val m)) ∧
      (∀ (l channel : Nat) (bs : List (Bool × List Byte)) (s : State), let u := bs.foldl (fun s b => takeBlock s l b) s
        packetIn s l channel bs = match packetPayload bs with
          | none => (none, u.setWel l { u.wel l with pktBad := sat32 (u.wel l).pktBad })
          | some p => (if sopReserved bs = true ∨ sopChannel bs ≠ channel then none else some p, u)) ∧
      (∀ (l : Fin 2) (m : Capability) (s : State),
        let w := { s.wel l.val with partner := m.device % 4, partnerValid := true, partnerFitted := m.fitted, txLocked := m.rxLocked }
        foreignReason (s.setWel l.val w) w m = 0 →
        takeCapability s l.val m = if m.ack then enterActive (s.setWel l.val w) l.val m.tideCount else s.setWel l.val w)

/-- An ACTIVE Welond link follows its lanes, and takes width, fence and tide messages. A lane that loses lock leaves
the mask; with no lane left the link leaves ACTIVE, and a narrowing unheard for 2 microseconds ends the same way. What
a locked lane receives goes through its line decoder, and what one of several used lanes gives waits for the others: a
WIDTH block sets the lanes that the partner has locked, and a FENCE block replaces the groups of its origin. A lane
whose bits give lock again joins the mask, a failed attempt is counted. FENCE blocks are sent every 1,024 slots. A
tide message is compared with the own tide count. (spec/13_welond.md). -/
def Obligations.WelondLinksNarrowAndRetrain : Prop :=
  (∀ (l : Fin 2) (i : Fin 8) (bits : List Bool) (s : State), receiving (s.wel l.val) = true →
        (s.wel l.val).rxLocked.testBit i.val = true →
        let r := lineIn s l.val i.val bits
        let u := takeBlocks r.2 l.val i.val r.1
        (((u.wel l.val).rxLocked.testBit i.val = true ∧ laneReady (u.laneRx l.val i.val) = false) →
          exec (.welondLaneLockLoss l i bits) s = .next (laneLost u l.val i.val)) ∧
        (laneReady (u.laneRx l.val i.val) = true → exec (.welondLaneLockLoss l i bits) s = .next u ∧
          exec (.widthBlockReceive l i bits) s = .next u ∧ exec (.fenceBlockReceive l i bits) s = .next u)) ∧
      (∀ (l lane : Nat) (bs : List (Bool × List Byte)) (s : State), (rxLanes (s.wel l)).length ≤ 1 →
        takeBlocks s l lane bs = bs.foldl (fun s b => takeBlock s l b) s) ∧
      (∀ (l lane i : Nat) (bs : List (Bool × List Byte)) (s : State), lane ∈ rxLanes (s.wel l) → i ∈ rxLanes (s.wel l) →
        i ≠ lane → (s.laneRx l i).held = [] → takeBlocks s l lane bs = holdBlocks s l lane bs) ∧
      (∀ (l : Fin 2) (i : Fin 8) (s : State), (laneLost s l.val i.val).laneRx l.val i.val = {} ∧
        ((s.wel l.val).st ≠ .active → ((laneLost s l.val i.val).wel l.val).rxLocked =
          (s.wel l.val).rxLocked &&& (255 ^^^ 1 <<< i.val))) ∧
      (∀ (l : Fin 2) (s : State) (t : Ticks), (s.wel l.val).st = .active → (s.wel l.val).narrowAt = some t → t + 2 * usT ≤ s.ref →
        exec (.narrowingTimeout l) s = .next (leaveActive s l.val)) ∧
      (∀ (l : Nat) (b : List Byte) (s : State), (s.wel l).st = .active → controlGood b = true →
        (leAt b 0 1 = 3 → takeBlock s l (true, b) = takeWidth (heard s l) l (leAt b 1 1)) ∧
        (leAt b 0 1 = 2 → leAt b 2 1 < 16 → takeBlock s l (true, b) = takeFence s l b)) ∧
      (∀ (l : Fin 2) (i : Fin 8) (bits : List Bool) (s : State), (s.wel l.val).st = .active →
        (s.wel l.val).fitted.testBit i.val = true → (s.wel l.val).rxLocked.testBit i.val = false →
        retrainDue s (s.wel l.val) i.val = true →
        let u := (lineIn (dropLane s l.val i.val) l.val i.val bits).2
        (laneReady (u.laneRx l.val i.val) = true → ∃ t, exec (.laneRetrain l i bits) s = .next t ∧
          (t.wel l.val).rxLocked = (s.wel l.val).rxLocked ||| 1 <<< i.val) ∧
        let n := (laneTry (s.wel l.val) i.val).1
        (laneReady (u.laneRx l.val i.val) = false → tryBegan (s.wel l.val) i.val + 20 * msT ≤ s.ref →
          exec (.laneRetrain l i bits) s = .next (u.setWel l.val
            { u.wel l.val with laneTries := tset (s.wel l.val).laneTries i.val (n + 1, s.ref) }))) ∧
      (∀ (l : Fin 2) (b : List Byte) (s : State), (takeFence s l.val b).fences.wel =
        tset s.fences.wel (leAt b 2 1 % 4) (leAt b 1 1) ∧
        (takeFence s l.val b).fences.sw = s.fences.sw ∧ (takeFence s l.val b).fences.ballLow = s.fences.ballLow) ∧
      (∀ (l : Fin 2) (s : State), (s.wel l.val).st = .active → (s.wel l.val).fenceAt + slotsT (s.wel l.val).rateCode 1024 ≤ s.welT →
        exec (.fenceBlockPeriodic l) s =
          .next (sendFence (s.setWel l.val { s.wel l.val with fenceAt := s.welT }) l.val (ownFences s) s.ring.device 0)) ∧
      (∀ (l : Fin 2) (bs : List (Bool × List Byte)) (p : List Byte) (count depart : Nat) (s : State), (s.wel l.val).st = .active →
        (packetIn s l.val 3 bs).1 = some p →
        let r := widenRx (heard (packetIn s l.val 3 bs).2 l.val) l.val
        exec (.tideMessageReceive l bs count depart none) s =
          .next (checkCounts (r.setWel l.val { r.wel l.val with lastTide := some (depart, r.pt) }) l.val count 0)) ∧
      (∀ (l : Fin 2) (bs : List (Bool × List Byte)) (p : List Byte) (count depart d b : Nat) (s : State), (s.wel l.val).st = .active →
        (packetIn s l.val 3 bs).1 = some p →
        let r := widenRx (heard (packetIn s l.val 3 bs).2 l.val) l.val
        ∃ t, exec (.tideMessageReceive l bs count depart (some (d, b))) s = .next t ∧ (t.wel l.val).tideSkew =
          roundHalfUp (((b : Int) - d) - ((r.pt : Int) - depart)) (2 * nsT) ∧ (t.wel l.val).lastTide = some (depart, r.pt))

/-- Mirror requests, sets, buffers and packets on an ACTIVE link. A request for a mirror of this device joins the
mirrors of the link towards the device that asks; one between other devices joins the link on its way where it passes
here, and goes on. A mirror set is recorded. A mirror's waiting buffer leaves and its pin ends. A packet with a bad
CRC is counted and dropped; one for this device goes to every PEER context that its mirror feeds; one for another
device is passed on. (spec/13_welond.md). -/
def Obligations.MirrorsAreAskedSentAndReceived : Prop :=
  (∀ (l : Fin 2) (bs : List (Bool × List Byte)) (p : List Byte) (m : MirrorAsk) (s : State), (s.wel l.val).st = .active →
        (packetIn s l.val 3 bs).1 = some p →
        let r := heard (packetIn s l.val 3 bs).2 l.val
        (m.origin = r.ring.device → let k := (linkTo r m.device).getD l.val
          let b := addMirror r k (askedMirror m)
          exec (.mirrorRequest l bs m) s = .next (if k = l.val then b else sendAsk b k m)) ∧
        (m.origin ≠ r.ring.device → m.device = r.ring.device → exec (.mirrorRequest l bs m) s = .next r) ∧
        (m.origin ≠ r.ring.device → m.device ≠ r.ring.device →
          let out := if leadsTo r l.val m.device m.origin = true then l.val else 1 - l.val
          let b := if onPath r m.origin m.device = true then addMirror r out (askedMirror m) else r
          exec (.mirrorRequest l bs m) s = .next (if (b.wel (1 - l.val)).st = .active then sendAsk b (1 - l.val) m else b))) ∧
      (∀ (l : Fin 2) (bs : List (Bool × List Byte)) (p : List Byte) (held : List (Nat × Nat)) (s : State),
        (s.wel l.val).st = .active → (packetIn s l.val 3 bs).1 = some p →
        ∃ t, exec (.mirrorSetReceive l bs held) s = .next t ∧ (t.wel l.val).remoteHeld = held ∧
          t.mem = (packetIn s l.val 3 bs).2.mem) ∧
      (∀ (l : Fin 2) (n : Fin 192) (s : State) (m : Mirror) (k : Nat), (s.wel l.val).st = .active →
        (s.wel l.val).mirrors.find? (fun m => m.context == n.val && m.originDevice == s.ring.device && m.waiting.isSome) = some m →
        m.waiting = some k → exec (.mirrorBufferSend l n) s = .next (sendMirror s l.val m k)) ∧
      (∀ (l : Fin 2) (m : Mirror) (k : Nat) (d : List Byte) (s t : State), mirrorBytes s l.val m.context k m.compress = some (d, t) →
        let u := sendBuffer t l.val m d ((s.ctx m.context).buf k).record
        sendMirror s l.val m k = u.setWel l.val { u.wel l.val with
          mirrors := (u.wel l.val).mirrors.map (fun x => if sameMirror m x then { x with waiting := none } else x) }) ∧
      (∀ (l : Fin 2) (p : MirrorPacket) (s : State), (s.wel l.val).st = .active → (packetIn s l.val 0 p.blocks).1 = none →
        exec (.mirrorPacketReceive l p) s = .next (packetIn s l.val 0 p.blocks).2) ∧
      (∀ (l : Fin 2) (p : MirrorPacket) (d : List Byte) (s : State), (s.wel l.val).st = .active →
        (packetIn s l.val 0 p.blocks).1 = some d →
        let r := heard (packetIn s l.val 0 p.blocks).2 l.val
        let ns := peersOf r (sopSrc p.blocks) p.originContext
        (sopDest p.blocks ≠ r.ring.device → exec (.mirrorPacketReceive l p) s = .next (forwardPacket r l.val p)) ∧
        (sopDest p.blocks = r.ring.device → exec (.mirrorPacketReceive l p) s = .next (match p.body with
          | .data o d => ns.foldl (fun s n => peerData l.val s n o d) r
          | .record x => ns.foldl (fun s n => peerRecord l.val s n x) r)))

/-- Touch frames, baselines, thresholds, noise, slow scan, stuck and saturated nodes, reports and packets. A desk in
full scan takes the frame of its readings, in slow scan the super-node readings. BASELINE_DONE sets it to full scan. A
node steadily negative for 60 frames takes its value as baseline; the threshold is set each 64 frames; noise mode
begins and ends with its runs; slow scan begins after SLOW_AFTER_S without contact. A contact past STUCK_S and a node
saturated for 240 frames raise their SERVICE errors once. Reports of a touch frame go out, a damaged packet says
nothing more, one for another device is passed on over the other link, and one for this device is taken into its
context's input. (spec/18_touch.md). -/
def Obligations.TouchFramesAndDeskEvents : Prop :=
  (∀ (d : Fin 4) (l : List NodeReading) (noise : List (List Int)) (s : State),
        (s.desk d.val).st = .baselining ∨ (s.desk d.val).st = .full → framesDue s (s.desk d.val).frameIx 1 = true →
        readingsOk (nodeCount (s.desk d.val)) l = true → noise.length = 4 →
        noise.all (fun e => e.length == (s.desk d.val).cfg.sense) = true →
        exec (.touchFrame d l noise) s = .next (touchFrame s d.val (l.map nodeValue) noise)) ∧
      (∀ (d : Fin 4) (l : List NodeReading) (s : State), (s.desk d.val).st = .slow → framesDue s (s.desk d.val).frameIx 30 = true →
        readingsOk (superCount (s.desk d.val)) l = true →
        exec (.slowScanFrame d l) s = .next (slowFrame s d.val (l.map nodeValue))) ∧
      (∀ (d : Fin 4) (s : State), exec (.baselineDone d) s = .next (s.setDesk d.val (endBaselining (s.desk d.val)))) ∧
      (∀ (d : Fin 4) (i : Nat) (s : State) (n : Node), tfind (s.desk d.val).nodes i = some n → (s.desk d.val).st = .full →
        negSteady (s.desk d.val) n = true → ∃ t, exec (.negRebase d i) s = .next t ∧ tfind (t.desk d.val).nodes i =
          some { n with base := 256 * (n.value : Int), negRun := [] } ∧
          (t.desk d.val).contacts = (s.desk d.val).contacts ∧ t.mem = s.mem) ∧
      (∀ (d : Fin 4) (s : State), thresholdDue (s.desk d.val) = true →
        exec (.thresholdUpdate d) s = .next (s.setDesk d.val (setThreshold (s.desk d.val)))) ∧
      (∀ (d : Fin 4) (s : State), (s.desk d.val).st = .full ∨ (s.desk d.val).st = .baselining →
        (noiseBegins (s.desk d.val) = true →
          exec (.chargerNoiseEntry d) s = .next (s.setDesk d.val (enterNoise (s.desk d.val)))) ∧
        (noiseEnds (s.desk d.val) = true →
          exec (.chargerNoiseExit d) s = .next (s.setDesk d.val (leaveNoise (s.desk d.val))))) ∧
      (∀ (d : Fin 4) (s : State), (s.desk d.val).st = .full → (s.desk d.val).cfg.slowEn = true → (s.desk d.val).cfg.slowAfterS ≠ 0 →
        (s.desk d.val).contacts = [] → (s.desk d.val).lastContact + (s.desk d.val).cfg.slowAfterS * secT ≤ s.aon →
        ∃ t, exec (.slowScanEntry d) s = .next t ∧ (t.desk d.val).st = .slow) ∧
      (∀ (d : Fin 4) (i : Fin 10) (s : State) (c : Contact), tfind (s.desk d.val).contacts i.val = some c → c.stuck = false →
        c.since + (s.desk d.val).cfg.stuckS * secT < s.aon →
        exec (.touchStuck d i) s = .next (raiseClass (s.setDesk d.val { s.desk d.val with
          contacts := tset (s.desk d.val).contacts i.val { c with stuck := true }, stuck := sat32 (s.desk d.val).stuck })
          0x0301 1 (d.val + 256 * i.val) (256 * c.d + c.s) ((s.aon - c.since) / secT))) ∧
      (∀ (d : Fin 4) (i : Nat) (s : State) (n : Node), tfind (s.desk d.val).nodes i = some n → n.satRaised = false → 240 ≤ n.satRun →
        exec (.touchSaturated d i) s = .next (raiseClass (s.setDesk d.val { s.desk d.val with
          nodes := tset (s.desk d.val).nodes i { n with satRaised := true } })
          0x0302 1 d.val (256 * (i % (s.desk d.val).cfg.drive) + i / (s.desk d.val).cfg.drive) 0)) ∧
      (∀ (d : Fin 4) (s : State), released s = true → (s.desk d.val).report = true ∨ s.ctxs.any (fun c => c.2.repeats != 0) = true →
        reportsReady s = true →
        exec (.touchReport d) s = .next (touchReport s)) ∧
      (∀ (l : Fin 2) (blocks : List (Bool × List Byte)) (s : State), (s.wel l.val).st = .active →
        let u := (packetIn s l.val 2 blocks).2
        ((packetIn s l.val 2 blocks).1 = none → exec (.touchPacketReceive l blocks) s = .next u) ∧
        (∀ payload, (packetIn s l.val 2 blocks).1 = some payload →
          (sopDest blocks ≠ u.ring.device → (u.wel (1 - l.val)).st = .active →
            exec (.touchPacketReceive l blocks) s =
              .next (sendPacket u (1 - l.val) 2 (sopDest blocks) (sopSrc blocks) payload)) ∧
          (∀ p, sopDest blocks = u.ring.device → touchPacketOf (sopDest blocks) payload = some p →
            returns (u.ctx p.context) = true →
            let b := u.setCtx p.context { u.ctx p.context with remoteDown := remoteDownAfter (u.ctx p.context).remoteDown p }
            exec (.touchPacketReceive l blocks) s =
              .next (sendInput b p.context (ofCap p.touchS p.touchNs) (streamDown b p.context) p.records))))

/-- TOUCH_CONFIG, TOUCH_REBASE and TOUCH_ROUTE. TOUCH_CONFIG with settings in range enables a desk that is off, stores
the settings of one that stays off, changes or disables one that is enabled, and answers BUSY, changing nothing, when
an enabled desk's geometry would change. TOUCH_REBASE adds the covered nodes, cancels the contacts they touch and
answers the desk's block. TOUCH_ROUTE writes or clears a route entry, and cancels the contacts of the one that it
clears; clearing an absent one is BAD_PARAM. (spec/18_touch.md). -/
def Obligations.TouchCommandsComplete : Prop :=
  (∀ (c : Caller) (p : TouchConfigP) (s a : State) (key : List Byte), Runs c 0x0D01 s key a → p.desk ≤ 3 → deskConfigOk p.cfg = true → (a.desk p.desk).cfg.enable = true → geometryDiffers (a.desk p.desk).cfg p.cfg = true → 
        exec (.touchConfig c p) s = .next (done c 0x0D01 key (refuse a stBusy))) ∧
      (∀ (c : Caller) (p : TouchConfigP) (s a : State) (key : List Byte), Runs c 0x0D01 s key a → p.desk ≤ 3 → deskConfigOk p.cfg = true → (a.desk p.desk).cfg.enable = true → geometryDiffers (a.desk p.desk).cfg p.cfg = false → 
        exec (.touchConfig c p) s = .next (done c 0x0D01 key (ok (if p.cfg.enable then changeDesk a p.desk p.cfg else disableDesk a p.desk p.cfg)))) ∧
      (∀ (c : Caller) (p : TouchConfigP) (s a : State) (key : List Byte), Runs c 0x0D01 s key a → p.desk ≤ 3 → deskConfigOk p.cfg = true → (a.desk p.desk).cfg.enable = false → 
        exec (.touchConfig c p) s = .next (done c 0x0D01 key (ok (if p.cfg.enable then enableDesk a p.desk p.cfg
          else a.setDesk p.desk { a.desk p.desk with cfg := p.cfg, next := none })))) ∧
      (∀ (c : Caller) (p : TouchRebaseP) (s a : State) (key : List Byte), Runs c 0x0D02 s key a → p.desk ≤ 3 → p.op ≠ 3 →
        let k := a.desk p.desk
        let b := cancelContacts (a.setDesk p.desk { k with rebase := k.rebase ++ rebased k p.op })
          (fun d _ x => d == p.desk && (footprint k x).any (fun i => (rebased k p.op).contains i))
        exec (.touchRebase c p) s = .next (done c 0x0D02 key (ok b (deskBlock (b.desk p.desk))))) ∧
      (∀ (c : Caller) (p : TouchRouteP) (s a : State) (key : List Byte), Runs c 0x0D03 s key a → p.desk ≤ 3 → p.entry ≤ 7 → p.clear = false → routeBad a (a.desk p.desk) p.entry p.r = false → 
        exec (.touchRoute c p) s = .next (done c 0x0D03 key (ok (a.setDesk p.desk { a.desk p.desk with routes := tset (a.desk p.desk).routes p.entry p.r })))) ∧
      (∀ (c : Caller) (p : TouchRouteP) (s a : State) (key : List Byte), Runs c 0x0D03 s key a → p.desk ≤ 3 → p.entry ≤ 7 → p.clear = true → thas (a.desk p.desk).routes p.entry = true → 
        exec (.touchRoute c p) s = .next (done c 0x0D03 key (ok (cancelContacts
          (a.setDesk p.desk (clearRoute (a.desk p.desk) p.entry))
          (fun d _ x => d == p.desk && x.route.map (·.1) == some p.entry))))) ∧
      (∀ (k : Desk) (e : Nat), (clearRoute k e).routes = tdel k.routes e ∧ (clearRoute k e).nodes = k.nodes ∧ (clearRoute k e).cfg = k.cfg) ∧
      (∀ (c : Caller) (p : TouchRouteP) (s a : State) (key : List Byte), Runs c 0x0D03 s key a → p.clear = true → thas (a.desk p.desk).routes p.entry = false → 
        exec (.touchRoute c p) s = .next (done c 0x0D03 key (refuse a stBadParam)))

/-- TRIM_RUN, TRIM_QUERY, WAKE_BUDGET and POWER_QUERY; trim, voltage and power-state events. TRIM_RUN starts a run
while none runs and REFCLK is present, or starts to write DELTA_C alone; TRIM_QUERY answers its blocks; WAKE_BUDGET
with REST_S from 10 to 3,600 takes the budgets and answers the target. A run measures its entries one element at a
time, swaps elements one at a time, and completes once every entry has a result and its records are written; a sample
is taken each second; the voltage loop and the readback act; a held WAKE_IN wakes the device, POWER_EXIT_DONE ends its
power state in ACTIVE, and REST_TIMEOUT enters the target. (spec/19_trim_power.md). -/
def Obligations.TrimRunsAndPowerStates : Prop :=
  (∀ (c : Caller) (p : TrimRunP) (s a : State) (key : List Byte), Runs c 0x0E01 s key a → p.run = true → (p.setDelta = true → 2 ≤ p.deltaC ∧ p.deltaC ≤ 20) → a.trim.run = none → a.clk.refclk = true → 
        exec (.trimRun c p) s = .next (done c 0x0E01 key (⟨startRunNow (settleWrite a) (if p.setDelta then p.deltaC else (settleWrite a).trim.deltaC) (some c), stPending, []⟩))) ∧
      (∀ (c : Caller) (p : TrimRunP) (s a : State) (key : List Byte), Runs c 0x0E01 s key a → p.run = false → p.setDelta = true → 2 ≤ p.deltaC → p.deltaC ≤ 20 → a.trim.run = none → 
        exec (.trimRun c p) s = .next (done c 0x0E01 key (⟨writeDelta (settleWrite a) c p.deltaC, stPending, []⟩))) ∧
      (∀ (c : Caller) (s a : State) (key : List Byte), Runs c 0x0E02 s key a → 
        exec (.trimQuery c ⟨0, 0, 0⟩) s = .next (done c 0x0E02 key (ok a (trimBlock a)))) ∧
      (∀ (c : Caller) (s a : State) (key : List Byte) (i x : Nat), Runs c 0x0E02 s key a → trimPointOk i x = true → 
        exec (.trimQuery c ⟨1, i, x⟩) s = .next (done c 0x0E02 key (ok a (leBytes 8 (setShown a i x).select ++
          leBytes 8 (setShown a i x).failed ++ leBytes 4 (unsigned 32 (setShown a i x).value) ++
          [byte (setShown a i x).flags] ++ zeros 3)))) ∧
      (∀ (c : Caller) (b : Budgets) (s a : State) (key : List Byte), Runs c 0x0E03 s key a → 10 ≤ b.restS → b.restS ≤ 3600 →
        exec (.wakeBudget c b) s = .next (done c 0x0E03 key
          (ok (applyBudgets { a with power := { a.power with budgets := b } }) ([byte (powerTarget b)] ++ zeros 3)))) ∧
      (∀ (c : Caller) (s a : State) (key : List Byte), Runs c 0x0E04 s key a → ∃ r b, exec (.powerQuery c) s =
        .next (done c 0x0E04 key (ok b r)) ∧ slice r 0 4 = [byte (a.power.state + 4 * powerTarget a.power.budgets),
          byte a.power.wakeReason] ++ leBytes 2 a.power.vdd ∧ b.power = a.power ∧ b.mem = a.mem ∧ b.heads = a.heads) ∧
      (∀ (s : State) (r : TrimRun) (w : NvmWrite), s.trim.run = some r → s.trim.write = some w → r.left = [] →
        w.records.length ≤ w.written →
        ((∀ c, r.caller = some c → overdue s c 0x0E01 = false) →
          exec .trimRunComplete s = .next (completeRun s r w)) ∧
        (∀ c, r.caller = some c → overdue s c 0x0E01 = true → exec .trimRunComplete s = .next (undoRun s c))) ∧
      (∀ (l : List Int) (s : State), released s = true → l.length = 16 → (∀ t, s.trim.tempAt = some t → t + secT ≤ s.aon) →
        ∃ t, exec (.temperatureSample l) s = .next t ∧ t.trim.tempNow = (hottest s l).1 ∧ t.trim.tempAt = some s.aon ∧
          t.trim.sets = s.trim.sets ∧ t.mem = s.mem) ∧
      (∀ (item index e : Nat) (v : Nat × Nat) (sensor edge : Int) (s : State) (r : TrimRun), s.trim.run = some r →
        trimPointOk item index = true → mayMeasure s r item index e = true →
        exec (.trimElementStep item index (.measure e v sensor edge)) s = .next (measureEntry s r item index e v sensor edge) ∧
        (item ≤ 2 → measureEntry s r item index e v sensor edge = applyValue r.absent item index (tracedValue item v sensor)
          { s with trim := { s.trim with run := some (entryDone r item index) } })) ∧
      (∀ (item index e f : Nat) (s : State) (r : TrimRun), s.trim.run = some r → item = 3 ∨ item = 4 →
        trimPointOk item index = true → stepDue s = true →
        exec (.trimElementStep item index (.move (some e) (some f))) s = .next (swapElement s r item index e f)) ∧
      (∀ (item index : Nat) (e f : Option Nat) (s : State), s.trim.run = none ∨ e = none ∨ f = none → item = 3 ∨ item = 4 →
        trimPointOk item index = true → stepDue s = true →
        exec (.trimElementStep item index (.move e f)) s = .next (growSet s item index e f)) ∧
      (∀ (item index e f : Nat) (s : State) (r : TrimRun), let k := trimKey item index
        let old := (tfind s.trim.deferred k).getD (setInForce s item index)
        (tfind (tget [] r.got k) e).elim false (elementSound item) = true → old.select.testBit e = false →
        old.select.testBit f = true → waits s item index = false → ∃ v,
        tfind (swapElement s r item index e f).trim.sets k =
          some { old with select := old.select + 2 ^ e - 2 ^ f, value := v }) ∧
      (∀ (l : List Nat) (s : State), released s = true → l.length = 32 → (∀ m ∈ l, m ≤ 63) →
        (∀ t, s.power.sampledAt = some t → t + 10 * usT ≤ s.ref) →
        exec (.avsSample l) s = .next (avsLoop s (lowestMargin l).1 (lowestMargin l).2)) ∧
      (∀ (ack : Bool) (uv t : Nat) (s : State), s.power.voutAt = some t → t + 40 * usT ≤ s.ref →
        let u := pmbus s 0x8B none
        exec (.voutReadback ack uv) s = .next (if ack = true ∧ 1000 * s.power.vdd ≤ uv + 10000 ∧ uv ≤ 1000 * s.power.vdd + 10000 then
          { u with power := { u.power with retries := 0, voutAt := none, pmbusFail := false } } else voutFails u)) ∧
      (∀ (us : Nat) (s : State), 1000 ≤ us → s.power.state ≠ 0 → s.power.waking = false → exec (.wakeIn us) s =
        .next { s with power := { s.power with waking := true, resume := true, wakeReason := 4 } }) ∧
      (∀ s : State, exitDone s = true → exec .powerExitDone s =
        .next (postPower { s with power := { s.power with state := 0, waking := false } } s.power.state 0)) ∧
      (∀ s : State, restReady s = true →
        (powerTarget s.power.budgets ≠ 3 → exec .restTimeout s = .next (enterPower s (powerTarget s.power.budgets))) ∧
        (powerTarget s.power.budgets = 3 → exec .restTimeout s = .next (beginWarm (enterPower s 3) 2)))

/-- Reads that latch, interrupt and event-ring registers, mailboxes, register writes and the sluice. While the host
link works: a read of the tide count's low word latches its high word, and a read of both at once gives both, one of
TIME_NS latches the seconds; a write to IRQ_STATUS clears the bits written as 1; the mask, the MSI-X masks, EVR_ENABLE
and EVR_CONS take their values; a write of a mailbox's first word sets IRQ_EN, frees a DONE mailbox on ACK and submits
an IDLE one on GO; every word of HW-A, the MSI-X table and the function mask can be written. A datagram on a port with
an enabled sluice and tokens for its frame goes to the warden, one below 32 bytes is dropped. (spec/15_warden.md). -/
def Obligations.HostRegistersMailboxesAndSluice : Prop :=
  (∀ (wide : Bool) (s : State), hostUp s = true → exec (.tideCountLowRead wide) s = .next (({ s with tide := { s.tide with
        latchedHigh := s.tide.count / 2 ^ 32 } }).emit (.completion (leBytes (if wide then 8 else 4) s.tide.count) false))) ∧
      (∀ s : State, hostUp s = true → exec .timeNsRead s = .next (({ s with tide := { s.tide with
        latchedSec := timeS s.tb } }).emit (.completion (leBytes 4 (timeNs s.tb)) false))) ∧
      (∀ (v : BitVec 32) (s : State), hostUp s = true → exec (.irqStatusClear v) s =
        .next { s with irq := { s.irq with status := s.irq.status &&& ~~~v } }) ∧
      (∀ (v : BitVec 32) (s : State), hostUp s = true → (∀ i, s.irq.mask.getLsbD i = true → v.getLsbD i = true) →
        exec (.irqMaskWrite v) s = .next { s with irq := { s.irq with mask := v } }) ∧
      (∀ (v : BitVec 32) (s : State), hostUp s = true → exec (.irqMaskWrite v) s = .next (writeMask v s)) ∧
      (∀ (e : BitVec 32) (f : Bool) (s : State), hostUp s = true → exec (.msixUnmask e f) s = .next (sendPending { s with
        irq := { s.irq with entryMask := s.irq.entryMask &&& ~~~e, funcMask := s.irq.funcMask && !f } })) ∧
      (∀ (v : BitVec 32) (s : State), hostUp s = true → v.getLsbD 0 = true → s.evr.enable = false →
        exec (.evrEnableWrite v) s = .next { s with evr := { s.evr with
          enable := true, prod := 0, cons := 0, phase := true, seq := 0, fullLost := 0 } }) ∧
      (∀ (v : BitVec 32) (s : State), hostUp s = true → v.toNat % 65536 < evrSize s.evr → s.evr.fullLost = 0 →
        exec (.evrConsWrite v) s = .next { s with evr := { s.evr with cons := v.toNat % 65536 } }) ∧
      (∀ (n : Fin 8) (v : BitVec 32) (s : State), hostUp s = true → (s.mailbox n.val).state = 0 → v.getLsbD 0 = true →
        exec (.mailboxGo n v) s = .next (submit n (s.setMailbox n.val { s.mailbox n.val with irqEn := v.getLsbD 2 }))) ∧
      (∀ (n : Fin 8) (v : BitVec 32) (s : State), hostUp s = true → (s.mailbox n.val).state = 2 → v.getLsbD 1 = true →
        ∃ t, exec (.mailboxAck n v) s = .next t ∧ t.mailbox n.val = { s.mailbox n.val with irqEn := v.getLsbD 2, state := 0 }) ∧
      (∀ (o : Nat) (v : BitVec 32) (s : State), hostUp s = true →
        (o < 65536 → exec (.registerWrite .hwa o v) s = .next (writeHwa o v s)) ∧
        (o < 512 → o % 16 / 4 = 2 → exec (.registerWrite .msix o v) s = .next { s with irq := { s.irq with
          table := tset s.irq.table (o / 16) ((tget (0, 0) s.irq.table (o / 16)).1, v.toNat) } }) ∧
        exec (.registerWrite .msixControl o v) s =
          .next (sendPending { s with irq := { s.irq with funcMask := v.getLsbD 30 } })) ∧
      (∀ (n : Fin 16) (src : IpAddr) (u len : Nat) (l : List Byte) (s : State), portUp s n.val = true →
        (s.port n.val).sluiceEn = true → tokens len ≤ (fillBuckets (s.port n.val) s.net).sluiceTokens →
        let p := fillBuckets (s.port n.val) s.net
        let b := s.setPort n.val { p with sluiceRx := sat32 p.sluiceRx, sluiceTokens := p.sluiceTokens - tokens len }
        exec (.sluiceDatagram n src u len l) s =
          .next (if l.length < 32 then sluiceDropped b n.val else sluiceRecord n src u l b))

/-- BED_LOAD, SKIM_STORE, SKIM_APPLY, SKIM_APPROVE, CONFIG_QUERY and skim messages. A BED_LOAD whose image passes
every check retains it, lets it wait for the next tide and answers that tide's count; one that fails answers its fault
block. SKIM_STORE that passes stores the image with the role of its sender. SKIM_APPLY of a sound skim is scheduled,
held for approval where the skim asks it, or cancelled by CANCEL. An approval by another key in time releases the held
apply. CONFIG_QUERY answers the configuration, the refusal counts or a slot. A skim message of an active link is
handled, or goes on over the other link when it is for another device. (spec/17_bed_skims.md). -/
def Obligations.BedsAndSkimsComplete : Prop :=
  (∀ (c : Caller) (p : BedLoadP) (s a : State) (key : List Byte), Runs c 0x0201 s key a → a.start.failedChans = [] →
        dykePermits a idWarden p.addr p.bytes false = true → p.bytes ≤ 2 ^ 20 →
        let l := (wardenRead a p.addr p.bytes).1
        let b := (wardenRead a p.addr p.bytes).2.2
        exec (.bedLoad c p) s = .next (done c 0x0201 key (match checkBed b l p.bytes with
          | .ok (bed, t) => ok (acceptBed (retainBed t l) bed) (leBytes 8 (nextCount t))
          | .error (f, t) => ⟨t, f.status, faultBlockBed f⟩))) ∧
      (∀ (c : Caller) (p : SkimStoreP) (s a b : State) (key l : List Byte) (poisoned : Bool) (k : Nat), Runs c 0x0202 s key a →
        skimTarget a p.skim = some k → k ≤ 31 → slotLive a k = false → dykePermits a idWarden p.addr p.bytes false = true →
        p.bytes ≤ 2 ^ 16 → wardenRead a p.addr p.bytes = (l, poisoned, b) → skimFault b l p.bytes = none → (p.loc = false → ringReachable a = true ∧ (b.ring.ring = 0 ∨ p.acked = true)) →
        let t := if p.loc then b else sendSkim b (skimArgs (.store k (callerRole b c) l))
        exec (.skimStore c p) s = .next (done c 0x0202 key (ok (storeSkim t k l (callerRole b c))
          ([byte k, 0#8, 0#8, 0#8] ++ leBytes 4 (leAt l (l.length - 4) 4))))) ∧
      (∀ (c : Caller) (p : SkimApplyP) (s a : State) (key : List Byte) (k : Skim), Runs c 0x0203 s key a → p.cancel = false →
        (answersOf p a).contains .bedDiffers = false → applyFault a p.skim p.tide = none → peersFault (answersOf p a) = none →
        tfind a.cfg.skims p.skim = some k → a.cfg.applies.any (fun x => x.tide == p.tide) = false → a.cfg.applies.length < 8 →
        (p.loc = true → 2 ≤ callerRole a c) →
        let b := if p.loc then a else sendSkim a (skimArgs (.apply p.skim p.tide a.tide.count k.dual))
        (k.dual = false → exec (.skimApply c p) s = .next (done c 0x0203 key (ok (addApply b ⟨p.skim, p.tide, false, p.loc⟩)))) ∧
        (k.dual = true → a.approvals.any (fun x => x.skim == p.skim) = false → a.approvals.length < 4 →
          exec (.skimApply c p) s =
            .next (done c 0x0203 key ⟨holdApply c b p.skim p.tide p.loc, stApprovalNeeded, []⟩))) ∧
      (∀ (c : Caller) (p : SkimApplyP) (s a : State) (key : List Byte), Runs c 0x0203 s key a → p.cancel = true → 
        exec (.skimApply c p) s = .next (done c 0x0203 key (cancelApply c p a))) ∧
      (∀ (c : Caller) (p : SkimApproveP) (s a : State) (key : List Byte) (x : Approval), Runs c 0x0204 s key a →
        a.approvals.find? (fun x => x.skim == p.skim) = some x → (openSession a c).map (·.keySlot) ≠ some x.keySlot →
        x.tide = p.tide → a.ref < x.at_ + 30 * secT → a.tide.count + 2 ≤ x.tide → p.acked = true ∨ appliesAway a x = false →
        exec (.skimApprove c p) s = .next (done c 0x0204 key (ok (approve c x a)))) ∧
      (∀ (c : Caller) (s a : State) (key : List Byte), Runs c 0x0205 s key a → 
        exec (.configQuery c ⟨0, 0, 0⟩) s = .next (done c 0x0205 key (ok a (configBlock a)))) ∧
      (∀ (c : Caller) (s a : State) (key : List Byte), Runs c 0x0205 s key a → 
        exec (.configQuery c ⟨1, 0, 0⟩) s = .next (done c 0x0205 key (ok a ((List.range 16).flatMap (fun i => leBytes 4 (tget 0 a.cfg.refusals i)))))) ∧
      (∀ (c : Caller) (s a : State) (key : List Byte) (i : Nat) (k : Skim), Runs c 0x0205 s key a → i ≤ 31 → tfind a.cfg.skims i = some k → 
        exec (.configQuery c ⟨3, i, 0⟩) s = .next (done c 0x0205 key (ok a (slotBlock a i k)))) ∧
      (∀ (l : Fin 2) (bs : List (Bool × List Byte)) (p : List Byte) (m : SkimMsg) (s : State), (s.wel l.val).st = .active →
        (packetIn s l.val 1 bs).1 = some p → let u := (packetIn s l.val 1 bs).2
        (sopDest bs = u.ring.device → u.start.warden = .ready →
          exec (.skimMessageReceive l bs m) s = .next (skimMessage u (sopSrc bs) m)) ∧
        (sopDest bs ≠ u.ring.device → (u.wel (1 - l.val)).st = .active →
          exec (.skimMessageReceive l bs m) s =
            .next (sendBlocks (u.emit (.passed (1 - l.val) (packetOnly bs))) (1 - l.val) (packetOnly bs))))

/-- ERR_READ and ERR_ACK; lost clocks, thermal readings, watchdog, parity and the host link. ERR_READ of 1 to 14
records completes OK, changes nothing and answers the queue's length, how many records follow, the overflow count and
the records from FIRST, oldest first. ERR_ACK with NONE 0 of a queued record by its ID, where no record it names is of
class 2 or 3 or the role is at least 2, completes OK, removes the records it names, lets SAFE state end where that may
be, and answers how many it removed and how many remain; with NONE 1, ID 0 and OLDER 0 it removes none (in SAFE state
for a role of at least 2). Out of PORST_N, REFCLK_LOST with REFCLK present puts AON on the ring oscillator, abandons a
trim run and raises error 0x0001; a command that waits for the run completes with INTERNAL. REFCLK_RETURN after 1 ms
of REFCLK ends that. On a released device LREF_A lost raises 0x0002 and every Ethernet link goes down; LREF_B lost
raises 0x0002 and every Welond link that is not DISABLED is ABSENT; PCIE_REFCLK lost raises 0x0003 and the host link
goes down, as with PCIE_LINK_DOWN: IDENT and ENABLE 0, every mailbox IDLE. PERST_N does that and resets the interrupt
masks, the pending bits and the MSI-X table. THERMAL_CHECK of 20 readings, 1 ms after the last one, notes the highest
reading; below 110 °C it arms the alert; from 115 °C an armed alert raises 0x0103 once; from 125 °C it raises 0x0102.
A watchdog of 100 ms raises 0x0101 and a parity error 0x0109, both FATAL, and FATAL_HANDLING while the warden is READY
ends the handling. (spec/16_commands.md, spec/20_startup_faults.md). -/
def Obligations.ErrorsAndReferencesAreHandled : Prop :=
  (∀ (c : Caller) (p : ErrReadP) (s a : State) (key : List Byte), Runs c 0x0F01 s key a → 1 ≤ p.count → p.count ≤ 14 → 
        exec (.errRead c p) s = .next (done c 0x0F01 key (ok a ([byte a.errs.length, byte ((a.errs.drop p.first).take p.count).length] ++
          leBytes 2 a.errOverflow ++ zeros 4 ++ ((a.errs.drop p.first).take p.count).flatMap errorBytes)))) ∧
      (∀ (c : Caller) (p : ErrAckP) (s a : State) (key : List Byte), Runs c 0x0F02 s key a → p.none = false →
        a.errs.any (fun r => r.id == p.id) = true →
        ((∀ r ∈ a.errs.filter (acked p), r.cls < 2) ∨ 2 ≤ callerRole a c) →
        exec (.errAck c p) s = .next (done c 0x0F02 key (ok (endSafe (ackErrors p a))
          ([byte (a.errs.filter (acked p)).length, byte (endSafe (ackErrors p a)).errs.length] ++ zeros 2)))) ∧
      (∀ (c : Caller) (p : ErrAckP) (s a : State) (key : List Byte), Runs c 0x0F02 s key a → p.none = true → p.id = 0 → p.older = false →
        (a.start.safe = true → 2 ≤ callerRole a c) →
        exec (.errAck c p) s = .next (done c 0x0F02 key (ok (endSafe (ackErrors p a))
          ([0#8, byte (endSafe (ackErrors p a)).errs.length] ++ zeros 2)))) ∧
      (∀ (p : ErrAckP) (s : State), (ackErrors p s).errs = s.errs.filter (fun r => !acked p r) ∧
        (p.none = true → (ackErrors p s).errs = s.errs)) ∧
      (∀ s : State, s.start.boot ≠ .porst → s.clk.refclk = true →
        let u := raiseErr { s with clk := { s.clk with refclk := false, aonRing := true }, trim := abandonTrim s.trim } 0x0001 0 0 0
        exec .refclkLost s = .next (match s.trim.run.bind (·.caller) with
          | some c => finishRunning u c 0x0E01 stInternal []
          | none => u) ∧ (abandonTrim s.trim).run = none) ∧
      (∀ (us : Nat) (s : State), s.clk.refclk = false → 1000 ≤ us → exec (.refclkReturn us) s = .next { s with clk := { s.clk with
        refclk := true, aonRing := false, refclkSince := s.ref - us * usT, aon := alignAon s.clk } }) ∧
      (∀ s : State, released s = true → s.clk.lrefA = true →
        let u := raiseErr { s with clk := { s.clk with lrefA := false } } 0x0002 0 0 0
        exec .lrefALost s = .next { u with ports := tmap (fun _ (p : Port) => { p with link := false }) u.ports }) ∧
      (∀ s : State, released s = true → s.clk.lrefB = true →
        let u := raiseErr { s with clk := { s.clk with lrefB := false } } 0x0002 1 0 0
        ∃ t, exec .lrefBLost s = .next t ∧ ∀ l : Fin 2, (u.wel l.val).st ≠ .disabled → (t.wel l.val).st = .absent) ∧
      (∀ s : State, hostUp s = true → exec .pcieLinkDown s = .next (hostLinkDown s) ∧
        exec .pcieRefclkLost s =
          .next (hostLinkDown (raiseErr { s with clk := { s.clk with pcieRefclk := false } } 0x0003 0 0 0))) ∧
      (∀ s : State, released s = true → exec .perstN s = .next { hostLinkDown s with
        clk := { (hostLinkDown s).clk with pcieRefclk := true },
        irq := { (hostLinkDown s).irq with entryMask := 0xFFFFFFFF#32, funcMask := false, pba := 0#32, table := [] } }) ∧
      (∀ s : State, (hostLinkDown s).hwbIdent = 0 ∧ (hostLinkDown s).evr.enable = false ∧
        ∀ n, ((hostLinkDown s).mailbox n).state = 0) ∧
      (∀ (l : List Int) (s : State), s.start.boot ≠ .porst → l.length = 20 → (∀ t, s.start.checkedAt = some t → t + msT ≤ s.aon) →
        let x := (hottest s l).1
        let b := { s with start := { s.start with junction := some x, checkedAt := some s.aon } }
        let alert := raiseErr { b with start := { b.start with alertArmed := false } } 0x0103 (hottest s l).2 (unsigned 32 x) 0
        (x < 110 * 16 → exec (.thermalCheck l) s = .next { b with start := { b.start with alertArmed := true } }) ∧
        (110 * 16 ≤ x → x < 115 * 16 ∨ (x < 125 * 16 ∧ s.start.alertArmed = false) → exec (.thermalCheck l) s = .next b) ∧
        (115 * 16 ≤ x → x < 125 * 16 → s.start.alertArmed = true → exec (.thermalCheck l) s = .next alert) ∧
        (125 * 16 ≤ x → exec (.thermalCheck l) s = .next (raiseErr (if s.start.alertArmed then alert else b)
          0x0102 (hottest s l).2 (unsigned 32 x) 0))) ∧
      (∀ (n : Fin 4) (ms : Nat) (s : State), released s = true → 100 ≤ ms →
        exec (.watchdog n ms) s = .next (raiseErr s 0x0101 n.val 0 0)) ∧
      (∀ (i a : Nat) (s : State), released s = true → exec (.fabricParity i a) s = .next (raiseErr s 0x0109 i a (a / 2 ^ 32))) ∧
      (errClass 0x0101 = 3 ∧ errClass 0x0109 = 3) ∧
      (∀ s : State, s.start.warden = .ready → exec .fatalHandling s = .next { s with start := { s.start with handling := none } })

/-- PORST_N, power-up, firmware boot, memory training, readiness, warm reset and the restart watchdog. PORST_N puts
everything in its reset state but the clocks' times and which references are present, the sinks at the heads,
BALL_FENCE, the session keys and the two trim copies in NVM (and the model's own draw counter, output and queue).
PWR_GOOD releases the main die, loads the trim copy, reads the voltage regulator, and starts a trim run, or without
REFCLK raises error 0x0001. FIRMWARE_BOOT, at power-up or in a warden restart whose image does not run yet, runs the
verified image of the higher version (slot 0 where they are equal), with error 0x0104 for a slot that is not verified;
without a verified image the warden halts. MEMORY_TRAINING_DONE goes on to the memory stage: at once where memory has
been trained; otherwise each failed channel below 32 raises error 0x0106 and is noted. WARDEN_READY, at that stage or
in a warden restart whose image runs, shows READY and posts the held events, and at that stage it loads the bed at
start-up. A warm reset of each cause begins, as it does by the restart watchdog, with the cause noted; at its release
the main die starts again with error 0x0108, and SAFE state is entered again where its condition persists.
(spec/20_startup_faults.md). -/
def Obligations.StartUpAndResetsRun : Prop :=
  (∀ s : State, exec .porstNAssert s = .next (powerOff s) ∧ powerOff s = { State.reset with
        clk := (powerOff s).clk, heads := tmap (fun _ => sinkOnly) s.heads,
        fences := { State.reset.fences with ballLow := s.fences.ballLow }, keys := (powerOff s).keys,
        trim := { State.reset.trim with copyA := s.trim.copyA, copyB := s.trim.copyB },
        fresh := s.fresh, out := s.out, pending := s.pending }) ∧
      (∀ s : State, (powerOff s).clk.base = 0 ∧ (powerOff s).clk.freqWord = 0 ∧ (powerOff s).clk.now = s.clk.now ∧
        (powerOff s).clk.refclk = s.clk.refclk ∧ (powerOff s).clk.lrefA = s.clk.lrefA ∧ (powerOff s).clk.lrefB = s.clk.lrefB ∧
        (powerOff s).clk.pcieRefclk = s.clk.pcieRefclk ∧ ∀ k, ((powerOff s).keySlot k).key = (s.keySlot k).key) ∧
      (∀ (uv : Nat) (s : State), s.start.boot = .porst →
        let u := pmbus (pmbus (loadNvm (releaseDie s)) 0x20 none) 0x8B none
        exec (.pwrGood uv) s = .next (if u.clk.refclk = true then startRun u u.trim.deltaC none uv
          else raiseErr { u with trim := { u.trim with calrefUv := uv } } 0x0001 0 0 0)) ∧
      (∀ (a b : FlashSlot) (s : State), s.start.boot = .dieUp ∨
        (s.start.warden = .restarting ∧ released s = true ∧ s.start.restartImage = false ∧ s.start.boot ≠ .halted) →
        exec (.firmwareBoot a b) s = .next (match chosenImage a b with
          | none => haltWarden s
          | some (n, image) => runImage (imageBad (imageBad s 0 a) 1 b) n image)) ∧
      (∀ (a b : FlashSlot) (n : Nat) (s : State),
        chosenImage a b = (if slotVerified b = true ∧ (slotVerified a = false ∨ a.version < b.version) then some (1, b.image)
          else if slotVerified a = true then some (0, a.image) else none) ∧
        imageBad s n a = (if slotVerified a = true then s else raiseErr s 0x0104 n a.version 0) ∧
        (runImage s n a.image).start.slot = some n ∧ (runImage s n a.image).start.sram = a.image.take (2 ^ 21) ∧
        (haltWarden s).start.boot = .halted) ∧
      (∀ (l : List Nat) (s : State), s.start.boot = .running → s.start.trained = true →
        exec (.memoryTrainingDone l) s = .next { s with start := { s.start with boot := .memory } }) ∧
      (∀ (l : List Nat) (s : State), s.start.boot = .running → s.start.trained = false →
        let bad := (l.filter (fun c => decide (c < 32))).foldl insertAsc []
        let u := bad.foldl (fun s c => raiseErr s 0x0106 c 3 0) s
        exec (.memoryTrainingDone l) s =
          .next { u with start := { u.start with boot := .memory, trained := true, failedChans := bad } }) ∧
      (∀ (f : Option (List Byte)) (s : State), s.start.warden = .booting → s.start.boot = .memory →
        exec (.wardenReady f) s = .next (startBed f (flushHeld { s with start :=
          { s.start with boot := .up, warden := .ready, restartImage := false } }))) ∧
      (∀ (f : Option (List Byte)) (s : State), s.start.warden = .restarting → s.start.restartImage = true →
        s.start.boot = .memory ∨ s.start.boot = .up →
        let u := flushHeld { s with start := { s.start with boot := .up, warden := .ready, restartImage := false } }
        exec (.wardenReady f) s = .next (if s.start.boot = .memory then startBed f u else u)) ∧
      (∀ (k : Nat) (s : State), s.start.boot ≠ .porst →
        (k = 1 ∨ (k = 2 ∧ leavingDeep s = true) ∨ (k = 3 ∧ restartLate s = true)) →
        exec (.warmReset k) s = .next (beginWarm s k) ∧ (beginWarm s k).start.boot = .warm ∧ (beginWarm s k).start.warmCause = k) ∧
      (∀ s : State, restartLate s = true → exec .restartWatchdog s = .next (beginWarm s 3)) ∧
      (∀ s : State, s.start.boot = .warm → (s.start.warmCause = 2 → s.power.state = 3 → s.power.waking = true) →
        let b := raiseErr (releaseDie { s with start := { s.start with safe := false }, fences := { s.fences with safe := false } })
          0x0108 s.start.warmCause 0 0
        exec .warmResetRelease s = .next (if safeAgain b then enterSafe b else b))

/-- A due tide takes effect, and tides lie a whole number of PAN cycles apart. When a tide is due, the tide row
answers the state of the tide's effects on the advanced tide. Without a re-base armed, advancing makes the index and
the count rise by 1. While tide n is still to come, the PAN cycles from the instant of tide n to that of tide n + 1
are 1.2 × 10^9 × DEN/NUM rounded down or up. (spec/01_tide_and_clocks.md). -/
def Obligations.TidesTakeEffectOnTheirGrid : Prop :=
  (∀ s : State, tideDue s = true →
        exec .tide s = .next (tideEffects (pruneWords (slewWord (advanceTide s))) s.tide.lastRef)) ∧
      (∀ s : State, s.tide.rebaseArmed = false → (advanceTide s).tide.count = s.tide.count + 1 ∧
        (advanceTide s).tide.index = s.tide.index + 1 ∧ (advanceTide s).tide.rebaseArmed = false ∧ (advanceTide s).mem = s.mem) ∧
      (∀ (s : State) (n : Nat), 0 < s.tide.num → (s.pt : Int) < tideInst s.tide.num s.tide.den n →
        tideNow s (n + 1) - tideNow s n = (panT * (1200000000 * s.tide.den / s.tide.num) : Nat) ∨
        tideNow s (n + 1) - tideNow s n = (panT * ceilDiv (1200000000 * s.tide.den) s.tide.num : Nat))

/-- A FATAL error during handling, or while HB_STATUS does not show READY, puts the device in SAFE state. An error
whose code is of class FATAL, detected while another FATAL record is being handled or while HB_STATUS does not show
READY, leaves SAFE state set. (R518). -/
def Obligations.FatalErrorsDuringHandlingEnterSafe : Prop :=
  ∀ (s : State) (code obj a b : Nat) (k : ErrKey), errClass code = 3 → s.start.handling.isSome = true ∨ s.start.warden ≠ .ready →
      (raiseErr s code obj a b k).start.safe = true
end

