-- ==== Sys2Proof/Laws/Commands.lean ====
section
/-! SUPPORT. A command that is delivered and admitted runs and completes on its transport. -/

namespace Sys2Proof.Laws

open Sys2Proof Sys2Proof.Machine Sys2Proof.Safety

theorem openSession_status {s : State} {c : Caller} {x : Session} (h : openSession s c = some x) :
    tfind s.sessions c.slot = some x ∧ x.isOpen = true ∧ some x.binding = bindingOf c.via := by
  unfold openSession at h
  split at h
  · split at h
    · rename_i y hy hb
      cases h
      simp only [Bool.and_eq_true, beq_iff_eq] at hb
      exact ⟨hy, hb.1, hb.2⟩
    · cases h
  · cases h

theorem noteCode_power (s : State) (code : Nat) : (noteCode s code).power.state = s.power.state := by
  unfold noteCode; split <;> rfl

/-- What a delivered record arrives at: the rest of its acceptance, on the woken device. -/
theorem arrive_received {c : Caller} {code : Nat} {s : State} {go : State → State} (h : Received c s) :
    arrive c code s go = go (arrived c s) := by
  unfold Received at h
  unfold arrive arrived
  split <;> simp_all [mailboxBusy]

theorem runAccepted_admitted {c : Caller} {code : Nat} {s : State} {x : Session} {run : State → Reply}
    (h : Admitted c code s x) :
    runAccepted c code [] run (arrived c s) =
      completeAccepted c code (some x.key) (run (noteCode (acceptSeq (arrived c s) c x []) code)) := by
  obtain ⟨_, ho, hs, hr, hn⟩ := h
  have hn' : needsResting (arrived c s) code = false := by
    unfold needsResting at hn ⊢
    rwa [noteCode_power] at hn
  have hr' : ¬ roleOfKey (arrived c s) x.keySlot < baseRole code := by
    have e : roleOfKey (noteCode (acceptSeq (arrived c s) c x []) code) x.keySlot = roleOfKey (arrived c s) x.keySlot := by
      unfold noteCode; split <;> rfl
    rw [e] at hr; omega
  unfold runAccepted
  simp [ho, Nat.not_le.mpr hs, hr', hn']

/-- A command that runs is answered over its transport with the reply of its effect. -/
theorem command_runs {c : Caller} {code : Nat} {s a : State} {key : List Byte} {run : State → Reply}
    (h : Runs c code s key a) : command c code run s = done c code key (run a) := by
  unfold Runs at h
  unfold command done
  cases e : c.via with
  | image r =>
    simp only [e] at h ⊢
    obtain ⟨h1, rfl⟩ := h
    simp only [Nat.not_lt.mpr h1, if_false]
    unfold completeAccepted complete
    simp [e, isSluice]
  | mailbox n =>
    simp only [e] at h ⊢
    obtain ⟨x, ha, rfl, rfl⟩ := h
    rw [arrive_received ha.1, runAccepted_admitted ha]
  | sluice p a u =>
    simp only [e] at h ⊢
    obtain ⟨x, ha, rfl, rfl⟩ := h
    rw [arrive_received ha.1, runAccepted_admitted ha]

end Sys2Proof.Laws
end

