-- ==== Sys2Proof/Laws/Good.lean ====
section
/-! SUPPORT. What every part of a command keeps: the queue of waiting commands, the canonical form of the
memory bytes, locked regions with their rules, keys, outputs and the time. -/

namespace Sys2Proof.Laws

open Sys2Proof.Machine

/-- What holds before a command: whether its memory bytes are in canonical form, its queue, regions that are locked with
their rules in force, keys in the key store, outputs that have left the block, and the time on the main die's clock. -/
structure Ghost where
  canonical : Prop
  queue : List Instr
  locked : Nat → Region → Prop
  keys : Nat → List Byte → Prop
  out : List Output
  now : Ticks

/-- The parts of a state that a command keeps: the queue as it is, the canonical form of the memory bytes, every locked region
with its rule, every key, every output, and the time. -/
structure Kept (g : Ghost) (queue : List Instr) (cells : List Host.Cell) (locked : List Nat) (force : Tab Region)
    (keys : Tab KeySlot) (out : List Output) (now : Ticks) : Prop where
  queue : queue = g.queue
  cells : g.canonical → Memory.wf cells = true
  locked : ∀ n r, g.locked n r → n ∈ locked ∧ tfind force n = some r
  keys : ∀ k x, g.keys k x → (tget {} keys k).key = some x
  out : g.out <:+ out
  now : now = g.now

/-- The state keeps what `q` says. -/
def Good (q : Ghost) (s : State) : Prop :=
  Kept q s.pending s.mem.cells s.mem.dyke.locked s.mem.dyke.force s.keys s.out s.clk.now

/-- Every state keeps what holds of itself. -/
theorem good_refl (s : State) :
    Good ⟨Memory.wf s.mem.cells = true, s.pending, fun n r => n ∈ s.mem.dyke.locked ∧ tfind s.mem.dyke.force n = some r,
      fun k x => (s.keySlot k).key = some x, s.out, s.clk.now⟩ s :=
  ⟨rfl, id, fun _ _ h => h, fun _ _ h => h, List.suffix_refl _, rfl⟩

def GoodOut {φ ρ : Type} (q : Ghost) (o : Host.Outcome State φ ρ) : Prop := ∀ t, o = .next t → Good q t
def GoodOpt (q : Ghost) (o : Option State) : Prop := ∀ t, o = some t → Good q t
def GoodExc {ε : Type} (q : Ghost) (o : Except ε State) : Prop := ∀ t, o = .ok t → Good q t

section
variable {q : Ghost}

theorem Good.of {s : State} (h : Good q s) :
    Kept q s.pending s.mem.cells s.mem.dyke.locked s.mem.dyke.force s.keys s.out s.clk.now := h
theorem Good.fst {A : Type} {p : A × State} {a : A} {t : State} (e : p = (a, t)) (h : Good q p.2) : Good q t := by
  subst e; exact h
theorem Good.left {B : Type} {p : State × B} {b : B} {t : State} (e : p = (t, b)) (h : Good q p.1) : Good q t := by
  subst e; exact h
theorem Good.head {A : Type} {p : Option State × A} {a : A} {t : State} (e : p = (some t, a)) (h : GoodOpt q p.1) :
    Good q t := by
  subst e; exact h t rfl
theorem Good.snd {A B : Type} {p : A × B × State} {a : A} {b : B} {t : State} (e : p = (a, b, t)) (h : Good q p.2.2) :
    Good q t := by
  subst e; exact h
theorem Good.opt {o : Option State} {t : State} (e : o = some t) (h : GoodOpt q o) : Good q t := h t e
theorem Good.exc {ε : Type} {o : Except ε State} {t : State} (e : o = .ok t) (h : GoodExc q o) : Good q t := h t e
theorem Good.next {φ ρ : Type} {s : State} (h : Good q s) : GoodOut (φ := φ) (ρ := ρ) q (.next s) := by
  intro t e; cases e; exact h
theorem Good.some {s : State} (h : Good q s) : GoodOpt q (some s) := by
  intro t e; cases e; exact h
theorem GoodOpt.none : GoodOpt q none := fun _ e => nomatch e
theorem GoodOpt.map {A : Type} {f : A → State} {o : Option A} (h : ∀ a, Good q (f a)) : GoodOpt q (o.map f) := by
  intro t e
  cases o with
  | none => cases e
  | some a => cases e; exact h a
theorem Good.getD {o : Option State} {s : State} (ho : GoodOpt q o) (h : Good q s) : Good q (o.getD s) := by
  cases o with
  | none => exact h
  | some t => exact ho t rfl
theorem Good.elim {A : Type} {o : Option A} {s : State} {f : A → State} (h : Good q s) (hf : ∀ a, Good q (f a)) :
    Good q (o.elim s f) := by
  cases o with
  | none => exact h
  | some a => exact hf a
theorem Good.okay {ε : Type} {s : State} (h : Good q s) : GoodExc (ε := ε) q (.ok s) := by
  intro t e; cases e; exact h
theorem GoodExc.error {ε : Type} {x : ε} : GoodExc q (.error x) := fun _ e => nomatch e

theorem Good.foldl {A : Type} {f : State → A → State} {l : List A} {s : State}
    (hf : ∀ s a, Good q s → Good q (f s a)) (h : Good q s) : Good q (l.foldl f s) := by
  induction l generalizing s with
  | nil => exact h
  | cons a l ih => exact ih (hf s a h)

theorem Good.foldl2 {A B : Type} {f : B × State → A → B × State} {l : List A} {p : B × State}
    (hf : ∀ p a, Good q p.2 → Good q (f p a).2) (h : Good q p.2) : Good q (l.foldl f p).2 := by
  induction l generalizing p with
  | nil => exact h
  | cons a l ih => exact ih (hf p a h)

theorem Good.foldl3 {A B C : Type} {f : B × C × State → A → B × C × State} {l : List A} {p : B × C × State}
    (hf : ∀ p a, Good q p.2.2 → Good q (f p a).2.2) (h : Good q p.2.2) : Good q (l.foldl f p).2.2 := by
  induction l generalizing p with
  | nil => exact h
  | cons a l ih => exact ih (hf p a h)

theorem Good.foldl1 {A B : Type} {f : State × B → A → State × B} {l : List A} {p : State × B}
    (hf : ∀ p a, Good q p.1 → Good q (f p a).1) (h : Good q p.1) : Good q (l.foldl f p).1 := by
  induction l generalizing p with
  | nil => exact h
  | cons a l ih => exact ih (hf p a h)

end

/-! ### Memory bytes -/

/-- Every listed address lies above `lo`. -/
theorem cellsWf_mono {lo : Option Nat} {k : Nat} {m : List Host.Cell} (h : cellsWf (some k) m = true)
    (hk : ∀ l, lo = some l → l ≤ k) : cellsWf lo m = true := by
  cases m with
  | nil => rfl
  | cons c r =>
    obtain ⟨a, v⟩ := c
    cases lo with
    | none => simp [cellsWf] at h ⊢; exact ⟨h.1.2, h.2⟩
    | some l =>
      simp [cellsWf] at h ⊢
      exact ⟨⟨lt_of_le_of_lt (hk l rfl) h.1.1, h.1.2⟩, h.2⟩

/-- Writing one byte keeps the canonical form. -/
theorem cellsWf_writeCell {lo : Option Nat} {m : List Host.Cell} {a : Nat} {v : Byte} (h : cellsWf lo m = true)
    (ha : ∀ l, lo = some l → l < a) : cellsWf lo (writeCell m a v) = true := by
  induction m generalizing lo with
  | nil =>
    by_cases hv : v = 0#8
    · simp [writeCell, hv, cellsWf]
    · cases lo with
      | none => simp [writeCell, hv, cellsWf]
      | some l => simp [writeCell, hv, cellsWf, ha l rfl]
  | cons c r ih =>
    obtain ⟨b, w⟩ := c
    have hr : cellsWf (some b) r = true := by
      cases lo <;> simp [cellsWf] at h <;> simp_all
    have hw : w ≠ 0#8 := by
      cases lo <;> simp [cellsWf] at h <;> simp_all
    have hb : ∀ l, lo = some l → l < b := by
      intro l e; subst e; simp [cellsWf] at h; exact h.1.1
    have mk : ∀ {x : Byte} {t : List Host.Cell} {y : Nat}, (∀ l, lo = some l → l < y) → x ≠ 0#8 →
        cellsWf (some y) t = true → cellsWf lo ((y, x) :: t) = true := by
      intro x t y hy hx ht
      cases lo with
      | none => simp [cellsWf, hx, ht]
      | some l => simp [cellsWf, hx, ht, hy l rfl]
    unfold writeCell
    by_cases h1 : a < b
    · by_cases hv : v = 0#8
      · simpa [h1, hv] using h
      · simp only [h1, hv, if_true, if_false]
        refine mk ha hv ?_
        simp [cellsWf, h1, hw, hr]
    · by_cases h2 : a = b
      · subst h2
        by_cases hv : v = 0#8
        · simp only [lt_irrefl, hv, if_true, if_false]
          exact cellsWf_mono hr (fun l e => le_of_lt (hb l e))
        · simp only [lt_irrefl, hv, if_true, if_false]
          exact mk ha hv hr
      · simp only [h1, h2, if_false]
        refine mk hb hw (ih hr ?_)
        intro l e; cases e; omega

/-- Writing bytes keeps the canonical form. -/
theorem wf_writeCells {l : List Byte} {m : List Host.Cell} {a : Nat} (h : Memory.wf m = true) :
    Memory.wf (writeCells m a l) = true := by
  induction l generalizing m a with
  | nil => exact h
  | cons v r ih => exact ih (cellsWf_writeCell h (fun l e => nomatch e))

theorem State_writeMem_good {q : Ghost} {a : Nat} {l : List Byte} {s : State} (h : Good q s) :
    Good q (s.writeMem a l) := ⟨h.queue, fun w => wf_writeCells (h.cells w), h.locked, h.keys, h.out, h.now⟩

/-- A byte just written reads back. -/
theorem readCell_writeCell_same {m : List Host.Cell} {a : Nat} {v : Byte} (h : Memory.wf m = true) :
    readCell (writeCell m a v) a = v := by
  have key : ∀ (m : List Host.Cell) (lo : Option Nat), cellsWf lo m = true → readCell (writeCell m a v) a = v := by
    intro m
    induction m with
    | nil => intro lo _; by_cases hv : v = 0#8 <;> simp [writeCell, readCell, hv]
    | cons c r ih =>
      obtain ⟨b, w⟩ := c
      intro lo h
      have hr : cellsWf (some b) r = true := by
        cases lo <;> simp [cellsWf] at h <;> simp_all
      have none_above : ∀ (t : List Host.Cell) (k : Nat), cellsWf (some k) t = true → a ≤ k → readCell t a = 0#8 := by
        intro t
        induction t with
        | nil => intro _ _ _; rfl
        | cons d t iht =>
          obtain ⟨x, y⟩ := d
          intro k hk hak
          simp [cellsWf] at hk
          have hx : ¬x = a := by omega
          simp only [readCell, hx, if_false]
          exact iht x hk.2 (by omega)
      unfold writeCell
      by_cases h1 : a < b
      · have hb : ¬b = a := by omega
        by_cases hv : v = 0#8
        · simp only [h1, hv, if_true, readCell, hb, if_false]
          exact none_above r b hr (by omega)
        · simp [h1, hv, readCell]
      · by_cases h2 : a = b
        · subst h2
          by_cases hv : v = 0#8
          · simp only [lt_irrefl, hv, if_true, if_false]
            exact none_above r a hr (le_refl a)
          · simp [hv, readCell]
        · have hb : ¬b = a := fun e => h2 e.symm
          simp only [h1, h2, if_false, readCell, hb]
          exact ih (some b) hr
  exact key m none h

/-- Writing a byte leaves every other address as it reads. -/
theorem readCell_writeCell_other {m : List Host.Cell} {a b : Nat} {v : Byte} (h : b ≠ a) :
    readCell (writeCell m a v) b = readCell m b := by
  induction m with
  | nil => by_cases hv : v = 0#8 <;> simp [writeCell, readCell, hv, Ne.symm h]
  | cons c r ih =>
    obtain ⟨x, w⟩ := c
    unfold writeCell
    by_cases h1 : a < x
    · by_cases hv : v = 0#8 <;> simp [h1, hv, readCell, Ne.symm h]
    · by_cases h2 : a = x
      · subst h2
        by_cases hv : v = 0#8 <;> simp [hv, readCell, Ne.symm h]
      · simp only [h1, h2, if_false, readCell, ih]

/-! ### Tables -/

theorem tfind_tset_same {α : Type} {t : Tab α} {n : Nat} {a : α} : tfind (tset t n a) n = some a := by
  induction t with
  | nil => simp [tset, tfind]
  | cons e r ih =>
    obtain ⟨m, b⟩ := e
    unfold tset
    split
    · simp [tfind]
    · split
      · simp [tfind]
      · rename_i h
        have : ¬m = n := fun e => h e.symm
        simp [tfind, this, ih]

theorem tfind_tset_other {α : Type} {t : Tab α} {n k : Nat} {a : α} (h : k ≠ n) :
    tfind (tset t n a) k = tfind t k := by
  induction t with
  | nil => simp [tset, tfind, Ne.symm h]
  | cons e r ih =>
    obtain ⟨m, b⟩ := e
    unfold tset
    split
    · simp [tfind, Ne.symm h]
    · split
      · rename_i e; subst e; simp [tfind, Ne.symm h]
      · simp only [tfind, ih]

theorem tfind_filter {α : Type} {t : Tab α} {p : Nat → Bool} {n : Nat} (h : p n = true) :
    tfind (t.filter (fun e => p e.1)) n = tfind t n := by
  induction t with
  | nil => rfl
  | cons e r ih =>
    obtain ⟨m, b⟩ := e
    by_cases hm : m = n
    · subst hm; simp [tfind, h]
    · by_cases hp : p m = true
      · simp [hp, tfind, hm, ih]
      · simp only [Bool.not_eq_true] at hp; simp [hp, tfind, hm, ih]

theorem tfind_tmap {α β : Type} {f : Nat → α → β} {t : Tab α} {n : Nat} :
    tfind (tmap f t) n = (tfind t n).map (f n) := by
  unfold tmap
  induction t with
  | nil => rfl
  | cons e r ih =>
    obtain ⟨m, b⟩ := e
    by_cases hm : m = n
    · subst hm; simp [tfind]
    · simpa [tfind, hm] using ih

theorem mem_insertAsc {l : List Nat} {n m : Nat} : n ∈ insertAsc l m ↔ n = m ∨ n ∈ l := by
  induction l with
  | nil => simp [insertAsc]
  | cons b r ih =>
    unfold insertAsc
    split
    · simp
    · split
      · rename_i e; subst e; simp
      · simp only [List.mem_cons, ih]; tauto

/-! ### Outputs, keys and rules -/

theorem State_emit_good {q : Ghost} {o : Output} {s : State} (h : Good q s) : Good q (s.emit o) :=
  ⟨h.queue, h.cells, h.locked, h.keys, h.out.trans (List.suffix_cons _ _), h.now⟩

/-- A key slot is written with the key that it holds, or held none. -/
theorem State_setKeySlot_good {q : Ghost} {n : Nat} {v : KeySlot} {s : State} (h : Good q s)
    (hv : ∀ x, (s.keySlot n).key = some x → v.key = some x) : Good q (s.setKeySlot n v) := by
  refine ⟨h.queue, h.cells, h.locked, ?_, h.out, h.now⟩
  intro k x hk
  have e := h.keys k x hk
  by_cases hn : k = n
  · subst hn
    simp only [State.setKeySlot, tget, tfind_tset_same, Option.getD_some]
    exact hv x e
  · simpa only [State.setKeySlot, tget, tfind_tset_other hn] using e

/-- A dyke that keeps locked regions and their rules may take the place of the one in force. -/
theorem setDyke_good {q : Ghost} {s : State} {d : Dyke} (h : Good q s)
    (hd : ∀ n r, n ∈ s.mem.dyke.locked → tfind s.mem.dyke.force n = some r → n ∈ d.locked ∧ tfind d.force n = some r) :
    Good q { s with mem := { s.mem with dyke := d } } :=
  ⟨h.queue, h.cells, fun n r hr => hd n r (h.locked n r hr).1 (h.locked n r hr).2, h.keys, h.out, h.now⟩

end Sys2Proof.Laws
end

