-- ==== Sys2Proof/Laws/Registers.lean ====
section
/-! SUPPORT. What every operation of the shared operations over registers, flags, replies and protected memory keeps (see `Sys2Proof.Laws.Good`): the canonical
form of memory, the command queue, the time, the outputs already given, the programmed keys and the
locked regions. One lemma per operation, cited instead of unfolding it. -/

set_option linter.unusedTactic false
set_option linter.unreachableTactic false

namespace Sys2Proof.Laws

open Sys2Proof Sys2Proof.Machine

/-! ### Ops -/

theorem State_setLane_good {q x1 x2 s} (h : Good q s) : Good q (State.setLane s x1 x2) := h

theorem State_setCheck_good {q x1 x2 s} (h : Good q s) : Good q (State.setCheck s x1 x2) := h

theorem State_setPulse_good {q x1 x2 s} (h : Good q s) : Good q (State.setPulse s x1 x2) := h

theorem State_setMailbox_good {q x1 x2 s} (h : Good q s) : Good q (State.setMailbox s x1 x2) := h

theorem State_drawNat_good {q s} (h : Good q s) : Good q (State.drawNat s).2 := h

theorem State_setPort_good {q x1 x2 s} (h : Good q s) : Good q (State.setPort s x1 x2) := h

theorem refuse_good {q x1 s} (h : Good q s) : Good q (refuse s x1).st := h

theorem State_setEncEngine_good {q x1 x2 s} (h : Good q s) : Good q (State.setEncEngine s x1 x2) := h

theorem State_setEnc_good {q x1 x2 s} (h : Good q s) : Good q (State.setEnc s x1 x2) := h

theorem ok_good {q x1 s} (h : Good q s) : Good q (ok s x1).st := h

theorem State_setPan_good {q x1 x2 s} (h : Good q s) : Good q (State.setPan s x1 x2) := h

theorem State_setWel_good {q x1 x2 s} (h : Good q s) : Good q (State.setWel s x1 x2) := h

theorem State_drawInt_good {q s} (h : Good q s) : Good q (State.drawInt s).2 := h

theorem State_countRefusal_good {q x1 s} (h : Good q s) : Good q (State.countRefusal s x1) := h

theorem refuseFull_good {q x1 x2 s} (h : Good q s) : Good q (refuseFull s x1 x2).st := h

theorem State_setMemChan_good {q x1 x2 s} (h : Good q s) : Good q (State.setMemChan s x1 x2) := h

theorem State_setDec_good {q x1 x2 s} (h : Good q s) : Good q (State.setDec s x1 x2) := h

theorem drawWithin_good {q x1 x2 s} (h : Good q s) : Good q (drawWithin s x1 x2).2 := h

theorem State_setDesk_good {q x1 x2 s} (h : Good q s) : Good q (State.setDesk s x1 x2) := h

theorem State_setJob_good {q x1 x2 s} (h : Good q s) : Good q (State.setJob s x1 x2) := h

theorem State_setCtx_good {q x1 x2 s} (h : Good q s) : Good q (State.setCtx s x1 x2) := h

theorem State_setRxLane_good {q x1 x2 s} (h : Good q s) : Good q (State.setRxLane s x1 x2) := h

theorem State_setSession_good {q x1 x2 s} (h : Good q s) : Good q (State.setSession s x1 x2) := h

theorem State_drawBool_good {q s} (h : Good q s) : Good q (State.drawBool s).2 := h

theorem State_drawBytes_good {q x1 s} (h : Good q s) : Good q (State.drawBytes s x1).2 := h

theorem State_setCapture_good {q x1 x2 s} (h : Good q s) : Good q (State.setCapture s x1 x2) := h

theorem State_setHead_good {q x1 x2 s} (h : Good q s) : Good q (State.setHead s x1 x2) := h

/-! ### Flags -/

theorem sendMsix_good {q x1 s} (h : Good q s) : Good q (sendMsix s x1) := by
  unfold sendMsix
  repeat' first
    | with_reducible first
        | assumption | apply State_emit_good | refine Good.of ?_ | refine Good.next ?_ | intro _ | apply Good.foldl
        | refine Good.fst (by assumption) ?_ | refine Good.snd (by assumption) ?_ | refine Good.some ?_
        | exact GoodOpt.none | refine GoodOpt.map ?_ | refine Good.getD ?_ ?_ | refine Good.elim ?_ ?_
        | refine Good.okay ?_ | exact GoodExc.error | apply Good.foldl2 | apply Good.foldl3 | apply Good.foldl1
        | refine Good.left (by assumption) ?_ | refine Good.head (by assumption) ?_
        | refine Good.opt (by assumption) ?_ | refine Good.exc (by assumption) ?_
    | split | dsimp only | (show Kept _ _ _ _ _ _ _ _; dsimp only)

theorem msixDue_good {q x1 s} (h : Good q s) : Good q (msixDue s x1) := by
  unfold msixDue
  repeat' first
    | with_reducible first
        | assumption | apply sendMsix_good | refine Good.of ?_ | refine Good.next ?_ | intro _ | apply Good.foldl
        | refine Good.fst (by assumption) ?_ | refine Good.snd (by assumption) ?_ | refine Good.some ?_
        | exact GoodOpt.none | refine GoodOpt.map ?_ | refine Good.getD ?_ ?_ | refine Good.elim ?_ ?_
        | refine Good.okay ?_ | exact GoodExc.error | apply Good.foldl2 | apply Good.foldl3 | apply Good.foldl1
        | refine Good.left (by assumption) ?_ | refine Good.head (by assumption) ?_
        | refine Good.opt (by assumption) ?_ | refine Good.exc (by assumption) ?_
    | split | dsimp only | (show Kept _ _ _ _ _ _ _ _; dsimp only)

theorem signalVector_good {q x1 s} (h : Good q s) : Good q (signalVector s x1) := by
  unfold signalVector
  repeat' first
    | with_reducible first
        | assumption | apply msixDue_good | refine Good.of ?_ | refine Good.next ?_
    | split | (show Kept _ _ _ _ _ _ _ _; dsimp only)

theorem writeRecord_good {q x1 x2 x3 x4 s} (h : Good q s) : Good q (writeRecord s x1 x2 x3 x4) := by
  unfold writeRecord
  repeat' first
    | with_reducible first
        | assumption | apply State_emit_good | apply signalVector_good | refine Good.of ?_ | refine Good.next ?_
    | split | (show Kept _ _ _ _ _ _ _ _; dsimp only)

theorem putEvent_good {q x1 x2 x3 x4 s} (h : Good q s) : Good q (putEvent s x1 x2 x3 x4) := by
  unfold putEvent
  repeat' first
    | with_reducible first
        | assumption | apply writeRecord_good | refine Good.of ?_ | refine Good.next ?_
    | split | (show Kept _ _ _ _ _ _ _ _; dsimp only)

theorem postFw_good {q x1 x2 x3 x4 s} (h : Good q s) : Good q (postFw s x1 x2 x3 x4) := by
  unfold postFw
  repeat' first
    | with_reducible first
        | assumption | apply putEvent_good | refine Good.of ?_ | refine Good.next ?_
    | split | (show Kept _ _ _ _ _ _ _ _; dsimp only)

theorem postApproval_good {q x1 x2 x3 x4 x5 s} (h : Good q s) : Good q (postApproval s x1 x2 x3 x4 x5) := by
  unfold postApproval
  repeat' first
    | with_reducible first
        | assumption | apply postFw_good
    | (show Kept _ _ _ _ _ _ _ _; dsimp only)

theorem sendOpen_good {q x1 x2 x3 s} (h : Good q s) : Good q (sendOpen s x1 x2 x3) := by
  unfold sendOpen
  repeat' first
    | with_reducible first
        | assumption | apply State_emit_good | apply State_setWel_good
    | (show Kept _ _ _ _ _ _ _ _; dsimp only)

theorem sendSkimTo_good {q x1 x2 s} (h : Good q s) : Good q (sendSkimTo s x1 x2) := by
  unfold sendSkimTo
  split
  · exact sendOpen_good h
  · exact h

theorem sendSkim_good {q x1 s} (h : Good q s) : Good q (sendSkim s x1) := by
  unfold sendSkim
  repeat' first
    | with_reducible first
        | assumption | apply sendSkimTo_good | refine Good.of ?_ | refine Good.next ?_ | intro _ | apply Good.foldl
    | split | dsimp only | (show Kept _ _ _ _ _ _ _ _; dsimp only)

theorem postHw_good {q x1 x2 x3 x4 s} (h : Good q s) : Good q (postHw s x1 x2 x3 x4) := by
  unfold postHw
  repeat' first
    | with_reducible first
        | assumption | apply putEvent_good
    | (show Kept _ _ _ _ _ _ _ _; dsimp only)

theorem queueErr_good {q x1 x2 x3 x4 x5 x6 s} (h : Good q s) : Good q (queueErr s x1 x2 x3 x4 x5 x6) := by
  unfold queueErr
  repeat' first
    | with_reducible first
        | assumption | apply postFw_good | refine Good.of ?_ | refine Good.next ?_
    | split | (show Kept _ _ _ _ _ _ _ _; dsimp only)

theorem crossToPan_good {q s} (h : Good q s) : Good q (crossToPan s).2 := h

theorem softFenceTime_good {q s} (h : Good q s) : Good q (softFenceTime s).2 := h

theorem setFences_good {q x1 x2 s} (h : Good q s) : Good q (setFences s x1 x2) := h

theorem postPower_good {q x1 x2 s} (h : Good q s) : Good q (postPower s x1 x2) := by
  unfold postPower
  repeat' first
    | with_reducible first
        | assumption | apply postFw_good
    | (show Kept _ _ _ _ _ _ _ _; dsimp only)

theorem forceActive_good {q s} (h : Good q s) : Good q (forceActive s) := by
  unfold forceActive
  repeat' first
    | with_reducible first
        | assumption | apply postPower_good | refine Good.of ?_ | refine Good.next ?_
    | split | (show Kept _ _ _ _ _ _ _ _; dsimp only)

theorem releaseChannels_good {q s} (h : Good q s) : Good q (releaseChannels s) := h

theorem settleMotion_good {q s} (h : Good q s) : Good q (settleMotion s) := by
  unfold settleMotion
  repeat' first
    | with_reducible first
        | assumption | apply releaseChannels_good | refine Good.of ?_ | refine Good.next ?_ | intro _
        | apply Good.foldl | refine Good.fst (by assumption) ?_ | refine Good.snd (by assumption) ?_
        | refine Good.some ?_ | exact GoodOpt.none | refine GoodOpt.map ?_ | refine Good.getD ?_ ?_
        | refine Good.elim ?_ ?_ | refine Good.okay ?_ | exact GoodExc.error | apply Good.foldl2 | apply Good.foldl3
        | apply Good.foldl1 | refine Good.left (by assumption) ?_ | refine Good.head (by assumption) ?_
        | refine Good.opt (by assumption) ?_ | refine Good.exc (by assumption) ?_
    | split | dsimp only | (show Kept _ _ _ _ _ _ _ _; dsimp only)

theorem dropApprovals_good {q x1 x2 s} (h : Good q s) : Good q (dropApprovals s x1 x2) := by
  unfold dropApprovals
  repeat' first
    | with_reducible first
        | assumption | apply settleMotion_good | apply sendSkim_good | apply postApproval_good | refine Good.of ?_
        | refine Good.next ?_ | intro _ | apply Good.foldl | refine Good.fst (by assumption) ?_
        | refine Good.snd (by assumption) ?_ | refine Good.some ?_ | exact GoodOpt.none | refine GoodOpt.map ?_
        | refine Good.getD ?_ ?_ | refine Good.elim ?_ ?_ | refine Good.okay ?_ | exact GoodExc.error
        | apply Good.foldl2 | apply Good.foldl3 | apply Good.foldl1 | refine Good.left (by assumption) ?_
        | refine Good.head (by assumption) ?_ | refine Good.opt (by assumption) ?_
        | refine Good.exc (by assumption) ?_
    | split | dsimp only | (show Kept _ _ _ _ _ _ _ _; dsimp only)

theorem endDebug_good {q x1 s} (h : Good q s) : Good q (endDebug s x1) := by
  unfold endDebug
  repeat' first
    | with_reducible first
        | assumption | apply queueErr_good | refine Good.of ?_ | refine Good.next ?_
    | split | (show Kept _ _ _ _ _ _ _ _; dsimp only)

theorem postSession_good {q x1 x2 x3 x4 s} (h : Good q s) : Good q (postSession s x1 x2 x3 x4) := by
  unfold postSession
  repeat' first
    | with_reducible first
        | assumption | apply postFw_good
    | (show Kept _ _ _ _ _ _ _ _; dsimp only)

theorem endSession_good {q x1 x2 s} (h : Good q s) : Good q (endSession s x1 x2) := by
  unfold endSession
  repeat' first
    | with_reducible first
        | assumption | apply dropApprovals_good | apply endDebug_good | apply postSession_good | refine Good.of ?_
        | refine Good.next ?_
    | split | (show Kept _ _ _ _ _ _ _ _; dsimp only)

theorem endSessions_good {q x1 x2 s} (h : Good q s) : Good q (endSessions s x1 x2) := by
  unfold endSessions
  repeat' first
    | with_reducible first
        | assumption | apply endSession_good | refine Good.of ?_ | refine Good.next ?_ | intro _ | apply Good.foldl
    | split | dsimp only | (show Kept _ _ _ _ _ _ _ _; dsimp only)

theorem mailboxDone_good {q x1 x2 x3 s} (h : Good q s) : Good q (mailboxDone s x1 x2 x3) := by
  unfold mailboxDone
  repeat' first
    | with_reducible first
        | assumption | apply State_setMailbox_good | apply signalVector_good | refine Good.of ?_ | refine Good.next ?_
    | split | (show Kept _ _ _ _ _ _ _ _; dsimp only)

theorem abortCommands_good {q s} (h : Good q s) : Good q (abortCommands s) := by
  unfold abortCommands
  repeat' first
    | with_reducible first
        | assumption | apply State_setMailbox_good | apply mailboxDone_good | refine Good.of ?_ | refine Good.next ?_
        | intro _ | apply Good.foldl
    | split | dsimp only | (show Kept _ _ _ _ _ _ _ _; dsimp only)

theorem restartWarden_good {q s} (h : Good q s) : Good q (restartWarden s) := by
  unfold restartWarden
  repeat' first
    | with_reducible first
        | assumption | apply endSessions_good | apply dropApprovals_good | apply abortCommands_good
        | refine Good.of ?_ | refine Good.next ?_
    | split | (show Kept _ _ _ _ _ _ _ _; dsimp only)

theorem postFence_good {q x1 x2 x3 x4 x5 x6 s} (h : Good q s) : Good q (postFence s x1 x2 x3 x4 x5 x6) := by
  unfold postFence
  repeat' first
    | with_reducible first
        | assumption | apply postHw_good
    | (show Kept _ _ _ _ _ _ _ _; dsimp only)

theorem enterSafe_good {q s} (h : Good q s) : Good q (enterSafe s) := by
  unfold enterSafe
  repeat' first
    | with_reducible first
        | assumption | apply softFenceTime_good | apply setFences_good | apply forceActive_good
        | apply restartWarden_good | apply postFence_good | refine Good.of ?_ | refine Good.next ?_
    | split | (show Kept _ _ _ _ _ _ _ _; dsimp only)

theorem raiseClass_good {q x1 x2 x3 x4 x5 x6 s} (h : Good q s) : Good q (raiseClass s x1 x2 x3 x4 x5 x6) := by
  unfold raiseClass
  repeat' first
    | with_reducible first
        | assumption | apply queueErr_good | apply enterSafe_good | refine Good.of ?_ | refine Good.next ?_
    | split | (show Kept _ _ _ _ _ _ _ _; dsimp only)

theorem flushHeld_good {q s} (h : Good q s) : Good q (flushHeld s) := by
  unfold flushHeld
  repeat' first
    | with_reducible first
        | assumption | apply putEvent_good | refine Good.of ?_ | refine Good.next ?_ | intro _ | apply Good.foldl
    | split | dsimp only | (show Kept _ _ _ _ _ _ _ _; dsimp only)

theorem raiseErr_good {q x1 x2 x3 x4 x5 s} (h : Good q s) : Good q (raiseErr s x1 x2 x3 x4 x5) := by
  unfold raiseErr
  repeat' first
    | with_reducible first
        | assumption | apply raiseClass_good
    | (show Kept _ _ _ _ _ _ _ _; dsimp only)

theorem wake_good {q x1 s} (h : Good q s) : Good q (wake s x1) := by
  unfold wake
  repeat' first
    | with_reducible first
        | assumption | refine Good.of ?_ | refine Good.next ?_
    | split | (show Kept _ _ _ _ _ _ _ _; dsimp only)

/-! ### Accept -/

theorem acceptSeq_good {q x1 x2 x3 s} (h : Good q s) : Good q (acceptSeq s x1 x2 x3) := h

theorem abandonRunning_good {q x1 s} (h : Good q s) : Good q (abandonRunning s x1) := by
  unfold abandonRunning
  repeat' first
    | with_reducible first
        | assumption | refine Good.of ?_ | refine Good.next ?_ | intro _ | apply Good.foldl
        | refine Good.fst (by assumption) ?_ | refine Good.snd (by assumption) ?_ | refine Good.some ?_
        | exact GoodOpt.none | refine GoodOpt.map ?_ | refine Good.getD ?_ ?_ | refine Good.elim ?_ ?_
        | refine Good.okay ?_ | exact GoodExc.error | apply Good.foldl2 | apply Good.foldl3 | apply Good.foldl1
        | refine Good.left (by assumption) ?_ | refine Good.head (by assumption) ?_
        | refine Good.opt (by assumption) ?_ | refine Good.exc (by assumption) ?_
    | split | dsimp only | (show Kept _ _ _ _ _ _ _ _; dsimp only)

theorem complete_good {q x0 x1 x2 r} (h : Good q r.st) : Good q (complete x0 x1 x2 r) := by
  unfold complete
  repeat' first
    | with_reducible first
        | assumption | apply State_setMailbox_good | apply mailboxDone_good | apply State_emit_good
        | refine Good.of ?_ | refine Good.next ?_
    | split | (show Kept _ _ _ _ _ _ _ _; dsimp only)

theorem storeResponse_good {q x1 x2 s} (h : Good q s) : Good q (storeResponse s x1 x2) := by
  unfold storeResponse
  repeat' first
    | with_reducible first
        | assumption | apply State_setSession_good | refine Good.of ?_ | refine Good.next ?_
    | split | (show Kept _ _ _ _ _ _ _ _; dsimp only)

theorem completeAccepted_good {q x0 x1 x2 r} (h : Good q r.st) : Good q (completeAccepted x0 x1 x2 r) := by
  unfold completeAccepted
  repeat' first
    | with_reducible first
        | assumption | apply complete_good | apply storeResponse_good | refine Good.of ?_ | refine Good.next ?_
    | split | (show Kept _ _ _ _ _ _ _ _; dsimp only)

theorem finishRunning_good {q x1 x2 x3 x4 s} (h : Good q s) : Good q (finishRunning s x1 x2 x3 x4) := by
  unfold finishRunning
  repeat' first
    | with_reducible first
        | assumption | apply endSessions_good | apply State_setMailbox_good | apply completeAccepted_good
        | refine Good.of ?_ | refine Good.next ?_
    | split | (show Kept _ _ _ _ _ _ _ _; dsimp only)

theorem sluiceDropped_good {q x1 s} (h : Good q s) : Good q (sluiceDropped s x1) := h

theorem faultRunning_good {q x1 x2 s} (h : Good q s) : Good q (faultRunning s x1 x2) := by
  unfold faultRunning
  repeat' first
    | with_reducible first
        | assumption | apply finishRunning_good | apply raiseErr_good
    | (show Kept _ _ _ _ _ _ _ _; dsimp only)

theorem noteHost_good {q x1 s} (h : Good q s) : Good q (noteHost s x1) := by
  unfold noteHost
  repeat' first
    | with_reducible first
        | assumption | apply wake_good | refine Good.of ?_ | refine Good.next ?_
    | split | (show Kept _ _ _ _ _ _ _ _; dsimp only)

theorem arrive_good {q x0 x1 go s} (h : Good q s) (hr : ∀ s, Good q s → Good q (go s)) : Good q (arrive x0 x1 s go) := by
  unfold arrive
  repeat' first
    | with_reducible first
        | assumption | apply hr | apply mailboxDone_good | apply noteHost_good | apply sluiceDropped_good
        | apply complete_good | apply refuse_good | refine Good.of ?_ | refine Good.next ?_
    | split | (show Kept _ _ _ _ _ _ _ _; dsimp only)

theorem noteCode_good {q x1 s} (h : Good q s) : Good q (noteCode s x1) := by
  unfold noteCode
  repeat' first
    | with_reducible first
        | assumption | refine Good.of ?_ | refine Good.next ?_
    | split | (show Kept _ _ _ _ _ _ _ _; dsimp only)

theorem runAccepted_good {q x0 x1 x2 run s} (h : Good q s) (hr : ∀ s, Good q s → Good q (run s).st) : Good q (runAccepted x0 x1 x2 run s) := by
  unfold runAccepted
  repeat' first
    | with_reducible first
        | assumption | apply hr | apply complete_good | apply refuse_good | apply noteCode_good | apply acceptSeq_good
        | apply completeAccepted_good | refine Good.of ?_ | refine Good.next ?_
    | split | (show Kept _ _ _ _ _ _ _ _; dsimp only)

theorem command_good {q x0 x1 run s} (h : Good q s) (hr : ∀ s, Good q s → Good q (run s).st) : Good q (command x0 x1 run s) := by
  unfold command
  repeat' first
    | with_reducible first
        | assumption | apply hr | apply arrive_good | apply runAccepted_good | refine Good.of ?_ | refine Good.next ?_
        | intro _ | apply Good.foldl
    | split | dsimp only | (show Kept _ _ _ _ _ _ _ _; dsimp only)

/-! ### Memory -/

theorem dropWriteBack_good {q x1 s} (h : Good q s) : Good q (dropWriteBack s x1) := h

theorem setLineUpset_good {q x1 x2 s} (h : Good q s) : Good q (setLineUpset s x1 x2) := h

theorem storeLine_good {q x1 x2 x3 s} (h : Good q s) : Good q (storeLine s x1 x2 x3) := by
  unfold storeLine
  repeat' first
    | with_reducible first
        | assumption | apply setLineUpset_good | apply State_writeMem_good
    | (show Kept _ _ _ _ _ _ _ _; dsimp only)

theorem noteOutcome_good {q x1 x2 x3 s} (h : Good q s) : Good q (noteOutcome s x1 x2 x3) := by
  unfold noteOutcome
  repeat' first
    | with_reducible first
        | assumption | apply State_setMemChan_good | apply raiseErr_good | refine Good.of ?_ | refine Good.next ?_
    | split | (show Kept _ _ _ _ _ _ _ _; dsimp only)

theorem queueWriteBack_good {q x1 x2 s} (h : Good q s) : Good q (queueWriteBack s x1 x2) := by
  unfold queueWriteBack
  repeat' first
    | with_reducible first
        | assumption | apply State_setMemChan_good | refine Good.of ?_ | refine Good.next ?_
    | split | (show Kept _ _ _ _ _ _ _ _; dsimp only)

theorem readLine_good {q x1 x2 x3 s} (h : Good q s) : Good q (readLine s x1 x2 x3).2 := by
  unfold readLine
  repeat' first
    | with_reducible first
        | assumption | apply noteOutcome_good | apply queueWriteBack_good | refine Good.of ?_ | refine Good.next ?_
    | split | (show Kept _ _ _ _ _ _ _ _; dsimp only)

theorem writeLine_good {q x1 x2 x3 x4 s} (h : Good q s) : Good q (writeLine s x1 x2 x3 x4).2 := by
  unfold writeLine
  repeat' first
    | with_reducible first
        | assumption | apply dropWriteBack_good | apply storeLine_good | apply readLine_good | apply raiseErr_good
        | refine Good.of ?_ | refine Good.next ?_ | refine Good.fst (by assumption) ?_
        | refine Good.snd (by assumption) ?_
    | split | dsimp only | (show Kept _ _ _ _ _ _ _ _; dsimp only)

theorem postParts_good {q x1 x2 x3 x4 x5 x6 x7 s} (h : Good q s) : Good q (postParts s x1 x2 x3 x4 x5 x6 x7) := h

theorem post_good {q x1 x2 x3 x4 x5 x6 s} (h : Good q s) : Good q (post s x1 x2 x3 x4 x5 x6) := h

theorem damageSymbol_good {q x1 x2 x3 s} (h : Good q s) : Good q (damageSymbol s x1 x2 x3) := by
  unfold damageSymbol
  repeat' first
    | with_reducible first
        | assumption | apply setLineUpset_good | apply State_writeMem_good | refine Good.of ?_ | refine Good.next ?_
    | split | (show Kept _ _ _ _ _ _ _ _; dsimp only)

theorem scrubRead_good {q x1 s} (h : Good q s) : Good q (scrubRead s x1) := by
  unfold scrubRead
  repeat' first
    | with_reducible first
        | assumption | apply damageSymbol_good | apply readLine_good | apply State_setMemChan_good | refine Good.of ?_
        | refine Good.next ?_ | intro _ | apply Good.foldl
    | split | dsimp only | (show Kept _ _ _ _ _ _ _ _; dsimp only)

theorem writeBackOne_good {q x1 s} (h : Good q s) : GoodOpt q (writeBackOne s x1) := by
  unfold writeBackOne
  repeat' first
    | with_reducible first
        | assumption | apply storeLine_good | apply State_setMemChan_good | refine Good.of ?_ | refine Good.next ?_
        | intro _ | apply Good.foldl | refine Good.fst (by assumption) ?_ | refine Good.snd (by assumption) ?_
        | refine Good.some ?_ | exact GoodOpt.none | refine GoodOpt.map ?_ | refine Good.getD ?_ ?_
        | refine Good.elim ?_ ?_ | refine Good.okay ?_ | exact GoodExc.error | apply Good.foldl2 | apply Good.foldl3
        | apply Good.foldl1 | refine Good.left (by assumption) ?_ | refine Good.head (by assumption) ?_
        | refine Good.opt (by assumption) ?_ | refine Good.exc (by assumption) ?_
    | split | dsimp only | (show Kept _ _ _ _ _ _ _ _; dsimp only)

theorem ringWritten_good {q x1 x2 s} (h : Good q s) : Good q (ringWritten s x1 x2) := h

theorem finishRequest_good {q x1 s} (h : Good q s) : Good q (finishRequest s x1) := by
  unfold finishRequest
  repeat' first
    | with_reducible first
        | assumption | apply readLine_good | apply State_emit_good | apply writeLine_good | apply ringWritten_good
        | refine Good.of ?_ | refine Good.next ?_
    | split | (show Kept _ _ _ _ _ _ _ _; dsimp only)

theorem execMemoryAccessComplete_good {q x0 x1 s} (h : Good q s) : GoodOut q (execMemoryAccessComplete x0 x1 s) := by
  unfold execMemoryAccessComplete
  repeat' first
    | with_reducible first
        | assumption | apply State_setMemChan_good | apply finishRequest_good | apply damageSymbol_good
        | refine Good.of ?_ | refine Good.next ?_ | intro _ | apply Good.foldl
    | split | dsimp only | (show Kept _ _ _ _ _ _ _ _; dsimp only)

theorem dykeRules_good {q s} (h : Good q s) : Good q (dykeRules s).2 := by
  unfold dykeRules
  repeat' first
    | with_reducible first
        | assumption | apply State_drawBool_good | refine Good.of ?_ | refine Good.next ?_
    | split | (show Kept _ _ _ _ _ _ _ _; dsimp only)

theorem dykeFault_good {q x1 x2 x3 x4 x5 s} (h : Good q s) : Good q (dykeFault s x1 x2 x3 x4 x5) := by
  unfold dykeFault
  repeat' first
    | with_reducible first
        | assumption | apply raiseErr_good | refine Good.of ?_ | refine Good.next ?_
    | split | (show Kept _ _ _ _ _ _ _ _; dsimp only)

theorem dykeCheck_good {q x1 x2 x3 x4 s} (h : Good q s) : Good q (dykeCheck s x1 x2 x3 x4).2.2 := by
  unfold dykeCheck
  repeat' first
    | with_reducible first
        | assumption | apply dykeRules_good | apply dykeFault_good | refine Good.of ?_ | refine Good.next ?_
        | refine Good.fst (by assumption) ?_ | refine Good.snd (by assumption) ?_
    | split | dsimp only | (show Kept _ _ _ _ _ _ _ _; dsimp only)

theorem readParts_good {q x1 x2 x3 s} (h : Good q s) : Good q (readParts s x1 x2 x3).2 := by
  unfold readParts
  repeat' first
    | with_reducible first
        | assumption | apply readLine_good | refine Good.of ?_ | refine Good.next ?_ | intro _ | apply Good.foldl
        | refine Good.fst (by assumption) ?_ | refine Good.snd (by assumption) ?_ | refine Good.some ?_
        | exact GoodOpt.none | refine GoodOpt.map ?_ | refine Good.getD ?_ ?_ | refine Good.elim ?_ ?_
        | refine Good.okay ?_ | exact GoodExc.error | apply Good.foldl2 | apply Good.foldl3 | apply Good.foldl1
        | refine Good.left (by assumption) ?_ | refine Good.head (by assumption) ?_
        | refine Good.opt (by assumption) ?_ | refine Good.exc (by assumption) ?_
    | split | dsimp only | (show Kept _ _ _ _ _ _ _ _; dsimp only)

theorem readPieces_good {q x1 x2 x3 x4 s} (h : Good q s) : Good q (readPieces s x1 x2 x3 x4).2 := by
  unfold readPieces
  repeat' first
    | with_reducible first
        | assumption | apply dykeCheck_good | apply readParts_good
    | (show Kept _ _ _ _ _ _ _ _; dsimp only)

theorem stateLoaded_good {q x1 x2 s} (h : Good q s) : Good q (stateLoaded s x1 x2) := by
  unfold stateLoaded
  repeat' first
    | with_reducible first
        | assumption | apply readPieces_good | refine Good.of ?_ | refine Good.next ?_ | intro _ | apply Good.foldl
        | refine Good.fst (by assumption) ?_ | refine Good.snd (by assumption) ?_ | refine Good.some ?_
        | exact GoodOpt.none | refine GoodOpt.map ?_ | refine Good.getD ?_ ?_ | refine Good.elim ?_ ?_
        | refine Good.okay ?_ | exact GoodExc.error | apply Good.foldl2 | apply Good.foldl3 | apply Good.foldl1
        | refine Good.left (by assumption) ?_ | refine Good.head (by assumption) ?_
        | refine Good.opt (by assumption) ?_ | refine Good.exc (by assumption) ?_
    | split | dsimp only | (show Kept _ _ _ _ _ _ _ _; dsimp only)

theorem classPieces_good {q x1 x2 x3 x4 x5 x6 s} (h : Good q s) : Good q (classPieces s x1 x2 x3 x4 x5 x6).2 := by
  unfold classPieces
  repeat' first
    | with_reducible first
        | assumption | apply dykeCheck_good | apply readParts_good | apply postParts_good
    | (show Kept _ _ _ _ _ _ _ _; dsimp only)

theorem storeParts_good {q x1 x2 x3 x4 s} (h : Good q s) : Good q (storeParts s x1 x2 x3 x4).2.2 := by
  unfold storeParts
  repeat' first
    | with_reducible first
        | assumption | apply writeLine_good | refine Good.of ?_ | refine Good.next ?_ | intro _ | apply Good.foldl
        | refine Good.fst (by assumption) ?_ | refine Good.snd (by assumption) ?_ | refine Good.some ?_
        | exact GoodOpt.none | refine GoodOpt.map ?_ | refine Good.getD ?_ ?_ | refine Good.elim ?_ ?_
        | refine Good.okay ?_ | exact GoodExc.error | apply Good.foldl2 | apply Good.foldl3 | apply Good.foldl1
        | refine Good.left (by assumption) ?_ | refine Good.head (by assumption) ?_
        | refine Good.opt (by assumption) ?_ | refine Good.exc (by assumption) ?_
    | split | dsimp only | (show Kept _ _ _ _ _ _ _ _; dsimp only)

theorem classStore_good {q x1 x2 x3 x4 x5 x6 s} (h : Good q s) : Good q (classStore s x1 x2 x3 x4 x5 x6).2.2 := by
  unfold classStore
  repeat' first
    | with_reducible first
        | assumption | apply dykeCheck_good | apply storeParts_good | apply postParts_good
    | (show Kept _ _ _ _ _ _ _ _; dsimp only)

theorem classWrite_good {q x1 x2 x3 x4 x5 x6 s} (h : Good q s) : Good q (classWrite s x1 x2 x3 x4 x5 x6).2 := by
  unfold classWrite
  repeat' first
    | with_reducible first
        | assumption | apply classStore_good
    | (show Kept _ _ _ _ _ _ _ _; dsimp only)

theorem hwbAccess_good {q x1 x2 s} (h : Good q s) : Good q (hwbAccess s x1 x2) := by
  unfold hwbAccess
  repeat' first
    | with_reducible first
        | assumption | apply classPieces_good | apply State_emit_good | apply classWrite_good | refine Good.of ?_
        | refine Good.next ?_ | intro _ | apply Good.foldl
    | split | dsimp only | (show Kept _ _ _ _ _ _ _ _; dsimp only)

theorem execHwbAccess_good {q x0 x1 s} (h : Good q s) : GoodOut q (execHwbAccess x0 x1 s) := by
  unfold execHwbAccess
  repeat' first
    | with_reducible first
        | assumption | apply hwbAccess_good | refine Good.of ?_ | refine Good.next ?_
    | split | dsimp only | (show Kept _ _ _ _ _ _ _ _; dsimp only)

theorem devRead_good {q x1 x2 x3 x4 s} (h : Good q s) : Good q (devRead s x1 x2 x3 x4).2.2 := by
  unfold devRead
  repeat' first
    | with_reducible first
        | assumption | apply readPieces_good
    | (show Kept _ _ _ _ _ _ _ _; dsimp only)

theorem startSync_good {q x1 x2 s} (h : Good q s) : Good q (startSync s x1 x2) := h

theorem cmdDykeLock_good {q x0 x1 s} (h : Good q s) : Good q (cmdDykeLock x0 x1 s).st := by
  unfold cmdDykeLock
  repeat' first
    | with_reducible first
        | assumption | apply ok_good | apply startSync_good | apply refuse_good | refine Good.of ?_
        | refine Good.next ?_
    | split | (show Kept _ _ _ _ _ _ _ _; dsimp only)

theorem execDykeLock_good {q x0 x1 s} (h : Good q s) : GoodOut q (execDykeLock x0 x1 s) := by
  unfold execDykeLock
  repeat' first
    | with_reducible first
        | assumption | apply command_good | apply cmdDykeLock_good | refine Good.of ?_ | refine Good.next ?_
    | split | (show Kept _ _ _ _ _ _ _ _; dsimp only)

theorem cmdDykeSync_good {q x0 s} (h : Good q s) : Good q (cmdDykeSync x0 s).st := h

theorem execDykeSync_good {q x0 s} (h : Good q s) : GoodOut q (execDykeSync x0 s) := by
  unfold execDykeSync
  repeat' first
    | with_reducible first
        | assumption | apply command_good | apply cmdDykeSync_good | refine Good.of ?_ | refine Good.next ?_
    | split | (show Kept _ _ _ _ _ _ _ _; dsimp only)

theorem loadState_good {q x1 x2 x3 x4 s} (h : Good q s) : Good q (loadState s x1 x2 x3 x4) := by
  unfold loadState
  repeat' first
    | with_reducible first
        | assumption | apply post_good | refine Good.of ?_ | refine Good.next ?_ | intro _ | apply Good.foldl
        | refine Good.fst (by assumption) ?_ | refine Good.snd (by assumption) ?_ | refine Good.some ?_
        | exact GoodOpt.none | refine GoodOpt.map ?_ | refine Good.getD ?_ ?_ | refine Good.elim ?_ ?_
        | refine Good.okay ?_ | exact GoodExc.error | apply Good.foldl2 | apply Good.foldl3 | apply Good.foldl1
        | refine Good.left (by assumption) ?_ | refine Good.head (by assumption) ?_
        | refine Good.opt (by assumption) ?_ | refine Good.exc (by assumption) ?_
    | split | dsimp only | (show Kept _ _ _ _ _ _ _ _; dsimp only)

theorem stageRules_good {q x1 s} (h : Good q s) : Good q (stageRules s x1) := h

theorem cmdDykeRule_good {q x0 s} (h : Good q s) : Good q (cmdDykeRule x0 s).st := by
  unfold cmdDykeRule
  repeat' first
    | with_reducible first
        | assumption | apply refuseFull_good | apply ok_good | apply stageRules_good | refine Good.of ?_
        | refine Good.next ?_
    | split | (show Kept _ _ _ _ _ _ _ _; dsimp only)

theorem forgetReqs_good {q x1 s} (h : Good q s) : Good q (forgetReqs s x1) := by
  unfold forgetReqs
  repeat' first
    | with_reducible first
        | assumption | refine Good.of ?_ | refine Good.next ?_ | intro _ | apply Good.foldl
        | refine Good.fst (by assumption) ?_ | refine Good.snd (by assumption) ?_ | refine Good.some ?_
        | exact GoodOpt.none | refine GoodOpt.map ?_ | refine Good.getD ?_ ?_ | refine Good.elim ?_ ?_
        | refine Good.okay ?_ | exact GoodExc.error | apply Good.foldl2 | apply Good.foldl3 | apply Good.foldl1
        | refine Good.left (by assumption) ?_ | refine Good.head (by assumption) ?_
        | refine Good.opt (by assumption) ?_ | refine Good.exc (by assumption) ?_
    | split | dsimp only | (show Kept _ _ _ _ _ _ _ _; dsimp only)

theorem forget_good {q x1 s} (h : Good q s) : Good q (forget s x1) := h

theorem wardenWrite_good {q x1 x2 s} (h : Good q s) : Good q (wardenWrite s x1 x2) := by
  unfold wardenWrite
  repeat' first
    | with_reducible first
        | assumption | apply classWrite_good
    | (show Kept _ _ _ _ _ _ _ _; dsimp only)

theorem touchSymbols_good {q x1 x2 s} (h : Good q s) : Good q (touchSymbols s x1 x2) := by
  unfold touchSymbols
  repeat' first
    | with_reducible first
        | assumption | apply State_setMemChan_good | refine Good.of ?_ | refine Good.next ?_ | intro _
        | apply Good.foldl | refine Good.fst (by assumption) ?_ | refine Good.snd (by assumption) ?_
        | refine Good.some ?_ | exact GoodOpt.none | refine GoodOpt.map ?_ | refine Good.getD ?_ ?_
        | refine Good.elim ?_ ?_ | refine Good.okay ?_ | exact GoodExc.error | apply Good.foldl2 | apply Good.foldl3
        | apply Good.foldl1 | refine Good.left (by assumption) ?_ | refine Good.head (by assumption) ?_
        | refine Good.opt (by assumption) ?_ | refine Good.exc (by assumption) ?_
    | split | dsimp only | (show Kept _ _ _ _ _ _ _ _; dsimp only)

theorem serveChannel_good {q x0 x1 x3 s} (h : Good q s) : Good q (serveChannel x0 x1 s x3) := by
  unfold serveChannel
  repeat' first
    | with_reducible first
        | assumption | apply touchSymbols_good | apply writeBackOne_good | refine Good.of ?_ | refine Good.next ?_
        | intro _ | apply Good.foldl | refine Good.fst (by assumption) ?_ | refine Good.snd (by assumption) ?_
        | refine Good.some ?_ | exact GoodOpt.none | refine GoodOpt.map ?_ | refine Good.getD ?_ ?_
        | refine Good.elim ?_ ?_ | refine Good.okay ?_ | exact GoodExc.error | apply Good.foldl2 | apply Good.foldl3
        | apply Good.foldl1 | refine Good.left (by assumption) ?_ | refine Good.head (by assumption) ?_
        | refine Good.opt (by assumption) ?_ | refine Good.exc (by assumption) ?_
    | split | dsimp only | (show Kept _ _ _ _ _ _ _ _; dsimp only)

theorem execHwbBaseWrite_good {q x0 s} (h : Good q s) : GoodOut q (execHwbBaseWrite x0 s) := by
  unfold execHwbBaseWrite
  repeat' first
    | with_reducible first
        | assumption | refine Good.of ?_ | refine Good.next ?_
    | split | dsimp only | (show Kept _ _ _ _ _ _ _ _; dsimp only)

theorem cmdScrubSet_good {q x0 s} (h : Good q s) : Good q (cmdScrubSet x0 s).st := by
  unfold cmdScrubSet
  repeat' first
    | with_reducible first
        | assumption | apply refuse_good | apply ok_good | refine Good.of ?_ | refine Good.next ?_
    | split | (show Kept _ _ _ _ _ _ _ _; dsimp only)

theorem execScrubSet_good {q x0 x1 s} (h : Good q s) : GoodOut q (execScrubSet x0 x1 s) := by
  unfold execScrubSet
  repeat' first
    | with_reducible first
        | assumption | apply command_good | apply cmdScrubSet_good | refine Good.of ?_ | refine Good.next ?_
    | split | (show Kept _ _ _ _ _ _ _ _; dsimp only)

theorem devWrite_good {q x1 x2 x3 s} (h : Good q s) : Good q (devWrite s x1 x2 x3).2 := by
  unfold devWrite
  repeat' first
    | with_reducible first
        | assumption | apply dykeCheck_good | apply storeParts_good
    | (show Kept _ _ _ _ _ _ _ _; dsimp only)

theorem requestMemory_good {q x1 s} (h : Good q s) : Good q (requestMemory s x1) := by
  unfold requestMemory
  repeat' first
    | with_reducible first
        | assumption | apply dykeCheck_good | apply State_emit_good | refine Good.of ?_ | refine Good.next ?_
        | intro _ | apply Good.foldl
    | split | dsimp only | (show Kept _ _ _ _ _ _ _ _; dsimp only)

theorem execMemoryRequest_good {q x0 s} (h : Good q s) : GoodOut q (execMemoryRequest x0 s) := by
  unfold execMemoryRequest
  repeat' first
    | with_reducible first
        | assumption | apply requestMemory_good | refine Good.of ?_ | refine Good.next ?_
    | split | (show Kept _ _ _ _ _ _ _ _; dsimp only)

theorem poisonLine_good {q x1 s} (h : Good q s) : Good q (poisonLine s x1) := by
  unfold poisonLine
  repeat' first
    | with_reducible first
        | assumption | apply dropWriteBack_good | apply storeLine_good
    | (show Kept _ _ _ _ _ _ _ _; dsimp only)

theorem tfind_keepLocked {d : Dyke} {t : Tab Region} {n : Nat} {r : Region} (hn : n ∈ d.locked)
    (hr : tfind d.force n = some r) : tfind (keepLocked d t) n = some r := by
  have key : ∀ (l : List Nat) (t : Tab Region), (n ∈ l ∨ tfind t n = some r) →
      tfind (l.foldl (fun t n => (tfind d.force n).elim t (tset t n)) t) n = some r := by
    intro l
    induction l with
    | nil => intro t h; simpa using h
    | cons m l ih =>
      intro t h
      refine ih _ ?_
      by_cases hm : n = m
      · subst hm; right; simp only [hr, Option.elim_some, tfind_tset_same]
      · rcases h with h | h
        · left; simpa [hm] using h
        · right
          show tfind ((tfind d.force m).elim t (tset t m)) n = some r
          cases tfind d.force m with
          | none => exact h
          | some x => exact (tfind_tset_other hm).trans h
  exact key _ _ (Or.inl hn)

theorem lockRegion_keeps {d : Dyke} {m n : Nat} {r : Region} (hn : n ∈ d.locked) (hr : tfind d.force n = some r) :
    n ∈ (lockRegion d m).locked ∧ tfind (lockRegion d m).force n = some r := by
  unfold lockRegion
  dsimp only
  split
  · exact ⟨hn, hr⟩
  · rename_i hm
    have hne : n ≠ m := fun e => hm (by subst e; simpa using hn)
    refine ⟨mem_insertAsc.2 (Or.inr hn), ?_⟩
    rw [tfind_tmap, hr]
    simp [hne]

theorem applySync_good {q s j} (h : Good q s) : Good q (applySync s j) := by
  unfold applySync
  refine setDyke_good h ?_
  intro n r hn hr
  split
  · exact lockRegion_keeps hn (tfind_keepLocked hn hr)
  · exact ⟨hn, tfind_keepLocked hn hr⟩

theorem postRanges_good {q x1 x2 x3 x4 x5 s} (h : Good q s) : Good q (postRanges s x1 x2 x3 x4 x5) := by
  unfold postRanges
  repeat' first
    | with_reducible first
        | assumption | apply postParts_good | refine Good.of ?_ | refine Good.next ?_ | intro _ | apply Good.foldl
        | refine Good.fst (by assumption) ?_ | refine Good.snd (by assumption) ?_ | refine Good.some ?_
        | exact GoodOpt.none | refine GoodOpt.map ?_ | refine Good.getD ?_ ?_ | refine Good.elim ?_ ?_
        | refine Good.okay ?_ | exact GoodExc.error | apply Good.foldl2 | apply Good.foldl3 | apply Good.foldl1
        | refine Good.left (by assumption) ?_ | refine Good.head (by assumption) ?_
        | refine Good.opt (by assumption) ?_ | refine Good.exc (by assumption) ?_
    | split | dsimp only | (show Kept _ _ _ _ _ _ _ _; dsimp only)

theorem classRead_good {q x1 x2 x3 x4 x5 x6 s} (h : Good q s) : Good q (classRead s x1 x2 x3 x4 x5 x6).2.2 := by
  unfold classRead
  repeat' first
    | with_reducible first
        | assumption | apply classPieces_good
    | (show Kept _ _ _ _ _ _ _ _; dsimp only)

theorem dropSync_good {q x1 s} (h : Good q s) : Good q (dropSync s x1) := h

theorem completeSync_good {q s} (h : Good q s) : Good q (completeSync s) := by
  unfold completeSync
  repeat' first
    | with_reducible first
        | assumption | apply faultRunning_good | apply dropSync_good | apply finishRunning_good | apply applySync_good
        | refine Good.of ?_ | refine Good.next ?_ | intro _ | apply Good.foldl | refine Good.fst (by assumption) ?_
        | refine Good.snd (by assumption) ?_ | refine Good.some ?_ | exact GoodOpt.none | refine GoodOpt.map ?_
        | refine Good.getD ?_ ?_ | refine Good.elim ?_ ?_ | refine Good.okay ?_ | exact GoodExc.error
        | apply Good.foldl2 | apply Good.foldl3 | apply Good.foldl1 | refine Good.left (by assumption) ?_
        | refine Good.head (by assumption) ?_ | refine Good.opt (by assumption) ?_
        | refine Good.exc (by assumption) ?_
    | split | dsimp only | (show Kept _ _ _ _ _ _ _ _; dsimp only)

theorem execDykeSyncComplete_good {q s} (h : Good q s) : GoodOut q (execDykeSyncComplete s) := by
  unfold execDykeSyncComplete
  repeat' first
    | with_reducible first
        | assumption | apply completeSync_good | refine Good.of ?_ | refine Good.next ?_ | intro _ | apply Good.foldl
        | refine Good.fst (by assumption) ?_ | refine Good.snd (by assumption) ?_ | refine Good.some ?_
        | exact GoodOpt.none | refine GoodOpt.map ?_ | refine Good.getD ?_ ?_ | refine Good.elim ?_ ?_
        | refine Good.okay ?_ | exact GoodExc.error | apply Good.foldl2 | apply Good.foldl3 | apply Good.foldl1
        | refine Good.left (by assumption) ?_ | refine Good.head (by assumption) ?_
        | refine Good.opt (by assumption) ?_ | refine Good.exc (by assumption) ?_
    | split | dsimp only | (show Kept _ _ _ _ _ _ _ _; dsimp only)

theorem cmdMemErrQuery_good {q x0 s} (h : Good q s) : Good q (cmdMemErrQuery x0 s).st := by
  unfold cmdMemErrQuery
  repeat' first
    | with_reducible first
        | assumption | apply ok_good | apply refuse_good | refine Good.of ?_ | refine Good.next ?_
    | split | (show Kept _ _ _ _ _ _ _ _; dsimp only)

theorem execMemErrQuery_good {q x0 x1 s} (h : Good q s) : GoodOut q (execMemErrQuery x0 x1 s) := by
  unfold execMemErrQuery
  repeat' first
    | with_reducible first
        | assumption | apply command_good | apply cmdMemErrQuery_good | refine Good.of ?_ | refine Good.next ?_
    | split | (show Kept _ _ _ _ _ _ _ _; dsimp only)

theorem execDykeRule_good {q x0 x1 s} (h : Good q s) : GoodOut q (execDykeRule x0 x1 s) := by
  unfold execDykeRule
  repeat' first
    | with_reducible first
        | assumption | apply command_good | apply cmdDykeRule_good | refine Good.of ?_ | refine Good.next ?_
    | split | (show Kept _ _ _ _ _ _ _ _; dsimp only)

theorem execSlotPosition_good {q s} (h : Good q s) : GoodOut q (execSlotPosition s) := by
  unfold execSlotPosition
  repeat' first
    | with_reducible first
        | assumption | apply serveChannel_good | refine Good.of ?_ | refine Good.next ?_ | intro _ | apply Good.foldl
    | split | dsimp only | (show Kept _ _ _ _ _ _ _ _; dsimp only)

theorem completeSyncs_good {q n s} (h : Good q s) : Good q (completeSyncs n s) := by
  induction n generalizing s with
  | zero => exact h
  | succ n ih => exact ih (completeSync_good h)

theorem wardenRead_good {q x1 x2 s} (h : Good q s) : Good q (wardenRead s x1 x2).2.2 := by
  unfold wardenRead
  repeat' first
    | with_reducible first
        | assumption | apply classRead_good
    | (show Kept _ _ _ _ _ _ _ _; dsimp only)

theorem execScrubPacingRead_good {q x0 s} (h : Good q s) : GoodOut q (execScrubPacingRead x0 s) := by
  unfold execScrubPacingRead
  repeat' first
    | with_reducible first
        | assumption | apply scrubRead_good | refine Good.of ?_ | refine Good.next ?_
    | split | (show Kept _ _ _ _ _ _ _ _; dsimp only)

/-! ### Operands -/

theorem releaseContext_good {q x1 s} (h : Good q s) : Good q (releaseContext s x1) := by
  unfold releaseContext
  repeat' first
    | with_reducible first
        | assumption | apply State_setCtx_good | refine Good.of ?_ | refine Good.next ?_
    | split | (show Kept _ _ _ _ _ _ _ _; dsimp only)

theorem modHeads_good {q x1 x2 s} (h : Good q s) : Good q (modHeads s x1 x2) := by
  unfold modHeads
  repeat' first
    | with_reducible first
        | assumption | apply State_setHead_good | refine Good.of ?_ | refine Good.next ?_ | intro _ | apply Good.foldl
    | split | dsimp only | (show Kept _ _ _ _ _ _ _ _; dsimp only)

theorem releaseContexts_good {q s} (h : Good q s) : Good q (releaseContexts s) := by
  unfold releaseContexts
  repeat' first
    | with_reducible first
        | assumption | apply releaseContext_good | refine Good.of ?_ | refine Good.next ?_ | intro _
        | apply Good.foldl
    | split | dsimp only | (show Kept _ _ _ _ _ _ _ _; dsimp only)

theorem takeDetector_good {q x1 s} (h : Good q s) : GoodOpt q (takeDetector s x1) := by
  unfold takeDetector
  repeat' first
    | with_reducible first
        | assumption | apply State_setCheck_good | apply State_setCtx_good | refine Good.of ?_ | refine Good.next ?_
        | intro _ | apply Good.foldl | refine Good.fst (by assumption) ?_ | refine Good.snd (by assumption) ?_
        | refine Good.some ?_ | exact GoodOpt.none | refine GoodOpt.map ?_ | refine Good.getD ?_ ?_
        | refine Good.elim ?_ ?_ | refine Good.okay ?_ | exact GoodExc.error | apply Good.foldl2 | apply Good.foldl3
        | apply Good.foldl1 | refine Good.left (by assumption) ?_ | refine Good.head (by assumption) ?_
        | refine Good.opt (by assumption) ?_ | refine Good.exc (by assumption) ?_
    | split | dsimp only | (show Kept _ _ _ _ _ _ _ _; dsimp only)

end Sys2Proof.Laws
end

