-- ==== Sys2Proof/Laws/Heads.lean ====
section
/-! SUPPORT. What every operation of link state, windows, pixel values, heads, link events and power keeps (see `Sys2Proof.Laws.Good`): the canonical
form of memory, the command queue, the time, the outputs already given, the programmed keys and the
locked regions. One lemma per operation, cited instead of unfolding it. -/

set_option linter.unusedTactic false
set_option linter.unreachableTactic false

namespace Sys2Proof.Laws

open Sys2Proof Sys2Proof.Machine

/-! ### Links -/

theorem driveLane_good {q x1 x2 x3 x4 s} (h : Good q s) : Good q (driveLane s x1 x2 x3 x4) := by
  unfold driveLane
  repeat' first
    | with_reducible first
        | assumption | apply State_emit_good | apply State_setHead_good
    | (show Kept _ _ _ _ _ _ _ _; dsimp only)

theorem applyRequests_good {q x1 x2 x3 s} (h : Good q s) : Good q (applyRequests s x1 x2 x3) := by
  unfold applyRequests
  repeat' first
    | with_reducible first
        | assumption | apply driveLane_good | apply State_setHead_good | refine Good.of ?_ | refine Good.next ?_
        | intro _ | apply Good.foldl
    | split | dsimp only | (show Kept _ _ _ _ _ _ _ _; dsimp only)

theorem setIgnore_good {q x1 s} (h : Good q s) : Good q (setIgnore s x1) := by
  unfold setIgnore
  repeat' first
    | with_reducible first
        | assumption | apply State_setHead_good | apply State_emit_good | refine Good.of ?_ | refine Good.next ?_
    | split | (show Kept _ _ _ _ _ _ _ _; dsimp only)

theorem evalVrr_good {q x1 s} (h : Good q s) : Good q (evalVrr s x1) := by
  unfold evalVrr
  repeat' first
    | with_reducible first
        | assumption | apply setIgnore_good | apply State_setHead_good
    | (show Kept _ _ _ _ _ _ _ _; dsimp only)

theorem setState_good {q x1 x2 s} (h : Good q s) : Good q (setState s x1 x2) := h

theorem linkState_good {q x1 x2 s} (h : Good q s) : Good q (linkState s x1 x2) := by
  unfold linkState
  repeat' first
    | with_reducible first
        | assumption | apply postFw_good | apply setState_good | refine Good.of ?_ | refine Good.next ?_
    | split | (show Kept _ _ _ _ _ _ _ _; dsimp only)

theorem closeClamps_good {q x1 s} (h : Good q s) : Good q (closeClamps s x1) := by
  unfold closeClamps
  repeat' first
    | with_reducible first
        | assumption | apply State_setHead_good | apply raiseErr_good | refine Good.of ?_ | refine Good.next ?_
    | split | (show Kept _ _ _ _ _ _ _ _; dsimp only)

theorem failLink_good {q x1 x2 s} (h : Good q s) : Good q (failLink s x1 x2) := by
  unfold failLink
  repeat' first
    | with_reducible first
        | assumption | apply closeClamps_good | apply State_setHead_good | apply linkState_good | apply raiseErr_good
    | (show Kept _ _ _ _ _ _ _ _; dsimp only)

theorem startLevels_good {q x1 s} (h : Good q s) : Good q (startLevels s x1) := by
  unfold startLevels
  repeat' first
    | with_reducible first
        | assumption | apply State_setHead_good | apply driveLane_good | refine Good.of ?_ | refine Good.next ?_
        | intro _ | apply Good.foldl
    | split | dsimp only | (show Kept _ _ _ _ _ _ _ _; dsimp only)

theorem startTrainingFor_good {q x1 x2 s} (h : Good q s) : Good q (startTrainingFor s x1 x2) := by
  unfold startTrainingFor
  repeat' first
    | with_reducible first
        | assumption | apply closeClamps_good | apply State_setHead_good | apply failLink_good
        | apply startLevels_good | refine Good.of ?_ | refine Good.next ?_
    | split | (show Kept _ _ _ _ _ _ _ _; dsimp only)

theorem startTraining_good {q x1 s} (h : Good q s) : Good q (startTraining s x1) := by
  unfold startTraining
  repeat' first
    | with_reducible first
        | assumption | apply startTrainingFor_good
    | (show Kept _ _ _ _ _ _ _ _; dsimp only)

/-! ### Windows -/

theorem placeHead_good {q x0 x1 x2 s} (h : Good q s) : Good q (placeHead x0 x1 x2 s).st := by
  unfold placeHead
  repeat' first
    | with_reducible first
        | assumption | apply refuseFull_good | apply State_setHead_good | apply ok_good | refine Good.of ?_
        | refine Good.next ?_
    | split | (show Kept _ _ _ _ _ _ _ _; dsimp only)

theorem setWin_good {q x1 x2 s} (h : Good q s) : Good q (setWin s x1 x2) := h

theorem settleDetectors_good {q x1 s} (h : Good q s) : Good q (settleDetectors s x1) := by
  unfold settleDetectors
  repeat' first
    | with_reducible first
        | assumption | apply takeDetector_good | apply releaseChannels_good | refine Good.of ?_ | refine Good.next ?_
        | intro _ | apply Good.foldl | refine Good.fst (by assumption) ?_ | refine Good.snd (by assumption) ?_
        | refine Good.some ?_ | exact GoodOpt.none | refine GoodOpt.map ?_ | refine Good.getD ?_ ?_
        | refine Good.elim ?_ ?_ | refine Good.okay ?_ | exact GoodExc.error | apply Good.foldl2 | apply Good.foldl3
        | apply Good.foldl1 | refine Good.left (by assumption) ?_ | refine Good.head (by assumption) ?_
        | refine Good.opt (by assumption) ?_ | refine Good.exc (by assumption) ?_
    | split | dsimp only | (show Kept _ _ _ _ _ _ _ _; dsimp only)

theorem defineWindow_good {q x0 x1 s} (h : Good q s) : Good q (defineWindow x0 x1 s).st := by
  unfold defineWindow
  repeat' first
    | with_reducible first
        | assumption | apply refuseFull_good | apply refuse_good | apply setWin_good | apply ok_good
        | apply settleDetectors_good | refine Good.of ?_ | refine Good.next ?_
    | split | (show Kept _ _ _ _ _ _ _ _; dsimp only)

theorem cmdZorderSet_good {q x0 s} (h : Good q s) : Good q (cmdZorderSet x0 s).st := by
  unfold cmdZorderSet
  repeat' first
    | with_reducible first
        | assumption | apply refuse_good | apply ok_good | apply modHeads_good | refine Good.of ?_
        | refine Good.next ?_
    | split | (show Kept _ _ _ _ _ _ _ _; dsimp only)

theorem cmdVerdictQuery_good {q x0 s} (h : Good q s) : Good q (cmdVerdictQuery x0 s).st := by
  unfold cmdVerdictQuery
  repeat' first
    | with_reducible first
        | assumption | apply refuse_good | apply ok_good | refine Good.of ?_ | refine Good.next ?_
    | split | (show Kept _ _ _ _ _ _ _ _; dsimp only)

theorem execVerdictQuery_good {q x0 x1 s} (h : Good q s) : GoodOut q (execVerdictQuery x0 x1 s) := by
  unfold execVerdictQuery
  repeat' first
    | with_reducible first
        | assumption | apply command_good | apply cmdVerdictQuery_good | refine Good.of ?_ | refine Good.next ?_
    | split | (show Kept _ _ _ _ _ _ _ _; dsimp only)

theorem setLayer_good {q x0 x1 s} (h : Good q s) : Good q (setLayer x0 x1 s).st := by
  unfold setLayer
  repeat' first
    | with_reducible first
        | assumption | apply refuseFull_good | apply refuse_good | apply setWin_good | apply ok_good
        | refine Good.of ?_ | refine Good.next ?_
    | split | (show Kept _ _ _ _ _ _ _ _; dsimp only)

theorem setPalette_good {q x0 x1 x2 s} (h : Good q s) : Good q (setPalette x0 x1 x2 s).st := by
  unfold setPalette
  repeat' first
    | with_reducible first
        | assumption | apply refuseFull_good | apply refuse_good | apply ok_good | apply modHeads_good
        | refine Good.of ?_ | refine Good.next ?_
    | split | (show Kept _ _ _ _ _ _ _ _; dsimp only)

theorem cmdLayerSet_good {q x0 s} (h : Good q s) : Good q (cmdLayerSet x0 s).st := by
  unfold cmdLayerSet
  repeat' first
    | with_reducible first
        | assumption | apply setLayer_good | apply setPalette_good | refine Good.of ?_ | refine Good.next ?_
    | split | (show Kept _ _ _ _ _ _ _ _; dsimp only)

theorem setPolicy_good {q x0 x1 x2 s} (h : Good q s) : Good q (setPolicy x0 x1 x2 s).st := by
  unfold setPolicy
  repeat' first
    | with_reducible first
        | assumption | apply refuse_good | apply refuseFull_good | apply ok_good | apply settleDetectors_good
        | apply setWin_good | refine Good.of ?_ | refine Good.next ?_
    | split | (show Kept _ _ _ _ _ _ _ _; dsimp only)

theorem setColours_good {q x0 x1 s} (h : Good q s) : Good q (setColours x0 x1 s).st := by
  unfold setColours
  repeat' first
    | with_reducible first
        | assumption | apply refuse_good | apply ok_good | refine Good.of ?_ | refine Good.next ?_
    | split | (show Kept _ _ _ _ _ _ _ _; dsimp only)

theorem setMembership_good {q x0 x1 x2 s} (h : Good q s) : Good q (setMembership x0 x1 x2 s).st := by
  unfold setMembership
  repeat' first
    | with_reducible first
        | assumption | apply refuse_good | apply ok_good | apply setWin_good | refine Good.of ?_ | refine Good.next ?_
    | split | (show Kept _ _ _ _ _ _ _ _; dsimp only)

theorem cmdFreshnessSet_good {q x0 x1 s} (h : Good q s) : Good q (cmdFreshnessSet x0 x1 s).st := by
  unfold cmdFreshnessSet
  repeat' first
    | with_reducible first
        | assumption | apply setPolicy_good | apply setColours_good | apply setMembership_good | refine Good.of ?_
        | refine Good.next ?_
    | split | (show Kept _ _ _ _ _ _ _ _; dsimp only)

theorem execFreshnessSet_good {q x0 x1 s} (h : Good q s) : GoodOut q (execFreshnessSet x0 x1 s) := by
  unfold execFreshnessSet
  repeat' first
    | with_reducible first
        | assumption | apply command_good | apply cmdFreshnessSet_good | refine Good.of ?_ | refine Good.next ?_
    | split | (show Kept _ _ _ _ _ _ _ _; dsimp only)

theorem deleteWindow_good {q x0 s} (h : Good q s) : Good q (deleteWindow x0 s).st := by
  unfold deleteWindow
  repeat' first
    | with_reducible first
        | assumption | apply refuseFull_good | apply refuse_good | apply ok_good | apply releaseChannels_good
        | refine Good.of ?_ | refine Good.next ?_
    | split | (show Kept _ _ _ _ _ _ _ _; dsimp only)

theorem execLayerSet_good {q x0 x1 s} (h : Good q s) : GoodOut q (execLayerSet x0 x1 s) := by
  unfold execLayerSet
  repeat' first
    | with_reducible first
        | assumption | apply command_good | apply cmdLayerSet_good | refine Good.of ?_ | refine Good.next ?_
    | split | (show Kept _ _ _ _ _ _ _ _; dsimp only)

theorem cmdWindowDefine_good {q x0 s} (h : Good q s) : Good q (cmdWindowDefine x0 s).st := by
  unfold cmdWindowDefine
  repeat' first
    | with_reducible first
        | assumption | apply defineWindow_good | apply deleteWindow_good | apply placeHead_good | refine Good.of ?_
        | refine Good.next ?_
    | split | (show Kept _ _ _ _ _ _ _ _; dsimp only)

theorem execWindowDefine_good {q x0 x1 s} (h : Good q s) : GoodOut q (execWindowDefine x0 x1 s) := by
  unfold execWindowDefine
  repeat' first
    | with_reducible first
        | assumption | apply command_good | apply cmdWindowDefine_good | refine Good.of ?_ | refine Good.next ?_
    | split | (show Kept _ _ _ _ _ _ _ _; dsimp only)

theorem execZorderSet_good {q x0 x1 s} (h : Good q s) : GoodOut q (execZorderSet x0 x1 s) := by
  unfold execZorderSet
  repeat' first
    | with_reducible first
        | assumption | apply command_good | apply cmdZorderSet_good | refine Good.of ?_ | refine Good.next ?_
    | split | (show Kept _ _ _ _ _ _ _ _; dsimp only)

/-! ### Pixels -/

theorem poisonBuf_good {q x1 s} (h : Good q s) : Good q (poisonBuf s x1) := by
  unfold poisonBuf
  repeat' first
    | with_reducible first
        | assumption | apply State_setCtx_good | refine Good.of ?_ | refine Good.next ?_
    | split | (show Kept _ _ _ _ _ _ _ _; dsimp only)

theorem tapGroup_good {q x1 x2 x3 x4 s} (h : Good q s) : Good q (tapGroup s x1 x2 x3 x4) := h

theorem tapSeals_good {q x1 x2 x3 x4 x5 s} (h : Good q s) : Good q (tapSeals s x1 x2 x3 x4 x5) := h

theorem emitGroup_good {q x1 x2 x3 x4 x5 s} (h : Good q s) : Good q (emitGroup s x1 x2 x3 x4 x5) := by
  unfold emitGroup
  repeat' first
    | with_reducible first
        | assumption | apply tapGroup_good | apply tapSeals_good | apply State_emit_good | refine Good.of ?_
        | refine Good.next ?_
    | split | (show Kept _ _ _ _ _ _ _ _; dsimp only)

theorem drainHead_good {q x0 x1 s} (h : Good q s) : Good q (drainHead x0 x1 s) := by
  induction x1 generalizing x0 s
  all_goals unfold drainHead
  all_goals repeat' first
    | with_reducible first
        | assumption | apply_assumption | apply emitGroup_good | apply State_setHead_good | refine Good.of ?_
        | refine Good.next ?_
    | split | (show Kept _ _ _ _ _ _ _ _; dsimp only)

theorem drain_good {q x1 s} (h : Good q s) : Good q (drain s x1) := by
  unfold drain
  repeat' first
    | with_reducible first
        | assumption | apply drainHead_good
    | (show Kept _ _ _ _ _ _ _ _; dsimp only)

theorem lateBursts_good {q x0 x1 x2 x3 x5 s} (h : Good q s) : Good q (lateBursts x0 x1 x2 x3 s x5) := by
  unfold lateBursts
  repeat' first
    | with_reducible first
        | assumption | apply forgetReqs_good | apply State_setHead_good | apply raiseErr_good | apply poisonBuf_good
        | refine Good.of ?_ | refine Good.next ?_ | intro _ | apply Good.foldl | refine Good.fst (by assumption) ?_
        | refine Good.snd (by assumption) ?_ | refine Good.some ?_ | exact GoodOpt.none | refine GoodOpt.map ?_
        | refine Good.getD ?_ ?_ | refine Good.elim ?_ ?_ | refine Good.okay ?_ | exact GoodExc.error
        | apply Good.foldl2 | apply Good.foldl3 | apply Good.foldl1 | refine Good.left (by assumption) ?_
        | refine Good.head (by assumption) ?_ | refine Good.opt (by assumption) ?_
        | refine Good.exc (by assumption) ?_
    | split | dsimp only | (show Kept _ _ _ _ _ _ _ _; dsimp only)

theorem fetchRange_good {q x0 x1 x3 s} (h : Good q s) : Good q (fetchRange x0 x1 s x3) := by
  unfold fetchRange
  repeat' first
    | with_reducible first
        | assumption | apply readPieces_good | apply State_setHead_good | apply poisonBuf_good | refine Good.of ?_
        | refine Good.next ?_ | refine Good.fst (by assumption) ?_ | refine Good.snd (by assumption) ?_
    | split | dsimp only | (show Kept _ _ _ _ _ _ _ _; dsimp only)

theorem fetchStarts_good {q x1 x2 x3 x4 s} (h : Good q s) : Good q (fetchStarts s x1 x2 x3 x4) := by
  unfold fetchStarts
  repeat' first
    | with_reducible first
        | assumption | apply fetchRange_good | refine Good.of ?_ | refine Good.next ?_ | intro _ | apply Good.foldl
    | split | dsimp only | (show Kept _ _ _ _ _ _ _ _; dsimp only)

theorem pushGroup_good {q x1 x2 x3 s} (h : Good q s) : Good q (pushGroup s x1 x2 x3) := h

theorem lateGroup_good {q x1 x2 x3 x4 s} (h : Good q s) : Good q (lateGroup s x1 x2 x3 x4) := by
  unfold lateGroup
  repeat' first
    | with_reducible first
        | assumption | apply lateBursts_good | apply fetchStarts_good | apply raiseErr_good | apply pushGroup_good
        | apply State_setHead_good | refine Good.of ?_ | refine Good.next ?_ | intro _ | apply Good.foldl
        | refine Good.fst (by assumption) ?_ | refine Good.snd (by assumption) ?_ | refine Good.some ?_
        | exact GoodOpt.none | refine GoodOpt.map ?_ | refine Good.getD ?_ ?_ | refine Good.elim ?_ ?_
        | refine Good.okay ?_ | exact GoodExc.error | apply Good.foldl2 | apply Good.foldl3 | apply Good.foldl1
        | refine Good.left (by assumption) ?_ | refine Good.head (by assumption) ?_
        | refine Good.opt (by assumption) ?_ | refine Good.exc (by assumption) ?_
    | split | dsimp only | (show Kept _ _ _ _ _ _ _ _; dsimp only)

theorem missGroups_good {q x0 x1 s} (h : Good q s) : Good q (missGroups x0 x1 s) := by
  induction x1 generalizing x0 s
  all_goals unfold missGroups
  all_goals repeat' first
    | with_reducible first
        | assumption | apply_assumption | apply lateGroup_good | refine Good.of ?_ | refine Good.next ?_
    | split | (show Kept _ _ _ _ _ _ _ _; dsimp only)

theorem startFetches_good {q x0 x1 s} (h : Good q s) : Good q (startFetches x0 x1 s) := by
  induction x1 generalizing x0 s
  all_goals unfold startFetches
  all_goals repeat' first
    | with_reducible first
        | assumption | apply_assumption | apply post_good | apply State_setHead_good | refine Good.of ?_
        | refine Good.next ?_ | intro _ | apply Good.foldl
    | split | dsimp only | (show Kept _ _ _ _ _ _ _ _; dsimp only)

theorem pump_good {q x1 s} (h : Good q s) : Good q (pump s x1) := by
  unfold pump
  repeat' first
    | with_reducible first
        | assumption | apply drain_good | apply missGroups_good | apply startFetches_good | refine Good.of ?_
        | refine Good.next ?_
    | split | (show Kept _ _ _ _ _ _ _ _; dsimp only)

theorem composeGroup_good {q x1 s} (h : Good q s) : Good q (composeGroup s x1) := by
  unfold composeGroup
  repeat' first
    | with_reducible first
        | assumption | apply lateGroup_good | apply fetchStarts_good | apply pushGroup_good | refine Good.of ?_
        | refine Good.next ?_
    | split | (show Kept _ _ _ _ _ _ _ _; dsimp only)

theorem execGroupCompose_good {q x0 s} (h : Good q s) : GoodOut q (execGroupCompose x0 s) := by
  unfold execGroupCompose
  repeat' first
    | with_reducible first
        | assumption | apply pump_good | apply drain_good | apply composeGroup_good | apply State_setPan_good
        | refine Good.of ?_ | refine Good.next ?_ | intro _ | apply Good.foldl
    | split | dsimp only | (show Kept _ _ _ _ _ _ _ _; dsimp only)

/-! ### Heads -/

theorem gaugeLatch_good {q x1 s} (h : Good q s) : Good q (gaugeLatch s x1) := by
  unfold gaugeLatch
  repeat' first
    | with_reducible first
        | assumption | apply State_setPan_good | refine Good.of ?_ | refine Good.next ?_
    | split | (show Kept _ _ _ _ _ _ _ _; dsimp only)

theorem postMode_good {q x1 x2 s} (h : Good q s) : Good q (postMode s x1 x2) := by
  unfold postMode
  repeat' first
    | with_reducible first
        | assumption | apply postFw_good | refine Good.of ?_ | refine Good.next ?_ | intro _ | apply Good.foldl
        | refine Good.fst (by assumption) ?_ | refine Good.snd (by assumption) ?_ | refine Good.some ?_
        | exact GoodOpt.none | refine GoodOpt.map ?_ | refine Good.getD ?_ ?_ | refine Good.elim ?_ ?_
        | refine Good.okay ?_ | exact GoodExc.error | apply Good.foldl2 | apply Good.foldl3 | apply Good.foldl1
        | refine Good.left (by assumption) ?_ | refine Good.head (by assumption) ?_
        | refine Good.opt (by assumption) ?_ | refine Good.exc (by assumption) ?_
    | split | dsimp only | (show Kept _ _ _ _ _ _ _ _; dsimp only)

theorem dropSeals_good {q x1 x2 s} (h : Good q s) : Good q (dropSeals s x1 x2) := by
  unfold dropSeals
  repeat' first
    | with_reducible first
        | assumption | apply postFence_good | apply State_setHead_good | refine Good.of ?_ | refine Good.next ?_
    | split | (show Kept _ _ _ _ _ _ _ _; dsimp only)

theorem loadGauges_good {q x1 x2 s} (h : Good q s) : Good q (loadGauges s x1 x2) := h

theorem applyBank_good {q x1 x2 x3 s} (h : Good q s) : Good q (applyBank s x1 x2 x3) := by
  unfold applyBank
  repeat' first
    | with_reducible first
        | assumption | apply dropSeals_good | apply loadGauges_good | apply State_setHead_good
    | (show Kept _ _ _ _ _ _ _ _; dsimp only)

theorem postApplied_good {q x1 x2 x3 x4 x5 s} (h : Good q s) : Good q (postApplied s x1 x2 x3 x4 x5) := by
  unfold postApplied
  repeat' first
    | with_reducible first
        | assumption | apply postHw_good
    | (show Kept _ _ _ _ _ _ _ _; dsimp only)

theorem applyRipe_good {q x1 x2 s} (h : Good q s) : Good q (applyRipe s x1 x2) := by
  unfold applyRipe
  repeat' first
    | with_reducible first
        | assumption | apply applyBank_good | apply State_setHead_good | apply postApplied_good | refine Good.of ?_
        | refine Good.next ?_
    | split | (show Kept _ _ _ _ _ _ _ _; dsimp only)

theorem verdictChange_good {q x0 x1 x2 x4 s} (h : Good q s) : Good q (verdictChange x0 x1 x2 s x4) := by
  unfold verdictChange
  repeat' first
    | with_reducible first
        | assumption | apply postHw_good | refine Good.of ?_ | refine Good.next ?_
    | split | (show Kept _ _ _ _ _ _ _ _; dsimp only)

theorem frameEnd_good {q x1 s} (h : Good q s) : Good q (frameEnd s x1) := by
  unfold frameEnd
  repeat' first
    | with_reducible first
        | assumption | apply State_setHead_good | apply verdictChange_good | refine Good.of ?_ | refine Good.next ?_
        | intro _ | apply Good.foldl
    | split | dsimp only | (show Kept _ _ _ _ _ _ _ _; dsimp only)

theorem latchHead_good {q x0 x2 s} (h : Good q s) : Good q (latchHead x0 s x2) := by
  unfold latchHead
  repeat' first
    | with_reducible first
        | assumption | apply gaugeLatch_good | apply applyRipe_good | apply frameEnd_good | apply pump_good
    | (show Kept _ _ _ _ _ _ _ _; dsimp only)

theorem applyDisabled_good {q x1 x2 x3 x4 x5 s} (h : Good q s) : Good q (applyDisabled s x1 x2 x3 x4 x5) := by
  unfold applyDisabled
  repeat' first
    | with_reducible first
        | assumption | apply postApplied_good | apply applyBank_good
    | (show Kept _ _ _ _ _ _ _ _; dsimp only)

theorem stopHead_good {q x1 s} (h : Good q s) : Good q (stopHead s x1) := by
  unfold stopHead
  repeat' first
    | with_reducible first
        | assumption | apply closeClamps_good | apply State_setHead_good | apply applyDisabled_good
        | refine Good.of ?_ | refine Good.next ?_
    | split | (show Kept _ _ _ _ _ _ _ _; dsimp only)

theorem retrainFor_good {q x1 s} (h : Good q s) : Good q (retrainFor s x1) := by
  unfold retrainFor
  repeat' first
    | with_reducible first
        | assumption | apply startTrainingFor_good | apply linkState_good | refine Good.of ?_ | refine Good.next ?_
    | split | (show Kept _ _ _ _ _ _ _ _; dsimp only)

theorem beginMode_good {q x1 s} (h : Good q s) : Good q (beginMode s x1) := by
  unfold beginMode
  repeat' first
    | with_reducible first
        | assumption | apply State_setHead_good | apply postMode_good | apply setState_good | apply retrainFor_good
        | refine Good.of ?_ | refine Good.next ?_
    | split | (show Kept _ _ _ _ _ _ _ _; dsimp only)

theorem setFixed_good {q x1 x2 s} (h : Good q s) : Good q (setFixed s x1 x2) := h

theorem takeTiming_good {q x1 s} (h : Good q s) : Good q (takeTiming s x1) := by
  unfold takeTiming
  repeat' first
    | with_reducible first
        | assumption | apply evalVrr_good | apply State_setHead_good
    | (show Kept _ _ _ _ _ _ _ _; dsimp only)

theorem modeAtOnce_good {q x1 s} (h : Good q s) : Good q (modeAtOnce s x1) := by
  unfold modeAtOnce
  repeat' first
    | with_reducible first
        | assumption | apply setFixed_good | apply takeTiming_good | apply postMode_good | apply setState_good
        | apply startTraining_good | apply State_setHead_good | apply retrainFor_good | refine Good.of ?_
        | refine Good.next ?_
    | split | (show Kept _ _ _ _ _ _ _ _; dsimp only)

theorem latchTiming_good {q x1 x2 s} (h : Good q s) : Good q (latchTiming s x1 x2) := by
  unfold latchTiming
  repeat' first
    | with_reducible first
        | assumption | apply beginMode_good | apply modeAtOnce_good | apply setFixed_good | apply State_setHead_good
        | apply takeTiming_good | refine Good.of ?_ | refine Good.next ?_ | intro _ | apply Good.foldl
    | split | dsimp only | (show Kept _ _ _ _ _ _ _ _; dsimp only)

theorem sendBlanking_good {q x1 s} (h : Good q s) : Good q (sendBlanking s x1) := by
  unfold sendBlanking
  repeat' first
    | with_reducible first
        | assumption | apply State_emit_good | refine Good.of ?_ | refine Good.next ?_
    | split | (show Kept _ _ _ _ _ _ _ _; dsimp only)

theorem latchGroup_good {q x1 x2 s} (h : Good q s) : Good q (latchGroup s x1 x2) := by
  unfold latchGroup
  repeat' first
    | with_reducible first
        | assumption | apply latchHead_good | apply stopHead_good | apply modHeads_good | apply sendBlanking_good
        | apply latchTiming_good | refine Good.of ?_ | refine Good.next ?_ | intro _ | apply Good.foldl
    | split | dsimp only | (show Kept _ _ _ _ _ _ _ _; dsimp only)

theorem startBlanking_good {q x1 s} (h : Good q s) : Good q (startBlanking s x1) := by
  unfold startBlanking
  repeat' first
    | with_reducible first
        | assumption | apply latchHead_good | apply takeTiming_good | apply State_setHead_good | apply retrainFor_good
        | apply releaseContexts_good | apply releaseChannels_good | apply sendBlanking_good | refine Good.of ?_
        | refine Good.next ?_ | intro _ | apply Good.foldl | refine Good.fst (by assumption) ?_
        | refine Good.snd (by assumption) ?_ | refine Good.some ?_ | exact GoodOpt.none | refine GoodOpt.map ?_
        | refine Good.getD ?_ ?_ | refine Good.elim ?_ ?_ | refine Good.okay ?_ | exact GoodExc.error
        | apply Good.foldl2 | apply Good.foldl3 | apply Good.foldl1 | refine Good.left (by assumption) ?_
        | refine Good.head (by assumption) ?_ | refine Good.opt (by assumption) ?_
        | refine Good.exc (by assumption) ?_
    | split | dsimp only | (show Kept _ _ _ _ _ _ _ _; dsimp only)

theorem armCommit_good {q x1 s} (h : Good q s) : Good q (armCommit s x1).2 := by
  unfold armCommit
  repeat' first
    | with_reducible first
        | assumption | apply applyDisabled_good | apply State_setHead_good | apply releaseContexts_good
        | apply releaseChannels_good | refine Good.of ?_ | refine Good.next ?_ | intro _ | apply Good.foldl
    | split | dsimp only | (show Kept _ _ _ _ _ _ _ _; dsimp only)

theorem cmdHeadCommit_good {q x0 s} (h : Good q s) : Good q (cmdHeadCommit x0 s).st := by
  unfold cmdHeadCommit
  repeat' first
    | with_reducible first
        | assumption | apply refuse_good | apply armCommit_good | apply ok_good | refine Good.of ?_
        | refine Good.next ?_
    | split | (show Kept _ _ _ _ _ _ _ _; dsimp only)

theorem noteRecord_good {q x1 s} (h : Good q s) : Good q (noteRecord s x1) := by
  unfold noteRecord
  repeat' first
    | with_reducible first
        | assumption | apply noteOutcome_good | refine Good.of ?_ | refine Good.next ?_ | intro _ | apply Good.foldl
        | refine Good.fst (by assumption) ?_ | refine Good.snd (by assumption) ?_ | refine Good.some ?_
        | exact GoodOpt.none | refine GoodOpt.map ?_ | refine Good.getD ?_ ?_ | refine Good.elim ?_ ?_
        | refine Good.okay ?_ | exact GoodExc.error | apply Good.foldl2 | apply Good.foldl3 | apply Good.foldl1
        | refine Good.left (by assumption) ?_ | refine Good.head (by assumption) ?_
        | refine Good.opt (by assumption) ?_ | refine Good.exc (by assumption) ?_
    | split | dsimp only | (show Kept _ _ _ _ _ _ _ _; dsimp only)

theorem takeHead_good {q x0 x2 s} (h : Good q s) : Good q (takeHead x0 s x2) := by
  unfold takeHead
  repeat' first
    | with_reducible first
        | assumption | apply noteRecord_good | apply forget_good | apply pump_good | apply State_setHead_good
        | refine Good.of ?_ | refine Good.next ?_ | intro _ | apply Good.foldl | refine Good.fst (by assumption) ?_
        | refine Good.snd (by assumption) ?_ | refine Good.some ?_ | exact GoodOpt.none | refine GoodOpt.map ?_
        | refine Good.getD ?_ ?_ | refine Good.elim ?_ ?_ | refine Good.okay ?_ | exact GoodExc.error
        | apply Good.foldl2 | apply Good.foldl3 | apply Good.foldl1 | refine Good.left (by assumption) ?_
        | refine Good.head (by assumption) ?_ | refine Good.opt (by assumption) ?_
        | refine Good.exc (by assumption) ?_
    | split | dsimp only | (show Kept _ _ _ _ _ _ _ _; dsimp only)

theorem enableOne_good {q x1 s} (h : Good q s) : Good q (enableOne s x1) := by
  unfold enableOne
  repeat' first
    | with_reducible first
        | assumption | apply State_setHead_good | apply startTraining_good | apply linkState_good | refine Good.of ?_
        | refine Good.next ?_
    | split | (show Kept _ _ _ _ _ _ _ _; dsimp only)

theorem settle_good {q x1 s} (h : Good q s) : Good q (settle s x1) := by
  unfold settle
  repeat' first
    | with_reducible first
        | assumption | apply startBlanking_good | refine Good.of ?_ | refine Good.next ?_
    | split | (show Kept _ _ _ _ _ _ _ _; dsimp only)

theorem disableOne_good {q x1 s} (h : Good q s) : Good q (disableOne s x1) := by
  unfold disableOne
  repeat' first
    | with_reducible first
        | assumption | apply stopHead_good | apply State_setHead_good | refine Good.of ?_ | refine Good.next ?_
    | split | (show Kept _ _ _ _ _ _ _ _; dsimp only)

theorem cmdHeadEnable_good {q x0 s} (h : Good q s) : Good q (cmdHeadEnable x0 s).st := by
  unfold cmdHeadEnable
  repeat' first
    | with_reducible first
        | assumption | apply refuse_good | apply modHeads_good | apply enableOne_good | apply State_setHead_good
        | apply ok_good | apply settle_good | apply releaseContexts_good | apply releaseChannels_good
        | apply disableOne_good | refine Good.of ?_ | refine Good.next ?_ | intro _ | apply Good.foldl
    | split | dsimp only | (show Kept _ _ _ _ _ _ _ _; dsimp only)

theorem releaseDeferred_good {q x1 s} (h : Good q s) : Good q (releaseDeferred s x1) := h

theorem execHeadLatchEdge_good {q x0 s} (h : Good q s) : GoodOut q (execHeadLatchEdge x0 s) := by
  unfold execHeadLatchEdge
  repeat' first
    | with_reducible first
        | assumption | apply releaseContexts_good | apply releaseChannels_good | apply releaseDeferred_good
        | apply latchGroup_good | refine Good.of ?_ | refine Good.next ?_
    | split | (show Kept _ _ _ _ _ _ _ _; dsimp only)

theorem execTakePoint_good {q x0 x1 s} (h : Good q s) : GoodOut q (execTakePoint x0 x1 s) := by
  unfold execTakePoint
  repeat' first
    | with_reducible first
        | assumption | apply releaseContexts_good | apply takeHead_good | refine Good.of ?_ | refine Good.next ?_
        | intro _ | apply Good.foldl
    | split | dsimp only | (show Kept _ _ _ _ _ _ _ _; dsimp only)

theorem cmdHeadSetTiming_good {q x0 s} (h : Good q s) : Good q (cmdHeadSetTiming x0 s).st := by
  unfold cmdHeadSetTiming
  repeat' first
    | with_reducible first
        | assumption | apply modHeads_good | apply refuseFull_good | apply ok_good | refine Good.of ?_
        | refine Good.next ?_
    | split | (show Kept _ _ _ _ _ _ _ _; dsimp only)

theorem cmdHeadTwin_good {q x0 s} (h : Good q s) : Good q (cmdHeadTwin x0 s).st := by
  unfold cmdHeadTwin
  repeat' first
    | with_reducible first
        | assumption | apply refuse_good | apply ok_good | apply State_setHead_good | refine Good.of ?_
        | refine Good.next ?_
    | split | (show Kept _ _ _ _ _ _ _ _; dsimp only)

theorem execHeadTwin_good {q x0 x1 s} (h : Good q s) : GoodOut q (execHeadTwin x0 x1 s) := by
  unfold execHeadTwin
  repeat' first
    | with_reducible first
        | assumption | apply command_good | apply cmdHeadTwin_good | refine Good.of ?_ | refine Good.next ?_
    | split | (show Kept _ _ _ _ _ _ _ _; dsimp only)

theorem cmdHeadStateQuery_good {q x0 s} (h : Good q s) : Good q (cmdHeadStateQuery x0 s).st := by
  unfold cmdHeadStateQuery
  repeat' first
    | with_reducible first
        | assumption | apply refuse_good | apply ok_good | refine Good.of ?_ | refine Good.next ?_
    | split | (show Kept _ _ _ _ _ _ _ _; dsimp only)

theorem execHeadSetTiming_good {q x0 x1 s} (h : Good q s) : GoodOut q (execHeadSetTiming x0 x1 s) := by
  unfold execHeadSetTiming
  repeat' first
    | with_reducible first
        | assumption | apply command_good | apply cmdHeadSetTiming_good | refine Good.of ?_ | refine Good.next ?_
    | split | (show Kept _ _ _ _ _ _ _ _; dsimp only)

theorem flipProgress_good {q x0 x2 s} (h : Good q s) : Good q (flipProgress x0 s x2) := by
  unfold flipProgress
  repeat' first
    | with_reducible first
        | assumption | apply State_setHead_good | apply postMode_good | apply setState_good | apply linkState_good
        | refine Good.of ?_ | refine Good.next ?_
    | split | (show Kept _ _ _ _ _ _ _ _; dsimp only)

theorem execWaitTimeout_good {q x0 s} (h : Good q s) : GoodOut q (execWaitTimeout x0 s) := by
  unfold execWaitTimeout
  repeat' first
    | with_reducible first
        | assumption | apply modHeads_good | refine Good.of ?_ | refine Good.next ?_
    | split | (show Kept _ _ _ _ _ _ _ _; dsimp only)

theorem flipHead_good {q x0 x1 x3 s} (h : Good q s) : Good q (flipHead x0 x1 s x3) := by
  unfold flipHead
  repeat' first
    | with_reducible first
        | assumption | apply State_setHead_good | apply postHw_good | apply postFw_good | apply flipProgress_good
        | refine Good.of ?_ | refine Good.next ?_ | intro _ | apply Good.foldl | refine Good.fst (by assumption) ?_
        | refine Good.snd (by assumption) ?_ | refine Good.some ?_ | exact GoodOpt.none | refine GoodOpt.map ?_
        | refine Good.getD ?_ ?_ | refine Good.elim ?_ ?_ | refine Good.okay ?_ | exact GoodExc.error
        | apply Good.foldl2 | apply Good.foldl3 | apply Good.foldl1 | refine Good.left (by assumption) ?_
        | refine Good.head (by assumption) ?_ | refine Good.opt (by assumption) ?_
        | refine Good.exc (by assumption) ?_
    | split | dsimp only | (show Kept _ _ _ _ _ _ _ _; dsimp only)

theorem execHeadStateQuery_good {q x0 x1 s} (h : Good q s) : GoodOut q (execHeadStateQuery x0 x1 s) := by
  unfold execHeadStateQuery
  repeat' first
    | with_reducible first
        | assumption | apply command_good | apply cmdHeadStateQuery_good | refine Good.of ?_ | refine Good.next ?_
    | split | (show Kept _ _ _ _ _ _ _ _; dsimp only)

theorem execFrontPorchEnd_good {q x0 s} (h : Good q s) : GoodOut q (execFrontPorchEnd x0 s) := by
  unfold execFrontPorchEnd
  repeat' first
    | with_reducible first
        | assumption | apply modHeads_good | refine Good.of ?_ | refine Good.next ?_
    | split | (show Kept _ _ _ _ _ _ _ _; dsimp only)

theorem execHeadEnable_good {q x0 x1 s} (h : Good q s) : GoodOut q (execHeadEnable x0 x1 s) := by
  unfold execHeadEnable
  repeat' first
    | with_reducible first
        | assumption | apply command_good | apply cmdHeadEnable_good | refine Good.of ?_ | refine Good.next ?_
    | split | (show Kept _ _ _ _ _ _ _ _; dsimp only)

theorem execHeadFlip_good {q x0 s} (h : Good q s) : GoodOut q (execHeadFlip x0 s) := by
  unfold execHeadFlip
  repeat' first
    | with_reducible first
        | assumption | apply flipHead_good | refine Good.of ?_ | refine Good.next ?_ | intro _ | apply Good.foldl
    | split | dsimp only | (show Kept _ _ _ _ _ _ _ _; dsimp only)

theorem execVrrLineBoundary_good {q x0 s} (h : Good q s) : GoodOut q (execVrrLineBoundary x0 s) := by
  unfold execVrrLineBoundary
  repeat' first
    | with_reducible first
        | assumption | apply modHeads_good | refine Good.of ?_ | refine Good.next ?_
    | split | dsimp only | (show Kept _ _ _ _ _ _ _ _; dsimp only)

theorem execHeadCommit_good {q x0 x1 s} (h : Good q s) : GoodOut q (execHeadCommit x0 x1 s) := by
  unfold execHeadCommit
  repeat' first
    | with_reducible first
        | assumption | apply command_good | apply cmdHeadCommit_good | refine Good.of ?_ | refine Good.next ?_
    | split | (show Kept _ _ _ _ _ _ _ _; dsimp only)

/-! ### LinkEvents -/

theorem retrain_good {q x1 s} (h : Good q s) : Good q (retrain s x1) := by
  unfold retrain
  repeat' first
    | with_reducible first
        | assumption | apply settle_good | apply startTraining_good | apply linkState_good
    | (show Kept _ _ _ _ _ _ _ _; dsimp only)

theorem lockLoss_good {q x1 s} (h : Good q s) : Good q (lockLoss s x1) := by
  unfold lockLoss
  repeat' first
    | with_reducible first
        | assumption | apply State_setHead_good | apply retrain_good | apply raiseErr_good | refine Good.of ?_
        | refine Good.next ?_
    | split | (show Kept _ _ _ _ _ _ _ _; dsimp only)

theorem trainingFails_good {q x1 x2 s} (h : Good q s) : Good q (trainingFails s x1 x2) := by
  unfold trainingFails
  repeat' first
    | with_reducible first
        | assumption | apply settle_good | apply failLink_good
    | (show Kept _ _ _ _ _ _ _ _; dsimp only)

theorem execAuxTimeout_good {q x0 x1 x2 s} (h : Good q s) : GoodOut q (execAuxTimeout x0 x1 x2 s) := by
  unfold execAuxTimeout
  repeat' first
    | with_reducible first
        | assumption | apply State_setHead_good | apply trainingFails_good | refine Good.of ?_ | refine Good.next ?_
    | split | dsimp only | (show Kept _ _ _ _ _ _ _ _; dsimp only)

theorem noteHpd_good {q x1 s} (h : Good q s) : Good q (noteHpd s x1) := h

theorem execHpdPresent_good {q x0 x1 x2 s} (h : Good q s) : GoodOut q (execHpdPresent x0 x1 x2 s) := by
  unfold execHpdPresent
  repeat' first
    | with_reducible first
        | assumption | apply noteHpd_good | apply State_setHead_good | apply retrain_good | refine Good.of ?_
        | refine Good.next ?_
    | split | dsimp only | (show Kept _ _ _ _ _ _ _ _; dsimp only)

theorem trained_good {q x1 x2 x3 s} (h : Good q s) : Good q (trained s x1 x2 x3) := by
  unfold trained
  repeat' first
    | with_reducible first
        | assumption | apply closeClamps_good | apply evalVrr_good | apply State_setHead_good | apply linkState_good
        | apply settle_good | refine Good.of ?_ | refine Good.next ?_
    | split | (show Kept _ _ _ _ _ _ _ _; dsimp only)

theorem unplug_good {q x1 s} (h : Good q s) : Good q (unplug s x1) := by
  unfold unplug
  repeat' first
    | with_reducible first
        | assumption | apply closeClamps_good | apply evalVrr_good | apply State_setHead_good | apply settle_good
        | apply linkState_good | refine Good.of ?_ | refine Good.next ?_
    | split | (show Kept _ _ _ _ _ _ _ _; dsimp only)

theorem execLinkTrainingDone_good {q x0 x1 x2 s} (h : Good q s) : GoodOut q (execLinkTrainingDone x0 x1 x2 s) := by
  unfold execLinkTrainingDone
  repeat' first
    | with_reducible first
        | assumption | apply applyRequests_good | apply trained_good | apply trainingFails_good
        | apply startLevels_good | apply State_setHead_good | refine Good.of ?_ | refine Good.next ?_ | intro _
        | apply Good.foldl
    | split | dsimp only | (show Kept _ _ _ _ _ _ _ _; dsimp only)

theorem execHpdUnplug_good {q x0 x1 s} (h : Good q s) : GoodOut q (execHpdUnplug x0 x1 s) := by
  unfold execHpdUnplug
  repeat' first
    | with_reducible first
        | assumption | apply noteHpd_good | apply unplug_good | refine Good.of ?_ | refine Good.next ?_
    | split | dsimp only | (show Kept _ _ _ _ _ _ _ _; dsimp only)

theorem execTrainingTimeout_good {q x0 s} (h : Good q s) : GoodOut q (execTrainingTimeout x0 s) := by
  unfold execTrainingTimeout
  repeat' first
    | with_reducible first
        | assumption | apply trainingFails_good | refine Good.of ?_ | refine Good.next ?_
    | split | (show Kept _ _ _ _ _ _ _ _; dsimp only)

theorem execDpLinkLockLoss_good {q x0 s} (h : Good q s) : GoodOut q (execDpLinkLockLoss x0 s) := by
  unfold execDpLinkLockLoss
  repeat' first
    | with_reducible first
        | assumption | apply lockLoss_good | refine Good.of ?_ | refine Good.next ?_
    | split | (show Kept _ _ _ _ _ _ _ _; dsimp only)

theorem execIrqHpd_good {q x0 x1 x2 s} (h : Good q s) : GoodOut q (execIrqHpd x0 x1 x2 s) := by
  unfold execIrqHpd
  repeat' first
    | with_reducible first
        | assumption | apply noteHpd_good | apply retrain_good | apply lockLoss_good | refine Good.of ?_
        | refine Good.next ?_
    | split | dsimp only | (show Kept _ _ _ _ _ _ _ _; dsimp only)

/-! ### Power -/

theorem pmbus_good {q x1 x2 s} (h : Good q s) : Good q (pmbus s x1 x2) := by
  unfold pmbus
  repeat' first
    | with_reducible first
        | assumption | apply State_emit_good | refine Good.of ?_ | refine Good.next ?_ | intro _ | apply Good.foldl
        | refine Good.fst (by assumption) ?_ | refine Good.snd (by assumption) ?_ | refine Good.some ?_
        | exact GoodOpt.none | refine GoodOpt.map ?_ | refine Good.getD ?_ ?_ | refine Good.elim ?_ ?_
        | refine Good.okay ?_ | exact GoodExc.error | apply Good.foldl2 | apply Good.foldl3 | apply Good.foldl1
        | refine Good.left (by assumption) ?_ | refine Good.head (by assumption) ?_
        | refine Good.opt (by assumption) ?_ | refine Good.exc (by assumption) ?_
    | split | dsimp only | (show Kept _ _ _ _ _ _ _ _; dsimp only)

theorem commandVout_good {q x1 s} (h : Good q s) : Good q (commandVout s x1) := by
  unfold commandVout
  repeat' first
    | with_reducible first
        | assumption | apply pmbus_good | refine Good.of ?_ | refine Good.next ?_ | intro _ | apply Good.foldl
        | refine Good.fst (by assumption) ?_ | refine Good.snd (by assumption) ?_ | refine Good.some ?_
        | exact GoodOpt.none | refine GoodOpt.map ?_ | refine Good.getD ?_ ?_ | refine Good.elim ?_ ?_
        | refine Good.okay ?_ | exact GoodExc.error | apply Good.foldl2 | apply Good.foldl3 | apply Good.foldl1
        | refine Good.left (by assumption) ?_ | refine Good.head (by assumption) ?_
        | refine Good.opt (by assumption) ?_ | refine Good.exc (by assumption) ?_
    | split | dsimp only | (show Kept _ _ _ _ _ _ _ _; dsimp only)

theorem lowerVdd_good {q s} (h : Good q s) : Good q (lowerVdd s) := by
  unfold lowerVdd
  repeat' first
    | with_reducible first
        | assumption | apply commandVout_good | refine Good.of ?_ | refine Good.next ?_
    | split | (show Kept _ _ _ _ _ _ _ _; dsimp only)

theorem resumeGroups_good {q s} (h : Good q s) : Good q (resumeGroups s) := by
  unfold resumeGroups
  repeat' first
    | with_reducible first
        | assumption | apply startTraining_good | apply settle_good | refine Good.of ?_ | refine Good.next ?_
        | intro _ | apply Good.foldl
    | split | dsimp only | (show Kept _ _ _ _ _ _ _ _; dsimp only)

theorem applyBudgets_good {q s} (h : Good q s) : Good q (applyBudgets s) := by
  unfold applyBudgets
  repeat' first
    | with_reducible first
        | assumption | apply wake_good | apply postPower_good | refine Good.of ?_ | refine Good.next ?_
    | split | (show Kept _ _ _ _ _ _ _ _; dsimp only)

theorem cmdWakeBudget_good {q x0 s} (h : Good q s) : Good q (cmdWakeBudget x0 s).st := by
  unfold cmdWakeBudget
  repeat' first
    | with_reducible first
        | assumption | apply refuse_good | apply applyBudgets_good | apply ok_good | refine Good.of ?_
        | refine Good.next ?_
    | split | (show Kept _ _ _ _ _ _ _ _; dsimp only)

theorem execWakeBudget_good {q x0 x1 s} (h : Good q s) : GoodOut q (execWakeBudget x0 x1 s) := by
  unfold execWakeBudget
  repeat' first
    | with_reducible first
        | assumption | apply command_good | apply cmdWakeBudget_good | refine Good.of ?_ | refine Good.next ?_
    | split | (show Kept _ _ _ _ _ _ _ _; dsimp only)

theorem restLink_good {q x1 s} (h : Good q s) : Good q (restLink s x1) := by
  unfold restLink
  repeat' first
    | with_reducible first
        | assumption | apply closeClamps_good | apply State_setHead_good | apply linkState_good | refine Good.of ?_
        | refine Good.next ?_
    | split | (show Kept _ _ _ _ _ _ _ _; dsimp only)

theorem noteBusy_good {q s} (h : Good q s) : Good q (noteBusy s) := h

theorem powerCycle_good {q s} (h : Good q s) : Good q (powerCycle s) := by
  unfold powerCycle
  repeat' first
    | with_reducible first
        | assumption | apply noteBusy_good | apply resumeGroups_good | refine Good.of ?_ | refine Good.next ?_
    | split | (show Kept _ _ _ _ _ _ _ _; dsimp only)

theorem execPowerExitDone_good {q s} (h : Good q s) : GoodOut q (execPowerExitDone s) := by
  unfold execPowerExitDone
  repeat' first
    | with_reducible first
        | assumption | apply postPower_good | refine Good.of ?_ | refine Good.next ?_
    | split | (show Kept _ _ _ _ _ _ _ _; dsimp only)

theorem cmdPowerQuery_good {q s} (h : Good q s) : Good q (cmdPowerQuery s).st := by
  unfold cmdPowerQuery
  repeat' first
    | with_reducible first
        | assumption | apply State_drawNat_good | apply State_emit_good | apply ok_good | refine Good.of ?_
        | refine Good.next ?_ | intro _ | apply Good.foldl | refine Good.fst (by assumption) ?_
        | refine Good.snd (by assumption) ?_ | refine Good.some ?_ | exact GoodOpt.none | refine GoodOpt.map ?_
        | refine Good.getD ?_ ?_ | refine Good.elim ?_ ?_ | refine Good.okay ?_ | exact GoodExc.error
        | apply Good.foldl2 | apply Good.foldl3 | apply Good.foldl1 | refine Good.left (by assumption) ?_
        | refine Good.head (by assumption) ?_ | refine Good.opt (by assumption) ?_
        | refine Good.exc (by assumption) ?_
    | split | dsimp only | (show Kept _ _ _ _ _ _ _ _; dsimp only)

theorem execWakeIn_good {q x0 s} (h : Good q s) : GoodOut q (execWakeIn x0 s) := by
  unfold execWakeIn
  repeat' first
    | with_reducible first
        | assumption | apply wake_good | refine Good.of ?_ | refine Good.next ?_
    | split | (show Kept _ _ _ _ _ _ _ _; dsimp only)

theorem execPowerQuery_good {q x0 s} (h : Good q s) : GoodOut q (execPowerQuery x0 s) := by
  unfold execPowerQuery
  repeat' first
    | with_reducible first
        | assumption | apply command_good | apply cmdPowerQuery_good | refine Good.of ?_ | refine Good.next ?_
    | split | (show Kept _ _ _ _ _ _ _ _; dsimp only)

theorem enterPower_good {q x1 s} (h : Good q s) : Good q (enterPower s x1) := by
  unfold enterPower
  repeat' first
    | with_reducible first
        | assumption | apply restLink_good | apply modHeads_good | apply postPower_good | refine Good.of ?_
        | refine Good.next ?_ | intro _ | apply Good.foldl
    | split | dsimp only | (show Kept _ _ _ _ _ _ _ _; dsimp only)

theorem voutFails_good {q s} (h : Good q s) : Good q (voutFails s) := by
  unfold voutFails
  repeat' first
    | with_reducible first
        | assumption | apply commandVout_good | apply raiseClass_good | refine Good.of ?_ | refine Good.next ?_
    | split | (show Kept _ _ _ _ _ _ _ _; dsimp only)

theorem execVoutReadback_good {q x0 x1 s} (h : Good q s) : GoodOut q (execVoutReadback x0 x1 s) := by
  unfold execVoutReadback
  repeat' first
    | with_reducible first
        | assumption | apply pmbus_good | apply voutFails_good | refine Good.of ?_ | refine Good.next ?_ | intro _
        | apply Good.foldl | refine Good.fst (by assumption) ?_ | refine Good.snd (by assumption) ?_
        | refine Good.some ?_ | exact GoodOpt.none | refine GoodOpt.map ?_ | refine Good.getD ?_ ?_
        | refine Good.elim ?_ ?_ | refine Good.okay ?_ | exact GoodExc.error | apply Good.foldl2 | apply Good.foldl3
        | apply Good.foldl1 | refine Good.left (by assumption) ?_ | refine Good.head (by assumption) ?_
        | refine Good.opt (by assumption) ?_ | refine Good.exc (by assumption) ?_
    | split | dsimp only | (show Kept _ _ _ _ _ _ _ _; dsimp only)

theorem raiseVdd_good {q s} (h : Good q s) : Good q (raiseVdd s) := by
  unfold raiseVdd
  repeat' first
    | with_reducible first
        | assumption | apply commandVout_good | refine Good.of ?_ | refine Good.next ?_
    | split | (show Kept _ _ _ _ _ _ _ _; dsimp only)

theorem avsLoop_good {q x1 x2 s} (h : Good q s) : Good q (avsLoop s x1 x2) := by
  unfold avsLoop
  repeat' first
    | with_reducible first
        | assumption | apply raiseVdd_good | apply lowerVdd_good | apply raiseClass_good | refine Good.of ?_
        | refine Good.next ?_
    | split | (show Kept _ _ _ _ _ _ _ _; dsimp only)

theorem execAvsSample_good {q x0 s} (h : Good q s) : GoodOut q (execAvsSample x0 s) := by
  unfold execAvsSample
  repeat' first
    | with_reducible first
        | assumption | apply avsLoop_good | refine Good.of ?_ | refine Good.next ?_
    | split | (show Kept _ _ _ _ _ _ _ _; dsimp only)

end Sys2Proof.Laws
end

