-- ==== Sys2Proof/Laws/Fences.lean ====
section
/-! SUPPORT. What every operation of Welond lanes, buffers, fences, gauges, checks and returns keeps (see `Sys2Proof.Laws.Good`): the canonical
form of memory, the command queue, the time, the outputs already given, the programmed keys and the
locked regions. One lemma per operation, cited instead of unfolding it. -/

set_option linter.unusedTactic false
set_option linter.unreachableTactic false

namespace Sys2Proof.Laws

open Sys2Proof Sys2Proof.Machine

/-! ### Line -/

theorem State_setLaneTx_good {q x1 x2 x3 s} (h : Good q s) : Good q (State.setLaneTx s x1 x2 x3) := by
  unfold State.setLaneTx
  repeat' first
    | with_reducible first
        | assumption | refine Good.of ?_ | refine Good.next ?_ | intro _ | apply Good.foldl
        | refine Good.fst (by assumption) ?_ | refine Good.snd (by assumption) ?_ | refine Good.some ?_
        | exact GoodOpt.none | refine GoodOpt.map ?_ | refine Good.getD ?_ ?_ | refine Good.elim ?_ ?_
        | refine Good.okay ?_ | exact GoodExc.error | apply Good.foldl2 | apply Good.foldl3 | apply Good.foldl1
        | refine Good.left (by assumption) ?_ | refine Good.head (by assumption) ?_
        | refine Good.opt (by assumption) ?_ | refine Good.exc (by assumption) ?_
    | split | dsimp only | (show Kept _ _ _ _ _ _ _ _; dsimp only)

theorem emitLane_good {q x1 x2 x3 x4 s} (h : Good q s) : Good q (emitLane s x1 x2 x3 x4) := by
  unfold emitLane
  repeat' first
    | with_reducible first
        | assumption | apply State_emit_good | apply State_setLaneTx_good | refine Good.of ?_ | refine Good.next ?_
        | intro _ | apply Good.foldl | refine Good.fst (by assumption) ?_ | refine Good.snd (by assumption) ?_
        | refine Good.some ?_ | exact GoodOpt.none | refine GoodOpt.map ?_ | refine Good.getD ?_ ?_
        | refine Good.elim ?_ ?_ | refine Good.okay ?_ | exact GoodExc.error | apply Good.foldl2 | apply Good.foldl3
        | apply Good.foldl1 | refine Good.left (by assumption) ?_ | refine Good.head (by assumption) ?_
        | refine Good.opt (by assumption) ?_ | refine Good.exc (by assumption) ?_
    | split | dsimp only | (show Kept _ _ _ _ _ _ _ _; dsimp only)

theorem sendPattern_good {q x1 x2 x3 s} (h : Good q s) : Good q (sendPattern s x1 x2 x3) := by
  unfold sendPattern
  repeat' first
    | with_reducible first
        | assumption | apply State_drawBytes_good | apply State_setLaneTx_good | apply emitLane_good
        | refine Good.of ?_ | refine Good.next ?_ | intro _ | apply Good.foldl | refine Good.fst (by assumption) ?_
        | refine Good.snd (by assumption) ?_ | refine Good.some ?_ | exact GoodOpt.none | refine GoodOpt.map ?_
        | refine Good.getD ?_ ?_ | refine Good.elim ?_ ?_ | refine Good.okay ?_ | exact GoodExc.error
        | apply Good.foldl2 | apply Good.foldl3 | apply Good.foldl1 | refine Good.left (by assumption) ?_
        | refine Good.head (by assumption) ?_ | refine Good.opt (by assumption) ?_
        | refine Good.exc (by assumption) ?_
    | split | dsimp only | (show Kept _ _ _ _ _ _ _ _; dsimp only)

theorem retrainLost_good {q x1 s} (h : Good q s) : Good q (retrainLost s x1) := by
  unfold retrainLost
  repeat' first
    | with_reducible first
        | assumption | apply sendPattern_good | apply State_setWel_good | refine Good.of ?_ | refine Good.next ?_
        | intro _ | apply Good.foldl | refine Good.fst (by assumption) ?_ | refine Good.snd (by assumption) ?_
        | refine Good.some ?_ | exact GoodOpt.none | refine GoodOpt.map ?_ | refine Good.getD ?_ ?_
        | refine Good.elim ?_ ?_ | refine Good.okay ?_ | exact GoodExc.error | apply Good.foldl2 | apply Good.foldl3
        | apply Good.foldl1 | refine Good.left (by assumption) ?_ | refine Good.head (by assumption) ?_
        | refine Good.opt (by assumption) ?_ | refine Good.exc (by assumption) ?_
    | split | dsimp only | (show Kept _ _ _ _ _ _ _ _; dsimp only)

theorem freeLine_good {q x1 s} (h : Good q s) : Good q (freeLine s x1) := by
  unfold freeLine
  repeat' first
    | with_reducible first
        | assumption | apply State_drawBytes_good | apply State_drawBool_good | apply drawWithin_good
        | apply State_setLaneTx_good | apply State_setWel_good | refine Good.of ?_ | refine Good.next ?_ | intro _
        | apply Good.foldl | refine Good.fst (by assumption) ?_ | refine Good.snd (by assumption) ?_
        | refine Good.some ?_ | exact GoodOpt.none | refine GoodOpt.map ?_ | refine Good.getD ?_ ?_
        | refine Good.elim ?_ ?_ | refine Good.okay ?_ | exact GoodExc.error | apply Good.foldl2 | apply Good.foldl3
        | apply Good.foldl1 | refine Good.left (by assumption) ?_ | refine Good.head (by assumption) ?_
        | refine Good.opt (by assumption) ?_ | refine Good.exc (by assumption) ?_
    | split | dsimp only | (show Kept _ _ _ _ _ _ _ _; dsimp only)

theorem sendLane_good {q x1 x2 x3 s} (h : Good q s) : Good q (sendLane s x1 x2 x3) := by
  unfold sendLane
  repeat' first
    | with_reducible first
        | assumption | apply emitLane_good | refine Good.of ?_ | refine Good.next ?_ | intro _ | apply Good.foldl
        | refine Good.fst (by assumption) ?_ | refine Good.snd (by assumption) ?_ | refine Good.some ?_
        | exact GoodOpt.none | refine GoodOpt.map ?_ | refine Good.getD ?_ ?_ | refine Good.elim ?_ ?_
        | refine Good.okay ?_ | exact GoodExc.error | apply Good.foldl2 | apply Good.foldl3 | apply Good.foldl1
        | refine Good.left (by assumption) ?_ | refine Good.head (by assumption) ?_
        | refine Good.opt (by assumption) ?_ | refine Good.exc (by assumption) ?_
    | split | dsimp only | (show Kept _ _ _ _ _ _ _ _; dsimp only)

theorem sendRows_good {q x1 x2 x3 s} (h : Good q s) : Good q (sendRows s x1 x2 x3) := by
  unfold sendRows
  repeat' first
    | with_reducible first
        | assumption | apply sendLane_good | refine Good.of ?_ | refine Good.next ?_ | intro _ | apply Good.foldl
        | refine Good.fst (by assumption) ?_ | refine Good.snd (by assumption) ?_ | refine Good.some ?_
        | exact GoodOpt.none | refine GoodOpt.map ?_ | refine Good.getD ?_ ?_ | refine Good.elim ?_ ?_
        | refine Good.okay ?_ | exact GoodExc.error | apply Good.foldl2 | apply Good.foldl3 | apply Good.foldl1
        | refine Good.left (by assumption) ?_ | refine Good.head (by assumption) ?_
        | refine Good.opt (by assumption) ?_ | refine Good.exc (by assumption) ?_
    | split | dsimp only | (show Kept _ _ _ _ _ _ _ _; dsimp only)

theorem sendSlots_good {q x1 s} (h : Good q s) : Good q (sendSlots s x1) := by
  unfold sendSlots
  repeat' first
    | with_reducible first
        | assumption | apply sendRows_good | apply State_setWel_good | refine Good.of ?_ | refine Good.next ?_
        | intro _ | apply Good.foldl | refine Good.fst (by assumption) ?_ | refine Good.snd (by assumption) ?_
        | refine Good.some ?_ | exact GoodOpt.none | refine GoodOpt.map ?_ | refine Good.getD ?_ ?_
        | refine Good.elim ?_ ?_ | refine Good.okay ?_ | exact GoodExc.error | apply Good.foldl2 | apply Good.foldl3
        | apply Good.foldl1 | refine Good.left (by assumption) ?_ | refine Good.head (by assumption) ?_
        | refine Good.opt (by assumption) ?_ | refine Good.exc (by assumption) ?_
    | split | dsimp only | (show Kept _ _ _ _ _ _ _ _; dsimp only)

theorem sendIdle_good {q x1 s} (h : Good q s) : Good q (sendIdle s x1) := by
  unfold sendIdle
  repeat' first
    | with_reducible first
        | assumption | apply sendRows_good | apply State_setWel_good | refine Good.of ?_ | refine Good.next ?_
        | intro _ | apply Good.foldl | refine Good.fst (by assumption) ?_ | refine Good.snd (by assumption) ?_
        | refine Good.some ?_ | exact GoodOpt.none | refine GoodOpt.map ?_ | refine Good.getD ?_ ?_
        | refine Good.elim ?_ ?_ | refine Good.okay ?_ | exact GoodExc.error | apply Good.foldl2 | apply Good.foldl3
        | apply Good.foldl1 | refine Good.left (by assumption) ?_ | refine Good.head (by assumption) ?_
        | refine Good.opt (by assumption) ?_ | refine Good.exc (by assumption) ?_
    | split | dsimp only | (show Kept _ _ _ _ _ _ _ _; dsimp only)

theorem pumpLine_good {q x1 s} (h : Good q s) : Good q (pumpLine s x1) := by
  unfold pumpLine
  repeat' first
    | with_reducible first
        | assumption | apply sendPattern_good | apply State_setWel_good | apply freeLine_good | apply sendSlots_good
        | apply retrainLost_good | apply sendIdle_good | refine Good.of ?_ | refine Good.next ?_ | intro _
        | apply Good.foldl | refine Good.fst (by assumption) ?_ | refine Good.snd (by assumption) ?_
        | refine Good.some ?_ | exact GoodOpt.none | refine GoodOpt.map ?_ | refine Good.getD ?_ ?_
        | refine Good.elim ?_ ?_ | refine Good.okay ?_ | exact GoodExc.error | apply Good.foldl2 | apply Good.foldl3
        | apply Good.foldl1 | refine Good.left (by assumption) ?_ | refine Good.head (by assumption) ?_
        | refine Good.opt (by assumption) ?_ | refine Good.exc (by assumption) ?_
    | split | dsimp only | (show Kept _ _ _ _ _ _ _ _; dsimp only)

theorem sendAlign_good {q x1 s} (h : Good q s) : Good q (sendAlign s x1) := by
  unfold sendAlign
  repeat' first
    | with_reducible first
        | assumption | apply State_emit_good | apply State_setWel_good | refine Good.of ?_ | refine Good.next ?_
        | intro _ | apply Good.foldl | refine Good.fst (by assumption) ?_ | refine Good.snd (by assumption) ?_
        | refine Good.some ?_ | exact GoodOpt.none | refine GoodOpt.map ?_ | refine Good.getD ?_ ?_
        | refine Good.elim ?_ ?_ | refine Good.okay ?_ | exact GoodExc.error | apply Good.foldl2 | apply Good.foldl3
        | apply Good.foldl1 | refine Good.left (by assumption) ?_ | refine Good.head (by assumption) ?_
        | refine Good.opt (by assumption) ?_ | refine Good.exc (by assumption) ?_
    | split | dsimp only | (show Kept _ _ _ _ _ _ _ _; dsimp only)

theorem sendControl_good {q x1 x2 s} (h : Good q s) : Good q (sendControl s x1 x2) := by
  unfold sendControl
  repeat' first
    | with_reducible first
        | assumption | apply pumpLine_good | apply State_emit_good | apply State_setWel_good | refine Good.of ?_
        | refine Good.next ?_ | intro _ | apply Good.foldl | refine Good.fst (by assumption) ?_
        | refine Good.snd (by assumption) ?_ | refine Good.some ?_ | exact GoodOpt.none | refine GoodOpt.map ?_
        | refine Good.getD ?_ ?_ | refine Good.elim ?_ ?_ | refine Good.okay ?_ | exact GoodExc.error
        | apply Good.foldl2 | apply Good.foldl3 | apply Good.foldl1 | refine Good.left (by assumption) ?_
        | refine Good.head (by assumption) ?_ | refine Good.opt (by assumption) ?_
        | refine Good.exc (by assumption) ?_
    | split | dsimp only | (show Kept _ _ _ _ _ _ _ _; dsimp only)

theorem dropLane_good {q x1 x2 s} (h : Good q s) : Good q (dropLane s x1 x2) := h

theorem countBadPacket_good {q x1 s} (h : Good q s) : Good q (countBadPacket s x1) := h

theorem lineIn_good {q x1 x2 x3 s} (h : Good q s) : Good q (lineIn s x1 x2 x3).2 := h

theorem sendBlocks_good {q x1 x2 s} (h : Good q s) : Good q (sendBlocks s x1 x2) := by
  unfold sendBlocks
  repeat' first
    | with_reducible first
        | assumption | apply pumpLine_good | apply State_setWel_good | refine Good.of ?_ | refine Good.next ?_
        | intro _ | apply Good.foldl | refine Good.fst (by assumption) ?_ | refine Good.snd (by assumption) ?_
        | refine Good.some ?_ | exact GoodOpt.none | refine GoodOpt.map ?_ | refine Good.getD ?_ ?_
        | refine Good.elim ?_ ?_ | refine Good.okay ?_ | exact GoodExc.error | apply Good.foldl2 | apply Good.foldl3
        | apply Good.foldl1 | refine Good.left (by assumption) ?_ | refine Good.head (by assumption) ?_
        | refine Good.opt (by assumption) ?_ | refine Good.exc (by assumption) ?_
    | split | dsimp only | (show Kept _ _ _ _ _ _ _ _; dsimp only)

theorem popBlock_good {q x1 x2 s} (h : Good q s) : Good q (popBlock s x1 x2) := by
  unfold popBlock
  repeat' first
    | with_reducible first
        | assumption | refine Good.of ?_ | refine Good.next ?_ | intro _ | apply Good.foldl
        | refine Good.fst (by assumption) ?_ | refine Good.snd (by assumption) ?_ | refine Good.some ?_
        | exact GoodOpt.none | refine GoodOpt.map ?_ | refine Good.getD ?_ ?_ | refine Good.elim ?_ ?_
        | refine Good.okay ?_ | exact GoodExc.error | apply Good.foldl2 | apply Good.foldl3 | apply Good.foldl1
        | refine Good.left (by assumption) ?_ | refine Good.head (by assumption) ?_
        | refine Good.opt (by assumption) ?_ | refine Good.exc (by assumption) ?_
    | split | dsimp only | (show Kept _ _ _ _ _ _ _ _; dsimp only)

theorem sendPacket_good {q x1 x2 x3 x4 x5 s} (h : Good q s) : Good q (sendPacket s x1 x2 x3 x4 x5) := by
  unfold sendPacket
  repeat' first
    | with_reducible first
        | assumption | apply State_emit_good | apply sendBlocks_good | apply State_setWel_good | refine Good.of ?_
        | refine Good.next ?_
    | split | (show Kept _ _ _ _ _ _ _ _; dsimp only)

theorem holdBlocks_good {q x1 x2 x3 s} (h : Good q s) : Good q (holdBlocks s x1 x2 x3) := by
  unfold holdBlocks
  repeat' first
    | with_reducible first
        | assumption | refine Good.of ?_ | refine Good.next ?_ | intro _ | apply Good.foldl
        | refine Good.fst (by assumption) ?_ | refine Good.snd (by assumption) ?_ | refine Good.some ?_
        | exact GoodOpt.none | refine GoodOpt.map ?_ | refine Good.getD ?_ ?_ | refine Good.elim ?_ ?_
        | refine Good.okay ?_ | exact GoodExc.error | apply Good.foldl2 | apply Good.foldl3 | apply Good.foldl1
        | refine Good.left (by assumption) ?_ | refine Good.head (by assumption) ?_
        | refine Good.opt (by assumption) ?_ | refine Good.exc (by assumption) ?_
    | split | dsimp only | (show Kept _ _ _ _ _ _ _ _; dsimp only)

/-! ### Buffers -/

theorem contentValue_good {q x1 x2 s} (h : Good q s) : Good q (contentValue s x1 x2).2 := by
  unfold contentValue
  repeat' first
    | with_reducible first
        | assumption | apply devRead_good | refine Good.of ?_ | refine Good.next ?_ | intro _ | apply Good.foldl
        | refine Good.fst (by assumption) ?_ | refine Good.snd (by assumption) ?_ | refine Good.some ?_
        | exact GoodOpt.none | refine GoodOpt.map ?_ | refine Good.getD ?_ ?_ | refine Good.elim ?_ ?_
        | refine Good.okay ?_ | exact GoodExc.error | apply Good.foldl2 | apply Good.foldl3 | apply Good.foldl1
        | refine Good.left (by assumption) ?_ | refine Good.head (by assumption) ?_
        | refine Good.opt (by assumption) ?_ | refine Good.exc (by assumption) ?_
    | split | dsimp only | (show Kept _ _ _ _ _ _ _ _; dsimp only)

theorem askSamples_good {q x1 x2 s} (h : Good q s) : Good q (askSamples s x1 x2) := by
  unfold askSamples
  repeat' first
    | with_reducible first
        | assumption | apply postRanges_good | refine Good.of ?_ | refine Good.next ?_ | intro _ | apply Good.foldl
        | refine Good.fst (by assumption) ?_ | refine Good.snd (by assumption) ?_ | refine Good.some ?_
        | exact GoodOpt.none | refine GoodOpt.map ?_ | refine Good.getD ?_ ?_ | refine Good.elim ?_ ?_
        | refine Good.okay ?_ | exact GoodExc.error | apply Good.foldl2 | apply Good.foldl3 | apply Good.foldl1
        | refine Good.left (by assumption) ?_ | refine Good.head (by assumption) ?_
        | refine Good.opt (by assumption) ?_ | refine Good.exc (by assumption) ?_
    | split | dsimp only | (show Kept _ _ _ _ _ _ _ _; dsimp only)

theorem bump_good {q x1 x2 s} (h : Good q s) : Good q (bump s x1 x2) := h

theorem offerMirrors_good {q x1 x2 s} (h : Good q s) : Good q (offerMirrors s x1 x2) := h

theorem finishBuf_good {q x1 x2 x3 x4 x5 s} (h : Good q s) : Good q (finishBuf s x1 x2 x3 x4 x5) := h

theorem completeBuf_good {q x1 x2 x3 x4 s} (h : Good q s) : Good q (completeBuf s x1 x2 x3 x4) := by
  unfold completeBuf
  repeat' first
    | with_reducible first
        | assumption | apply bump_good | apply finishBuf_good | refine Good.of ?_ | refine Good.next ?_
    | split | (show Kept _ _ _ _ _ _ _ _; dsimp only)

theorem countSample_good {q x1 x2 s} (h : Good q s) : Good q (countSample s x1 x2) := by
  unfold countSample
  repeat' first
    | with_reducible first
        | assumption | apply State_setCheck_good | refine Good.of ?_ | refine Good.next ?_ | intro _
        | apply Good.foldl | refine Good.fst (by assumption) ?_ | refine Good.snd (by assumption) ?_
        | refine Good.some ?_ | exact GoodOpt.none | refine GoodOpt.map ?_ | refine Good.getD ?_ ?_
        | refine Good.elim ?_ ?_ | refine Good.okay ?_ | exact GoodExc.error | apply Good.foldl2 | apply Good.foldl3
        | apply Good.foldl1 | refine Good.left (by assumption) ?_ | refine Good.head (by assumption) ?_
        | refine Good.opt (by assumption) ?_ | refine Good.exc (by assumption) ?_
    | split | dsimp only | (show Kept _ _ _ _ _ _ _ _; dsimp only)

theorem cmdLayerAddress_good {q x0 s} (h : Good q s) : Good q (cmdLayerAddress x0 s).st := by
  unfold cmdLayerAddress
  repeat' first
    | with_reducible first
        | assumption | apply refuse_good | apply State_setCtx_good | apply contentValue_good | apply askSamples_good
        | apply completeBuf_good | apply countSample_good | apply armCommit_good | apply ok_good | refine Good.of ?_
        | refine Good.next ?_ | intro _ | apply Good.foldl | refine Good.fst (by assumption) ?_
        | refine Good.snd (by assumption) ?_ | refine Good.some ?_ | exact GoodOpt.none | refine GoodOpt.map ?_
        | refine Good.getD ?_ ?_ | refine Good.elim ?_ ?_ | refine Good.okay ?_ | exact GoodExc.error
        | apply Good.foldl2 | apply Good.foldl3 | apply Good.foldl1 | refine Good.left (by assumption) ?_
        | refine Good.head (by assumption) ?_ | refine Good.opt (by assumption) ?_
        | refine Good.exc (by assumption) ?_
    | split | dsimp only | (show Kept _ _ _ _ _ _ _ _; dsimp only)

theorem beginBuf_good {q x1 x2 s} (h : Good q s) : Good q (beginBuf s x1 x2) := h

theorem execLayerAddress_good {q x0 x1 s} (h : Good q s) : GoodOut q (execLayerAddress x0 x1 s) := by
  unfold execLayerAddress
  repeat' first
    | with_reducible first
        | assumption | apply command_good | apply cmdLayerAddress_good | refine Good.of ?_ | refine Good.next ?_
    | split | (show Kept _ _ _ _ _ _ _ _; dsimp only)

theorem dropBuf_good {q x1 x2 s} (h : Good q s) : Good q (dropBuf s x1 x2) := h

/-! ### Fences -/

theorem sendFence_good {q x1 x2 x3 x4 s} (h : Good q s) : Good q (sendFence s x1 x2 x3 x4) := by
  unfold sendFence
  repeat' first
    | with_reducible first
        | assumption | apply sendControl_good | apply State_setWel_good | refine Good.of ?_ | refine Good.next ?_
    | split | (show Kept _ _ _ _ _ _ _ _; dsimp only)

theorem changeFences_good {q x1 x2 s} (h : Good q s) : Good q (changeFences s x1 x2) := by
  unfold changeFences
  repeat' first
    | with_reducible first
        | assumption | apply setFences_good | apply sendFence_good | refine Good.of ?_ | refine Good.next ?_ | intro _
        | apply Good.foldl
    | split | dsimp only | (show Kept _ _ _ _ _ _ _ _; dsimp only)

theorem postOrigins_good {q x1 x2 s} (h : Good q s) : Good q (postOrigins s x1 x2) := by
  unfold postOrigins
  repeat' first
    | with_reducible first
        | assumption | apply postFence_good | refine Good.of ?_ | refine Good.next ?_ | intro _ | apply Good.foldl
    | split | dsimp only | (show Kept _ _ _ _ _ _ _ _; dsimp only)

theorem softFences_good {q x1 x2 x3 s} (h : Good q s) : Good q (softFences s x1 x2 x3) := by
  unfold softFences
  repeat' first
    | with_reducible first
        | assumption | apply changeFences_good | apply postFence_good | apply postOrigins_good | refine Good.of ?_
        | refine Good.next ?_
    | split | (show Kept _ _ _ _ _ _ _ _; dsimp only)

theorem ballChange_good {q x1 x2 x3 s} (h : Good q s) : Good q (ballChange s x1 x2 x3) := by
  unfold ballChange
  repeat' first
    | with_reducible first
        | assumption | apply changeFences_good | apply postFence_good | refine Good.of ?_ | refine Good.next ?_
    | split | (show Kept _ _ _ _ _ _ _ _; dsimp only)

theorem takeFences_good {q x1 x2 s} (h : Good q s) : Good q (takeFences s x1 x2) := by
  unfold takeFences
  repeat' first
    | with_reducible first
        | assumption | apply softFences_good | apply ballChange_good | refine Good.of ?_ | refine Good.next ?_
    | split | (show Kept _ _ _ _ _ _ _ _; dsimp only)

theorem execFenceNRelease_good {q s} (h : Good q s) : GoodOut q (execFenceNRelease s) := by
  unfold execFenceNRelease
  repeat' first
    | with_reducible first
        | assumption | apply ballChange_good | refine Good.of ?_ | refine Good.next ?_
    | split | (show Kept _ _ _ _ _ _ _ _; dsimp only)

theorem writeHbFence_good {q x0 s} (h : Good q s) : Good q (writeHbFence x0 s) := by
  unfold writeHbFence
  repeat' first
    | with_reducible first
        | assumption | apply crossToPan_good | apply softFences_good | refine Good.of ?_ | refine Good.next ?_
        | refine Good.fst (by assumption) ?_ | refine Good.snd (by assumption) ?_
    | split | dsimp only | (show Kept _ _ _ _ _ _ _ _; dsimp only)

theorem execSwRelease_good {q x0 s} (h : Good q s) : GoodOut q (execSwRelease x0 s) := by
  unfold execSwRelease
  repeat' first
    | with_reducible first
        | assumption | apply writeHbFence_good | refine Good.of ?_ | refine Good.next ?_
    | split | (show Kept _ _ _ _ _ _ _ _; dsimp only)

theorem cmdFence_good {q x0 x1 s} (h : Good q s) : Good q (cmdFence x0 x1 s).st := by
  unfold cmdFence
  repeat' first
    | with_reducible first
        | assumption | apply refuse_good | apply crossToPan_good | apply ok_good | apply takeFences_good
        | refine Good.of ?_ | refine Good.next ?_ | refine Good.fst (by assumption) ?_
        | refine Good.snd (by assumption) ?_
    | split | dsimp only | (show Kept _ _ _ _ _ _ _ _; dsimp only)

theorem execFence_good {q x0 x1 s} (h : Good q s) : GoodOut q (execFence x0 x1 s) := by
  unfold execFence
  repeat' first
    | with_reducible first
        | assumption | apply command_good | apply cmdFence_good | refine Good.of ?_ | refine Good.next ?_
    | split | (show Kept _ _ _ _ _ _ _ _; dsimp only)

theorem finishFences_good {q s} (h : Good q s) : Good q (finishFences s) := by
  unfold finishFences
  repeat' first
    | with_reducible first
        | assumption | apply faultRunning_good | apply takeFences_good | apply finishRunning_good | refine Good.of ?_
        | refine Good.next ?_ | intro _ | apply Good.foldl | refine Good.fst (by assumption) ?_
        | refine Good.snd (by assumption) ?_ | refine Good.some ?_ | exact GoodOpt.none | refine GoodOpt.map ?_
        | refine Good.getD ?_ ?_ | refine Good.elim ?_ ?_ | refine Good.okay ?_ | exact GoodExc.error
        | apply Good.foldl2 | apply Good.foldl3 | apply Good.foldl1 | refine Good.left (by assumption) ?_
        | refine Good.head (by assumption) ?_ | refine Good.opt (by assumption) ?_
        | refine Good.exc (by assumption) ?_
    | split | dsimp only | (show Kept _ _ _ _ _ _ _ _; dsimp only)

theorem execSwFence_good {q x0 s} (h : Good q s) : GoodOut q (execSwFence x0 s) := by
  unfold execSwFence
  repeat' first
    | with_reducible first
        | assumption | apply writeHbFence_good | refine Good.of ?_ | refine Good.next ?_
    | split | (show Kept _ _ _ _ _ _ _ _; dsimp only)

theorem execFenceNCapture_good {q s} (h : Good q s) : GoodOut q (execFenceNCapture s) := by
  unfold execFenceNCapture
  repeat' first
    | with_reducible first
        | assumption | apply ballChange_good | refine Good.of ?_ | refine Good.next ?_
    | split | (show Kept _ _ _ _ _ _ _ _; dsimp only)

/-! ### Gauges -/

theorem passChan_good {q x0 x1 x2 x3 s} (h : Good q s) : Good q (passChan x0 x1 x2 x3 s) := by
  unfold passChan
  repeat' first
    | with_reducible first
        | assumption | apply State_setPan_good | apply raiseErr_good | refine Good.of ?_ | refine Good.next ?_
    | split | (show Kept _ _ _ _ _ _ _ _; dsimp only)

theorem checkShort_good {q x1 s} (h : Good q s) : Good q (checkShort s x1) := by
  unfold checkShort
  repeat' first
    | with_reducible first
        | assumption | apply State_setPan_good | apply raiseErr_good | refine Good.of ?_ | refine Good.next ?_
    | split | (show Kept _ _ _ _ _ _ _ _; dsimp only)

theorem outvote_good {q x0 x1 x2 x3 x4 x6 s} (h : Good q s) : Good q (outvote x0 x1 x2 x3 x4 s x6) := by
  unfold outvote
  repeat' first
    | with_reducible first
        | assumption | apply State_setPan_good | apply checkShort_good | apply raiseErr_good
    | (show Kept _ _ _ _ _ _ _ _; dsimp only)

theorem evalSpan_good {q x1 x2 x3 x4 x5 x6 s} (h : Good q s) : Good q (evalSpan s x1 x2 x3 x4 x5 x6) := by
  unfold evalSpan
  repeat' first
    | with_reducible first
        | assumption | apply pump_good | apply State_setPan_good | apply State_setHead_good | apply outvote_good
        | apply drain_good | refine Good.of ?_ | refine Good.next ?_ | intro _ | apply Good.foldl
    | split | dsimp only | (show Kept _ _ _ _ _ _ _ _; dsimp only)

theorem execSpanEvaluate_good {q x0 x1 x2 x3 x4 x5 s} (h : Good q s) : GoodOut q (execSpanEvaluate x0 x1 x2 x3 x4 x5 s) := by
  unfold execSpanEvaluate
  repeat' first
    | with_reducible first
        | assumption | apply evalSpan_good | refine Good.of ?_ | refine Good.next ?_
    | split | dsimp only | (show Kept _ _ _ _ _ _ _ _; dsimp only)

theorem execStateCopyComplete_good {q x0 x1 s} (h : Good q s) : GoodOut q (execStateCopyComplete x0 x1 s) := by
  unfold execStateCopyComplete
  repeat' first
    | with_reducible first
        | assumption | apply State_setPan_good | refine Good.of ?_ | refine Good.next ?_
    | split | dsimp only | (show Kept _ _ _ _ _ _ _ _; dsimp only)

theorem execGaugeReload_good {q x0 s} (h : Good q s) : GoodOut q (execGaugeReload x0 s) := by
  unfold execGaugeReload
  repeat' first
    | with_reducible first
        | assumption | apply State_setPan_good | refine Good.of ?_ | refine Good.next ?_
    | split | dsimp only | (show Kept _ _ _ _ _ _ _ _; dsimp only)

theorem endPass_good {q x1 x2 x3 x4 x5 x6 s} (h : Good q s) : Good q (endPass s x1 x2 x3 x4 x5 x6) := by
  unfold endPass
  repeat' first
    | with_reducible first
        | assumption | apply State_setPan_good | apply raiseErr_good | apply checkShort_good | apply passChan_good
        | refine Good.of ?_ | refine Good.next ?_
    | split | (show Kept _ _ _ _ _ _ _ _; dsimp only)

theorem tideCopies_good {q x1 s} (h : Good q s) : Good q (tideCopies s x1) := by
  unfold tideCopies
  repeat' first
    | with_reducible first
        | assumption | apply State_setPan_good | refine Good.of ?_ | refine Good.next ?_
    | split | (show Kept _ _ _ _ _ _ _ _; dsimp only)

theorem execSalinityPass_good {q x0 x1 s} (h : Good q s) : GoodOut q (execSalinityPass x0 x1 s) := by
  unfold execSalinityPass
  repeat' first
    | with_reducible first
        | assumption | apply State_setPan_good | apply endPass_good | refine Good.of ?_ | refine Good.next ?_
        | intro _ | apply Good.foldl | refine Good.fst (by assumption) ?_ | refine Good.snd (by assumption) ?_
        | refine Good.some ?_ | exact GoodOpt.none | refine GoodOpt.map ?_ | refine Good.getD ?_ ?_
        | refine Good.elim ?_ ?_ | refine Good.okay ?_ | exact GoodExc.error | apply Good.foldl2 | apply Good.foldl3
        | apply Good.foldl1 | refine Good.left (by assumption) ?_ | refine Good.head (by assumption) ?_
        | refine Good.opt (by assumption) ?_ | refine Good.exc (by assumption) ?_
    | split | dsimp only | (show Kept _ _ _ _ _ _ _ _; dsimp only)

/-! ### Checks -/

theorem countCompare_good {q x1 x2 x3 x4 s} (h : Good q s) : Good q (countCompare s x1 x2 x3 x4) := by
  unfold countCompare
  repeat' first
    | with_reducible first
        | assumption | apply State_setCheck_good | refine Good.of ?_ | refine Good.next ?_
    | split | (show Kept _ _ _ _ _ _ _ _; dsimp only)

theorem postMismatch_good {q x1 x2 x3 x4 x5 x6 x7 x8 s} (h : Good q s) : Good q (postMismatch s x1 x2 x3 x4 x5 x6 x7 x8) := by
  unfold postMismatch
  repeat' first
    | with_reducible first
        | assumption | apply postHw_good
    | (show Kept _ _ _ _ _ _ _ _; dsimp only)

theorem endCompare_good {q x1 x2 x3 x4 x5 s} (h : Good q s) : Good q (endCompare s x1 x2 x3 x4 x5) := by
  unfold endCompare
  repeat' first
    | with_reducible first
        | assumption | apply countCompare_good | apply raiseErr_good | apply postMismatch_good | refine Good.of ?_
        | refine Good.next ?_
    | split | (show Kept _ _ _ _ _ _ _ _; dsimp only)

theorem cmdCheckStats_good {q x0 s} (h : Good q s) : Good q (cmdCheckStats x0 s).st := by
  unfold cmdCheckStats
  repeat' first
    | with_reducible first
        | assumption | apply refuse_good | apply ok_good | refine Good.of ?_ | refine Good.next ?_
    | split | (show Kept _ _ _ _ _ _ _ _; dsimp only)

theorem setSeals_good {q x1 x2 s} (h : Good q s) : Good q (setSeals s x1 x2) := h

theorem rearmSeal_good {q x1 x2 s} (h : Good q s) : Good q (rearmSeal s x1 x2) := by
  unfold rearmSeal
  repeat' first
    | with_reducible first
        | assumption | apply postFence_good | apply State_setHead_good | refine Good.of ?_ | refine Good.next ?_
    | split | (show Kept _ _ _ _ _ _ _ _; dsimp only)

theorem cmdSealRegion_good {q x0 x1 s} (h : Good q s) : Good q (cmdSealRegion x0 x1 s).st := by
  unfold cmdSealRegion
  repeat' first
    | with_reducible first
        | assumption | apply refuse_good | apply refuseFull_good | apply setSeals_good | apply ok_good
        | apply State_setCheck_good | apply releaseChannels_good | apply rearmSeal_good | refine Good.of ?_
        | refine Good.next ?_
    | split | (show Kept _ _ _ _ _ _ _ _; dsimp only)

theorem bindCheck_good {q x0 s} (h : Good q s) : Good q (bindCheck x0 s).st := by
  unfold bindCheck
  repeat' first
    | with_reducible first
        | assumption | apply refuseFull_good | apply State_setCheck_good | apply ok_good | apply State_setCtx_good
        | refine Good.of ?_ | refine Good.next ?_
    | split | (show Kept _ _ _ _ _ _ _ _; dsimp only)

theorem unbindCheck_good {q x0 s} (h : Good q s) : Good q (unbindCheck x0 s).st := by
  unfold unbindCheck
  repeat' first
    | with_reducible first
        | assumption | apply ok_good | apply refuseFull_good | refine Good.of ?_ | refine Good.next ?_
    | split | (show Kept _ _ _ _ _ _ _ _; dsimp only)

theorem cmdCheckBind_good {q x0 s} (h : Good q s) : Good q (cmdCheckBind x0 s).st := by
  unfold cmdCheckBind
  repeat' first
    | with_reducible first
        | assumption | apply unbindCheck_good | apply bindCheck_good | refine Good.of ?_ | refine Good.next ?_
    | split | (show Kept _ _ _ _ _ _ _ _; dsimp only)

theorem execCheckBind_good {q x0 x1 s} (h : Good q s) : GoodOut q (execCheckBind x0 x1 s) := by
  unfold execCheckBind
  repeat' first
    | with_reducible first
        | assumption | apply command_good | apply cmdCheckBind_good | refine Good.of ?_ | refine Good.next ?_
    | split | (show Kept _ _ _ _ _ _ _ _; dsimp only)

theorem execCheckStats_good {q x0 x1 s} (h : Good q s) : GoodOut q (execCheckStats x0 x1 s) := by
  unfold execCheckStats
  repeat' first
    | with_reducible first
        | assumption | apply command_good | apply cmdCheckStats_good | refine Good.of ?_ | refine Good.next ?_
    | split | (show Kept _ _ _ _ _ _ _ _; dsimp only)

theorem sealMismatch_good {q x1 x2 x3 x4 x5 x6 s} (h : Good q s) : Good q (sealMismatch s x1 x2 x3 x4 x5 x6) := by
  unfold sealMismatch
  repeat' first
    | with_reducible first
        | assumption | apply State_setHead_good | apply postFence_good | apply raiseErr_good | apply postMismatch_good
        | refine Good.of ?_ | refine Good.next ?_
    | split | (show Kept _ _ _ _ _ _ _ _; dsimp only)

theorem sealCompare_good {q x1 x2 x3 x4 x5 s} (h : Good q s) : Good q (sealCompare s x1 x2 x3 x4 x5) := by
  unfold sealCompare
  repeat' first
    | with_reducible first
        | assumption | apply State_setHead_good | apply State_setCheck_good | apply countCompare_good
        | apply sealMismatch_good | refine Good.of ?_ | refine Good.next ?_
    | split | (show Kept _ _ _ _ _ _ _ _; dsimp only)

theorem execSealCompare_good {q x0 x1 x2 s} (h : Good q s) : GoodOut q (execSealCompare x0 x1 x2 s) := by
  unfold execSealCompare
  repeat' first
    | with_reducible first
        | assumption | apply pump_good | apply sealCompare_good | refine Good.of ?_ | refine Good.next ?_
    | split | dsimp only | (show Kept _ _ _ _ _ _ _ _; dsimp only)

theorem execSealRegion_good {q x0 x1 s} (h : Good q s) : GoodOut q (execSealRegion x0 x1 s) := by
  unfold execSealRegion
  repeat' first
    | with_reducible first
        | assumption | apply command_good | apply cmdSealRegion_good | refine Good.of ?_ | refine Good.next ?_
    | split | (show Kept _ _ _ _ _ _ _ _; dsimp only)

/-! ### Returns -/

theorem sendBack_good {q x1 x2 s} (h : Good q s) : Good q (sendBack s x1 x2) := by
  unfold sendBack
  repeat' first
    | with_reducible first
        | assumption | apply State_emit_good | refine Good.of ?_ | refine Good.next ?_
    | split | (show Kept _ _ _ _ _ _ _ _; dsimp only)

theorem sendInput_good {q x1 x2 x3 x4 s} (h : Good q s) : Good q (sendInput s x1 x2 x3 x4) := by
  unfold sendInput
  repeat' first
    | with_reducible first
        | assumption | apply sendBack_good | apply State_setCtx_good | refine Good.of ?_ | refine Good.next ?_
    | split | (show Kept _ _ _ _ _ _ _ _; dsimp only)

theorem sendTouchPacket_good {q x1 x2 x3 s} (h : Good q s) : Good q (sendTouchPacket s x1 x2 x3) := by
  unfold sendTouchPacket
  repeat' first
    | with_reducible first
        | assumption | apply sendPacket_good | refine Good.of ?_ | refine Good.next ?_ | intro _ | apply Good.foldl
        | refine Good.fst (by assumption) ?_ | refine Good.snd (by assumption) ?_ | refine Good.some ?_
        | exact GoodOpt.none | refine GoodOpt.map ?_ | refine Good.getD ?_ ?_ | refine Good.elim ?_ ?_
        | refine Good.okay ?_ | exact GoodExc.error | apply Good.foldl2 | apply Good.foldl3 | apply Good.foldl1
        | refine Good.left (by assumption) ?_ | refine Good.head (by assumption) ?_
        | refine Good.opt (by assumption) ?_ | refine Good.exc (by assumption) ?_
    | split | dsimp only | (show Kept _ _ _ _ _ _ _ _; dsimp only)

theorem sendRecords_good {q x1 x2 x3 s} (h : Good q s) : Good q (sendRecords s x1 x2 x3) := by
  unfold sendRecords
  repeat' first
    | with_reducible first
        | assumption | apply sendTouchPacket_good | apply sendInput_good | refine Good.of ?_ | refine Good.next ?_
    | split | (show Kept _ _ _ _ _ _ _ _; dsimp only)

theorem cancelContacts_good {q x1 s} (h : Good q s) : Good q (cancelContacts s x1) := by
  unfold cancelContacts
  repeat' first
    | with_reducible first
        | assumption | apply sendRecords_good | refine Good.of ?_ | refine Good.next ?_ | intro _ | apply Good.foldl
    | split | dsimp only | (show Kept _ _ _ _ _ _ _ _; dsimp only)

theorem cancelSource_good {q x1 s} (h : Good q s) : Good q (cancelSource s x1) := by
  unfold cancelSource
  repeat' first
    | with_reducible first
        | assumption | apply cancelContacts_good
    | (show Kept _ _ _ _ _ _ _ _; dsimp only)

theorem repeatInput_good {q x1 s} (h : Good q s) : Good q (repeatInput s x1) := by
  unfold repeatInput
  repeat' first
    | with_reducible first
        | assumption | apply sendBack_good | apply State_setCtx_good | refine Good.of ?_ | refine Good.next ?_
    | split | (show Kept _ _ _ _ _ _ _ _; dsimp only)

end Sys2Proof.Laws
end

