-- ==== Sys2Proof/Laws/Streams.lean ====
section
/-! SUPPORT. What every operation of stream contexts, lanes, ingest, decoding, encoding and the crystallizer keeps (see `Sys2Proof.Laws.Good`): the canonical
form of memory, the command queue, the time, the outputs already given, the programmed keys and the
locked regions. One lemma per operation, cited instead of unfolding it. -/

set_option linter.unusedTactic false
set_option linter.unreachableTactic false

namespace Sys2Proof.Laws

open Sys2Proof Sys2Proof.Machine

/-! ### Contexts -/

theorem openFresh_good {q x1 x2 s} (h : Good q s) : Good q (openFresh s x1 x2) := h

theorem cmdSluiceSet_good {q x0 x1 s} (h : Good q s) : Good q (cmdSluiceSet x0 x1 s).st := by
  unfold cmdSluiceSet
  repeat' first
    | with_reducible first
        | assumption | apply refuse_good | apply ok_good | apply State_setPort_good | refine Good.of ?_
        | refine Good.next ?_
    | split | (show Kept _ _ _ _ _ _ _ _; dsimp only)

theorem sendMirrorSet_good {q x1 s} (h : Good q s) : Good q (sendMirrorSet s x1) := by
  unfold sendMirrorSet
  repeat' first
    | with_reducible first
        | assumption | apply sendOpen_good | refine Good.of ?_ | refine Good.next ?_ | intro _ | apply Good.foldl
        | refine Good.fst (by assumption) ?_ | refine Good.snd (by assumption) ?_ | refine Good.some ?_
        | exact GoodOpt.none | refine GoodOpt.map ?_ | refine Good.getD ?_ ?_ | refine Good.elim ?_ ?_
        | refine Good.okay ?_ | exact GoodExc.error | apply Good.foldl2 | apply Good.foldl3 | apply Good.foldl1
        | refine Good.left (by assumption) ?_ | refine Good.head (by assumption) ?_
        | refine Good.opt (by assumption) ?_ | refine Good.exc (by assumption) ?_
    | split | dsimp only | (show Kept _ _ _ _ _ _ _ _; dsimp only)

theorem admitMirrors_good {q x1 s} (h : Good q s) : Good q (admitMirrors s x1) := by
  unfold admitMirrors
  repeat' first
    | with_reducible first
        | assumption | apply sendMirrorSet_good | apply State_setWel_good | refine Good.of ?_ | refine Good.next ?_
        | intro _ | apply Good.foldl | refine Good.fst (by assumption) ?_ | refine Good.snd (by assumption) ?_
        | refine Good.some ?_ | exact GoodOpt.none | refine GoodOpt.map ?_ | refine Good.getD ?_ ?_
        | refine Good.elim ?_ ?_ | refine Good.okay ?_ | exact GoodExc.error | apply Good.foldl2 | apply Good.foldl3
        | apply Good.foldl1 | refine Good.left (by assumption) ?_ | refine Good.head (by assumption) ?_
        | refine Good.opt (by assumption) ?_ | refine Good.exc (by assumption) ?_
    | split | dsimp only | (show Kept _ _ _ _ _ _ _ _; dsimp only)

theorem settleMirrors_good {q s} (h : Good q s) : Good q (settleMirrors s) := by
  unfold settleMirrors
  repeat' first
    | with_reducible first
        | assumption | apply admitMirrors_good | apply State_setWel_good | refine Good.of ?_ | refine Good.next ?_
        | intro _ | apply Good.foldl | refine Good.fst (by assumption) ?_ | refine Good.snd (by assumption) ?_
        | refine Good.some ?_ | exact GoodOpt.none | refine GoodOpt.map ?_ | refine Good.getD ?_ ?_
        | refine Good.elim ?_ ?_ | refine Good.okay ?_ | exact GoodExc.error | apply Good.foldl2 | apply Good.foldl3
        | apply Good.foldl1 | refine Good.left (by assumption) ?_ | refine Good.head (by assumption) ?_
        | refine Good.opt (by assumption) ?_ | refine Good.exc (by assumption) ?_
    | split | dsimp only | (show Kept _ _ _ _ _ _ _ _; dsimp only)

theorem sendAsk_good {q x1 x2 s} (h : Good q s) : Good q (sendAsk s x1 x2) := by
  unfold sendAsk
  repeat' first
    | with_reducible first
        | assumption | apply sendOpen_good
    | (show Kept _ _ _ _ _ _ _ _; dsimp only)

theorem requestMirror_good {q x1 s} (h : Good q s) : Good q (requestMirror s x1) := by
  unfold requestMirror
  repeat' first
    | with_reducible first
        | assumption | apply sendAsk_good | refine Good.of ?_ | refine Good.next ?_
    | split | (show Kept _ _ _ _ _ _ _ _; dsimp only)

theorem cmdContextOpen_good {q x0 s} (h : Good q s) : Good q (cmdContextOpen x0 s).st := by
  unfold cmdContextOpen
  repeat' first
    | with_reducible first
        | assumption | apply refuseFull_good | apply settleMirrors_good | apply openFresh_good | apply ok_good
        | apply requestMirror_good | refine Good.of ?_ | refine Good.next ?_ | intro _ | apply Good.foldl
        | refine Good.fst (by assumption) ?_ | refine Good.snd (by assumption) ?_ | refine Good.some ?_
        | exact GoodOpt.none | refine GoodOpt.map ?_ | refine Good.getD ?_ ?_ | refine Good.elim ?_ ?_
        | refine Good.okay ?_ | exact GoodExc.error | apply Good.foldl2 | apply Good.foldl3 | apply Good.foldl1
        | refine Good.left (by assumption) ?_ | refine Good.head (by assumption) ?_
        | refine Good.opt (by assumption) ?_ | refine Good.exc (by assumption) ?_
    | split | dsimp only | (show Kept _ _ _ _ _ _ _ _; dsimp only)

theorem report_good {q x1 x2 s} (h : Good q s) : Good q (report s x1 x2) := by
  unfold report
  repeat' first
    | with_reducible first
        | assumption | apply State_emit_good
    | (show Kept _ _ _ _ _ _ _ _; dsimp only)

theorem settlePort_good {q x1 s} (h : Good q s) : Good q (settlePort s x1) := by
  unfold settlePort
  repeat' first
    | with_reducible first
        | assumption | apply report_good | apply State_setPort_good | refine Good.of ?_ | refine Good.next ?_
        | intro _ | apply Good.foldl
    | split | dsimp only | (show Kept _ _ _ _ _ _ _ _; dsimp only)

theorem settleGroups_good {q s} (h : Good q s) : Good q (settleGroups s) := by
  unfold settleGroups
  repeat' first
    | with_reducible first
        | assumption | apply settlePort_good | refine Good.of ?_ | refine Good.next ?_ | intro _ | apply Good.foldl
    | split | dsimp only | (show Kept _ _ _ _ _ _ _ _; dsimp only)

theorem abandonTaps_good {q x1 s} (h : Good q s) : Good q (abandonTaps s x1) := h

theorem abandonDecode_good {q x1 s} (h : Good q s) : Good q (abandonDecode s x1) := h

theorem abandonFrame_good {q x1 s} (h : Good q s) : Good q (abandonFrame s x1) := by
  unfold abandonFrame
  repeat' first
    | with_reducible first
        | assumption | apply dropBuf_good | apply State_setCtx_good | refine Good.of ?_ | refine Good.next ?_
    | split | (show Kept _ _ _ _ _ _ _ _; dsimp only)

theorem cmdContextClose_good {q x0 s} (h : Good q s) : Good q (cmdContextClose x0 s).st := by
  unfold cmdContextClose
  repeat' first
    | with_reducible first
        | assumption | apply refuse_good | apply cancelSource_good | apply settleGroups_good | apply abandonTaps_good
        | apply abandonDecode_good | apply abandonFrame_good | apply ok_good | apply settleMirrors_good
        | apply releaseContext_good | apply State_setCtx_good | refine Good.of ?_ | refine Good.next ?_ | intro _
        | apply Good.foldl | refine Good.fst (by assumption) ?_ | refine Good.snd (by assumption) ?_
        | refine Good.some ?_ | exact GoodOpt.none | refine GoodOpt.map ?_ | refine Good.getD ?_ ?_
        | refine Good.elim ?_ ?_ | refine Good.okay ?_ | exact GoodExc.error | apply Good.foldl2 | apply Good.foldl3
        | apply Good.foldl1 | refine Good.left (by assumption) ?_ | refine Good.head (by assumption) ?_
        | refine Good.opt (by assumption) ?_ | refine Good.exc (by assumption) ?_
    | split | dsimp only | (show Kept _ _ _ _ _ _ _ _; dsimp only)

theorem mediaArrive_good {q x1 x2 x3 x4 s} (h : Good q s) : Good q (mediaArrive s x1 x2 x3 x4) := by
  unfold mediaArrive
  repeat' first
    | with_reducible first
        | assumption | apply State_setPort_good | refine Good.of ?_ | refine Good.next ?_
    | split | (show Kept _ _ _ _ _ _ _ _; dsimp only)

theorem timeArrive_good {q x1 x2 s} (h : Good q s) : Good q (timeArrive s x1 x2) := by
  unfold timeArrive
  repeat' first
    | with_reducible first
        | assumption | apply State_setPort_good | refine Good.of ?_ | refine Good.next ?_
    | split | (show Kept _ _ _ _ _ _ _ _; dsimp only)

theorem receiveFrame_good {q x1 x2 s} (h : Good q s) : Good q (receiveFrame s x1 x2) := by
  unfold receiveFrame
  repeat' first
    | with_reducible first
        | assumption | apply State_setPort_good | apply bump_good | apply mediaArrive_good | apply timeArrive_good
        | refine Good.of ?_ | refine Good.next ?_
    | split | (show Kept _ _ _ _ _ _ _ _; dsimp only)

theorem execEthFrameReceive_good {q x0 x1 s} (h : Good q s) : GoodOut q (execEthFrameReceive x0 x1 s) := by
  unfold execEthFrameReceive
  repeat' first
    | with_reducible first
        | assumption | apply receiveFrame_good | refine Good.of ?_ | refine Good.next ?_
    | split | (show Kept _ _ _ _ _ _ _ _; dsimp only)

theorem execEthLinkChange_good {q x0 x1 s} (h : Good q s) : GoodOut q (execEthLinkChange x0 x1 s) := by
  unfold execEthLinkChange
  repeat' first
    | with_reducible first
        | assumption | apply State_setPort_good | refine Good.of ?_ | refine Good.next ?_
    | split | (show Kept _ _ _ _ _ _ _ _; dsimp only)

theorem cmdContextStats_good {q x0 s} (h : Good q s) : Good q (cmdContextStats x0 s).st := by
  unfold cmdContextStats
  repeat' first
    | with_reducible first
        | assumption | apply refuse_good | apply ok_good | refine Good.of ?_ | refine Good.next ?_
    | split | (show Kept _ _ _ _ _ _ _ _; dsimp only)

theorem execContextClose_good {q x0 x1 s} (h : Good q s) : GoodOut q (execContextClose x0 x1 s) := by
  unfold execContextClose
  repeat' first
    | with_reducible first
        | assumption | apply command_good | apply cmdContextClose_good | refine Good.of ?_ | refine Good.next ?_
    | split | (show Kept _ _ _ _ _ _ _ _; dsimp only)

theorem sendPli_good {q x1 s} (h : Good q s) : Good q (sendPli s x1) := by
  unfold sendPli
  repeat' first
    | with_reducible first
        | assumption | apply State_emit_good | apply State_setCtx_good | refine Good.of ?_ | refine Good.next ?_
    | split | (show Kept _ _ _ _ _ _ _ _; dsimp only)

theorem seekCtx_good {q x1 s} (h : Good q s) : Good q (seekCtx s x1) := by
  unfold seekCtx
  repeat' first
    | with_reducible first
        | assumption | apply sendPli_good | apply State_setCtx_good
    | (show Kept _ _ _ _ _ _ _ _; dsimp only)

theorem execContextOpen_good {q x0 x1 s} (h : Good q s) : GoodOut q (execContextOpen x0 x1 s) := by
  unfold execContextOpen
  repeat' first
    | with_reducible first
        | assumption | apply command_good | apply cmdContextOpen_good | refine Good.of ?_ | refine Good.next ?_
    | split | (show Kept _ _ _ _ _ _ _ _; dsimp only)

theorem execContextStats_good {q x0 x1 s} (h : Good q s) : GoodOut q (execContextStats x0 x1 s) := by
  unfold execContextStats
  repeat' first
    | with_reducible first
        | assumption | apply command_good | apply cmdContextStats_good | refine Good.of ?_ | refine Good.next ?_
    | split | (show Kept _ _ _ _ _ _ _ _; dsimp only)

theorem answerMgmt_good {q x1 x2 s} (h : Good q s) : Good q (answerMgmt s x1 x2) := by
  unfold answerMgmt
  repeat' first
    | with_reducible first
        | assumption | apply report_good | apply State_emit_good | refine Good.of ?_ | refine Good.next ?_ | intro _
        | apply Good.foldl
    | split | dsimp only | (show Kept _ _ _ _ _ _ _ _; dsimp only)

theorem execMgmtFrame_good {q x0 x1 s} (h : Good q s) : GoodOut q (execMgmtFrame x0 x1 s) := by
  unfold execMgmtFrame
  repeat' first
    | with_reducible first
        | assumption | apply answerMgmt_good | apply State_setPort_good | refine Good.of ?_ | refine Good.next ?_
    | split | dsimp only | (show Kept _ _ _ _ _ _ _ _; dsimp only)

theorem unbindFlow_good {q x0 s} (h : Good q s) : Good q (unbindFlow x0 s).st := by
  unfold unbindFlow
  repeat' first
    | with_reducible first
        | assumption | apply ok_good | apply settleGroups_good | apply refuseFull_good | refine Good.of ?_
        | refine Good.next ?_
    | split | (show Kept _ _ _ _ _ _ _ _; dsimp only)

theorem bindFlow_good {q x0 s} (h : Good q s) : Good q (bindFlow x0 s).st := by
  unfold bindFlow
  repeat' first
    | with_reducible first
        | assumption | apply refuseFull_good | apply ok_good | apply settleGroups_good | refine Good.of ?_
        | refine Good.next ?_
    | split | (show Kept _ _ _ _ _ _ _ _; dsimp only)

theorem cmdFlowBind_good {q x0 s} (h : Good q s) : Good q (cmdFlowBind x0 s).st := by
  unfold cmdFlowBind
  repeat' first
    | with_reducible first
        | assumption | apply unbindFlow_good | apply bindFlow_good | refine Good.of ?_ | refine Good.next ?_
    | split | (show Kept _ _ _ _ _ _ _ _; dsimp only)

theorem execFlowBind_good {q x0 x1 s} (h : Good q s) : GoodOut q (execFlowBind x0 x1 s) := by
  unfold execFlowBind
  repeat' first
    | with_reducible first
        | assumption | apply command_good | apply cmdFlowBind_good | refine Good.of ?_ | refine Good.next ?_
    | split | (show Kept _ _ _ _ _ _ _ _; dsimp only)

theorem execSluiceSet_good {q x0 x1 s} (h : Good q s) : GoodOut q (execSluiceSet x0 x1 s) := by
  unfold execSluiceSet
  repeat' first
    | with_reducible first
        | assumption | apply command_good | apply cmdSluiceSet_good | refine Good.of ?_ | refine Good.next ?_
    | split | (show Kept _ _ _ _ _ _ _ _; dsimp only)

theorem isolateCtx_good {q x0 x1 s} (h : Good q s) : Good q (isolateCtx x0 x1 s) := by
  unfold isolateCtx
  repeat' first
    | with_reducible first
        | assumption | apply abandonDecode_good | apply abandonFrame_good | apply cancelSource_good
        | apply settleGroups_good | apply State_setCtx_good
    | (show Kept _ _ _ _ _ _ _ _; dsimp only)

theorem rejoinCtx_good {q x0 s} (h : Good q s) : Good q (rejoinCtx x0 s) := by
  unfold rejoinCtx
  repeat' first
    | with_reducible first
        | assumption | apply settleGroups_good | apply State_setCtx_good | apply seekCtx_good | refine Good.of ?_
        | refine Good.next ?_
    | split | (show Kept _ _ _ _ _ _ _ _; dsimp only)

theorem cmdSourceIsolate_good {q x0 s} (h : Good q s) : Good q (cmdSourceIsolate x0 s).st := by
  unfold cmdSourceIsolate
  repeat' first
    | with_reducible first
        | assumption | apply refuse_good | apply ok_good | apply isolateCtx_good | apply rejoinCtx_good
        | refine Good.of ?_ | refine Good.next ?_
    | split | (show Kept _ _ _ _ _ _ _ _; dsimp only)

theorem execSourceIsolate_good {q x0 x1 s} (h : Good q s) : GoodOut q (execSourceIsolate x0 x1 s) := by
  unfold execSourceIsolate
  repeat' first
    | with_reducible first
        | assumption | apply command_good | apply cmdSourceIsolate_good | refine Good.of ?_ | refine Good.next ?_
    | split | (show Kept _ _ _ _ _ _ _ _; dsimp only)

/-! ### Lanes -/

theorem adaptLane_good {q x1 s} (h : Good q s) : Good q (adaptLane s x1) := h

theorem cmdEqTableQuery_good {q x0 s} (h : Good q s) : Good q (cmdEqTableQuery x0 s).st := by
  unfold cmdEqTableQuery
  repeat' first
    | with_reducible first
        | assumption | apply refuse_good | apply ok_good | apply adaptLane_good | refine Good.of ?_
        | refine Good.next ?_
    | split | (show Kept _ _ _ _ _ _ _ _; dsimp only)

theorem execEqTableQuery_good {q x0 x1 s} (h : Good q s) : GoodOut q (execEqTableQuery x0 x1 s) := by
  unfold execEqTableQuery
  repeat' first
    | with_reducible first
        | assumption | apply command_good | apply cmdEqTableQuery_good | refine Good.of ?_ | refine Good.next ?_
    | split | (show Kept _ _ _ _ _ _ _ _; dsimp only)

theorem cmdEyeScan_good {q x0 s} (h : Good q s) : Good q (cmdEyeScan x0 s).st := by
  unfold cmdEyeScan
  repeat' first
    | with_reducible first
        | assumption | apply refuse_good | apply ok_good | apply State_setRxLane_good | refine Good.of ?_
        | refine Good.next ?_
    | split | (show Kept _ _ _ _ _ _ _ _; dsimp only)

theorem execEyeScan_good {q x0 x1 s} (h : Good q s) : GoodOut q (execEyeScan x0 x1 s) := by
  unfold execEyeScan
  repeat' first
    | with_reducible first
        | assumption | apply command_good | apply cmdEyeScan_good | refine Good.of ?_ | refine Good.next ?_
    | split | (show Kept _ _ _ _ _ _ _ _; dsimp only)

theorem fecErrors_good {q x1 s} (h : Good q s) : Good q (fecErrors s x1) := by
  unfold fecErrors
  repeat' first
    | with_reducible first
        | assumption | apply State_drawNat_good | apply State_setPort_good | refine Good.of ?_ | refine Good.next ?_
        | refine Good.fst (by assumption) ?_ | refine Good.snd (by assumption) ?_
    | split | dsimp only | (show Kept _ _ _ _ _ _ _ _; dsimp only)

theorem cmdLinkState_good {q x0 s} (h : Good q s) : Good q (cmdLinkState x0 s).st := by
  unfold cmdLinkState
  repeat' first
    | with_reducible first
        | assumption | apply refuse_good | apply ok_good | apply fecErrors_good | refine Good.of ?_
        | refine Good.next ?_
    | split | (show Kept _ _ _ _ _ _ _ _; dsimp only)

theorem execLinkState_good {q x0 x1 s} (h : Good q s) : GoodOut q (execLinkState x0 x1 s) := by
  unfold execLinkState
  repeat' first
    | with_reducible first
        | assumption | apply command_good | apply cmdLinkState_good | refine Good.of ?_ | refine Good.next ?_
    | split | (show Kept _ _ _ _ _ _ _ _; dsimp only)

theorem execEyeDone_good {q x0 x1 x2 s} (h : Good q s) : GoodOut q (execEyeDone x0 x1 x2 s) := by
  unfold execEyeDone
  repeat' first
    | with_reducible first
        | assumption | apply wardenWrite_good | apply State_setRxLane_good | apply postFw_good | refine Good.of ?_
        | refine Good.next ?_
    | split | dsimp only | (show Kept _ _ _ _ _ _ _ _; dsimp only)

/-! ### Ingest -/

theorem copyBytes_good {q x1 x2 x3 x4 x5 s} (h : Good q s) : Good q (copyBytes s x1 x2 x3 x4 x5).2 := by
  unfold copyBytes
  repeat' first
    | with_reducible first
        | assumption | apply classPieces_good | apply classWrite_good | apply poisonLine_good | refine Good.of ?_
        | refine Good.next ?_ | intro _ | apply Good.foldl | refine Good.fst (by assumption) ?_
        | refine Good.snd (by assumption) ?_ | refine Good.some ?_ | exact GoodOpt.none | refine GoodOpt.map ?_
        | refine Good.getD ?_ ?_ | refine Good.elim ?_ ?_ | refine Good.okay ?_ | exact GoodExc.error
        | apply Good.foldl2 | apply Good.foldl3 | apply Good.foldl1 | refine Good.left (by assumption) ?_
        | refine Good.head (by assumption) ?_ | refine Good.opt (by assumption) ?_
        | refine Good.exc (by assumption) ?_
    | split | dsimp only | (show Kept _ _ _ _ _ _ _ _; dsimp only)

theorem putLines_good {q x1 x2 x3 x4 x5 s} (h : Good q s) : Good q (putLines s x1 x2 x3 x4 x5) := by
  unfold putLines
  repeat' first
    | with_reducible first
        | assumption | apply classWrite_good | refine Good.of ?_ | refine Good.next ?_ | intro _ | apply Good.foldl
        | refine Good.fst (by assumption) ?_ | refine Good.snd (by assumption) ?_ | refine Good.some ?_
        | exact GoodOpt.none | refine GoodOpt.map ?_ | refine Good.getD ?_ ?_ | refine Good.elim ?_ ?_
        | refine Good.okay ?_ | exact GoodExc.error | apply Good.foldl2 | apply Good.foldl3 | apply Good.foldl1
        | refine Good.left (by assumption) ?_ | refine Good.head (by assumption) ?_
        | refine Good.opt (by assumption) ?_ | refine Good.exc (by assumption) ?_
    | split | dsimp only | (show Kept _ _ _ _ _ _ _ _; dsimp only)

theorem writeTile_good {q x1 x2 x3 x4 x5 x6 s} (h : Good q s) : Good q (writeTile s x1 x2 x3 x4 x5 x6) := by
  unfold writeTile
  repeat' first
    | with_reducible first
        | assumption | apply putLines_good
    | (show Kept _ _ _ _ _ _ _ _; dsimp only)

theorem setDgs_good {q x1 x2 s} (h : Good q s) : Good q (setDgs s x1 x2) := h

theorem tileDecoded_good {q x1 x2 x3 x4 x5 x6 s} (h : Good q s) : Good q (tileDecoded s x1 x2 x3 x4 x5 x6) := by
  unfold tileDecoded
  repeat' first
    | with_reducible first
        | assumption | apply writeTile_good | apply setDgs_good | refine Good.of ?_ | refine Good.next ?_
    | split | (show Kept _ _ _ _ _ _ _ _; dsimp only)

theorem closeCompare_good {q x1 x2 x3 x4 s} (h : Good q s) : Good q (closeCompare s x1 x2 x3 x4) := by
  unfold closeCompare
  repeat' first
    | with_reducible first
        | assumption | apply endCompare_good | apply State_setCtx_good | refine Good.of ?_ | refine Good.next ?_
    | split | (show Kept _ _ _ _ _ _ _ _; dsimp only)

theorem sendRefresh_good {q x1 s} (h : Good q s) : Good q (sendRefresh s x1) := by
  unfold sendRefresh
  repeat' first
    | with_reducible first
        | assumption | apply sendBack_good | apply State_setCtx_good | refine Good.of ?_ | refine Good.next ?_
    | split | (show Kept _ _ _ _ _ _ _ _; dsimp only)

theorem bufferComplete_good {q s x1 x2} (h : Good q s) : Good q (bufferComplete s x1 x2) := by
  have key : ∀ (c : Ctx) (t : State), Good q t → Good q (if c.p.type = 2 ∧ x2.causes.testBit 0 = true then sendRefresh t x1 else t) := by
    intro c t ht
    split
    · exact sendRefresh_good ht
    · exact ht
  have count : ∀ (b : Bool) (v : Option Nat) (t : State), Good q t → Good q (if b = true then t else countSample t x1 v) := by
    intro b v t ht
    split
    · exact ht
    · exact countSample_good ht
  unfold bufferComplete
  refine key _ _ (State_setCtx_good ?_)
  split
  · exact finishBuf_good (count _ _ _ (State_setCtx_good h))
  · exact completeBuf_good (count _ _ _ (State_setCtx_good h))

theorem badDgs_good {q x1 s} (h : Good q s) : Good q (badDgs s x1) := h

theorem takeTarget_good {q x1 x2 s} (h : Good q s) : Good q (takeTarget s x1 x2) := by
  unfold takeTarget
  repeat' first
    | with_reducible first
        | assumption | apply bump_good | apply State_setCtx_good | apply beginBuf_good | refine Good.of ?_
        | refine Good.next ?_
    | split | (show Kept _ _ _ _ _ _ _ _; dsimp only)

theorem beginDgs_good {q x1 x2 x3 s} (h : Good q s) : Good q (beginDgs s x1 x2 x3) := by
  unfold beginDgs
  repeat' first
    | with_reducible first
        | assumption | apply State_setCtx_good | apply takeTarget_good
    | (show Kept _ _ _ _ _ _ _ _; dsimp only)

theorem frameDone_good {q x1 x2 x3 s} (h : Good q s) : Good q (frameDone s x1 x2 x3) := h

theorem completeDgs_good {q x1 x2 s} (h : Good q s) : Good q (completeDgs s x1 x2) := h

theorem completeAu_good {q x1 x2 s} (h : Good q s) : Good q (completeAu s x1 x2) := h

theorem completeRaw_good {q x1 x2 s} (h : Good q s) : Good q (completeRaw s x1 x2) := h

theorem completeFrame_good {q x1 s} (h : Good q s) : Good q (completeFrame s x1) := by
  unfold completeFrame
  repeat' first
    | with_reducible first
        | assumption | apply completeAu_good | apply completeRaw_good | refine Good.of ?_ | refine Good.next ?_
    | split | (show Kept _ _ _ _ _ _ _ _; dsimp only)

theorem completeAny_good {q x1 s} (h : Good q s) : Good q (completeAny s x1) := by
  unfold completeAny
  repeat' first
    | with_reducible first
        | assumption | apply completeDgs_good | apply completeFrame_good | refine Good.of ?_ | refine Good.next ?_
    | split | (show Kept _ _ _ _ _ _ _ _; dsimp only)

theorem dgsFrameFor_good {q x1 x2 x3 s} (h : Good q s) : GoodOpt q (dgsFrameFor s x1 x2 x3) := by
  unfold dgsFrameFor
  repeat' first
    | with_reducible first
        | assumption | apply beginDgs_good | apply completeAny_good | refine Good.of ?_ | refine Good.next ?_
        | intro _ | apply Good.foldl | refine Good.fst (by assumption) ?_ | refine Good.snd (by assumption) ?_
        | refine Good.some ?_ | exact GoodOpt.none | refine GoodOpt.map ?_ | refine Good.getD ?_ ?_
        | refine Good.elim ?_ ?_ | refine Good.okay ?_ | exact GoodExc.error | apply Good.foldl2 | apply Good.foldl3
        | apply Good.foldl1 | refine Good.left (by assumption) ?_ | refine Good.head (by assumption) ?_
        | refine Good.opt (by assumption) ?_ | refine Good.exc (by assumption) ?_
    | split | dsimp only | (show Kept _ _ _ _ _ _ _ _; dsimp only)

theorem dgsCheck_good {q x1 s} (h : Good q s) : Good q (dgsCheck s x1) := by
  unfold dgsCheck
  repeat' first
    | with_reducible first
        | assumption | apply completeDgs_good | refine Good.of ?_ | refine Good.next ?_
    | split | (show Kept _ _ _ _ _ _ _ _; dsimp only)

theorem tileFailed_good {q x1 x2 s} (h : Good q s) : Good q (tileFailed s x1 x2) := h

theorem tilePiece_good {q x1 x2 x3 x4 x5 s} (h : Good q s) : Good q (tilePiece s x1 x2 x3 x4 x5) := by
  unfold tilePiece
  repeat' first
    | with_reducible first
        | assumption | apply setDgs_good | apply tileFailed_good | apply tileDecoded_good | refine Good.of ?_
        | refine Good.next ?_
    | split | (show Kept _ _ _ _ _ _ _ _; dsimp only)

theorem dgsJoin_good {q x1 x2 x3 x4 s} (h : Good q s) : Good q (dgsJoin s x1 x2 x3 x4) := by
  unfold dgsJoin
  repeat' first
    | with_reducible first
        | assumption | apply setDgs_good | apply State_setCtx_good | apply dgsCheck_good | apply tilePiece_good
        | refine Good.of ?_ | refine Good.next ?_
    | split | (show Kept _ _ _ _ _ _ _ _; dsimp only)

theorem dgsDatagram_good {q x1 x2 x3 x4 x5 s} (h : Good q s) : Good q (dgsDatagram s x1 x2 x3 x4 x5) := by
  unfold dgsDatagram
  repeat' first
    | with_reducible first
        | assumption | apply badDgs_good | apply State_setCtx_good | apply sendRefresh_good | apply dgsFrameFor_good
        | apply bump_good | apply dgsJoin_good | refine Good.of ?_ | refine Good.next ?_ | intro _ | apply Good.foldl
        | refine Good.fst (by assumption) ?_ | refine Good.snd (by assumption) ?_ | refine Good.some ?_
        | exact GoodOpt.none | refine GoodOpt.map ?_ | refine Good.getD ?_ ?_ | refine Good.elim ?_ ?_
        | refine Good.okay ?_ | exact GoodExc.error | apply Good.foldl2 | apply Good.foldl3 | apply Good.foldl1
        | refine Good.left (by assumption) ?_ | refine Good.head (by assumption) ?_
        | refine Good.opt (by assumption) ?_ | refine Good.exc (by assumption) ?_
    | split | dsimp only | (show Kept _ _ _ _ _ _ _ _; dsimp only)

theorem pathGap_good {q x1 x2 x3 s} (h : Good q s) : Good q (pathGap s x1 x2 x3) := by
  unfold pathGap
  repeat' first
    | with_reducible first
        | assumption | apply State_setCtx_good | refine Good.of ?_ | refine Good.next ?_
    | split | (show Kept _ _ _ _ _ _ _ _; dsimp only)

theorem unsupportedPacket_good {q x1 s} (h : Good q s) : Good q (unsupportedPacket s x1) := h

theorem unsupportedSeq_good {q x1 x2 x3 s} (h : Good q s) : Good q (unsupportedSeq s x1 x2 x3) := by
  unfold unsupportedSeq
  repeat' first
    | with_reducible first
        | assumption | apply pathGap_good | apply bump_good | apply unsupportedPacket_good | apply State_setCtx_good
        | refine Good.of ?_ | refine Good.next ?_ | intro _ | apply Good.foldl | refine Good.fst (by assumption) ?_
        | refine Good.snd (by assumption) ?_ | refine Good.some ?_ | exact GoodOpt.none | refine GoodOpt.map ?_
        | refine Good.getD ?_ ?_ | refine Good.elim ?_ ?_ | refine Good.okay ?_ | exact GoodExc.error
        | apply Good.foldl2 | apply Good.foldl3 | apply Good.foldl1 | refine Good.left (by assumption) ?_
        | refine Good.head (by assumption) ?_ | refine Good.opt (by assumption) ?_
        | refine Good.exc (by assumption) ?_
    | split | dsimp only | (show Kept _ _ _ _ _ _ _ _; dsimp only)

theorem endFrame_good {q x1 s} (h : Good q s) : Good q (endFrame s x1) := by
  unfold endFrame
  repeat' first
    | with_reducible first
        | assumption | apply State_setCtx_good | refine Good.of ?_ | refine Good.next ?_
    | split | (show Kept _ _ _ _ _ _ _ _; dsimp only)

theorem beginFrame_good {q x1 x2 x3 x4 s} (h : Good q s) : Good q (beginFrame s x1 x2 x3 x4) := by
  unfold beginFrame
  repeat' first
    | with_reducible first
        | assumption | apply endFrame_good | apply State_setCtx_good | apply takeTarget_good | refine Good.of ?_
        | refine Good.next ?_
    | split | (show Kept _ _ _ _ _ _ _ _; dsimp only)

theorem noteEnd_good {q x1 x2 s} (h : Good q s) : Good q (noteEnd s x1 x2) := by
  unfold noteEnd
  repeat' first
    | with_reducible first
        | assumption | apply State_setCtx_good | refine Good.of ?_ | refine Good.next ?_ | intro _ | apply Good.foldl
        | refine Good.fst (by assumption) ?_ | refine Good.snd (by assumption) ?_ | refine Good.some ?_
        | exact GoodOpt.none | refine GoodOpt.map ?_ | refine Good.getD ?_ ?_ | refine Good.elim ?_ ?_
        | refine Good.okay ?_ | exact GoodExc.error | apply Good.foldl2 | apply Good.foldl3 | apply Good.foldl1
        | refine Good.left (by assumption) ?_ | refine Good.head (by assumption) ?_
        | refine Good.opt (by assumption) ?_ | refine Good.exc (by assumption) ?_
    | split | dsimp only | (show Kept _ _ _ _ _ _ _ _; dsimp only)

theorem frameFor_good {q x1 x2 x3 x4 s} (h : Good q s) : GoodOpt q (frameFor s x1 x2 x3 x4) := by
  unfold frameFor
  repeat' first
    | with_reducible first
        | assumption | apply beginFrame_good | apply completeFrame_good | apply noteEnd_good | refine Good.of ?_
        | refine Good.next ?_ | intro _ | apply Good.foldl | refine Good.fst (by assumption) ?_
        | refine Good.snd (by assumption) ?_ | refine Good.some ?_ | exact GoodOpt.none | refine GoodOpt.map ?_
        | refine Good.getD ?_ ?_ | refine Good.elim ?_ ?_ | refine Good.okay ?_ | exact GoodExc.error
        | apply Good.foldl2 | apply Good.foldl3 | apply Good.foldl1 | refine Good.left (by assumption) ?_
        | refine Good.head (by assumption) ?_ | refine Good.opt (by assumption) ?_
        | refine Good.exc (by assumption) ?_
    | split | dsimp only | (show Kept _ _ _ _ _ _ _ _; dsimp only)

theorem putBlack_good {q x1 x2 x3 x4 s} (h : Good q s) : Good q (putBlack s x1 x2 x3 x4) := by
  unfold putBlack
  repeat' first
    | with_reducible first
        | assumption | apply classWrite_good
    | (show Kept _ _ _ _ _ _ _ _; dsimp only)

theorem fillRange_good {q x0 x1 p x3} (h : Good q p.2) : Good q (fillRange x0 x1 p x3).2 := by
  unfold fillRange
  repeat' first
    | with_reducible first
        | assumption | apply copyBytes_good | apply putBlack_good | refine Good.of ?_ | refine Good.next ?_
    | split | (show Kept _ _ _ _ _ _ _ _; dsimp only)

theorem fillTile_good {q x0 x1 p x3} (h : Good q p.2) : Good q (fillTile x0 x1 p x3).2 := by
  unfold fillTile
  repeat' first
    | with_reducible first
        | assumption | apply copyBytes_good | refine Good.of ?_ | refine Good.next ?_ | intro _ | apply Good.foldl
        | refine Good.fst (by assumption) ?_ | refine Good.snd (by assumption) ?_ | refine Good.some ?_
        | exact GoodOpt.none | refine GoodOpt.map ?_ | refine Good.getD ?_ ?_ | refine Good.elim ?_ ?_
        | refine Good.okay ?_ | exact GoodExc.error | apply Good.foldl2 | apply Good.foldl3 | apply Good.foldl1
        | refine Good.left (by assumption) ?_ | refine Good.head (by assumption) ?_
        | refine Good.opt (by assumption) ?_ | refine Good.exc (by assumption) ?_
    | split | dsimp only | (show Kept _ _ _ _ _ _ _ _; dsimp only)

theorem fillGap_good {q x0 x1 p x3} (h : Good q p.2) : Good q (fillGap x0 x1 p x3).2 := by
  unfold fillGap
  repeat' first
    | with_reducible first
        | assumption | apply copyBytes_good | apply putBlack_good | refine Good.of ?_ | refine Good.next ?_ | intro _
        | apply Good.foldl | refine Good.fst (by assumption) ?_ | refine Good.snd (by assumption) ?_
        | refine Good.some ?_ | exact GoodOpt.none | refine GoodOpt.map ?_ | refine Good.getD ?_ ?_
        | refine Good.elim ?_ ?_ | refine Good.okay ?_ | exact GoodExc.error | apply Good.foldl2 | apply Good.foldl3
        | apply Good.foldl1 | refine Good.left (by assumption) ?_ | refine Good.head (by assumption) ?_
        | refine Good.opt (by assumption) ?_ | refine Good.exc (by assumption) ?_
    | split | dsimp only | (show Kept _ _ _ _ _ _ _ _; dsimp only)

theorem fillCopy_good {q x1 x2 s} (h : Good q s) : Good q (fillCopy s x1 x2) := by
  unfold fillCopy
  repeat' first
    | with_reducible first
        | assumption | apply fillRange_good | apply fillTile_good | apply fillGap_good | apply State_setCtx_good
        | refine Good.of ?_ | refine Good.next ?_ | intro _ | apply Good.foldl | refine Good.fst (by assumption) ?_
        | refine Good.snd (by assumption) ?_ | refine Good.some ?_ | exact GoodOpt.none | refine GoodOpt.map ?_
        | refine Good.getD ?_ ?_ | refine Good.elim ?_ ?_ | refine Good.okay ?_ | exact GoodExc.error
        | apply Good.foldl2 | apply Good.foldl3 | apply Good.foldl1 | refine Good.left (by assumption) ?_
        | refine Good.head (by assumption) ?_ | refine Good.opt (by assumption) ?_
        | refine Good.exc (by assumption) ?_
    | split | dsimp only | (show Kept _ _ _ _ _ _ _ _; dsimp only)

theorem execFillCopy_good {q x0 s} (h : Good q s) : GoodOut q (execFillCopy x0 s) := by
  unfold execFillCopy
  repeat' first
    | with_reducible first
        | assumption | apply fillCopy_good | refine Good.of ?_ | refine Good.next ?_
    | split | dsimp only | (show Kept _ _ _ _ _ _ _ _; dsimp only)

theorem earlierPacket_good {q x1 x2 s} (h : Good q s) : Good q (earlierPacket s x1 x2) := by
  unfold earlierPacket
  repeat' first
    | with_reducible first
        | assumption | apply bump_good | refine Good.of ?_ | refine Good.next ?_
    | split | (show Kept _ _ _ _ _ _ _ _; dsimp only)

theorem staleCopy_good {q x1 x2 x3 s} (h : Good q s) : GoodOpt q (staleCopy s x1 x2 x3) := by
  unfold staleCopy
  repeat' first
    | with_reducible first
        | assumption | apply bump_good | apply State_setCtx_good | refine Good.of ?_ | refine Good.next ?_ | intro _
        | apply Good.foldl | refine Good.fst (by assumption) ?_ | refine Good.snd (by assumption) ?_
        | refine Good.some ?_ | exact GoodOpt.none | refine GoodOpt.map ?_ | refine Good.getD ?_ ?_
        | refine Good.elim ?_ ?_ | refine Good.okay ?_ | exact GoodExc.error | apply Good.foldl2 | apply Good.foldl3
        | apply Good.foldl1 | refine Good.left (by assumption) ?_ | refine Good.head (by assumption) ?_
        | refine Good.opt (by assumption) ?_ | refine Good.exc (by assumption) ?_
    | split | dsimp only | (show Kept _ _ _ _ _ _ _ _; dsimp only)

theorem putRing_good {q x1 x2 x3 s} (h : Good q s) : Good q (putRing s x1 x2 x3) := by
  unfold putRing
  repeat' first
    | with_reducible first
        | assumption | apply putLines_good
    | (show Kept _ _ _ _ _ _ _ _; dsimp only)

theorem countBadExt_good {q x1 x2 s} (h : Good q s) : Good q (countBadExt s x1 x2) := by
  unfold countBadExt
  repeat' first
    | with_reducible first
        | assumption | apply bump_good | refine Good.of ?_ | refine Good.next ?_
    | split | (show Kept _ _ _ _ _ _ _ _; dsimp only)

theorem rawPacket_good {q x1 x2 x3 x4 x5 x6 s} (h : Good q s) : Good q (rawPacket s x1 x2 x3 x4 x5 x6) := by
  unfold rawPacket
  repeat' first
    | with_reducible first
        | assumption | apply frameFor_good | apply earlierPacket_good | apply staleCopy_good | apply putRing_good
        | apply countBadExt_good | apply State_setCtx_good | apply completeFrame_good | refine Good.of ?_
        | refine Good.next ?_ | intro _ | apply Good.foldl | refine Good.fst (by assumption) ?_
        | refine Good.snd (by assumption) ?_ | refine Good.some ?_ | exact GoodOpt.none | refine GoodOpt.map ?_
        | refine Good.getD ?_ ?_ | refine Good.elim ?_ ?_ | refine Good.okay ?_ | exact GoodExc.error
        | apply Good.foldl2 | apply Good.foldl3 | apply Good.foldl1 | refine Good.left (by assumption) ?_
        | refine Good.head (by assumption) ?_ | refine Good.opt (by assumption) ?_
        | refine Good.exc (by assumption) ?_
    | split | dsimp only | (show Kept _ _ _ _ _ _ _ _; dsimp only)

theorem execFrameTimeout_good {q x0 s} (h : Good q s) : GoodOut q (execFrameTimeout x0 s) := by
  unfold execFrameTimeout
  repeat' first
    | with_reducible first
        | assumption | apply completeAny_good | refine Good.of ?_ | refine Good.next ?_
    | split | dsimp only | (show Kept _ _ _ _ _ _ _ _; dsimp only)

theorem mapAus_good {q x1 x2 s} (h : Good q s) : Good q (mapAus s x1 x2) := h

theorem auCompare_good {q x1 x2 x3 s} (h : Good q s) : Good q (auCompare s x1 x2 x3) := by
  unfold auCompare
  repeat' first
    | with_reducible first
        | assumption | apply mapAus_good | apply endCompare_good | apply State_setCtx_good | refine Good.of ?_
        | refine Good.next ?_
    | split | (show Kept _ _ _ _ _ _ _ _; dsimp only)

theorem execCheckCompareEnd_good {q x0 s} (h : Good q s) : GoodOut q (execCheckCompareEnd x0 s) := by
  unfold execCheckCompareEnd
  repeat' first
    | with_reducible first
        | assumption | apply closeCompare_good | apply auCompare_good | refine Good.of ?_ | refine Good.next ?_
    | split | dsimp only | (show Kept _ _ _ _ _ _ _ _; dsimp only)

theorem ringWrite_good {q x1 x2 x3 s} (h : Good q s) : Good q (ringWrite s x1 x2 x3) := by
  unfold ringWrite
  repeat' first
    | with_reducible first
        | assumption | apply State_drawBytes_good | apply putRing_good | apply State_setCtx_good
    | (show Kept _ _ _ _ _ _ _ _; dsimp only)

theorem codedPacket_good {q x1 x2 x3 x4 x5 s} (h : Good q s) : Good q (codedPacket s x1 x2 x3 x4 x5) := by
  unfold codedPacket
  repeat' first
    | with_reducible first
        | assumption | apply frameFor_good | apply earlierPacket_good | apply staleCopy_good | apply bump_good
        | apply abandonFrame_good | apply State_setCtx_good | apply ringWrite_good | apply countBadExt_good
        | apply completeFrame_good | refine Good.of ?_ | refine Good.next ?_ | intro _ | apply Good.foldl
        | refine Good.fst (by assumption) ?_ | refine Good.snd (by assumption) ?_ | refine Good.some ?_
        | exact GoodOpt.none | refine GoodOpt.map ?_ | refine Good.getD ?_ ?_ | refine Good.elim ?_ ?_
        | refine Good.okay ?_ | exact GoodExc.error | apply Good.foldl2 | apply Good.foldl3 | apply Good.foldl1
        | refine Good.left (by assumption) ?_ | refine Good.head (by assumption) ?_
        | refine Good.opt (by assumption) ?_ | refine Good.exc (by assumption) ?_
    | split | dsimp only | (show Kept _ _ _ _ _ _ _ _; dsimp only)

theorem rtpPacket_good {q x1 x2 x3 x4 s} (h : Good q s) : Good q (rtpPacket s x1 x2 x3 x4) := by
  unfold rtpPacket
  repeat' first
    | with_reducible first
        | assumption | apply unsupportedPacket_good | apply unsupportedSeq_good | apply rawPacket_good
        | apply pathGap_good | apply State_setCtx_good | apply codedPacket_good | refine Good.of ?_
        | refine Good.next ?_ | intro _ | apply Good.foldl | refine Good.fst (by assumption) ?_
        | refine Good.snd (by assumption) ?_ | refine Good.some ?_ | exact GoodOpt.none | refine GoodOpt.map ?_
        | refine Good.getD ?_ ?_ | refine Good.elim ?_ ?_ | refine Good.okay ?_ | exact GoodExc.error
        | apply Good.foldl2 | apply Good.foldl3 | apply Good.foldl1 | refine Good.left (by assumption) ?_
        | refine Good.head (by assumption) ?_ | refine Good.opt (by assumption) ?_
        | refine Good.exc (by assumption) ?_
    | split | dsimp only | (show Kept _ _ _ _ _ _ _ _; dsimp only)

theorem modWaiting_good {q x1 x2 x3 s} (h : Good q s) : Good q (modWaiting s x1 x2 x3) := h

theorem pictureDetected_good {q x1 x2 s} (h : Good q s) : Good q (pictureDetected s x1 x2) := by
  unfold pictureDetected
  repeat' first
    | with_reducible first
        | assumption | apply contentValue_good | apply countSample_good | apply modWaiting_good
    | (show Kept _ _ _ _ _ _ _ _; dsimp only)

theorem execBufferComplete_good {q x0 s} (h : Good q s) : GoodOut q (execBufferComplete x0 s) := by
  unfold execBufferComplete
  repeat' first
    | with_reducible first
        | assumption | apply bufferComplete_good | refine Good.of ?_ | refine Good.next ?_
    | split | (show Kept _ _ _ _ _ _ _ _; dsimp only)

theorem laneEnd_good {q s x1 x2 x3 t s'} (h : Good q s) (e : laneEnd s x1 x2 x3 = some (t, s')) : Good q s' := by
  unfold laneEnd at e
  cases hu : useLane s x1 with
  | none => simp [hu] at e
  | some l =>
    simp only [hu, Option.map_some, Option.some.injEq, Prod.mk.injEq] at e
    obtain ⟨_, rfl⟩ := e
    exact State_setLane_good h

theorem laneDone_good {q s x1 x2 x3} (h : Good q s) : GoodOpt q (laneDone s x1 x2 x3) := by
  unfold laneDone
  split
  · rename_i e
    split
    · exact Good.some (laneEnd_good h e)
    · exact GoodOpt.none
  · exact GoodOpt.none

theorem popMedia_good {q x1 s} (h : Good q s) : Good q (popMedia s x1) := h

theorem processPacket_good {q x1 s} (h : Good q s) : Good q (processPacket s x1) := by
  unfold processPacket
  repeat' first
    | with_reducible first
        | assumption | apply dgsDatagram_good | apply unsupportedPacket_good | apply rtpPacket_good
        | refine Good.of ?_ | refine Good.next ?_
    | split | (show Kept _ _ _ _ _ _ _ _; dsimp only)

theorem execMediaPacketProcess_good {q x0 s} (h : Good q s) : GoodOut q (execMediaPacketProcess x0 s) := by
  unfold execMediaPacketProcess
  repeat' first
    | with_reducible first
        | assumption | apply popMedia_good | apply processPacket_good | refine Good.of ?_ | refine Good.next ?_
    | split | dsimp only | (show Kept _ _ _ _ _ _ _ _; dsimp only)

theorem startDetector_good {q x1 s} (h : Good q s) : Good q (startDetector s x1) := by
  unfold startDetector
  repeat' first
    | with_reducible first
        | assumption | apply askSamples_good | apply State_setCtx_good | apply modWaiting_good | refine Good.of ?_
        | refine Good.next ?_
    | split | (show Kept _ _ _ _ _ _ _ _; dsimp only)

theorem detectorComplete_good {q x1 x2 s} (h : Good q s) : Good q (detectorComplete s x1 x2) := by
  unfold detectorComplete
  repeat' first
    | with_reducible first
        | assumption | apply contentValue_good | apply countSample_good | apply State_setCtx_good
    | (show Kept _ _ _ _ _ _ _ _; dsimp only)

theorem execDetectorComplete_good {q x0 s} (h : Good q s) : GoodOut q (execDetectorComplete x0 s) := by
  unfold execDetectorComplete
  repeat' first
    | with_reducible first
        | assumption | apply startDetector_good | apply detectorComplete_good | apply pictureDetected_good
        | refine Good.of ?_ | refine Good.next ?_
    | split | dsimp only | (show Kept _ _ _ _ _ _ _ _; dsimp only)

theorem execDgsTileDecode_good {q x0 x1 s} (h : Good q s) : GoodOut q (execDgsTileDecode x0 x1 s) := by
  unfold execDgsTileDecode
  repeat' first
    | with_reducible first
        | assumption | apply dgsCheck_good | apply tileDecoded_good | apply tileFailed_good | apply setDgs_good | apply State_setCtx_good
        | refine Good.of ?_ | refine Good.next ?_
    | exact laneEnd_good h (Option.filter_eq_some_iff.mp (by assumption)).1
    | split | dsimp only

/-! ### Decode -/

theorem drawUnits_good {q x1 x2 s} (h : Good q s) : Good q (drawUnits s x1 x2).2 := by
  unfold drawUnits
  repeat' first
    | with_reducible first
        | assumption | apply State_drawNat_good | refine Good.of ?_ | refine Good.next ?_ | intro _ | apply Good.foldl
        | refine Good.fst (by assumption) ?_ | refine Good.snd (by assumption) ?_ | refine Good.some ?_
        | exact GoodOpt.none | refine GoodOpt.map ?_ | refine Good.getD ?_ ?_ | refine Good.elim ?_ ?_
        | refine Good.okay ?_ | exact GoodExc.error | apply Good.foldl2 | apply Good.foldl3 | apply Good.foldl1
        | refine Good.left (by assumption) ?_ | refine Good.head (by assumption) ?_
        | refine Good.opt (by assumption) ?_ | refine Good.exc (by assumption) ?_
    | split | dsimp only | (show Kept _ _ _ _ _ _ _ _; dsimp only)

theorem cmdDecodeStats_good {q x0 s} (h : Good q s) : Good q (cmdDecodeStats x0 s).st := by
  unfold cmdDecodeStats
  repeat' first
    | with_reducible first
        | assumption | apply ok_good | apply refuse_good | refine Good.of ?_ | refine Good.next ?_
    | split | (show Kept _ _ _ _ _ _ _ _; dsimp only)

theorem bumpBefore_good {q x1 x2 x3 x4 s} (h : Good q s) : Good q (bumpBefore s x1 x2 x3 x4) := by
  unfold bumpBefore
  repeat' first
    | with_reducible first
        | assumption | apply State_setCtx_good | refine Good.of ?_ | refine Good.next ?_ | intro _ | apply Good.foldl
        | refine Good.fst (by assumption) ?_ | refine Good.snd (by assumption) ?_ | refine Good.some ?_
        | exact GoodOpt.none | refine GoodOpt.map ?_ | refine Good.getD ?_ ?_ | refine Good.elim ?_ ?_
        | refine Good.okay ?_ | exact GoodExc.error | apply Good.foldl2 | apply Good.foldl3 | apply Good.foldl1
        | refine Good.left (by assumption) ?_ | refine Good.head (by assumption) ?_
        | refine Good.opt (by assumption) ?_ | refine Good.exc (by assumption) ?_
    | split | dsimp only | (show Kept _ _ _ _ _ _ _ _; dsimp only)

theorem markRefs_good {q x1 x2 s} (h : Good q s) : Good q (markRefs s x1 x2) := h

theorem marksBefore_good {q x1 x2 x3 s} (h : Good q s) : Good q (marksBefore s x1 x2 x3) := by
  unfold marksBefore
  repeat' first
    | with_reducible first
        | assumption | apply markRefs_good | refine Good.of ?_ | refine Good.next ?_
    | split | (show Kept _ _ _ _ _ _ _ _; dsimp only)

theorem attachCtx_good {q x1 x2 s} (h : Good q s) : Good q (attachCtx s x1 x2) := by
  unfold attachCtx
  repeat' first
    | with_reducible first
        | assumption | apply seekCtx_good | apply State_setCtx_good
    | (show Kept _ _ _ _ _ _ _ _; dsimp only)

theorem cmdDecodeAttach_good {q x0 s} (h : Good q s) : Good q (cmdDecodeAttach x0 s).st := by
  unfold cmdDecodeAttach
  repeat' first
    | with_reducible first
        | assumption | apply refuseFull_good | apply ok_good | apply attachCtx_good | refine Good.of ?_
        | refine Good.next ?_
    | split | (show Kept _ _ _ _ _ _ _ _; dsimp only)

theorem skipSeeking_good {q x1 s} (h : Good q s) : Good q (skipSeeking s x1) := by
  unfold skipSeeking
  repeat' first
    | with_reducible first
        | assumption | apply State_setCtx_good | refine Good.of ?_ | refine Good.next ?_
    | split | (show Kept _ _ _ _ _ _ _ _; dsimp only)

theorem readAu_good {q x1 x2 s} (h : Good q s) : Good q (readAu s x1 x2).2 := by
  unfold readAu
  repeat' first
    | with_reducible first
        | assumption | apply readPieces_good | refine Good.of ?_ | refine Good.next ?_ | intro _ | apply Good.foldl
        | refine Good.fst (by assumption) ?_ | refine Good.snd (by assumption) ?_ | refine Good.some ?_
        | exact GoodOpt.none | refine GoodOpt.map ?_ | refine Good.getD ?_ ?_ | refine Good.elim ?_ ?_
        | refine Good.okay ?_ | exact GoodExc.error | apply Good.foldl2 | apply Good.foldl3 | apply Good.foldl1
        | refine Good.left (by assumption) ?_ | refine Good.head (by assumption) ?_
        | refine Good.opt (by assumption) ?_ | refine Good.exc (by assumption) ?_
    | split | dsimp only | (show Kept _ _ _ _ _ _ _ _; dsimp only)

theorem readRef_good {q x1 x2 x3 s} (h : Good q s) : Good q (readRef s x1 x2 x3).2.2 := by
  unfold readRef
  repeat' first
    | with_reducible first
        | assumption | apply readPieces_good
    | (show Kept _ _ _ _ _ _ _ _; dsimp only)

theorem poisonRef_good {q x1 x2 s} (h : Good q s) : Good q (poisonRef s x1 x2) := h

theorem readRefs_good {q x1 x2 s} (h : Good q s) : Good q (readRefs s x1 x2).2 := by
  unfold readRefs
  repeat' first
    | with_reducible first
        | assumption | apply readRef_good | apply poisonRef_good | refine Good.of ?_ | refine Good.next ?_ | intro _
        | apply Good.foldl | refine Good.fst (by assumption) ?_ | refine Good.snd (by assumption) ?_
        | refine Good.some ?_ | exact GoodOpt.none | refine GoodOpt.map ?_ | refine Good.getD ?_ ?_
        | refine Good.elim ?_ ?_ | refine Good.okay ?_ | exact GoodExc.error | apply Good.foldl2 | apply Good.foldl3
        | apply Good.foldl1 | refine Good.left (by assumption) ?_ | refine Good.head (by assumption) ?_
        | refine Good.opt (by assumption) ?_ | refine Good.exc (by assumption) ?_
    | split | dsimp only | (show Kept _ _ _ _ _ _ _ _; dsimp only)

theorem popAu_good {q x1 s} (h : Good q s) : Good q (popAu s x1) := h

theorem modDec_good {q x1 x2 s} (h : Good q s) : Good q (modDec s x1 x2) := h

theorem showSet_good {q x1 x2 s} (h : Good q s) : Good q (showSet s x1 x2) := h

theorem takePriority_good {q x1 x2 s} (h : Good q s) : Good q (takePriority s x1 x2) := by
  unfold takePriority
  repeat' first
    | with_reducible first
        | assumption | apply State_setCtx_good | refine Good.of ?_ | refine Good.next ?_
    | split | (show Kept _ _ _ _ _ _ _ _; dsimp only)

theorem postPicture_good {q x1 x2 x3 x4 x5 s} (h : Good q s) : Good q (postPicture s x1 x2 x3 x4 x5) := by
  unfold postPicture
  repeat' first
    | with_reducible first
        | assumption | apply post_good | refine Good.of ?_ | refine Good.next ?_ | intro _ | apply Good.foldl
    | split | dsimp only | (show Kept _ _ _ _ _ _ _ _; dsimp only)

theorem startPicture_good {q x1 x2 x3 x4 x5 x6 x7 s} (h : Good q s) : Good q (startPicture s x1 x2 x3 x4 x5 x6 x7) := by
  unfold startPicture
  repeat' first
    | with_reducible first
        | assumption | apply takePriority_good | apply showSet_good | apply bumpBefore_good | apply marksBefore_good
        | apply popAu_good | apply drawUnits_good | apply beginBuf_good | apply State_setCtx_good | apply modDec_good
        | apply postPicture_good | apply loadState_good | apply State_setDec_good | refine Good.of ?_
        | refine Good.next ?_ | intro _ | apply Good.foldl | refine Good.fst (by assumption) ?_
        | refine Good.snd (by assumption) ?_ | refine Good.some ?_ | exact GoodOpt.none | refine GoodOpt.map ?_
        | refine Good.getD ?_ ?_ | refine Good.elim ?_ ?_ | refine Good.okay ?_ | exact GoodExc.error
        | apply Good.foldl2 | apply Good.foldl3 | apply Good.foldl1 | refine Good.left (by assumption) ?_
        | refine Good.head (by assumption) ?_ | refine Good.opt (by assumption) ?_
        | refine Good.exc (by assumption) ?_
    | split | dsimp only | (show Kept _ _ _ _ _ _ _ _; dsimp only)

theorem takeAu_good {q x1 x2 x3 x4 x5 x6 x7 s} (h : Good q s) : Good q (takeAu s x1 x2 x3 x4 x5 x6 x7) := by
  unfold takeAu
  repeat' first
    | with_reducible first
        | assumption | apply popAu_good | apply sendPli_good | apply modDec_good | apply showSet_good
        | apply startPicture_good | refine Good.of ?_ | refine Good.next ?_
    | split | (show Kept _ _ _ _ _ _ _ _; dsimp only)

theorem bumpAfter_good {q x1 x2 x3 s} (h : Good q s) : Good q (bumpAfter s x1 x2 x3) := by
  unfold bumpAfter
  repeat' first
    | with_reducible first
        | assumption | apply State_setCtx_good | refine Good.of ?_ | refine Good.next ?_
    | split | (show Kept _ _ _ _ _ _ _ _; dsimp only)

theorem marksAfter_good {q x1 x2 x3 s} (h : Good q s) : Good q (marksAfter s x1 x2 x3) := by
  unfold marksAfter
  repeat' first
    | with_reducible first
        | assumption | apply markRefs_good | apply State_setCtx_good | refine Good.of ?_ | refine Good.next ?_
    | split | (show Kept _ _ _ _ _ _ _ _; dsimp only)

theorem markMissed_good {q s} (h : Good q s) : Good q (markMissed s) := by
  unfold markMissed
  repeat' first
    | with_reducible first
        | assumption | apply State_setCtx_good | refine Good.of ?_ | refine Good.next ?_ | intro _ | apply Good.foldl
    | split | dsimp only | (show Kept _ _ _ _ _ _ _ _; dsimp only)

theorem countPoolWaits_good {q s} (h : Good q s) : Good q (countPoolWaits s) := by
  unfold countPoolWaits
  repeat' first
    | with_reducible first
        | assumption | apply modDec_good | refine Good.of ?_ | refine Good.next ?_ | intro _ | apply Good.foldl
    | split | dsimp only | (show Kept _ _ _ _ _ _ _ _; dsimp only)

theorem prepareDecode_good {q s} (h : Good q s) : Good q (prepareDecode s) := by
  unfold prepareDecode
  repeat' first
    | with_reducible first
        | assumption | apply countPoolWaits_good | apply skipSeeking_good | refine Good.of ?_ | refine Good.next ?_
        | intro _ | apply Good.foldl
    | split | dsimp only | (show Kept _ _ _ _ _ _ _ _; dsimp only)

theorem concealAreas_good {q x1 x2 x3 s} (h : Good q s) : Good q (concealAreas s x1 x2 x3).2 := by
  unfold concealAreas
  repeat' first
    | with_reducible first
        | assumption | apply readRef_good | apply devWrite_good | refine Good.of ?_ | refine Good.next ?_ | intro _
        | apply Good.foldl | refine Good.fst (by assumption) ?_ | refine Good.snd (by assumption) ?_
        | refine Good.some ?_ | exact GoodOpt.none | refine GoodOpt.map ?_ | refine Good.getD ?_ ?_
        | refine Good.elim ?_ ?_ | refine Good.okay ?_ | exact GoodExc.error | apply Good.foldl2 | apply Good.foldl3
        | apply Good.foldl1 | refine Good.left (by assumption) ?_ | refine Good.head (by assumption) ?_
        | refine Good.opt (by assumption) ?_ | refine Good.exc (by assumption) ?_
    | split | dsimp only | (show Kept _ _ _ _ _ _ _ _; dsimp only)

theorem cmdDecodePriority_good {q x0 s} (h : Good q s) : Good q (cmdDecodePriority x0 s).st := by
  unfold cmdDecodePriority
  repeat' first
    | with_reducible first
        | assumption | apply refuseFull_good | apply ok_good | apply State_setCtx_good | refine Good.of ?_
        | refine Good.next ?_
    | split | (show Kept _ _ _ _ _ _ _ _; dsimp only)

theorem outputPicture_good {q x1 x2 s} (h : Good q s) : Good q (outputPicture s x1 x2) := by
  unfold outputPicture
  repeat' first
    | with_reducible first
        | assumption | apply finishBuf_good | apply countSample_good | apply State_setCtx_good | refine Good.of ?_
        | refine Good.next ?_ | intro _ | apply Good.foldl | refine Good.fst (by assumption) ?_
        | refine Good.snd (by assumption) ?_ | refine Good.some ?_ | exact GoodOpt.none | refine GoodOpt.map ?_
        | refine Good.getD ?_ ?_ | refine Good.elim ?_ ?_ | refine Good.okay ?_ | exact GoodExc.error
        | apply Good.foldl2 | apply Good.foldl3 | apply Good.foldl1 | refine Good.left (by assumption) ?_
        | refine Good.head (by assumption) ?_ | refine Good.opt (by assumption) ?_
        | refine Good.exc (by assumption) ?_
    | split | dsimp only | (show Kept _ _ _ _ _ _ _ _; dsimp only)

theorem decodeTide_good {q x1 s} (h : Good q s) : Good q (decodeTide s x1) := by
  unfold decodeTide
  repeat' first
    | with_reducible first
        | assumption | apply skipSeeking_good | apply raiseErr_good | apply modDec_good | apply markMissed_good
        | apply countPoolWaits_good | refine Good.of ?_ | refine Good.next ?_ | intro _ | apply Good.foldl
    | split | dsimp only | (show Kept _ _ _ _ _ _ _ _; dsimp only)

theorem execDecodeStats_good {q x0 x1 s} (h : Good q s) : GoodOut q (execDecodeStats x0 x1 s) := by
  unfold execDecodeStats
  repeat' first
    | with_reducible first
        | assumption | apply command_good | apply cmdDecodeStats_good | refine Good.of ?_ | refine Good.next ?_
    | split | (show Kept _ _ _ _ _ _ _ _; dsimp only)

theorem sampleLine_good {q x1 x2 x3 s} (h : Good q s) : Good q (sampleLine s x1 x2 x3).2 := by
  unfold sampleLine
  repeat' first
    | with_reducible first
        | assumption | apply State_drawBytes_good | refine Good.of ?_ | refine Good.next ?_
    | split | (show Kept _ _ _ _ _ _ _ _; dsimp only)

theorem writePicture_good {q x1 x2 x3 s} (h : Good q s) : Good q (writePicture s x1 x2 x3) := by
  unfold writePicture
  repeat' first
    | with_reducible first
        | assumption | apply sampleLine_good | apply devWrite_good | apply State_drawBytes_good | refine Good.of ?_
        | refine Good.next ?_ | intro _ | apply Good.foldl
    | split | dsimp only | (show Kept _ _ _ _ _ _ _ _; dsimp only)

theorem endPicture_good {q x1 x2 x3 s} (h : Good q s) : Good q (endPicture s x1 x2 x3) := by
  unfold endPicture
  repeat' first
    | with_reducible first
        | assumption | apply stateLoaded_good | apply readAu_good | apply readRefs_good | apply writePicture_good
        | apply concealAreas_good | apply poisonRef_good | apply modDec_good | apply marksAfter_good
        | apply bumpAfter_good | apply sendPli_good | apply State_setDec_good | refine Good.of ?_
        | refine Good.next ?_ | intro _ | apply Good.foldl | refine Good.fst (by assumption) ?_
        | refine Good.snd (by assumption) ?_ | refine Good.some ?_ | exact GoodOpt.none | refine GoodOpt.map ?_
        | refine Good.getD ?_ ?_ | refine Good.elim ?_ ?_ | refine Good.okay ?_ | exact GoodExc.error
        | apply Good.foldl2 | apply Good.foldl3 | apply Good.foldl1 | refine Good.left (by assumption) ?_
        | refine Good.head (by assumption) ?_ | refine Good.opt (by assumption) ?_
        | refine Good.exc (by assumption) ?_
    | split | dsimp only | (show Kept _ _ _ _ _ _ _ _; dsimp only)

theorem execDecodePictureEnd_good {q x0 s} (h : Good q s) : GoodOut q (execDecodePictureEnd x0 s) := by
  unfold execDecodePictureEnd
  repeat' first
    | with_reducible first
        | assumption | apply endPicture_good | refine Good.of ?_ | refine Good.next ?_
    | split | dsimp only | (show Kept _ _ _ _ _ _ _ _; dsimp only)

theorem execPictureOutput_good {q x0 s} (h : Good q s) : GoodOut q (execPictureOutput x0 s) := by
  unfold execPictureOutput
  repeat' first
    | with_reducible first
        | assumption | apply outputPicture_good | refine Good.of ?_ | refine Good.next ?_
    | split | dsimp only | (show Kept _ _ _ _ _ _ _ _; dsimp only)

theorem execPictureAbandoned_good {q x0 s} (h : Good q s) : GoodOut q (execPictureAbandoned x0 s) := by
  unfold execPictureAbandoned
  repeat' first
    | with_reducible first
        | assumption | apply dropBuf_good | apply forget_good | apply State_setDec_good | refine Good.of ?_
        | refine Good.next ?_
    | split | dsimp only | (show Kept _ _ _ _ _ _ _ _; dsimp only)

theorem execDecodeLagDiscard_good {q x0 s} (h : Good q s) : GoodOut q (execDecodeLagDiscard x0 s) := by
  unfold execDecodeLagDiscard
  repeat' first
    | with_reducible first
        | assumption | apply State_setCtx_good | refine Good.of ?_ | refine Good.next ?_
    | split | dsimp only | (show Kept _ _ _ _ _ _ _ _; dsimp only)

theorem execDecodeAttach_good {q x0 x1 s} (h : Good q s) : GoodOut q (execDecodeAttach x0 x1 s) := by
  unfold execDecodeAttach
  repeat' first
    | with_reducible first
        | assumption | apply command_good | apply cmdDecodeAttach_good | refine Good.of ?_ | refine Good.next ?_
    | split | (show Kept _ _ _ _ _ _ _ _; dsimp only)

theorem execDecodePriority_good {q x0 x1 s} (h : Good q s) : GoodOut q (execDecodePriority x0 x1 s) := by
  unfold execDecodePriority
  repeat' first
    | with_reducible first
        | assumption | apply command_good | apply cmdDecodePriority_good | refine Good.of ?_ | refine Good.next ?_
    | split | (show Kept _ _ _ _ _ _ _ _; dsimp only)

theorem execDecodePictureStart_good {q x0 x1 s} (h : Good q s) : GoodOut q (execDecodePictureStart x0 x1 s) := by
  unfold execDecodePictureStart
  repeat' first
    | with_reducible first
        | assumption | apply prepareDecode_good | apply takeAu_good | refine Good.of ?_ | refine Good.next ?_
    | split | dsimp only | (show Kept _ _ _ _ _ _ _ _; dsimp only)

/-! ### Encode -/

theorem readSourceLine_good {q x1 x2 x3 x4 s} (h : Good q s) : Good q (readSourceLine s x1 x2 x3 x4).2 := by
  unfold readSourceLine
  repeat' first
    | with_reducible first
        | assumption | apply classPieces_good | refine Good.of ?_ | refine Good.next ?_
    | split | (show Kept _ _ _ _ _ _ _ _; dsimp only)

theorem startFrame_good {q x1 x2 x3 x4 s} (h : Good q s) : Good q (startFrame s x1 x2 x3 x4) := by
  unfold startFrame
  repeat' first
    | with_reducible first
        | assumption | apply State_setEnc_good | apply classRead_good | apply State_setEncEngine_good
        | refine Good.of ?_ | refine Good.next ?_ | intro _ | apply Good.foldl | refine Good.fst (by assumption) ?_
        | refine Good.snd (by assumption) ?_ | refine Good.some ?_ | exact GoodOpt.none | refine GoodOpt.map ?_
        | refine Good.getD ?_ ?_ | refine Good.elim ?_ ?_ | refine Good.okay ?_ | exact GoodExc.error
        | apply Good.foldl2 | apply Good.foldl3 | apply Good.foldl1 | refine Good.left (by assumption) ?_
        | refine Good.head (by assumption) ?_ | refine Good.opt (by assumption) ?_
        | refine Good.exc (by assumption) ?_
    | split | dsimp only | (show Kept _ _ _ _ _ _ _ _; dsimp only)

theorem execEncodeFrameStart_good {q x0 s} (h : Good q s) : GoodOut q (execEncodeFrameStart x0 s) := by
  unfold execEncodeFrameStart
  repeat' first
    | with_reducible first
        | assumption | apply startFrame_good | refine Good.of ?_ | refine Good.next ?_
    | split | (show Kept _ _ _ _ _ _ _ _; dsimp only)

theorem ringPut_good {q x1 x2 x3 s} (h : Good q s) : Good q (ringPut s x1 x2 x3) := by
  unfold ringPut
  repeat' first
    | with_reducible first
        | assumption | apply State_emit_good | apply classWrite_good | refine Good.of ?_ | refine Good.next ?_
    | split | (show Kept _ _ _ _ _ _ _ _; dsimp only)

theorem abandonEnc_good {q x1 s} (h : Good q s) : Good q (abandonEnc s x1) := h

theorem udpPacket_good {q x1 x2 x3 x4 x5 x6 s} (h : Good q s) : Good q (udpPacket s x1 x2 x3 x4 x5 x6).2 := by
  unfold udpPacket
  repeat' first
    | with_reducible first
        | assumption | apply State_drawNat_good | refine Good.of ?_ | refine Good.next ?_ | intro _ | apply Good.foldl
        | refine Good.fst (by assumption) ?_ | refine Good.snd (by assumption) ?_ | refine Good.some ?_
        | exact GoodOpt.none | refine GoodOpt.map ?_ | refine Good.getD ?_ ?_ | refine Good.elim ?_ ?_
        | refine Good.okay ?_ | exact GoodExc.error | apply Good.foldl2 | apply Good.foldl3 | apply Good.foldl1
        | refine Good.left (by assumption) ?_ | refine Good.head (by assumption) ?_
        | refine Good.opt (by assumption) ?_ | refine Good.exc (by assumption) ?_
    | split | dsimp only | (show Kept _ _ _ _ _ _ _ _; dsimp only)

theorem settleSent_good {q x1 x2 s} (h : Good q s) : Good q (settleSent s x1 x2).2 := by
  unfold settleSent
  repeat' first
    | with_reducible first
        | assumption | apply classWrite_good | apply State_setEnc_good | refine Good.of ?_ | refine Good.next ?_
        | intro _ | apply Good.foldl | refine Good.fst (by assumption) ?_ | refine Good.snd (by assumption) ?_
        | refine Good.some ?_ | exact GoodOpt.none | refine GoodOpt.map ?_ | refine Good.getD ?_ ?_
        | refine Good.elim ?_ ?_ | refine Good.okay ?_ | exact GoodExc.error | apply Good.foldl2 | apply Good.foldl3
        | apply Good.foldl1 | refine Good.left (by assumption) ?_ | refine Good.head (by assumption) ?_
        | refine Good.opt (by assumption) ?_ | refine Good.exc (by assumption) ?_
    | split | dsimp only | (show Kept _ _ _ _ _ _ _ _; dsimp only)

theorem sliceReads_good {q x1 x2 s} (h : Good q s) : Good q (sliceReads s x1 x2) := by
  unfold sliceReads
  repeat' first
    | with_reducible first
        | assumption | apply classRead_good | refine Good.of ?_ | refine Good.next ?_ | intro _ | apply Good.foldl
    | split | dsimp only | (show Kept _ _ _ _ _ _ _ _; dsimp only)

theorem dueContext_good {q x1 x2 s} (h : Good q s) : Good q (dueContext s x1 x2) := by
  unfold dueContext
  repeat' first
    | with_reducible first
        | assumption | apply State_setEnc_good | refine Good.of ?_ | refine Good.next ?_
    | split | (show Kept _ _ _ _ _ _ _ _; dsimp only)

theorem execEncodeFrameDue_good {q x0 s} (h : Good q s) : GoodOut q (execEncodeFrameDue x0 s) := by
  unfold execEncodeFrameDue
  repeat' first
    | with_reducible first
        | assumption | apply dueContext_good | apply State_setEnc_good | refine Good.of ?_ | refine Good.next ?_
    | split | dsimp only | (show Kept _ _ _ _ _ _ _ _; dsimp only)

theorem cmdEncodeRate_good {q x0 x1 s} (h : Good q s) : Good q (cmdEncodeRate x0 x1 s).st := by
  unfold cmdEncodeRate
  repeat' first
    | with_reducible first
        | assumption | apply refuse_good | apply ok_good | apply State_setEnc_good | refine Good.of ?_
        | refine Good.next ?_
    | split | (show Kept _ _ _ _ _ _ _ _; dsimp only)

theorem ringConsumer_good {q x1 s} (h : Good q s) : Good q (ringConsumer s x1).2 := by
  unfold ringConsumer
  repeat' first
    | with_reducible first
        | assumption | apply classRead_good | apply State_drawNat_good | refine Good.of ?_ | refine Good.next ?_
    | split | (show Kept _ _ _ _ _ _ _ _; dsimp only)

theorem cmdEncodeClose_good {q x0 s} (h : Good q s) : Good q (cmdEncodeClose x0 s).st := by
  unfold cmdEncodeClose
  repeat' first
    | with_reducible first
        | assumption | apply abandonEnc_good | apply ok_good | apply refuse_good | refine Good.of ?_
        | refine Good.next ?_
    | split | (show Kept _ _ _ _ _ _ _ _; dsimp only)

theorem encFrameEnd_good {q x1 x2 x3 s} (h : Good q s) : Good q (encFrameEnd s x1 x2 x3) := by
  unfold encFrameEnd
  repeat' first
    | with_reducible first
        | assumption | apply State_drawBytes_good | apply classWrite_good | apply State_setEncEngine_good
        | apply State_setEnc_good | refine Good.of ?_ | refine Good.next ?_
    | split | (show Kept _ _ _ _ _ _ _ _; dsimp only)

theorem ipPacket_good {q x1 x2 s} (h : Good q s) : Good q (ipPacket s x1 x2).2 := by
  unfold ipPacket
  repeat' first
    | with_reducible first
        | assumption | apply udpPacket_good | refine Good.of ?_ | refine Good.next ?_ | intro _ | apply Good.foldl
        | refine Good.fst (by assumption) ?_ | refine Good.snd (by assumption) ?_ | refine Good.some ?_
        | exact GoodOpt.none | refine GoodOpt.map ?_ | refine Good.getD ?_ ?_ | refine Good.elim ?_ ?_
        | refine Good.okay ?_ | exact GoodExc.error | apply Good.foldl2 | apply Good.foldl3 | apply Good.foldl1
        | refine Good.left (by assumption) ?_ | refine Good.head (by assumption) ?_
        | refine Good.opt (by assumption) ?_ | refine Good.exc (by assumption) ?_
    | split | dsimp only | (show Kept _ _ _ _ _ _ _ _; dsimp only)

theorem sendRtp_good {q x1 x2 s} (h : Good q s) : Good q (sendRtp s x1 x2) := by
  unfold sendRtp
  repeat' first
    | with_reducible first
        | assumption | apply ipPacket_good | apply State_emit_good | apply State_setEnc_good | refine Good.of ?_
        | refine Good.next ?_
    | split | (show Kept _ _ _ _ _ _ _ _; dsimp only)

theorem sendEntry_good {q x1 x2 x3 x4 s} (h : Good q s) : Good q (sendEntry s x1 x2 x3 x4) := by
  unfold sendEntry
  repeat' first
    | with_reducible first
        | assumption | apply sendRtp_good | apply State_setEnc_good | refine Good.of ?_ | refine Good.next ?_
        | intro _ | apply Good.foldl
    | split | dsimp only | (show Kept _ _ _ _ _ _ _ _; dsimp only)

theorem readEntry_good {q x1 x2 s} (h : Good q s) : Good q (readEntry s x1 x2).2.2 := by
  unfold readEntry
  repeat' first
    | with_reducible first
        | assumption | apply classRead_good
    | (show Kept _ _ _ _ _ _ _ _; dsimp only)

theorem cmdEncodeOpen_good {q x0 s} (h : Good q s) : Good q (cmdEncodeOpen x0 s).st := by
  unfold cmdEncodeOpen
  repeat' first
    | with_reducible first
        | assumption | apply refuseFull_good | apply ok_good | apply State_setEnc_good | refine Good.of ?_
        | refine Good.next ?_
    | split | (show Kept _ _ _ _ _ _ _ _; dsimp only)

theorem execEncodeOpen_good {q x0 x1 s} (h : Good q s) : GoodOut q (execEncodeOpen x0 x1 s) := by
  unfold execEncodeOpen
  repeat' first
    | with_reducible first
        | assumption | apply command_good | apply cmdEncodeOpen_good | refine Good.of ?_ | refine Good.next ?_
    | split | (show Kept _ _ _ _ _ _ _ _; dsimp only)

theorem pumpTap_good {q x1 s} (h : Good q s) : Good q (pumpTap s x1) := by
  unfold pumpTap
  repeat' first
    | with_reducible first
        | assumption | apply pump_good | refine Good.of ?_ | refine Good.next ?_ | intro _ | apply Good.foldl
    | split | dsimp only | (show Kept _ _ _ _ _ _ _ _; dsimp only)

theorem publish_good {q x1 x2 x3 x4 s} (h : Good q s) : Good q (publish s x1 x2 x3 x4).2 := by
  unfold publish
  repeat' first
    | with_reducible first
        | assumption | apply settleSent_good | apply ringConsumer_good | apply ringPut_good | apply State_setEnc_good
        | refine Good.of ?_ | refine Good.next ?_ | intro _ | apply Good.foldl | refine Good.fst (by assumption) ?_
        | refine Good.snd (by assumption) ?_ | refine Good.some ?_ | exact GoodOpt.none | refine GoodOpt.map ?_
        | refine Good.getD ?_ ?_ | refine Good.elim ?_ ?_ | refine Good.okay ?_ | exact GoodExc.error
        | apply Good.foldl2 | apply Good.foldl3 | apply Good.foldl1 | refine Good.left (by assumption) ?_
        | refine Good.head (by assumption) ?_ | refine Good.opt (by assumption) ?_
        | refine Good.exc (by assumption) ?_
    | split | dsimp only | (show Kept _ _ _ _ _ _ _ _; dsimp only)

theorem publish_good1 {q x1 x2 x3 x4 s} (h : Good q s) : GoodOpt q (publish s x1 x2 x3 x4).1 := by
  unfold publish
  repeat' first
    | with_reducible first | assumption | apply settleSent_good | apply ringConsumer_good | apply ringPut_good | apply State_setEnc_good
    | with_reducible intro _
    | (with_reducible refine Good.of ?_)
    | with_reducible first | (refine Good.next ?_) | (refine Good.some ?_) | exact GoodOpt.none
    | with_reducible first | (refine Good.fst (by assumption) ?_) | (refine Good.snd (by assumption) ?_)
    | split
    | dsimp only
    | (show Kept _ _ _ _ _ _ _ _; dsimp only)

theorem readSource_good {q x1 x2 x3 x4 x5 s} (h : Good q s) : Good q (readSource s x1 x2 x3 x4 x5) := by
  unfold readSource
  repeat' first
    | with_reducible first
        | assumption | apply readSourceLine_good | apply State_setEnc_good | refine Good.of ?_ | refine Good.next ?_
        | intro _ | apply Good.foldl | refine Good.fst (by assumption) ?_ | refine Good.snd (by assumption) ?_
        | refine Good.some ?_ | exact GoodOpt.none | refine GoodOpt.map ?_ | refine Good.getD ?_ ?_
        | refine Good.elim ?_ ?_ | refine Good.okay ?_ | exact GoodExc.error | apply Good.foldl2 | apply Good.foldl3
        | apply Good.foldl1 | refine Good.left (by assumption) ?_ | refine Good.head (by assumption) ?_
        | refine Good.opt (by assumption) ?_ | refine Good.exc (by assumption) ?_
    | split | dsimp only | (show Kept _ _ _ _ _ _ _ _; dsimp only)

theorem writeScaled_good {q x1 x2 x3 s} (h : Good q s) : Good q (writeScaled s x1 x2 x3) := by
  unfold writeScaled
  repeat' first
    | with_reducible first
        | assumption | apply classWrite_good | refine Good.of ?_ | refine Good.next ?_
    | split | (show Kept _ _ _ _ _ _ _ _; dsimp only)

theorem lineComplete_good {q x1 x2 x3 x4 x5 s} (h : Good q s) : Good q (lineComplete s x1 x2 x3 x4 x5) := by
  unfold lineComplete
  repeat' first
    | with_reducible first
        | assumption | apply readSource_good | apply writeScaled_good | apply State_setEnc_good | refine Good.of ?_
        | refine Good.next ?_
    | split | (show Kept _ _ _ _ _ _ _ _; dsimp only)

theorem execEncodeLineComplete_good {q x0 s} (h : Good q s) : GoodOut q (execEncodeLineComplete x0 s) := by
  unfold execEncodeLineComplete
  repeat' first
    | with_reducible first
        | assumption | apply pumpTap_good | apply lineComplete_good | refine Good.of ?_ | refine Good.next ?_
    | split | dsimp only | (show Kept _ _ _ _ _ _ _ _; dsimp only)

theorem transmit_good {q x1 x2 s} (h : Good q s) : Good q (transmit s x1 x2) := by
  unfold transmit
  repeat' first
    | with_reducible first
        | assumption | apply readEntry_good | apply sendEntry_good | apply classWrite_good | apply State_setEnc_good
        | refine Good.of ?_ | refine Good.next ?_
    | split | (show Kept _ _ _ _ _ _ _ _; dsimp only)

theorem execEncodeClose_good {q x0 x1 s} (h : Good q s) : GoodOut q (execEncodeClose x0 x1 s) := by
  unfold execEncodeClose
  repeat' first
    | with_reducible first
        | assumption | apply command_good | apply cmdEncodeClose_good | refine Good.of ?_ | refine Good.next ?_
    | split | (show Kept _ _ _ _ _ _ _ _; dsimp only)

theorem putSlice_good {q x1 x2 x3 x4 s} (h : Good q s) : Good q (putSlice s x1 x2 x3 x4) := by
  unfold putSlice
  repeat' first
    | with_reducible first
        | assumption | apply sliceReads_good | apply publish_good | apply publish_good1 | apply State_setEnc_good
        | apply encFrameEnd_good | apply State_setEncEngine_good | refine Good.of ?_ | refine Good.next ?_ | intro _
        | apply Good.foldl | refine Good.fst (by assumption) ?_ | refine Good.snd (by assumption) ?_
        | refine Good.some ?_ | exact GoodOpt.none | refine GoodOpt.map ?_ | refine Good.getD ?_ ?_
        | refine Good.elim ?_ ?_ | refine Good.okay ?_ | exact GoodExc.error | apply Good.foldl2 | apply Good.foldl3
        | apply Good.foldl1 | refine Good.left (by assumption) ?_ | refine Good.head (by assumption) ?_
        | refine Good.opt (by assumption) ?_ | refine Good.exc (by assumption) ?_
    | split | dsimp only | (show Kept _ _ _ _ _ _ _ _; dsimp only)

theorem execSlicePublish_good {q x0 x1 s} (h : Good q s) : GoodOut q (execSlicePublish x0 x1 s) := by
  unfold execSlicePublish
  repeat' first
    | with_reducible first
        | assumption | apply putSlice_good | refine Good.of ?_ | refine Good.next ?_
    | split | dsimp only | (show Kept _ _ _ _ _ _ _ _; dsimp only)

theorem execEncodeFrameAbandoned_good {q x0 s} (h : Good q s) : GoodOut q (execEncodeFrameAbandoned x0 s) := by
  unfold execEncodeFrameAbandoned
  repeat' first
    | with_reducible first
        | assumption | apply State_setEncEngine_good | apply State_setEnc_good | refine Good.of ?_
        | refine Good.next ?_
    | split | dsimp only | (show Kept _ _ _ _ _ _ _ _; dsimp only)

theorem execRtpTransmit_good {q x0 s} (h : Good q s) : GoodOut q (execRtpTransmit x0 s) := by
  unfold execRtpTransmit
  repeat' first
    | with_reducible first
        | assumption | apply settleSent_good | apply transmit_good | refine Good.of ?_ | refine Good.next ?_ | intro _
        | apply Good.foldl | refine Good.fst (by assumption) ?_ | refine Good.snd (by assumption) ?_
        | refine Good.some ?_ | exact GoodOpt.none | refine GoodOpt.map ?_ | refine Good.getD ?_ ?_
        | refine Good.elim ?_ ?_ | refine Good.okay ?_ | exact GoodExc.error | apply Good.foldl2 | apply Good.foldl3
        | apply Good.foldl1 | refine Good.left (by assumption) ?_ | refine Good.head (by assumption) ?_
        | refine Good.opt (by assumption) ?_ | refine Good.exc (by assumption) ?_
    | split | dsimp only | (show Kept _ _ _ _ _ _ _ _; dsimp only)

theorem execEncodeRate_good {q x0 x1 s} (h : Good q s) : GoodOut q (execEncodeRate x0 x1 s) := by
  unfold execEncodeRate
  repeat' first
    | with_reducible first
        | assumption | apply command_good | apply cmdEncodeRate_good | refine Good.of ?_ | refine Good.next ?_
    | split | (show Kept _ _ _ _ _ _ _ _; dsimp only)

/-! ### Crystal -/

theorem cmdCrysJob_good {q x0 s} (h : Good q s) : Good q (cmdCrysJob x0 s).st := by
  unfold cmdCrysJob
  repeat' first
    | with_reducible first
        | assumption | apply refuseFull_good | apply State_setJob_good | apply ok_good | refine Good.of ?_
        | refine Good.next ?_
    | split | (show Kept _ _ _ _ _ _ _ _; dsimp only)

theorem execCrysJob_good {q x0 x1 s} (h : Good q s) : GoodOut q (execCrysJob x0 x1 s) := by
  unfold execCrysJob
  repeat' first
    | with_reducible first
        | assumption | apply command_good | apply cmdCrysJob_good | refine Good.of ?_ | refine Good.next ?_
    | split | (show Kept _ _ _ _ _ _ _ _; dsimp only)

theorem readPosition_good {q x1 x2 s} (h : Good q s) : Good q (readPosition s x1 x2).2 := by
  unfold readPosition
  repeat' first
    | with_reducible first
        | assumption | apply drawWithin_good | apply State_setJob_good | refine Good.of ?_ | refine Good.next ?_
    | split | (show Kept _ _ _ _ _ _ _ _; dsimp only)

theorem crysRead_good {q x1 x2 x3 s} (h : Good q s) : Good q (crysRead s x1 x2 x3).2 := by
  unfold crysRead
  repeat' first
    | with_reducible first
        | assumption | apply classPieces_good
    | (show Kept _ _ _ _ _ _ _ _; dsimp only)

theorem crysWrite_good {q x1 x2 s} (h : Good q s) : Good q (crysWrite s x1 x2).2 := by
  unfold crysWrite
  repeat' first
    | with_reducible first
        | assumption | apply classStore_good
    | (show Kept _ _ _ _ _ _ _ _; dsimp only)

theorem execCrysJobStart_good {q s} (h : Good q s) : GoodOut q (execCrysJobStart s) := by
  unfold execCrysJobStart
  repeat' first
    | with_reducible first
        | assumption | apply State_setLane_good | apply State_setJob_good | refine Good.of ?_ | refine Good.next ?_
    | split | (show Kept _ _ _ _ _ _ _ _; dsimp only)

theorem cmdCrysFlush_good {q x0 s} (h : Good q s) : Good q (cmdCrysFlush x0 s).st := by
  unfold cmdCrysFlush
  repeat' first
    | with_reducible first
        | assumption | apply refuse_good | apply readPosition_good | apply refuseFull_good | apply ok_good
        | apply State_setJob_good | refine Good.of ?_ | refine Good.next ?_ | refine Good.fst (by assumption) ?_
        | refine Good.snd (by assumption) ?_
    | split | dsimp only | (show Kept _ _ _ _ _ _ _ _; dsimp only)

theorem cmdCrysResume_good {q x0 s} (h : Good q s) : Good q (cmdCrysResume x0 s).st := by
  unfold cmdCrysResume
  repeat' first
    | with_reducible first
        | assumption | apply refuse_good | apply ok_good | apply State_setJob_good | refine Good.of ?_
        | refine Good.next ?_
    | split | (show Kept _ _ _ _ _ _ _ _; dsimp only)

theorem execCrysResume_good {q x0 x1 s} (h : Good q s) : GoodOut q (execCrysResume x0 x1 s) := by
  unfold execCrysResume
  repeat' first
    | with_reducible first
        | assumption | apply command_good | apply cmdCrysResume_good | refine Good.of ?_ | refine Good.next ?_
    | split | (show Kept _ _ _ _ _ _ _ _; dsimp only)

theorem execCrysFlush_good {q x0 x1 s} (h : Good q s) : GoodOut q (execCrysFlush x0 x1 s) := by
  unfold execCrysFlush
  repeat' first
    | with_reducible first
        | assumption | apply command_good | apply cmdCrysFlush_good | refine Good.of ?_ | refine Good.next ?_
    | split | (show Kept _ _ _ _ _ _ _ _; dsimp only)

theorem endRun_good {q s l n j} (h : Good q s) : Good q (endRun s l n j) := by
  unfold endRun
  extract_lets first start
  split
  rename_i st s1 e1
  have h1 : Good q s1 := by
    revert e1
    split
    · intro e; cases e; exact h
    · intro e; exact Good.fst e (crysRead_good h)
  split
  rename_i pieces s2 e2
  have h2 : Good q s2 := Good.fst e2 (crysRead_good h1)
  split
  extract_lets whole inp r stBad
  split
  rename_i d1 s3 e3
  have h3 : Good q s3 := Good.fst e3 (crysWrite_good h2)
  split
  rename_i d2 s4 e4
  have h4 : Good q s4 := by
    revert e4
    split
    · intro e; exact Good.fst e (crysWrite_good h3)
    · intro e; cases e; exact h3
  split
  rename_i d3 s5 e5
  have h5 : Good q s5 := by
    revert e5
    split
    · split
      rename_i b s6 e6
      have h6 : Good q s6 := Good.fst e6 (State_drawBytes_good h4)
      intro e; exact Good.fst e (crysWrite_good h6)
    · intro e; cases e; exact h4
  refine postFw_good (State_setLane_good ?_)
  split <;> split <;> first
    | exact State_setJob_good h5
    | exact h5

theorem execCrysDone_good {q x0 s} (h : Good q s) : GoodOut q (execCrysDone x0 s) := by
  unfold execCrysDone
  repeat' first
    | with_reducible first
        | assumption | apply endRun_good | refine Good.of ?_ | refine Good.next ?_
    | split | (show Kept _ _ _ _ _ _ _ _; dsimp only)

end Sys2Proof.Laws
end

