-- ==== Sys2Proof/Laws/Links.lean ====
section
/-! SUPPORT. What every operation of trim, time, the WELOND link ends and the mirrors keeps (see `Sys2Proof.Laws.Good`): the canonical
form of memory, the command queue, the time, the outputs already given, the programmed keys and the
locked regions. One lemma per operation, cited instead of unfolding it. -/

set_option linter.unusedTactic false
set_option linter.unreachableTactic false

namespace Sys2Proof.Laws

open Sys2Proof Sys2Proof.Machine

/-! ### Trim -/

theorem closeCopy_good {q x1 x2 s} (h : Good q s) : Good q (closeCopy s x1 x2) := by
  unfold closeCopy
  repeat' first
    | with_reducible first
        | assumption | refine Good.of ?_ | refine Good.next ?_ | intro _ | apply Good.foldl
        | refine Good.fst (by assumption) ?_ | refine Good.snd (by assumption) ?_ | refine Good.some ?_
        | exact GoodOpt.none | refine GoodOpt.map ?_ | refine Good.getD ?_ ?_ | refine Good.elim ?_ ?_
        | refine Good.okay ?_ | exact GoodExc.error | apply Good.foldl2 | apply Good.foldl3 | apply Good.foldl1
        | refine Good.left (by assumption) ?_ | refine Good.head (by assumption) ?_
        | refine Good.opt (by assumption) ?_ | refine Good.exc (by assumption) ?_
    | split | dsimp only | (show Kept _ _ _ _ _ _ _ _; dsimp only)

theorem closeDelta_good {q s} (h : Good q s) : Good q (closeDelta s) := by
  unfold closeDelta
  repeat' first
    | with_reducible first
        | assumption | apply faultRunning_good | apply closeCopy_good | apply finishRunning_good | refine Good.of ?_
        | refine Good.next ?_ | intro _ | apply Good.foldl | refine Good.fst (by assumption) ?_
        | refine Good.snd (by assumption) ?_ | refine Good.some ?_ | exact GoodOpt.none | refine GoodOpt.map ?_
        | refine Good.getD ?_ ?_ | refine Good.elim ?_ ?_ | refine Good.okay ?_ | exact GoodExc.error
        | apply Good.foldl2 | apply Good.foldl3 | apply Good.foldl1 | refine Good.left (by assumption) ?_
        | refine Good.head (by assumption) ?_ | refine Good.opt (by assumption) ?_
        | refine Good.exc (by assumption) ?_
    | split | dsimp only | (show Kept _ _ _ _ _ _ _ _; dsimp only)

theorem forceSet_good {q x1 s} (h : Good q s) : Good q (forceSet s x1) := h

theorem putSet_good {q x1 s} (h : Good q s) : Good q (putSet s x1) := by
  unfold putSet
  repeat' first
    | with_reducible first
        | assumption | apply forceSet_good | refine Good.of ?_ | refine Good.next ?_
    | split | (show Kept _ _ _ _ _ _ _ _; dsimp only)

theorem implausible_good {q x0 x1 x2 x3 s} (h : Good q s) : Good q (implausible x0 x1 x2 x3 s) := by
  unfold implausible
  repeat' first
    | with_reducible first
        | assumption | apply raiseClass_good | refine Good.of ?_ | refine Good.next ?_ | intro _ | apply Good.foldl
        | refine Good.fst (by assumption) ?_ | refine Good.snd (by assumption) ?_ | refine Good.some ?_
        | exact GoodOpt.none | refine GoodOpt.map ?_ | refine Good.getD ?_ ?_ | refine Good.elim ?_ ?_
        | refine Good.okay ?_ | exact GoodExc.error | apply Good.foldl2 | apply Good.foldl3 | apply Good.foldl1
        | refine Good.left (by assumption) ?_ | refine Good.head (by assumption) ?_
        | refine Good.opt (by assumption) ?_ | refine Good.exc (by assumption) ?_
    | split | dsimp only | (show Kept _ _ _ _ _ _ _ _; dsimp only)

theorem applyValue_good {q x0 x1 x2 x3 s} (h : Good q s) : Good q (applyValue x0 x1 x2 x3 s) := by
  unfold applyValue
  repeat' first
    | with_reducible first
        | assumption | apply putSet_good | apply implausible_good | refine Good.of ?_ | refine Good.next ?_ | intro _
        | apply Good.foldl | refine Good.fst (by assumption) ?_ | refine Good.snd (by assumption) ?_
        | refine Good.some ?_ | exact GoodOpt.none | refine GoodOpt.map ?_ | refine Good.getD ?_ ?_
        | refine Good.elim ?_ ?_ | refine Good.okay ?_ | exact GoodExc.error | apply Good.foldl2 | apply Good.foldl3
        | apply Good.foldl1 | refine Good.left (by assumption) ?_ | refine Good.head (by assumption) ?_
        | refine Good.opt (by assumption) ?_ | refine Good.exc (by assumption) ?_
    | split | dsimp only | (show Kept _ _ _ _ _ _ _ _; dsimp only)

theorem undoRun_good {q x1 s} (h : Good q s) : Good q (undoRun s x1) := by
  unfold undoRun
  repeat' first
    | with_reducible first
        | assumption | apply faultRunning_good | refine Good.of ?_ | refine Good.next ?_
    | split | (show Kept _ _ _ _ _ _ _ _; dsimp only)

theorem cmdTrimQuery_good {q x0 s} (h : Good q s) : Good q (cmdTrimQuery x0 s).st := by
  unfold cmdTrimQuery
  repeat' first
    | with_reducible first
        | assumption | apply ok_good | apply refuse_good | refine Good.of ?_ | refine Good.next ?_
    | split | (show Kept _ _ _ _ _ _ _ _; dsimp only)

theorem execTrimQuery_good {q x0 x1 s} (h : Good q s) : GoodOut q (execTrimQuery x0 x1 s) := by
  unfold execTrimQuery
  repeat' first
    | with_reducible first
        | assumption | apply command_good | apply cmdTrimQuery_good | refine Good.of ?_ | refine Good.next ?_
    | split | (show Kept _ _ _ _ _ _ _ _; dsimp only)

theorem writeRecordNext_good {q s} (h : Good q s) : Good q (writeRecordNext s) := by
  unfold writeRecordNext
  repeat' first
    | with_reducible first
        | assumption | refine Good.of ?_ | refine Good.next ?_ | intro _ | apply Good.foldl
        | refine Good.fst (by assumption) ?_ | refine Good.snd (by assumption) ?_ | refine Good.some ?_
        | exact GoodOpt.none | refine GoodOpt.map ?_ | refine Good.getD ?_ ?_ | refine Good.elim ?_ ?_
        | refine Good.okay ?_ | exact GoodExc.error | apply Good.foldl2 | apply Good.foldl3 | apply Good.foldl1
        | refine Good.left (by assumption) ?_ | refine Good.head (by assumption) ?_
        | refine Good.opt (by assumption) ?_ | refine Good.exc (by assumption) ?_
    | split | dsimp only | (show Kept _ _ _ _ _ _ _ _; dsimp only)

theorem stepValue_good {q x0 x1 s} (h : Good q s) : Good q (stepValue x0 x1 s).2 := by
  unfold stepValue
  repeat' first
    | with_reducible first
        | assumption | apply State_drawInt_good | refine Good.of ?_ | refine Good.next ?_ | intro _ | apply Good.foldl
        | refine Good.fst (by assumption) ?_ | refine Good.snd (by assumption) ?_ | refine Good.some ?_
        | exact GoodOpt.none | refine GoodOpt.map ?_ | refine Good.getD ?_ ?_ | refine Good.elim ?_ ?_
        | refine Good.okay ?_ | exact GoodExc.error | apply Good.foldl2 | apply Good.foldl3 | apply Good.foldl1
        | refine Good.left (by assumption) ?_ | refine Good.head (by assumption) ?_
        | refine Good.opt (by assumption) ?_ | refine Good.exc (by assumption) ?_
    | split | dsimp only | (show Kept _ _ _ _ _ _ _ _; dsimp only)

theorem takeStep_good {q x1 x2 s} (h : Good q s) : Good q (takeStep s x1 x2) := by
  unfold takeStep
  repeat' first
    | with_reducible first
        | assumption | apply forceSet_good | apply stepValue_good | refine Good.of ?_ | refine Good.next ?_ | intro _
        | apply Good.foldl | refine Good.fst (by assumption) ?_ | refine Good.snd (by assumption) ?_
        | refine Good.some ?_ | exact GoodOpt.none | refine GoodOpt.map ?_ | refine Good.getD ?_ ?_
        | refine Good.elim ?_ ?_ | refine Good.okay ?_ | exact GoodExc.error | apply Good.foldl2 | apply Good.foldl3
        | apply Good.foldl1 | refine Good.left (by assumption) ?_ | refine Good.head (by assumption) ?_
        | refine Good.opt (by assumption) ?_ | refine Good.exc (by assumption) ?_
    | split | dsimp only | (show Kept _ _ _ _ _ _ _ _; dsimp only)

theorem moveSets_good {q s} (h : Good q s) : Good q (moveSets s) := by
  unfold moveSets
  repeat' first
    | with_reducible first
        | assumption | apply releaseDeferred_good | apply takeStep_good | refine Good.of ?_ | refine Good.next ?_
        | intro _ | apply Good.foldl | refine Good.fst (by assumption) ?_ | refine Good.snd (by assumption) ?_
        | refine Good.some ?_ | exact GoodOpt.none | refine GoodOpt.map ?_ | refine Good.getD ?_ ?_
        | refine Good.elim ?_ ?_ | refine Good.okay ?_ | exact GoodExc.error | apply Good.foldl2 | apply Good.foldl3
        | apply Good.foldl1 | refine Good.left (by assumption) ?_ | refine Good.head (by assumption) ?_
        | refine Good.opt (by assumption) ?_ | refine Good.exc (by assumption) ?_
    | split | dsimp only | (show Kept _ _ _ _ _ _ _ _; dsimp only)

theorem trimCycle_good {q s} (h : Good q s) : Good q (trimCycle s) := by
  unfold trimCycle
  repeat' first
    | with_reducible first
        | assumption | apply closeDelta_good | apply writeRecordNext_good | apply moveSets_good | refine Good.of ?_
        | refine Good.next ?_ | intro _ | apply Good.foldl | refine Good.fst (by assumption) ?_
        | refine Good.snd (by assumption) ?_ | refine Good.some ?_ | exact GoodOpt.none | refine GoodOpt.map ?_
        | refine Good.getD ?_ ?_ | refine Good.elim ?_ ?_ | refine Good.okay ?_ | exact GoodExc.error
        | apply Good.foldl2 | apply Good.foldl3 | apply Good.foldl1 | refine Good.left (by assumption) ?_
        | refine Good.head (by assumption) ?_ | refine Good.opt (by assumption) ?_
        | refine Good.exc (by assumption) ?_
    | split | dsimp only | (show Kept _ _ _ _ _ _ _ _; dsimp only)

theorem postTrimDone_good {q s} (h : Good q s) : Good q (postTrimDone s) := by
  unfold postTrimDone
  repeat' first
    | with_reducible first
        | assumption | apply postFw_good
    | (show Kept _ _ _ _ _ _ _ _; dsimp only)

theorem completeRun_good {q x1 x2 s} (h : Good q s) : Good q (completeRun s x1 x2) := by
  unfold completeRun
  repeat' first
    | with_reducible first
        | assumption | apply closeCopy_good | apply postTrimDone_good | apply finishRunning_good | refine Good.of ?_
        | refine Good.next ?_ | intro _ | apply Good.foldl | refine Good.fst (by assumption) ?_
        | refine Good.snd (by assumption) ?_ | refine Good.some ?_ | exact GoodOpt.none | refine GoodOpt.map ?_
        | refine Good.getD ?_ ?_ | refine Good.elim ?_ ?_ | refine Good.okay ?_ | exact GoodExc.error
        | apply Good.foldl2 | apply Good.foldl3 | apply Good.foldl1 | refine Good.left (by assumption) ?_
        | refine Good.head (by assumption) ?_ | refine Good.opt (by assumption) ?_
        | refine Good.exc (by assumption) ?_
    | split | dsimp only | (show Kept _ _ _ _ _ _ _ _; dsimp only)

theorem startRun_good {q x1 x2 x3 s} (h : Good q s) : Good q (startRun s x1 x2 x3) := by
  unfold startRun
  repeat' first
    | with_reducible first
        | assumption | apply raiseClass_good | refine Good.of ?_ | refine Good.next ?_ | intro _ | apply Good.foldl
        | refine Good.fst (by assumption) ?_ | refine Good.snd (by assumption) ?_ | refine Good.some ?_
        | exact GoodOpt.none | refine GoodOpt.map ?_ | refine Good.getD ?_ ?_ | refine Good.elim ?_ ?_
        | refine Good.okay ?_ | exact GoodExc.error | apply Good.foldl2 | apply Good.foldl3 | apply Good.foldl1
        | refine Good.left (by assumption) ?_ | refine Good.head (by assumption) ?_
        | refine Good.opt (by assumption) ?_ | refine Good.exc (by assumption) ?_
    | split | dsimp only | (show Kept _ _ _ _ _ _ _ _; dsimp only)

theorem startRunNow_good {q x1 x2 s} (h : Good q s) : Good q (startRunNow s x1 x2) := by
  unfold startRunNow
  repeat' first
    | with_reducible first
        | assumption | apply State_drawNat_good | apply startRun_good | refine Good.of ?_ | refine Good.next ?_
        | intro _ | apply Good.foldl | refine Good.fst (by assumption) ?_ | refine Good.snd (by assumption) ?_
        | refine Good.some ?_ | exact GoodOpt.none | refine GoodOpt.map ?_ | refine Good.getD ?_ ?_
        | refine Good.elim ?_ ?_ | refine Good.okay ?_ | exact GoodExc.error | apply Good.foldl2 | apply Good.foldl3
        | apply Good.foldl1 | refine Good.left (by assumption) ?_ | refine Good.head (by assumption) ?_
        | refine Good.opt (by assumption) ?_ | refine Good.exc (by assumption) ?_
    | split | dsimp only | (show Kept _ _ _ _ _ _ _ _; dsimp only)

theorem raiseFailed_good {q x0 x1 x2 x3 s} (h : Good q s) : Good q (raiseFailed x0 x1 x2 x3 s) := by
  unfold raiseFailed
  repeat' first
    | with_reducible first
        | assumption | apply raiseClass_good | refine Good.of ?_ | refine Good.next ?_ | intro _ | apply Good.foldl
        | refine Good.fst (by assumption) ?_ | refine Good.snd (by assumption) ?_ | refine Good.some ?_
        | exact GoodOpt.none | refine GoodOpt.map ?_ | refine Good.getD ?_ ?_ | refine Good.elim ?_ ?_
        | refine Good.okay ?_ | exact GoodExc.error | apply Good.foldl2 | apply Good.foldl3 | apply Good.foldl1
        | refine Good.left (by assumption) ?_ | refine Good.head (by assumption) ?_
        | refine Good.opt (by assumption) ?_ | refine Good.exc (by assumption) ?_
    | split | dsimp only | (show Kept _ _ _ _ _ _ _ _; dsimp only)

theorem noteFailed_good {q x1 x2 x3 s} (h : Good q s) : Good q (noteFailed s x1 x2 x3) := by
  unfold noteFailed
  repeat' first
    | with_reducible first
        | assumption | refine Good.of ?_ | refine Good.next ?_ | intro _ | apply Good.foldl
        | refine Good.fst (by assumption) ?_ | refine Good.snd (by assumption) ?_ | refine Good.some ?_
        | exact GoodOpt.none | refine GoodOpt.map ?_ | refine Good.getD ?_ ?_ | refine Good.elim ?_ ?_
        | refine Good.okay ?_ | exact GoodExc.error | apply Good.foldl2 | apply Good.foldl3 | apply Good.foldl1
        | refine Good.left (by assumption) ?_ | refine Good.head (by assumption) ?_
        | refine Good.opt (by assumption) ?_ | refine Good.exc (by assumption) ?_
    | split | dsimp only | (show Kept _ _ _ _ _ _ _ _; dsimp only)

theorem applyElements_good {q x0 x1 x2 x3 s} (h : Good q s) : Good q (applyElements x0 x1 x2 x3 s) := by
  unfold applyElements
  repeat' first
    | with_reducible first
        | assumption | apply noteFailed_good | apply implausible_good | apply State_drawBool_good | apply putSet_good
        | refine Good.of ?_ | refine Good.next ?_ | intro _ | apply Good.foldl | refine Good.fst (by assumption) ?_
        | refine Good.snd (by assumption) ?_ | refine Good.some ?_ | exact GoodOpt.none | refine GoodOpt.map ?_
        | refine Good.getD ?_ ?_ | refine Good.elim ?_ ?_ | refine Good.okay ?_ | exact GoodExc.error
        | apply Good.foldl2 | apply Good.foldl3 | apply Good.foldl1 | refine Good.left (by assumption) ?_
        | refine Good.head (by assumption) ?_ | refine Good.opt (by assumption) ?_
        | refine Good.exc (by assumption) ?_
    | split | dsimp only | (show Kept _ _ _ _ _ _ _ _; dsimp only)

theorem measureEntry_good {q x1 x2 x3 x4 x5 x6 x7 s} (h : Good q s) : Good q (measureEntry s x1 x2 x3 x4 x5 x6 x7) := by
  unfold measureEntry
  repeat' first
    | with_reducible first
        | assumption | apply applyValue_good | apply raiseFailed_good | apply applyElements_good | refine Good.of ?_
        | refine Good.next ?_ | intro _ | apply Good.foldl | refine Good.fst (by assumption) ?_
        | refine Good.snd (by assumption) ?_ | refine Good.some ?_ | exact GoodOpt.none | refine GoodOpt.map ?_
        | refine Good.getD ?_ ?_ | refine Good.elim ?_ ?_ | refine Good.okay ?_ | exact GoodExc.error
        | apply Good.foldl2 | apply Good.foldl3 | apply Good.foldl1 | refine Good.left (by assumption) ?_
        | refine Good.head (by assumption) ?_ | refine Good.opt (by assumption) ?_
        | refine Good.exc (by assumption) ?_
    | split | dsimp only | (show Kept _ _ _ _ _ _ _ _; dsimp only)

theorem execTrimRunComplete_good {q s} (h : Good q s) : GoodOut q (execTrimRunComplete s) := by
  unfold execTrimRunComplete
  repeat' first
    | with_reducible first
        | assumption | apply undoRun_good | apply completeRun_good | refine Good.of ?_ | refine Good.next ?_ | intro _
        | apply Good.foldl | refine Good.fst (by assumption) ?_ | refine Good.snd (by assumption) ?_
        | refine Good.some ?_ | exact GoodOpt.none | refine GoodOpt.map ?_ | refine Good.getD ?_ ?_
        | refine Good.elim ?_ ?_ | refine Good.okay ?_ | exact GoodExc.error | apply Good.foldl2 | apply Good.foldl3
        | apply Good.foldl1 | refine Good.left (by assumption) ?_ | refine Good.head (by assumption) ?_
        | refine Good.opt (by assumption) ?_ | refine Good.exc (by assumption) ?_
    | split | dsimp only | (show Kept _ _ _ _ _ _ _ _; dsimp only)

theorem swapElement_good {q x1 x2 x3 x4 x5 s} (h : Good q s) : Good q (swapElement s x1 x2 x3 x4 x5) := by
  unfold swapElement
  repeat' first
    | with_reducible first
        | assumption | apply stepValue_good | apply putSet_good | refine Good.of ?_ | refine Good.next ?_ | intro _
        | apply Good.foldl | refine Good.fst (by assumption) ?_ | refine Good.snd (by assumption) ?_
        | refine Good.some ?_ | exact GoodOpt.none | refine GoodOpt.map ?_ | refine Good.getD ?_ ?_
        | refine Good.elim ?_ ?_ | refine Good.okay ?_ | exact GoodExc.error | apply Good.foldl2 | apply Good.foldl3
        | apply Good.foldl1 | refine Good.left (by assumption) ?_ | refine Good.head (by assumption) ?_
        | refine Good.opt (by assumption) ?_ | refine Good.exc (by assumption) ?_
    | split | dsimp only | (show Kept _ _ _ _ _ _ _ _; dsimp only)

theorem growSet_good {q x1 x2 x3 x4 s} (h : Good q s) : Good q (growSet s x1 x2 x3 x4) := by
  unfold growSet
  repeat' first
    | with_reducible first
        | assumption | apply takeStep_good | refine Good.of ?_ | refine Good.next ?_ | intro _ | apply Good.foldl
        | refine Good.fst (by assumption) ?_ | refine Good.snd (by assumption) ?_ | refine Good.some ?_
        | exact GoodOpt.none | refine GoodOpt.map ?_ | refine Good.getD ?_ ?_ | refine Good.elim ?_ ?_
        | refine Good.okay ?_ | exact GoodExc.error | apply Good.foldl2 | apply Good.foldl3 | apply Good.foldl1
        | refine Good.left (by assumption) ?_ | refine Good.head (by assumption) ?_
        | refine Good.opt (by assumption) ?_ | refine Good.exc (by assumption) ?_
    | split | dsimp only | (show Kept _ _ _ _ _ _ _ _; dsimp only)

theorem execTrimElementStep_good {q x0 x1 x2 s} (h : Good q s) : GoodOut q (execTrimElementStep x0 x1 x2 s) := by
  unfold execTrimElementStep
  repeat' first
    | with_reducible first
        | assumption | apply measureEntry_good | apply swapElement_good | apply growSet_good | refine Good.of ?_
        | refine Good.next ?_ | intro _ | apply Good.foldl | refine Good.fst (by assumption) ?_
        | refine Good.snd (by assumption) ?_ | refine Good.some ?_ | exact GoodOpt.none | refine GoodOpt.map ?_
        | refine Good.getD ?_ ?_ | refine Good.elim ?_ ?_ | refine Good.okay ?_ | exact GoodExc.error
        | apply Good.foldl2 | apply Good.foldl3 | apply Good.foldl1 | refine Good.left (by assumption) ?_
        | refine Good.head (by assumption) ?_ | refine Good.opt (by assumption) ?_
        | refine Good.exc (by assumption) ?_
    | split | dsimp only | (show Kept _ _ _ _ _ _ _ _; dsimp only)

theorem settleWrite_good {q s} (h : Good q s) : Good q (settleWrite s) := by
  unfold settleWrite
  repeat' first
    | with_reducible first
        | assumption | apply closeDelta_good | apply writeRecordNext_good | refine Good.of ?_ | refine Good.next ?_
        | intro _ | apply Good.foldl | refine Good.fst (by assumption) ?_ | refine Good.snd (by assumption) ?_
        | refine Good.some ?_ | exact GoodOpt.none | refine GoodOpt.map ?_ | refine Good.getD ?_ ?_
        | refine Good.elim ?_ ?_ | refine Good.okay ?_ | exact GoodExc.error | apply Good.foldl2 | apply Good.foldl3
        | apply Good.foldl1 | refine Good.left (by assumption) ?_ | refine Good.head (by assumption) ?_
        | refine Good.opt (by assumption) ?_ | refine Good.exc (by assumption) ?_
    | split | dsimp only | (show Kept _ _ _ _ _ _ _ _; dsimp only)

theorem writeDelta_good {q x1 x2 s} (h : Good q s) : Good q (writeDelta s x1 x2) := by
  unfold writeDelta
  repeat' first
    | with_reducible first
        | assumption | refine Good.of ?_ | refine Good.next ?_ | intro _ | apply Good.foldl
        | refine Good.fst (by assumption) ?_ | refine Good.snd (by assumption) ?_ | refine Good.some ?_
        | exact GoodOpt.none | refine GoodOpt.map ?_ | refine Good.getD ?_ ?_ | refine Good.elim ?_ ?_
        | refine Good.okay ?_ | exact GoodExc.error | apply Good.foldl2 | apply Good.foldl3 | apply Good.foldl1
        | refine Good.left (by assumption) ?_ | refine Good.head (by assumption) ?_
        | refine Good.opt (by assumption) ?_ | refine Good.exc (by assumption) ?_
    | split | dsimp only | (show Kept _ _ _ _ _ _ _ _; dsimp only)

theorem cmdTrimRun_good {q x0 x1 s} (h : Good q s) : Good q (cmdTrimRun x0 x1 s).st := by
  unfold cmdTrimRun
  repeat' first
    | with_reducible first
        | assumption | apply refuse_good | apply settleWrite_good | apply startRunNow_good | apply writeDelta_good
        | refine Good.of ?_ | refine Good.next ?_ | intro _ | apply Good.foldl | refine Good.fst (by assumption) ?_
        | refine Good.snd (by assumption) ?_ | refine Good.some ?_ | exact GoodOpt.none | refine GoodOpt.map ?_
        | refine Good.getD ?_ ?_ | refine Good.elim ?_ ?_ | refine Good.okay ?_ | exact GoodExc.error
        | apply Good.foldl2 | apply Good.foldl3 | apply Good.foldl1 | refine Good.left (by assumption) ?_
        | refine Good.head (by assumption) ?_ | refine Good.opt (by assumption) ?_
        | refine Good.exc (by assumption) ?_
    | split | dsimp only | (show Kept _ _ _ _ _ _ _ _; dsimp only)

theorem execTrimRun_good {q x0 x1 s} (h : Good q s) : GoodOut q (execTrimRun x0 x1 s) := by
  unfold execTrimRun
  repeat' first
    | with_reducible first
        | assumption | apply command_good | apply cmdTrimRun_good | refine Good.of ?_ | refine Good.next ?_
    | split | (show Kept _ _ _ _ _ _ _ _; dsimp only)

theorem raiseCopyBad_good {q x1 x2 s} (h : Good q s) : Good q (raiseCopyBad s x1 x2) := by
  unfold raiseCopyBad
  repeat' first
    | with_reducible first
        | assumption | apply raiseClass_good | apply State_drawNat_good | refine Good.of ?_ | refine Good.next ?_
    | split | (show Kept _ _ _ _ _ _ _ _; dsimp only)

theorem loadNvm_good {q s} (h : Good q s) : Good q (loadNvm s) := by
  unfold loadNvm
  repeat' first
    | with_reducible first
        | assumption | apply State_drawNat_good | apply raiseCopyBad_good | apply raiseClass_good | refine Good.of ?_
        | refine Good.next ?_ | intro _ | apply Good.foldl | refine Good.fst (by assumption) ?_
        | refine Good.snd (by assumption) ?_ | refine Good.some ?_ | exact GoodOpt.none | refine GoodOpt.map ?_
        | refine Good.getD ?_ ?_ | refine Good.elim ?_ ?_ | refine Good.okay ?_ | exact GoodExc.error
        | apply Good.foldl2 | apply Good.foldl3 | apply Good.foldl1 | refine Good.left (by assumption) ?_
        | refine Good.head (by assumption) ?_ | refine Good.opt (by assumption) ?_
        | refine Good.exc (by assumption) ?_
    | split | dsimp only | (show Kept _ _ _ _ _ _ _ _; dsimp only)

theorem execTemperatureSample_good {q x0 s} (h : Good q s) : GoodOut q (execTemperatureSample x0 s) := by
  unfold execTemperatureSample
  repeat' first
    | with_reducible first
        | assumption | apply startRunNow_good | refine Good.of ?_ | refine Good.next ?_ | intro _ | apply Good.foldl
        | refine Good.fst (by assumption) ?_ | refine Good.snd (by assumption) ?_ | refine Good.some ?_
        | exact GoodOpt.none | refine GoodOpt.map ?_ | refine Good.getD ?_ ?_ | refine Good.elim ?_ ?_
        | refine Good.okay ?_ | exact GoodExc.error | apply Good.foldl2 | apply Good.foldl3 | apply Good.foldl1
        | refine Good.left (by assumption) ?_ | refine Good.head (by assumption) ?_
        | refine Good.opt (by assumption) ?_ | refine Good.exc (by assumption) ?_
    | split | dsimp only | (show Kept _ _ _ _ _ _ _ _; dsimp only)

/-! ### Time -/

theorem putPulse_good {q x1 x2 x3 s} (h : Good q s) : Good q (putPulse s x1 x2 x3) := by
  unfold putPulse
  repeat' first
    | with_reducible first
        | assumption | apply State_setPulse_good | apply State_emit_good | refine Good.of ?_ | refine Good.next ?_
    | split | (show Kept _ _ _ _ _ _ _ _; dsimp only)

theorem stepPulses_good {q x1 s} (h : Good q s) : Good q (stepPulses s x1) := by
  unfold stepPulses
  repeat' first
    | with_reducible first
        | assumption | apply putPulse_good | refine Good.of ?_ | refine Good.next ?_ | intro _ | apply Good.foldl
    | split | dsimp only | (show Kept _ _ _ _ _ _ _ _; dsimp only)

theorem setWord_good {q x1 s} (h : Good q s) : Good q (setWord s x1) := by
  unfold setWord
  repeat' first
    | with_reducible first
        | assumption | refine Good.of ?_ | refine Good.next ?_
    | split | (show Kept _ _ _ _ _ _ _ _; dsimp only)

theorem targetWord_good {q x1 s} (h : Good q s) : Good q (targetWord s x1) := by
  unfold targetWord
  repeat' first
    | with_reducible first
        | assumption | apply setWord_good | refine Good.of ?_ | refine Good.next ?_
    | split | (show Kept _ _ _ _ _ _ _ _; dsimp only)

theorem requestWord_good {q x1 s} (h : Good q s) : Good q (requestWord s x1) := by
  unfold requestWord
  repeat' first
    | with_reducible first
        | assumption | apply targetWord_good | apply raiseErr_good | refine Good.of ?_ | refine Good.next ?_
    | split | (show Kept _ _ _ _ _ _ _ _; dsimp only)

theorem decidePtp_good {q s} (h : Good q s) : Good q (decidePtp s) := h

theorem State_setPtp_good {q x1 x2 s} (h : Good q s) : Good q (State.setPtp s x1 x2) := h

theorem hearAnnounce_good {q x1 x2 x3 s} (h : Good q s) : Good q (hearAnnounce s x1 x2 x3) := h

theorem cmdTimeQuery_good {q s} (h : Good q s) : Good q (cmdTimeQuery s).st := h

theorem cmdPulseSet_good {q x0 s} (h : Good q s) : Good q (cmdPulseSet x0 s).st := by
  unfold cmdPulseSet
  repeat' first
    | with_reducible first
        | assumption | apply ok_good | apply putPulse_good | apply refuse_good | apply State_setCapture_good
        | refine Good.of ?_ | refine Good.next ?_
    | split | (show Kept _ _ _ _ _ _ _ _; dsimp only)

theorem execPulseSet_good {q x0 x1 s} (h : Good q s) : GoodOut q (execPulseSet x0 x1 s) := by
  unfold execPulseSet
  repeat' first
    | with_reducible first
        | assumption | apply command_good | apply cmdPulseSet_good | refine Good.of ?_ | refine Good.next ?_
    | split | (show Kept _ _ _ _ _ _ _ _; dsimp only)

theorem phaseStep_good {q x1 s} (h : Good q s) : Good q (phaseStep s x1) := by
  unfold phaseStep
  repeat' first
    | with_reducible first
        | assumption | apply stepPulses_good | refine Good.of ?_ | refine Good.next ?_
    | split | (show Kept _ _ _ _ _ _ _ _; dsimp only)

theorem slewBy_good {q x1 s} (h : Good q s) : Good q (slewBy s x1) := by
  unfold slewBy
  repeat' first
    | with_reducible first
        | assumption | apply requestWord_good | refine Good.of ?_ | refine Good.next ?_ | intro _ | apply Good.foldl
        | refine Good.fst (by assumption) ?_ | refine Good.snd (by assumption) ?_ | refine Good.some ?_
        | exact GoodOpt.none | refine GoodOpt.map ?_ | refine Good.getD ?_ ?_ | refine Good.elim ?_ ?_
        | refine Good.okay ?_ | exact GoodExc.error | apply Good.foldl2 | apply Good.foldl3 | apply Good.foldl1
        | refine Good.left (by assumption) ?_ | refine Good.head (by assumption) ?_
        | refine Good.opt (by assumption) ?_ | refine Good.exc (by assumption) ?_
    | split | dsimp only | (show Kept _ _ _ _ _ _ _ _; dsimp only)

theorem setServo_good {q x1 s} (h : Good q s) : Good q (setServo s x1) := by
  unfold setServo
  repeat' first
    | with_reducible first
        | assumption | apply postFw_good | refine Good.of ?_ | refine Good.next ?_
    | split | (show Kept _ _ _ _ _ _ _ _; dsimp only)

theorem acquire_good {q x1 x2 s} (h : Good q s) : Good q (acquire s x1 x2) := by
  unfold acquire
  repeat' first
    | with_reducible first
        | assumption | apply phaseStep_good | apply slewBy_good | apply setServo_good | refine Good.of ?_
        | refine Good.next ?_ | intro _ | apply Good.foldl | refine Good.fst (by assumption) ?_
        | refine Good.snd (by assumption) ?_ | refine Good.some ?_ | exact GoodOpt.none | refine GoodOpt.map ?_
        | refine Good.getD ?_ ?_ | refine Good.elim ?_ ?_ | refine Good.okay ?_ | exact GoodExc.error
        | apply Good.foldl2 | apply Good.foldl3 | apply Good.foldl1 | refine Good.left (by assumption) ?_
        | refine Good.head (by assumption) ?_ | refine Good.opt (by assumption) ?_
        | refine Good.exc (by assumption) ?_
    | split | dsimp only | (show Kept _ _ _ _ _ _ _ _; dsimp only)

theorem holdLock_good {q x1 x2 s} (h : Good q s) : Good q (holdLock s x1 x2) := by
  unfold holdLock
  repeat' first
    | with_reducible first
        | assumption | apply acquire_good | apply setServo_good | apply slewBy_good | refine Good.of ?_
        | refine Good.next ?_ | intro _ | apply Good.foldl | refine Good.fst (by assumption) ?_
        | refine Good.snd (by assumption) ?_ | refine Good.some ?_ | exact GoodOpt.none | refine GoodOpt.map ?_
        | refine Good.getD ?_ ?_ | refine Good.elim ?_ ?_ | refine Good.okay ?_ | exact GoodExc.error
        | apply Good.foldl2 | apply Good.foldl3 | apply Good.foldl1 | refine Good.left (by assumption) ?_
        | refine Good.head (by assumption) ?_ | refine Good.opt (by assumption) ?_
        | refine Good.exc (by assumption) ?_
    | split | dsimp only | (show Kept _ _ _ _ _ _ _ _; dsimp only)

theorem measure_good {q x1 x2 s} (h : Good q s) : Good q (Machine.measure s x1 x2) := by
  unfold Machine.measure
  repeat' first
    | with_reducible first
        | assumption | apply holdLock_good | apply acquire_good | apply setServo_good | refine Good.of ?_
        | refine Good.next ?_ | intro _ | apply Good.foldl | refine Good.fst (by assumption) ?_
        | refine Good.snd (by assumption) ?_ | refine Good.some ?_ | exact GoodOpt.none | refine GoodOpt.map ?_
        | refine Good.getD ?_ ?_ | refine Good.elim ?_ ?_ | refine Good.okay ?_ | exact GoodExc.error
        | apply Good.foldl2 | apply Good.foldl3 | apply Good.foldl1 | refine Good.left (by assumption) ?_
        | refine Good.head (by assumption) ?_ | refine Good.opt (by assumption) ?_
        | refine Good.exc (by assumption) ?_
    | split | dsimp only | (show Kept _ _ _ _ _ _ _ _; dsimp only)

theorem execEvtInEdge_good {q x0 x1 s} (h : Good q s) : GoodOut q (execEvtInEdge x0 x1 s) := by
  unfold execEvtInEdge
  repeat' first
    | with_reducible first
        | assumption | apply State_setCapture_good | refine Good.of ?_ | refine Good.next ?_
    | split | dsimp only | (show Kept _ _ _ _ _ _ _ _; dsimp only)

theorem ptpFrame_good {q x1 x2 s} (h : Good q s) : Good q (ptpFrame s x1 x2).2 := by
  unfold ptpFrame
  repeat' first
    | with_reducible first
        | assumption | apply State_drawNat_good | apply udpPacket_good | refine Good.of ?_ | refine Good.next ?_
        | intro _ | apply Good.foldl | refine Good.fst (by assumption) ?_ | refine Good.snd (by assumption) ?_
        | refine Good.some ?_ | exact GoodOpt.none | refine GoodOpt.map ?_ | refine Good.getD ?_ ?_
        | refine Good.elim ?_ ?_ | refine Good.okay ?_ | exact GoodExc.error | apply Good.foldl2 | apply Good.foldl3
        | apply Good.foldl1 | refine Good.left (by assumption) ?_ | refine Good.head (by assumption) ?_
        | refine Good.opt (by assumption) ?_ | refine Good.exc (by assumption) ?_
    | split | dsimp only | (show Kept _ _ _ _ _ _ _ _; dsimp only)

theorem sendPtp_good {q x1 x2 x3 x4 s} (h : Good q s) : Good q (sendPtp s x1 x2 x3 x4) := by
  unfold sendPtp
  repeat' first
    | with_reducible first
        | assumption | apply ptpFrame_good | apply State_emit_good | refine Good.of ?_ | refine Good.next ?_ | intro _
        | apply Good.foldl | refine Good.fst (by assumption) ?_ | refine Good.snd (by assumption) ?_
        | refine Good.some ?_ | exact GoodOpt.none | refine GoodOpt.map ?_ | refine Good.getD ?_ ?_
        | refine Good.elim ?_ ?_ | refine Good.okay ?_ | exact GoodExc.error | apply Good.foldl2 | apply Good.foldl3
        | apply Good.foldl1 | refine Good.left (by assumption) ?_ | refine Good.head (by assumption) ?_
        | refine Good.opt (by assumption) ?_ | refine Good.exc (by assumption) ?_
    | split | dsimp only | (show Kept _ _ _ _ _ _ _ _; dsimp only)

theorem ptpExchange_good {q x1 x2 x3 x4 x5 x6 s} (h : Good q s) : Good q (ptpExchange s x1 x2 x3 x4 x5 x6) := by
  unfold ptpExchange
  repeat' first
    | with_reducible first
        | assumption | apply State_setPtp_good | apply measure_good | refine Good.of ?_ | refine Good.next ?_
    | split | (show Kept _ _ _ _ _ _ _ _; dsimp only)

theorem ptpMessage_good {q x1 x2 x3 x4 s} (h : Good q s) : Good q (ptpMessage s x1 x2 x3 x4) := by
  unfold ptpMessage
  repeat' first
    | with_reducible first
        | assumption | apply hearAnnounce_good | apply State_setPtp_good | apply sendPtp_good | apply ptpExchange_good
        | refine Good.of ?_ | refine Good.next ?_
    | split | (show Kept _ _ _ _ _ _ _ _; dsimp only)

theorem execPtpSyncTransmit_good {q x0 s} (h : Good q s) : GoodOut q (execPtpSyncTransmit x0 s) := by
  unfold execPtpSyncTransmit
  repeat' first
    | with_reducible first
        | assumption | apply sendPtp_good | apply State_setPtp_good | refine Good.of ?_ | refine Good.next ?_
    | split | dsimp only | (show Kept _ _ _ _ _ _ _ _; dsimp only)

theorem cmdTideSet_good {q x0 s} (h : Good q s) : Good q (cmdTideSet x0 s).st := by
  unfold cmdTideSet
  repeat' first
    | with_reducible first
        | assumption | apply refuse_good | apply ok_good | refine Good.of ?_ | refine Good.next ?_
    | split | (show Kept _ _ _ _ _ _ _ _; dsimp only)

theorem execTideSet_good {q x0 x1 s} (h : Good q s) : GoodOut q (execTideSet x0 x1 s) := by
  unfold execTideSet
  repeat' first
    | with_reducible first
        | assumption | apply command_good | apply cmdTideSet_good | refine Good.of ?_ | refine Good.next ?_
    | split | (show Kept _ _ _ _ _ _ _ _; dsimp only)

theorem slewWord_good {q s} (h : Good q s) : Good q (slewWord s) := by
  unfold slewWord
  repeat' first
    | with_reducible first
        | assumption | apply setWord_good
    | (show Kept _ _ _ _ _ _ _ _; dsimp only)

theorem execTimeQuery_good {q x0 s} (h : Good q s) : GoodOut q (execTimeQuery x0 s) := by
  unfold execTimeQuery
  repeat' first
    | with_reducible first
        | assumption | apply command_good | apply cmdTimeQuery_good | refine Good.of ?_ | refine Good.next ?_
    | split | (show Kept _ _ _ _ _ _ _ _; dsimp only)

theorem execPtpDelayReqTransmit_good {q x0 s} (h : Good q s) : GoodOut q (execPtpDelayReqTransmit x0 s) := by
  unfold execPtpDelayReqTransmit
  repeat' first
    | with_reducible first
        | assumption | apply sendPtp_good | apply State_setPtp_good | refine Good.of ?_ | refine Good.next ?_
    | split | dsimp only | (show Kept _ _ _ _ _ _ _ _; dsimp only)

theorem drainCapture_good {q x1 s} (h : Good q s) : Good q (drainCapture s x1) := by
  unfold drainCapture
  repeat' first
    | with_reducible first
        | assumption | apply postHw_good | apply State_setCapture_good | refine Good.of ?_ | refine Good.next ?_
    | split | (show Kept _ _ _ _ _ _ _ _; dsimp only)

theorem pulseEdge_good {q x1 x2 x3 s} (h : Good q s) : Good q (pulseEdge s x1 x2 x3) := by
  unfold pulseEdge
  repeat' first
    | with_reducible first
        | assumption | apply putPulse_good | apply postFw_good | refine Good.of ?_ | refine Good.next ?_
    | split | (show Kept _ _ _ _ _ _ _ _; dsimp only)

theorem execPulseEdge_good {q x0 s} (h : Good q s) : GoodOut q (execPulseEdge x0 s) := by
  unfold execPulseEdge
  repeat' first
    | with_reducible first
        | assumption | apply pulseEdge_good | refine Good.of ?_ | refine Good.next ?_
    | split | (show Kept _ _ _ _ _ _ _ _; dsimp only)

theorem execPpsEdge_good {q x0 x1 s} (h : Good q s) : GoodOut q (execPpsEdge x0 x1 s) := by
  unfold execPpsEdge
  repeat' first
    | with_reducible first
        | assumption | apply measure_good | refine Good.of ?_ | refine Good.next ?_ | intro _ | apply Good.foldl
        | refine Good.fst (by assumption) ?_ | refine Good.snd (by assumption) ?_ | refine Good.some ?_
        | exact GoodOpt.none | refine GoodOpt.map ?_ | refine Good.getD ?_ ?_ | refine Good.elim ?_ ?_
        | refine Good.okay ?_ | exact GoodExc.error | apply Good.foldl2 | apply Good.foldl3 | apply Good.foldl1
        | refine Good.left (by assumption) ?_ | refine Good.head (by assumption) ?_
        | refine Good.opt (by assumption) ?_ | refine Good.exc (by assumption) ?_
    | split | dsimp only | (show Kept _ _ _ _ _ _ _ _; dsimp only)

theorem pruneWords_good {q s} (h : Good q s) : Good q (pruneWords s) := h

theorem restartPtp_good {q x1 s} (h : Good q s) : Good q (restartPtp s x1) := h

theorem cmdTimeSetProfile_good {q x0 s} (h : Good q s) : Good q (cmdTimeSetProfile x0 s).st := by
  unfold cmdTimeSetProfile
  repeat' first
    | with_reducible first
        | assumption | apply restartPtp_good | apply ok_good | apply setServo_good | apply requestWord_good
        | apply refuse_good | refine Good.of ?_ | refine Good.next ?_
    | split | (show Kept _ _ _ _ _ _ _ _; dsimp only)

theorem execTimeSetProfile_good {q x0 x1 s} (h : Good q s) : GoodOut q (execTimeSetProfile x0 x1 s) := by
  unfold execTimeSetProfile
  repeat' first
    | with_reducible first
        | assumption | apply command_good | apply cmdTimeSetProfile_good | refine Good.of ?_ | refine Good.next ?_
    | split | (show Kept _ _ _ _ _ _ _ _; dsimp only)

/-- Time passes: one PAN cycle on the main die's clock. -/
theorem State_pass_good {q s} (h : Good q s) : Good { q with now := q.now + panT } s.pass :=
  ⟨h.queue, h.cells, h.locked, h.keys, h.out, congrArg (· + panT) h.now⟩

/-- A PAN cycle on an empty queue lets its time pass. -/
theorem idleCycle_good {q s} (h : Good q s) : Good { q with now := q.now + panT } (idleCycle s) := by
  unfold idleCycle
  have k := Good.foldl (f := pumpLine) (l := List.range 2) (fun _ _ h => pumpLine_good h) h
  have k := finishFences_good (State_pass_good (powerCycle_good (drainCapture_good (x1 := 1) (drainCapture_good (x1 := 0) k))))
  exact Good.foldl (fun _ _ h => pump_good h)
    (prepareDecode_good (Good.foldl (fun _ _ h => startDetector_good h) (trimCycle_good k)))

theorem execPtpReceive_good {q x0 x1 x2 s} (h : Good q s) : GoodOut q (execPtpReceive x0 x1 x2 s) := by
  unfold execPtpReceive
  repeat' first
    | with_reducible first
        | assumption | apply State_setPort_good | apply ptpMessage_good | refine Good.of ?_ | refine Good.next ?_
    | split | dsimp only | (show Kept _ _ _ _ _ _ _ _; dsimp only)

theorem execPtpAnnounceTransmit_good {q x0 s} (h : Good q s) : GoodOut q (execPtpAnnounceTransmit x0 s) := by
  unfold execPtpAnnounceTransmit
  repeat' first
    | with_reducible first
        | assumption | apply decidePtp_good | apply sendPtp_good | apply State_setPtp_good | refine Good.of ?_
        | refine Good.next ?_
    | split | dsimp only | (show Kept _ _ _ _ _ _ _ _; dsimp only)

theorem execSourceLost_good {q s} (h : Good q s) : GoodOut q (execSourceLost s) := by
  unfold execSourceLost
  repeat' first
    | with_reducible first
        | assumption | apply setServo_good | apply targetWord_good | refine Good.of ?_ | refine Good.next ?_
    | split | (show Kept _ _ _ _ _ _ _ _; dsimp only)

theorem execTenMhzGate_good {q x0 x1 s} (h : Good q s) : GoodOut q (execTenMhzGate x0 x1 s) := by
  unfold execTenMhzGate
  repeat' first
    | with_reducible first
        | assumption | apply measure_good | apply requestWord_good | refine Good.of ?_ | refine Good.next ?_
    | split | dsimp only | (show Kept _ _ _ _ _ _ _ _; dsimp only)

/-! ### Welond -/

theorem badBlock_good {q x1 s} (h : Good q s) : Good q (badBlock s x1) := h

theorem heard_good {q x1 s} (h : Good q s) : Good q (heard s x1) := h

theorem takeFence_good {q x1 x2 s} (h : Good q s) : Good q (takeFence s x1 x2) := by
  unfold takeFence
  repeat' first
    | with_reducible first
        | assumption | apply heard_good | apply sendFence_good | apply softFenceTime_good | apply postOrigins_good
        | apply setFences_good | refine Good.of ?_ | refine Good.next ?_
    | split | (show Kept _ _ _ _ _ _ _ _; dsimp only)

theorem dropPeerFrames_good {q x1 s} (h : Good q s) : Good q (dropPeerFrames s x1) := by
  unfold dropPeerFrames
  repeat' first
    | with_reducible first
        | assumption | apply dropBuf_good | apply State_setCtx_good | refine Good.of ?_ | refine Good.next ?_
        | intro _ | apply Good.foldl
    | split | dsimp only | (show Kept _ _ _ _ _ _ _ _; dsimp only)

theorem unlockLanes_good {q x1 s} (h : Good q s) : Good q (unlockLanes s x1) := by
  unfold unlockLanes
  repeat' first
    | with_reducible first
        | assumption | apply dropLane_good | refine Good.of ?_ | refine Good.next ?_ | intro _ | apply Good.foldl
    | split | dsimp only | (show Kept _ _ _ _ _ _ _ _; dsimp only)

theorem requestPeers_good {q s} (h : Good q s) : Good q (requestPeers s) := by
  unfold requestPeers
  repeat' first
    | with_reducible first
        | assumption | apply requestMirror_good | refine Good.of ?_ | refine Good.next ?_ | intro _ | apply Good.foldl
    | split | dsimp only | (show Kept _ _ _ _ _ _ _ _; dsimp only)

theorem stopWel_good {q x1 x2 s} (h : Good q s) : Good q (stopWel s x1 x2) := by
  unfold stopWel
  repeat' first
    | with_reducible first
        | assumption | apply dropPeerFrames_good | apply unlockLanes_good | apply State_setWel_good
        | apply requestPeers_good | refine Good.of ?_ | refine Good.next ?_
    | split | (show Kept _ _ _ _ _ _ _ _; dsimp only)

theorem enterAbsent_good {q x1 x2 s} (h : Good q s) : Good q (enterAbsent s x1 x2) := by
  unfold enterAbsent
  repeat' first
    | with_reducible first
        | assumption | apply stopWel_good | apply State_setWel_good
    | (show Kept _ _ _ _ _ _ _ _; dsimp only)

theorem startAttempt_good {q x1 s} (h : Good q s) : Good q (startAttempt s x1) := by
  unfold startAttempt
  repeat' first
    | with_reducible first
        | assumption | apply enterAbsent_good | apply stopWel_good | apply State_setWel_good | refine Good.of ?_
        | refine Good.next ?_
    | split | (show Kept _ _ _ _ _ _ _ _; dsimp only)

theorem leaveActive_good {q x1 s} (h : Good q s) : Good q (leaveActive s x1) := by
  unfold leaveActive
  repeat' first
    | with_reducible first
        | assumption | apply startAttempt_good | apply State_setWel_good
    | (show Kept _ _ _ _ _ _ _ _; dsimp only)

theorem postChange_good {q x1 s} (h : Good q s) : Good q (postChange s x1) := by
  unfold postChange
  repeat' first
    | with_reducible first
        | assumption | apply postFw_good
    | (show Kept _ _ _ _ _ _ _ _; dsimp only)

theorem countChange_good {q x1 x2 s} (h : Good q s) : Good q (countChange s x1 x2) := by
  unfold countChange
  repeat' first
    | with_reducible first
        | assumption | apply State_setWel_good | apply postChange_good | apply admitMirrors_good | refine Good.of ?_
        | refine Good.next ?_
    | split | (show Kept _ _ _ _ _ _ _ _; dsimp only)

theorem takeWidth_good {q x1 x2 s} (h : Good q s) : Good q (takeWidth s x1 x2) := by
  unfold takeWidth
  repeat' first
    | with_reducible first
        | assumption | apply pumpLine_good | apply State_setWel_good | apply leaveActive_good | apply sendAlign_good
        | apply countChange_good | refine Good.of ?_ | refine Good.next ?_ | intro _ | apply Good.foldl
        | refine Good.fst (by assumption) ?_ | refine Good.snd (by assumption) ?_ | refine Good.some ?_
        | exact GoodOpt.none | refine GoodOpt.map ?_ | refine Good.getD ?_ ?_ | refine Good.elim ?_ ?_
        | refine Good.okay ?_ | exact GoodExc.error | apply Good.foldl2 | apply Good.foldl3 | apply Good.foldl1
        | refine Good.left (by assumption) ?_ | refine Good.head (by assumption) ?_
        | refine Good.opt (by assumption) ?_ | refine Good.exc (by assumption) ?_
    | split | dsimp only | (show Kept _ _ _ _ _ _ _ _; dsimp only)

theorem takeBlock_good {q x1 x2 s} (h : Good q s) : Good q (takeBlock s x1 x2) := by
  unfold takeBlock
  repeat' first
    | with_reducible first
        | assumption | apply badBlock_good | apply heard_good | apply takeFence_good | apply takeWidth_good
        | refine Good.of ?_ | refine Good.next ?_
    | split | (show Kept _ _ _ _ _ _ _ _; dsimp only)

theorem packetIn_good {q x1 x2 x3 s} (h : Good q s) : Good q (packetIn s x1 x2 x3).2 := by
  unfold packetIn
  repeat' first
    | with_reducible first
        | assumption | apply takeBlock_good | apply countBadPacket_good | refine Good.of ?_ | refine Good.next ?_
        | intro _ | apply Good.foldl | refine Good.fst (by assumption) ?_ | refine Good.snd (by assumption) ?_
        | refine Good.some ?_ | exact GoodOpt.none | refine GoodOpt.map ?_ | refine Good.getD ?_ ?_
        | refine Good.elim ?_ ?_ | refine Good.okay ?_ | exact GoodExc.error | apply Good.foldl2 | apply Good.foldl3
        | apply Good.foldl1 | refine Good.left (by assumption) ?_ | refine Good.head (by assumption) ?_
        | refine Good.opt (by assumption) ?_ | refine Good.exc (by assumption) ?_
    | split | dsimp only | (show Kept _ _ _ _ _ _ _ _; dsimp only)

theorem checkCounts_good {q x1 x2 x3 s} (h : Good q s) : Good q (checkCounts s x1 x2 x3) := by
  unfold checkCounts
  repeat' first
    | with_reducible first
        | assumption | apply raiseErr_good | refine Good.of ?_ | refine Good.next ?_
    | split | (show Kept _ _ _ _ _ _ _ _; dsimp only)

theorem enterActive_good {q x1 x2 s} (h : Good q s) : Good q (enterActive s x1 x2) := by
  unfold enterActive
  repeat' first
    | with_reducible first
        | assumption | apply State_setWel_good | apply leaveActive_good | apply requestPeers_good
        | apply admitMirrors_good | apply checkCounts_good | refine Good.of ?_ | refine Good.next ?_
    | split | (show Kept _ _ _ _ _ _ _ _; dsimp only)

theorem takeCapability_good {q x1 x2 s} (h : Good q s) : Good q (takeCapability s x1 x2) := by
  unfold takeCapability
  repeat' first
    | with_reducible first
        | assumption | apply State_setWel_good | apply enterActive_good | refine Good.of ?_ | refine Good.next ?_
    | split | (show Kept _ _ _ _ _ _ _ _; dsimp only)

theorem execCapabilityReceive_good {q x0 x1 s} (h : Good q s) : GoodOut q (execCapabilityReceive x0 x1 s) := by
  unfold execCapabilityReceive
  repeat' first
    | with_reducible first
        | assumption | apply packetIn_good | apply takeCapability_good | refine Good.of ?_ | refine Good.next ?_
        | intro _ | apply Good.foldl | refine Good.fst (by assumption) ?_ | refine Good.snd (by assumption) ?_
        | refine Good.some ?_ | exact GoodOpt.none | refine GoodOpt.map ?_ | refine Good.getD ?_ ?_
        | refine Good.elim ?_ ?_ | refine Good.okay ?_ | exact GoodExc.error | apply Good.foldl2 | apply Good.foldl3
        | apply Good.foldl1 | refine Good.left (by assumption) ?_ | refine Good.head (by assumption) ?_
        | refine Good.opt (by assumption) ?_ | refine Good.exc (by assumption) ?_
    | split | dsimp only | (show Kept _ _ _ _ _ _ _ _; dsimp only)

theorem mergeRow_good {q x1 s} (h : Good q s) : GoodOpt q (mergeRow s x1) := by
  unfold mergeRow
  repeat' first
    | with_reducible first
        | assumption | apply takeBlock_good | apply popBlock_good | refine Good.of ?_ | refine Good.next ?_ | intro _
        | apply Good.foldl | refine Good.fst (by assumption) ?_ | refine Good.snd (by assumption) ?_
        | refine Good.some ?_ | exact GoodOpt.none | refine GoodOpt.map ?_ | refine Good.getD ?_ ?_
        | refine Good.elim ?_ ?_ | refine Good.okay ?_ | exact GoodExc.error | apply Good.foldl2 | apply Good.foldl3
        | apply Good.foldl1 | refine Good.left (by assumption) ?_ | refine Good.head (by assumption) ?_
        | refine Good.opt (by assumption) ?_ | refine Good.exc (by assumption) ?_
    | split | dsimp only | (show Kept _ _ _ _ _ _ _ _; dsimp only)

theorem mergeRows_good {q x0 x2 s} (h : Good q s) : Good q (mergeRows x0 s x2) := by
  induction x0 generalizing s with
  | zero => exact h
  | succ n ih =>
    unfold mergeRows
    split
    · rename_i e
      exact ih (Good.opt e (mergeRow_good h))
    · exact h

theorem takeBlocks_good {q x1 x2 x3 s} (h : Good q s) : Good q (takeBlocks s x1 x2 x3) := by
  unfold takeBlocks
  repeat' first
    | with_reducible first
        | assumption | apply takeBlock_good | apply holdBlocks_good | apply mergeRows_good | refine Good.of ?_
        | refine Good.next ?_ | intro _ | apply Good.foldl | refine Good.fst (by assumption) ?_
        | refine Good.snd (by assumption) ?_ | refine Good.some ?_ | exact GoodOpt.none | refine GoodOpt.map ?_
        | refine Good.getD ?_ ?_ | refine Good.elim ?_ ?_ | refine Good.okay ?_ | exact GoodExc.error
        | apply Good.foldl2 | apply Good.foldl3 | apply Good.foldl1 | refine Good.left (by assumption) ?_
        | refine Good.head (by assumption) ?_ | refine Good.opt (by assumption) ?_
        | refine Good.exc (by assumption) ?_
    | split | dsimp only | (show Kept _ _ _ _ _ _ _ _; dsimp only)

theorem sendWidth_good {q x1 s} (h : Good q s) : Good q (sendWidth s x1) := by
  unfold sendWidth
  repeat' first
    | with_reducible first
        | assumption | apply sendControl_good | apply State_setWel_good
    | (show Kept _ _ _ _ _ _ _ _; dsimp only)

theorem laneLost_good {q x1 x2 s} (h : Good q s) : Good q (laneLost s x1 x2) := by
  unfold laneLost
  repeat' first
    | with_reducible first
        | assumption | apply dropLane_good | apply State_setWel_good | apply leaveActive_good | apply sendWidth_good
        | apply countChange_good | refine Good.of ?_ | refine Good.next ?_
    | split | (show Kept _ _ _ _ _ _ _ _; dsimp only)

theorem lockedLane_good {q x1 x2 x3 s} (h : Good q s) : Good q (lockedLane s x1 x2 x3) := by
  unfold lockedLane
  repeat' first
    | with_reducible first
        | assumption | apply lineIn_good | apply takeBlocks_good | apply laneLost_good | refine Good.of ?_
        | refine Good.next ?_ | intro _ | apply Good.foldl | refine Good.fst (by assumption) ?_
        | refine Good.snd (by assumption) ?_ | refine Good.some ?_ | exact GoodOpt.none | refine GoodOpt.map ?_
        | refine Good.getD ?_ ?_ | refine Good.elim ?_ ?_ | refine Good.okay ?_ | exact GoodExc.error
        | apply Good.foldl2 | apply Good.foldl3 | apply Good.foldl1 | refine Good.left (by assumption) ?_
        | refine Good.head (by assumption) ?_ | refine Good.opt (by assumption) ?_
        | refine Good.exc (by assumption) ?_
    | split | dsimp only | (show Kept _ _ _ _ _ _ _ _; dsimp only)

theorem execNarrowingTimeout_good {q x0 s} (h : Good q s) : GoodOut q (execNarrowingTimeout x0 s) := by
  unfold execNarrowingTimeout
  repeat' first
    | with_reducible first
        | assumption | apply leaveActive_good | refine Good.of ?_ | refine Good.next ?_
    | split | (show Kept _ _ _ _ _ _ _ _; dsimp only)

theorem retryAttempt_good {q x1 s} (h : Good q s) : Good q (retryAttempt s x1) := by
  unfold retryAttempt
  repeat' first
    | with_reducible first
        | assumption | apply State_setWel_good | apply startAttempt_good
    | (show Kept _ _ _ _ _ _ _ _; dsimp only)

theorem execWelondRetry_good {q x0 x1 s} (h : Good q s) : GoodOut q (execWelondRetry x0 x1 s) := by
  unfold execWelondRetry
  repeat' first
    | with_reducible first
        | assumption | apply State_setWel_good | apply retryAttempt_good | refine Good.of ?_ | refine Good.next ?_
    | split | dsimp only | (show Kept _ _ _ _ _ _ _ _; dsimp only)

theorem widenTx_good {q x1 s} (h : Good q s) : Good q (widenTx s x1) := by
  unfold widenTx
  repeat' first
    | with_reducible first
        | assumption | apply pumpLine_good | apply State_setWel_good | apply countChange_good | apply sendAlign_good
        | refine Good.of ?_ | refine Good.next ?_ | intro _ | apply Good.foldl | refine Good.fst (by assumption) ?_
        | refine Good.snd (by assumption) ?_ | refine Good.some ?_ | exact GoodOpt.none | refine GoodOpt.map ?_
        | refine Good.getD ?_ ?_ | refine Good.elim ?_ ?_ | refine Good.okay ?_ | exact GoodExc.error
        | apply Good.foldl2 | apply Good.foldl3 | apply Good.foldl1 | refine Good.left (by assumption) ?_
        | refine Good.head (by assumption) ?_ | refine Good.opt (by assumption) ?_
        | refine Good.exc (by assumption) ?_
    | split | dsimp only | (show Kept _ _ _ _ _ _ _ _; dsimp only)

theorem tideMessages_good {q s} (h : Good q s) : Good q (tideMessages s) := by
  unfold tideMessages
  repeat' first
    | with_reducible first
        | assumption | apply widenTx_good | apply sendOpen_good | refine Good.of ?_ | refine Good.next ?_ | intro _
        | apply Good.foldl
    | split | dsimp only | (show Kept _ _ _ _ _ _ _ _; dsimp only)

theorem execWelondAttemptTimeout_good {q x0 s} (h : Good q s) : GoodOut q (execWelondAttemptTimeout x0 s) := by
  unfold execWelondAttemptTimeout
  repeat' first
    | with_reducible first
        | assumption | apply startAttempt_good | refine Good.of ?_ | refine Good.next ?_
    | split | dsimp only | (show Kept _ _ _ _ _ _ _ _; dsimp only)

theorem execLaneRetrain_good {q x0 x1 x2 s} (h : Good q s) : GoodOut q (execLaneRetrain x0 x1 x2 s) := by
  unfold execLaneRetrain
  repeat' first
    | with_reducible first
        | assumption | apply lineIn_good | apply dropLane_good | apply adaptLane_good | apply sendWidth_good
        | apply State_setWel_good | refine Good.of ?_ | refine Good.next ?_
    | split | dsimp only | (show Kept _ _ _ _ _ _ _ _; dsimp only)

theorem execReceiverAdapted_good {q x0 x1 s} (h : Good q s) : GoodOut q (execReceiverAdapted x0 x1 s) := by
  unfold execReceiverAdapted
  repeat' first
    | with_reducible first
        | assumption | apply adaptLane_good | apply State_setWel_good | refine Good.of ?_ | refine Good.next ?_
        | intro _ | apply Good.foldl
    | split | dsimp only | (show Kept _ _ _ _ _ _ _ _; dsimp only)

theorem execFenceBlockReceive_good {q x0 x1 x2 s} (h : Good q s) : GoodOut q (execFenceBlockReceive x0 x1 x2 s) := by
  unfold execFenceBlockReceive
  repeat' first
    | with_reducible first
        | assumption | apply lockedLane_good | refine Good.of ?_ | refine Good.next ?_
    | split | (show Kept _ _ _ _ _ _ _ _; dsimp only)

theorem execWelondDetect_good {q x0 x1 s} (h : Good q s) : GoodOut q (execWelondDetect x0 x1 s) := by
  unfold execWelondDetect
  repeat' first
    | with_reducible first
        | assumption | apply State_setWel_good | apply startAttempt_good | apply retryAttempt_good | refine Good.of ?_
        | refine Good.next ?_
    | split | dsimp only | (show Kept _ _ _ _ _ _ _ _; dsimp only)

theorem execCapabilitySend_good {q x0 s} (h : Good q s) : GoodOut q (execCapabilitySend x0 s) := by
  unfold execCapabilitySend
  repeat' first
    | with_reducible first
        | assumption | apply sendPacket_good | apply State_setWel_good | refine Good.of ?_ | refine Good.next ?_
    | split | dsimp only | (show Kept _ _ _ _ _ _ _ _; dsimp only)

theorem execFenceBlockPeriodic_good {q x0 s} (h : Good q s) : GoodOut q (execFenceBlockPeriodic x0 s) := by
  unfold execFenceBlockPeriodic
  repeat' first
    | with_reducible first
        | assumption | apply sendFence_good | apply State_setWel_good | refine Good.of ?_ | refine Good.next ?_
    | split | dsimp only | (show Kept _ _ _ _ _ _ _ _; dsimp only)

theorem execWidthBlockReceive_good {q x0 x1 x2 s} (h : Good q s) : GoodOut q (execWidthBlockReceive x0 x1 x2 s) := by
  unfold execWidthBlockReceive
  repeat' first
    | with_reducible first
        | assumption | apply lockedLane_good | refine Good.of ?_ | refine Good.next ?_
    | split | (show Kept _ _ _ _ _ _ _ _; dsimp only)

theorem widenRx_good {q x1 s} (h : Good q s) : Good q (widenRx s x1) := by
  unfold widenRx
  repeat' first
    | with_reducible first
        | assumption | apply State_setWel_good | apply countChange_good | refine Good.of ?_ | refine Good.next ?_
    | split | (show Kept _ _ _ _ _ _ _ _; dsimp only)

theorem execTideMessageReceive_good {q x0 x1 x2 x3 x4 s} (h : Good q s) : GoodOut q (execTideMessageReceive x0 x1 x2 x3 x4 s) := by
  unfold execTideMessageReceive
  repeat' first
    | with_reducible first
        | assumption | apply packetIn_good | apply widenRx_good | apply heard_good | apply State_setWel_good
        | apply raiseErr_good | apply checkCounts_good | refine Good.of ?_ | refine Good.next ?_ | intro _
        | apply Good.foldl | refine Good.fst (by assumption) ?_ | refine Good.snd (by assumption) ?_
        | refine Good.some ?_ | exact GoodOpt.none | refine GoodOpt.map ?_ | refine Good.getD ?_ ?_
        | refine Good.elim ?_ ?_ | refine Good.okay ?_ | exact GoodExc.error | apply Good.foldl2 | apply Good.foldl3
        | apply Good.foldl1 | refine Good.left (by assumption) ?_ | refine Good.head (by assumption) ?_
        | refine Good.opt (by assumption) ?_ | refine Good.exc (by assumption) ?_
    | split | dsimp only | (show Kept _ _ _ _ _ _ _ _; dsimp only)

theorem execWelondTerminationLost_good {q x0 s} (h : Good q s) : GoodOut q (execWelondTerminationLost x0 s) := by
  unfold execWelondTerminationLost
  repeat' first
    | with_reducible first
        | assumption | apply enterAbsent_good | apply State_setWel_good | refine Good.of ?_ | refine Good.next ?_
    | split | dsimp only | (show Kept _ _ _ _ _ _ _ _; dsimp only)

theorem execWelondLaneLockLoss_good {q x0 x1 x2 s} (h : Good q s) : GoodOut q (execWelondLaneLockLoss x0 x1 x2 s) := by
  unfold execWelondLaneLockLoss
  repeat' first
    | with_reducible first
        | assumption | apply lockedLane_good | refine Good.of ?_ | refine Good.next ?_
    | split | (show Kept _ _ _ _ _ _ _ _; dsimp only)

theorem execWelondLock_good {q x0 x1 x2 s} (h : Good q s) : GoodOut q (execWelondLock x0 x1 x2 s) := by
  unfold execWelondLock
  repeat' first
    | with_reducible first
        | assumption | apply lineIn_good | apply State_setWel_good | refine Good.of ?_ | refine Good.next ?_
    | split | dsimp only | (show Kept _ _ _ _ _ _ _ _; dsimp only)

/-! ### Mirrors -/

theorem forwardPacket_good {q x1 x2 s} (h : Good q s) : Good q (forwardPacket s x1 x2) := by
  unfold forwardPacket
  repeat' first
    | with_reducible first
        | assumption | apply sendBlocks_good | apply State_emit_good | refine Good.of ?_ | refine Good.next ?_
    | split | (show Kept _ _ _ _ _ _ _ _; dsimp only)

theorem peerDecode_good {q s x1 x2 x3 x4} (h : Good q s) : Good q (peerDecode s x1 x2 x3 x4).2.2 := by
  unfold peerDecode
  dsimp only
  split
  · exact h
  · rename_i e
    exact classWrite_good (laneEnd_good h e)

theorem setHeld_good {q x1 x2 s} (h : Good q s) : Good q (setHeld s x1 x2) := by
  unfold setHeld
  repeat' first
    | with_reducible first
        | assumption | apply State_setCtx_good | refine Good.of ?_ | refine Good.next ?_
    | split | (show Kept _ _ _ _ _ _ _ _; dsimp only)

theorem execMirrorSetReceive_good {q x0 x1 x2 s} (h : Good q s) : GoodOut q (execMirrorSetReceive x0 x1 x2 s) := by
  unfold execMirrorSetReceive
  repeat' first
    | with_reducible first
        | assumption | apply packetIn_good | apply heard_good | apply State_setWel_good | apply setHeld_good
        | apply sendMirrorSet_good | refine Good.of ?_ | refine Good.next ?_ | intro _ | apply Good.foldl
        | refine Good.fst (by assumption) ?_ | refine Good.snd (by assumption) ?_ | refine Good.some ?_
        | exact GoodOpt.none | refine GoodOpt.map ?_ | refine Good.getD ?_ ?_ | refine Good.elim ?_ ?_
        | refine Good.okay ?_ | exact GoodExc.error | apply Good.foldl2 | apply Good.foldl3 | apply Good.foldl1
        | refine Good.left (by assumption) ?_ | refine Good.head (by assumption) ?_
        | refine Good.opt (by assumption) ?_ | refine Good.exc (by assumption) ?_
    | split | dsimp only | (show Kept _ _ _ _ _ _ _ _; dsimp only)

theorem peerFrame_good {q x1 s} (h : Good q s) : Good q (peerFrame s x1) := by
  unfold peerFrame
  repeat' first
    | with_reducible first
        | assumption | apply takeTarget_good | refine Good.of ?_ | refine Good.next ?_
    | split | (show Kept _ _ _ _ _ _ _ _; dsimp only)

theorem dropPeerFrame_good {q x1 s} (h : Good q s) : Good q (dropPeerFrame s x1) := by
  unfold dropPeerFrame
  repeat' first
    | with_reducible first
        | assumption | apply dropBuf_good | apply State_setCtx_good | refine Good.of ?_ | refine Good.next ?_
        | intro _ | apply Good.foldl | refine Good.fst (by assumption) ?_ | refine Good.snd (by assumption) ?_
        | refine Good.some ?_ | exact GoodOpt.none | refine GoodOpt.map ?_ | refine Good.getD ?_ ?_
        | refine Good.elim ?_ ?_ | refine Good.okay ?_ | exact GoodExc.error | apply Good.foldl2 | apply Good.foldl3
        | apply Good.foldl1 | refine Good.left (by assumption) ?_ | refine Good.head (by assumption) ?_
        | refine Good.opt (by assumption) ?_ | refine Good.exc (by assumption) ?_
    | split | dsimp only | (show Kept _ _ _ _ _ _ _ _; dsimp only)

theorem peerData_good {q x0 x2 x3 x4 s} (h : Good q s) : Good q (peerData x0 s x2 x3 x4) := by
  unfold peerData
  repeat' first
    | with_reducible first
        | assumption | apply peerFrame_good | apply dropPeerFrame_good | apply State_setCtx_good
        | apply classWrite_good | refine Good.of ?_ | refine Good.next ?_ | intro _ | apply Good.foldl
        | refine Good.fst (by assumption) ?_ | refine Good.snd (by assumption) ?_ | refine Good.some ?_
        | exact GoodOpt.none | refine GoodOpt.map ?_ | refine Good.getD ?_ ?_ | refine Good.elim ?_ ?_
        | refine Good.okay ?_ | exact GoodExc.error | apply Good.foldl2 | apply Good.foldl3 | apply Good.foldl1
        | refine Good.left (by assumption) ?_ | refine Good.head (by assumption) ?_
        | refine Good.opt (by assumption) ?_ | refine Good.exc (by assumption) ?_
    | split | dsimp only | (show Kept _ _ _ _ _ _ _ _; dsimp only)

theorem peerRecord_good {q x0 x2 x3 s} (h : Good q s) : Good q (peerRecord x0 s x2 x3) := by
  unfold peerRecord
  repeat' first
    | with_reducible first
        | assumption | apply peerFrame_good | apply State_setCtx_good | apply peerDecode_good | refine Good.of ?_
        | refine Good.next ?_
    | split | (show Kept _ _ _ _ _ _ _ _; dsimp only)

theorem execMirrorPacketReceive_good {q x0 x1 s} (h : Good q s) : GoodOut q (execMirrorPacketReceive x0 x1 s) := by
  unfold execMirrorPacketReceive
  repeat' first
    | with_reducible first
        | assumption | apply packetIn_good | apply heard_good | apply forwardPacket_good | apply peerData_good
        | apply peerRecord_good | refine Good.of ?_ | refine Good.next ?_ | intro _ | apply Good.foldl
        | refine Good.fst (by assumption) ?_ | refine Good.snd (by assumption) ?_ | refine Good.some ?_
        | exact GoodOpt.none | refine GoodOpt.map ?_ | refine Good.getD ?_ ?_ | refine Good.elim ?_ ?_
        | refine Good.okay ?_ | exact GoodExc.error | apply Good.foldl2 | apply Good.foldl3 | apply Good.foldl1
        | refine Good.left (by assumption) ?_ | refine Good.head (by assumption) ?_
        | refine Good.opt (by assumption) ?_ | refine Good.exc (by assumption) ?_
    | split | dsimp only | (show Kept _ _ _ _ _ _ _ _; dsimp only)

theorem sendBuffer_good {q x1 x2 x3 x4 s} (h : Good q s) : Good q (sendBuffer s x1 x2 x3 x4) := by
  unfold sendBuffer
  repeat' first
    | with_reducible first
        | assumption | apply sendOpen_good | refine Good.of ?_ | refine Good.next ?_ | intro _ | apply Good.foldl
    | split | dsimp only | (show Kept _ _ _ _ _ _ _ _; dsimp only)

theorem mirrorBytes_good {q s x1 x2 x3 x4 d t} (h : Good q s) (e : mirrorBytes s x1 x2 x3 x4 = some (d, t)) : Good q t := by
  unfold mirrorBytes at e
  dsimp only at e
  split at e
  · obtain ⟨u, hu, hv⟩ := Option.map_eq_some_iff.mp e
    obtain ⟨_, rfl⟩ := Prod.mk.inj hv
    exact laneDone_good (classRead_good h) _ hu
  · obtain ⟨_, rfl⟩ := Prod.mk.inj (Option.some.inj e)
    exact classRead_good h

theorem sendMirror_good {q s x1 x2 x3} (h : Good q s) : Good q (sendMirror s x1 x2 x3) := by
  unfold sendMirror
  split
  · exact h
  · rename_i e
    exact State_setWel_good (sendBuffer_good (mirrorBytes_good h e))

theorem execMirrorBufferSend_good {q x0 x1 s} (h : Good q s) : GoodOut q (execMirrorBufferSend x0 x1 s) := by
  unfold execMirrorBufferSend
  repeat' first
    | with_reducible first
        | assumption | apply sendMirror_good | refine Good.of ?_ | refine Good.next ?_ | intro _ | apply Good.foldl
        | refine Good.fst (by assumption) ?_ | refine Good.snd (by assumption) ?_ | refine Good.some ?_
        | exact GoodOpt.none | refine GoodOpt.map ?_ | refine Good.getD ?_ ?_ | refine Good.elim ?_ ?_
        | refine Good.okay ?_ | exact GoodExc.error | apply Good.foldl2 | apply Good.foldl3 | apply Good.foldl1
        | refine Good.left (by assumption) ?_ | refine Good.head (by assumption) ?_
        | refine Good.opt (by assumption) ?_ | refine Good.exc (by assumption) ?_
    | split | dsimp only | (show Kept _ _ _ _ _ _ _ _; dsimp only)

theorem addMirror_good {q x1 x2 s} (h : Good q s) : Good q (addMirror s x1 x2) := by
  unfold addMirror
  repeat' first
    | with_reducible first
        | assumption | apply admitMirrors_good | apply State_setWel_good
    | (show Kept _ _ _ _ _ _ _ _; dsimp only)

theorem execMirrorRequest_good {q x0 x1 x2 s} (h : Good q s) : GoodOut q (execMirrorRequest x0 x1 x2 s) := by
  unfold execMirrorRequest
  repeat' first
    | with_reducible first
        | assumption | apply packetIn_good | apply heard_good | apply addMirror_good | apply sendAsk_good
        | refine Good.of ?_ | refine Good.next ?_ | intro _ | apply Good.foldl | refine Good.fst (by assumption) ?_
        | refine Good.snd (by assumption) ?_ | refine Good.some ?_ | exact GoodOpt.none | refine GoodOpt.map ?_
        | refine Good.getD ?_ ?_ | refine Good.elim ?_ ?_ | refine Good.okay ?_ | exact GoodExc.error
        | apply Good.foldl2 | apply Good.foldl3 | apply Good.foldl1 | refine Good.left (by assumption) ?_
        | refine Good.head (by assumption) ?_ | refine Good.opt (by assumption) ?_
        | refine Good.exc (by assumption) ?_
    | split | dsimp only | (show Kept _ _ _ _ _ _ _ _; dsimp only)

end Sys2Proof.Laws
end

