-- ==== Sys2Proof/Laws/Surfaces.lean ====
section
/-! SUPPORT. What every operation of sessions, touch and the host registers keeps (see `Sys2Proof.Laws.Good`): the canonical
form of memory, the command queue, the time, the outputs already given, the programmed keys and the
locked regions. One lemma per operation, cited instead of unfolding it. -/

set_option linter.unusedTactic false
set_option linter.unreachableTactic false

namespace Sys2Proof.Laws

open Sys2Proof Sys2Proof.Machine

/-! ### Sessions -/

theorem openCommand_good {q x0 x1 run s} (h : Good q s) (hr : ∀ s, Good q s → Good q (run s).st) : Good q (openCommand x0 x1 run s) := by
  unfold openCommand
  repeat' first
    | with_reducible first
        | assumption | apply hr | apply sluiceDropped_good | apply arrive_good | apply complete_good
        | refine Good.of ?_ | refine Good.next ?_ | intro _ | apply Good.foldl
    | split | dsimp only | (show Kept _ _ _ _ _ _ _ _; dsimp only)

theorem proofFailed_good {q s x1 x2} (h : Good q s) : Good q (proofFailed s x1 x2) := by
  unfold proofFailed
  exact State_setKeySlot_good (endSession_good h) (fun _ e => e)

theorem openSlot_good {q s x1 x2 x3 x4} (h : Good q s) : Good q (openSlot s x1 x2 x3 x4) := by
  unfold openSlot
  refine postSession_good ?_
  split <;> exact State_setKeySlot_good (State_setSession_good h) (fun _ e => e)

theorem cmdProve_good {q x0 x1 s} (h : Good q s) : Good q (cmdProve x0 x1 s).st := by
  unfold cmdProve
  repeat' first
    | with_reducible first
        | assumption | apply refuse_good | apply proofFailed_good | apply ok_good | apply openSlot_good
        | refine Good.of ?_ | refine Good.next ?_
    | split | (show Kept _ _ _ _ _ _ _ _; dsimp only)

theorem execProve_good {q x0 x1 s} (h : Good q s) : GoodOut q (execProve x0 x1 s) := by
  unfold execProve
  repeat' first
    | with_reducible first
        | assumption | apply openCommand_good | apply cmdProve_good | refine Good.of ?_ | refine Good.next ?_
    | split | (show Kept _ _ _ _ _ _ _ _; dsimp only)

theorem execSessionIdleTimeout_good {q x0 s} (h : Good q s) : GoodOut q (execSessionIdleTimeout x0 s) := by
  unfold execSessionIdleTimeout
  repeat' first
    | with_reducible first
        | assumption | apply endSession_good | refine Good.of ?_ | refine Good.next ?_
    | split | (show Kept _ _ _ _ _ _ _ _; dsimp only)

theorem cmdHello_good {q x0 x1 s} (h : Good q s) : Good q (cmdHello x0 x1 s).st := by
  unfold cmdHello
  repeat' first
    | with_reducible first
        | assumption | apply refuse_good | apply refuseFull_good | apply State_drawBytes_good
        | apply State_setSession_good | apply ok_good | refine Good.of ?_ | refine Good.next ?_
    | split | (show Kept _ _ _ _ _ _ _ _; dsimp only)

theorem execKeyProgram_good {q x0 x1 s} (h : Good q s) : GoodOut q (execKeyProgram x0 x1 s) := by
  unfold execKeyProgram
  split
  · rename_i hc
    refine Good.next (State_setKeySlot_good h ?_)
    intro x e
    simp [e] at hc
  · exact Good.next h

theorem execHalfOpenExpiry_good {q x0 s} (h : Good q s) : GoodOut q (execHalfOpenExpiry x0 s) := by
  unfold execHalfOpenExpiry
  repeat' first
    | with_reducible first
        | assumption | apply endSession_good | refine Good.of ?_ | refine Good.next ?_
    | split | (show Kept _ _ _ _ _ _ _ _; dsimp only)

theorem cmdRoleQuery_good {q x0 s} (h : Good q s) : Good q (cmdRoleQuery x0 s).st := by
  unfold cmdRoleQuery
  repeat' first
    | with_reducible first
        | assumption | apply refuse_good | apply ok_good | refine Good.of ?_ | refine Good.next ?_
    | split | (show Kept _ _ _ _ _ _ _ _; dsimp only)

theorem cmdDebugUnlock_good {q x0 x1 s} (h : Good q s) : Good q (cmdDebugUnlock x0 x1 s).st := by
  unfold cmdDebugUnlock
  repeat' first
    | with_reducible first
        | assumption | apply ok_good | apply refuse_good | apply State_drawBytes_good | apply endDebug_good
        | refine Good.of ?_ | refine Good.next ?_
    | split | (show Kept _ _ _ _ _ _ _ _; dsimp only)

theorem execDebugUnlock_good {q x0 x1 s} (h : Good q s) : GoodOut q (execDebugUnlock x0 x1 s) := by
  unfold execDebugUnlock
  repeat' first
    | with_reducible first
        | assumption | apply command_good | apply cmdDebugUnlock_good | refine Good.of ?_ | refine Good.next ?_
    | split | (show Kept _ _ _ _ _ _ _ _; dsimp only)

theorem execDebugProbeToken_good {q x0 s} (h : Good q s) : GoodOut q (execDebugProbeToken x0 s) := by
  unfold execDebugProbeToken
  repeat' first
    | with_reducible first
        | assumption | apply raiseErr_good | refine Good.of ?_ | refine Good.next ?_
    | split | (show Kept _ _ _ _ _ _ _ _; dsimp only)

theorem cmdClose_good {q x0 s} (h : Good q s) : Good q (cmdClose x0 s).st := by
  unfold cmdClose
  repeat' first
    | with_reducible first
        | assumption | apply ok_good | apply endSession_good
    | (show Kept _ _ _ _ _ _ _ _; dsimp only)

theorem execClose_good {q x0 s} (h : Good q s) : GoodOut q (execClose x0 s) := by
  unfold execClose
  repeat' first
    | with_reducible first
        | assumption | apply command_good | apply cmdClose_good | refine Good.of ?_ | refine Good.next ?_
    | split | (show Kept _ _ _ _ _ _ _ _; dsimp only)

theorem execRoleQuery_good {q x0 s} (h : Good q s) : GoodOut q (execRoleQuery x0 s) := by
  unfold execRoleQuery
  repeat' first
    | with_reducible first
        | assumption | apply command_good | apply cmdRoleQuery_good | refine Good.of ?_ | refine Good.next ?_
    | split | (show Kept _ _ _ _ _ _ _ _; dsimp only)

theorem execHello_good {q x0 x1 s} (h : Good q s) : GoodOut q (execHello x0 x1 s) := by
  unfold execHello
  repeat' first
    | with_reducible first
        | assumption | apply openCommand_good | apply cmdHello_good | refine Good.of ?_ | refine Good.next ?_
    | split | (show Kept _ _ _ _ _ _ _ _; dsimp only)

theorem execDebugSessionExpiry_good {q s} (h : Good q s) : GoodOut q (execDebugSessionExpiry s) := by
  unfold execDebugSessionExpiry
  repeat' first
    | with_reducible first
        | assumption | apply endDebug_good | refine Good.of ?_ | refine Good.next ?_
    | split | (show Kept _ _ _ _ _ _ _ _; dsimp only)

theorem execApprovalExpiry_good {q x0 s} (h : Good q s) : GoodOut q (execApprovalExpiry x0 s) := by
  unfold execApprovalExpiry
  repeat' first
    | with_reducible first
        | assumption | apply dropApprovals_good | refine Good.of ?_ | refine Good.next ?_
    | split | (show Kept _ _ _ _ _ _ _ _; dsimp only)

theorem execDebugTokenExpiry_good {q s} (h : Good q s) : GoodOut q (execDebugTokenExpiry s) := by
  unfold execDebugTokenExpiry
  repeat' first
    | with_reducible first
        | assumption | refine Good.of ?_ | refine Good.next ?_
    | split | (show Kept _ _ _ _ _ _ _ _; dsimp only)

theorem execDebugAccess_good {q x0 x1 s} (h : Good q s) : GoodOut q (execDebugAccess x0 x1 s) := by
  unfold execDebugAccess
  repeat' first
    | with_reducible first
        | assumption | apply classPieces_good | apply State_emit_good | apply classStore_good | refine Good.of ?_
        | refine Good.next ?_ | intro _ | apply Good.foldl
    | split | dsimp only | (show Kept _ _ _ _ _ _ _ _; dsimp only)

/-! ### TouchMap -/

theorem postTouch_good {q x1 x2 x3 x4 x5 s} (h : Good q s) : Good q (postTouch s x1 x2 x3 x4 x5) := by
  unfold postTouch
  repeat' first
    | with_reducible first
        | assumption | apply postFw_good
    | (show Kept _ _ _ _ _ _ _ _; dsimp only)

theorem reportDesk_good {q x0 x1 p} (h : Good q p.1) : Good q (reportDesk x0 p x1).1 := by
  obtain ⟨s, out⟩ := p
  unfold reportDesk
  repeat' first
    | with_reducible first | assumption | apply State_setDesk_good | apply postTouch_good
    | with_reducible intro _
    | (with_reducible refine Good.of ?_)
    | with_reducible first | (refine Good.next ?_) | (refine Good.some ?_) | exact GoodOpt.none | (refine GoodOpt.map ?_) | (refine Good.getD ?_ ?_) | (refine Good.okay ?_) | exact GoodExc.error
    | with_reducible first | apply Good.foldl | apply Good.foldl2 | apply Good.foldl3 | apply Good.foldl1 | (refine Good.fst (by assumption) ?_) | (refine Good.snd (by assumption) ?_) | (refine Good.left (by assumption) ?_) | (refine Good.head (by assumption) ?_) | (refine Good.opt (by assumption) ?_) | (refine Good.exc (by assumption) ?_)
    | split
    | dsimp only
    | (show Kept _ _ _ _ _ _ _ _; dsimp only)

theorem touchReport_good {q s} (h : Good q s) : Good q (touchReport s) := by
  unfold touchReport
  repeat' first
    | with_reducible first | assumption | apply reportDesk_good | apply repeatInput_good | apply sendRecords_good
    | with_reducible intro _
    | (with_reducible refine Good.of ?_)
    | with_reducible first | (refine Good.next ?_) | (refine Good.some ?_) | exact GoodOpt.none | (refine GoodOpt.map ?_) | (refine Good.getD ?_ ?_) | (refine Good.okay ?_) | exact GoodExc.error
    | with_reducible first | apply Good.foldl | apply Good.foldl2 | apply Good.foldl3 | apply Good.foldl1 | (refine Good.fst (by assumption) ?_) | (refine Good.snd (by assumption) ?_) | (refine Good.left (by assumption) ?_) | (refine Good.head (by assumption) ?_) | (refine Good.opt (by assumption) ?_) | (refine Good.exc (by assumption) ?_)
    | split
    | dsimp only
    | (show Kept _ _ _ _ _ _ _ _; dsimp only)

theorem execTouchReport_good {q x0 s} (h : Good q s) : GoodOut q (execTouchReport x0 s) := by
  unfold execTouchReport
  repeat' first
    | with_reducible first
        | assumption | apply touchReport_good | refine Good.of ?_ | refine Good.next ?_
    | split | (show Kept _ _ _ _ _ _ _ _; dsimp only)

theorem execTouchPacketReceive_good {q x0 x1 s} (h : Good q s) : GoodOut q (execTouchPacketReceive x0 x1 s) := by
  unfold execTouchPacketReceive
  repeat' first
    | with_reducible first
        | assumption | apply packetIn_good | apply sendPacket_good | apply State_setCtx_good | apply sendInput_good
        | refine Good.of ?_ | refine Good.next ?_ | intro _ | apply Good.foldl | refine Good.fst (by assumption) ?_
        | refine Good.snd (by assumption) ?_ | refine Good.some ?_ | exact GoodOpt.none | refine GoodOpt.map ?_
        | refine Good.getD ?_ ?_ | refine Good.elim ?_ ?_ | refine Good.okay ?_ | exact GoodExc.error
        | apply Good.foldl2 | apply Good.foldl3 | apply Good.foldl1 | refine Good.left (by assumption) ?_
        | refine Good.head (by assumption) ?_ | refine Good.opt (by assumption) ?_
        | refine Good.exc (by assumption) ?_
    | split | dsimp only | (show Kept _ _ _ _ _ _ _ _; dsimp only)

/-! ### Touch -/

theorem execChargerNoiseExit_good {q x0 s} (h : Good q s) : GoodOut q (execChargerNoiseExit x0 s) := by
  unfold execChargerNoiseExit
  repeat' first
    | with_reducible first
        | assumption | apply State_setDesk_good | refine Good.of ?_ | refine Good.next ?_
    | split | dsimp only | (show Kept _ _ _ _ _ _ _ _; dsimp only)

theorem changeDesk_good {q x1 x2 s} (h : Good q s) : Good q (changeDesk s x1 x2) := h

theorem applyLines_good {q x1 s} (h : Good q s) : Good q (applyLines s x1) := h

theorem slowFrame_good {q x1 x2 s} (h : Good q s) : Good q (slowFrame s x1 x2) := by
  unfold slowFrame
  repeat' first
    | with_reducible first
        | assumption | apply applyLines_good | apply State_setDesk_good | apply wake_good | refine Good.of ?_
        | refine Good.next ?_
    | split | (show Kept _ _ _ _ _ _ _ _; dsimp only)

theorem execTouchStuck_good {q x0 x1 s} (h : Good q s) : GoodOut q (execTouchStuck x0 x1 s) := by
  unfold execTouchStuck
  repeat' first
    | with_reducible first
        | assumption | apply raiseClass_good | apply State_setDesk_good | refine Good.of ?_ | refine Good.next ?_
    | split | dsimp only | (show Kept _ _ _ _ _ _ _ _; dsimp only)

theorem cmdTouchRebase_good {q x0 s} (h : Good q s) : Good q (cmdTouchRebase x0 s).st := by
  unfold cmdTouchRebase
  repeat' first
    | with_reducible first
        | assumption | apply refuse_good | apply State_setDesk_good | apply cancelContacts_good | apply ok_good
        | refine Good.of ?_ | refine Good.next ?_
    | split | (show Kept _ _ _ _ _ _ _ _; dsimp only)

theorem execThresholdUpdate_good {q x0 s} (h : Good q s) : GoodOut q (execThresholdUpdate x0 s) := by
  unfold execThresholdUpdate
  repeat' first
    | with_reducible first
        | assumption | apply State_setDesk_good | refine Good.of ?_ | refine Good.next ?_
    | split | dsimp only | (show Kept _ _ _ _ _ _ _ _; dsimp only)

theorem execTouchSaturated_good {q x0 x1 s} (h : Good q s) : GoodOut q (execTouchSaturated x0 x1 s) := by
  unfold execTouchSaturated
  repeat' first
    | with_reducible first
        | assumption | apply raiseClass_good | apply State_setDesk_good | refine Good.of ?_ | refine Good.next ?_
    | split | dsimp only | (show Kept _ _ _ _ _ _ _ _; dsimp only)

theorem execTouchRebase_good {q x0 x1 s} (h : Good q s) : GoodOut q (execTouchRebase x0 x1 s) := by
  unfold execTouchRebase
  repeat' first
    | with_reducible first
        | assumption | apply command_good | apply cmdTouchRebase_good | refine Good.of ?_ | refine Good.next ?_
    | split | (show Kept _ _ _ _ _ _ _ _; dsimp only)

theorem cmdTouchRoute_good {q x0 s} (h : Good q s) : Good q (cmdTouchRoute x0 s).st := by
  unfold cmdTouchRoute
  repeat' first
    | with_reducible first
        | assumption | apply refuse_good | apply ok_good | apply cancelContacts_good | apply State_setDesk_good
        | refine Good.of ?_ | refine Good.next ?_
    | split | (show Kept _ _ _ _ _ _ _ _; dsimp only)

theorem execTouchRoute_good {q x0 x1 s} (h : Good q s) : GoodOut q (execTouchRoute x0 x1 s) := by
  unfold execTouchRoute
  repeat' first
    | with_reducible first
        | assumption | apply command_good | apply cmdTouchRoute_good | refine Good.of ?_ | refine Good.next ?_
    | split | (show Kept _ _ _ _ _ _ _ _; dsimp only)

theorem execSlowScanEntry_good {q x0 s} (h : Good q s) : GoodOut q (execSlowScanEntry x0 s) := by
  unfold execSlowScanEntry
  repeat' first
    | with_reducible first
        | assumption | apply State_setDesk_good | refine Good.of ?_ | refine Good.next ?_
    | split | dsimp only | (show Kept _ _ _ _ _ _ _ _; dsimp only)

theorem touchFrame_good {q x1 x2 x3 s} (h : Good q s) : Good q (touchFrame s x1 x2 x3) := by
  unfold touchFrame
  repeat' first
    | with_reducible first
        | assumption | apply touchReport_good | apply State_drawBool_good | apply State_drawNat_good
        | apply State_setDesk_good | apply applyLines_good | apply wake_good | refine Good.of ?_ | refine Good.next ?_
    | split | (show Kept _ _ _ _ _ _ _ _; dsimp only)

theorem execTouchFrame_good {q x0 x1 x2 s} (h : Good q s) : GoodOut q (execTouchFrame x0 x1 x2 s) := by
  unfold execTouchFrame
  repeat' first
    | with_reducible first
        | assumption | apply touchFrame_good | refine Good.of ?_ | refine Good.next ?_
    | split | dsimp only | (show Kept _ _ _ _ _ _ _ _; dsimp only)

theorem disableDesk_good {q x1 x2 s} (h : Good q s) : Good q (disableDesk s x1 x2) := h

theorem execChargerNoiseEntry_good {q x0 s} (h : Good q s) : GoodOut q (execChargerNoiseEntry x0 s) := by
  unfold execChargerNoiseEntry
  repeat' first
    | with_reducible first
        | assumption | apply State_setDesk_good | refine Good.of ?_ | refine Good.next ?_
    | split | dsimp only | (show Kept _ _ _ _ _ _ _ _; dsimp only)

theorem execNegRebase_good {q x0 x1 s} (h : Good q s) : GoodOut q (execNegRebase x0 x1 s) := by
  unfold execNegRebase
  repeat' first
    | with_reducible first
        | assumption | apply State_setDesk_good | refine Good.of ?_ | refine Good.next ?_
    | split | dsimp only | (show Kept _ _ _ _ _ _ _ _; dsimp only)

theorem execBaselineDone_good {q x0 s} (h : Good q s) : GoodOut q (execBaselineDone x0 s) := by
  unfold execBaselineDone
  repeat' first
    | with_reducible first
        | assumption | apply State_setDesk_good | refine Good.of ?_ | refine Good.next ?_
    | split | (show Kept _ _ _ _ _ _ _ _; dsimp only)

theorem execSlowScanFrame_good {q x0 x1 s} (h : Good q s) : GoodOut q (execSlowScanFrame x0 x1 s) := by
  unfold execSlowScanFrame
  repeat' first
    | with_reducible first
        | assumption | apply slowFrame_good | refine Good.of ?_ | refine Good.next ?_
    | split | dsimp only | (show Kept _ _ _ _ _ _ _ _; dsimp only)

theorem enableDesk_good {q x1 x2 s} (h : Good q s) : Good q (enableDesk s x1 x2) := h

theorem cmdTouchConfig_good {q x0 s} (h : Good q s) : Good q (cmdTouchConfig x0 s).st := by
  unfold cmdTouchConfig
  repeat' first
    | with_reducible first
        | assumption | apply refuse_good | apply ok_good | apply changeDesk_good | apply disableDesk_good
        | apply enableDesk_good | apply State_setDesk_good | refine Good.of ?_ | refine Good.next ?_
    | split | (show Kept _ _ _ _ _ _ _ _; dsimp only)

theorem execTouchConfig_good {q x0 x1 s} (h : Good q s) : GoodOut q (execTouchConfig x0 x1 s) := by
  unfold execTouchConfig
  repeat' first
    | with_reducible first
        | assumption | apply command_good | apply cmdTouchConfig_good | refine Good.of ?_ | refine Good.next ?_
    | split | (show Kept _ _ _ _ _ _ _ _; dsimp only)

/-! ### Host -/

theorem writeCons_good {q x0 s} (h : Good q s) : Good q (writeCons x0 s) := by
  unfold writeCons
  repeat' first
    | with_reducible first | assumption | apply writeRecord_good
    | with_reducible intro _
    | (with_reducible refine Good.of ?_)
    | with_reducible first | (refine Good.next ?_) | (refine Good.some ?_) | exact GoodOpt.none | (refine GoodOpt.map ?_) | (refine Good.getD ?_ ?_) | (refine Good.elim ?_ ?_) | (refine Good.okay ?_) | exact GoodExc.error
    | with_reducible first | apply Good.foldl | apply Good.foldl2 | apply Good.foldl3 | apply Good.foldl1 | (refine Good.fst (by assumption) ?_) | (refine Good.snd (by assumption) ?_) | (refine Good.left (by assumption) ?_) | (refine Good.head (by assumption) ?_) | (refine Good.opt (by assumption) ?_) | (refine Good.exc (by assumption) ?_)
    | split
    | dsimp only
    | (show Kept _ _ _ _ _ _ _ _; dsimp only)

theorem execEvrConsWrite_good {q x0 s} (h : Good q s) : GoodOut q (execEvrConsWrite x0 s) := by
  unfold execEvrConsWrite
  repeat' first
    | with_reducible first | assumption | apply writeCons_good
    | with_reducible intro _
    | (with_reducible refine Good.of ?_)
    | with_reducible first | (refine Good.next ?_) | (refine Good.some ?_) | exact GoodOpt.none | (refine GoodOpt.map ?_) | (refine Good.getD ?_ ?_) | (refine Good.elim ?_ ?_) | (refine Good.okay ?_) | exact GoodExc.error
    | with_reducible first | apply Good.foldl | apply Good.foldl2 | apply Good.foldl3 | apply Good.foldl1 | (refine Good.fst (by assumption) ?_) | (refine Good.snd (by assumption) ?_) | (refine Good.left (by assumption) ?_) | (refine Good.head (by assumption) ?_) | (refine Good.opt (by assumption) ?_) | (refine Good.exc (by assumption) ?_)
    | split
    | dsimp only
    | (show Kept _ _ _ _ _ _ _ _; dsimp only)

theorem writeEnable_good {q x0 s} (h : Good q s) : Good q (writeEnable x0 s) := by
  unfold writeEnable
  repeat' first
    | with_reducible first | assumption
    | with_reducible intro _
    | (with_reducible refine Good.of ?_)
    | with_reducible first | (refine Good.next ?_) | (refine Good.some ?_) | exact GoodOpt.none | (refine GoodOpt.map ?_) | (refine Good.getD ?_ ?_) | (refine Good.elim ?_ ?_) | (refine Good.okay ?_) | exact GoodExc.error
    | with_reducible first | apply Good.foldl | apply Good.foldl2 | apply Good.foldl3 | apply Good.foldl1 | (refine Good.fst (by assumption) ?_) | (refine Good.snd (by assumption) ?_) | (refine Good.left (by assumption) ?_) | (refine Good.head (by assumption) ?_) | (refine Good.opt (by assumption) ?_) | (refine Good.exc (by assumption) ?_)
    | split
    | dsimp only
    | (show Kept _ _ _ _ _ _ _ _; dsimp only)

theorem clearStatus_good {q x0 s} (h : Good q s) : Good q (clearStatus x0 s) := by
  unfold clearStatus
  repeat' first
    | with_reducible first | assumption
    | with_reducible intro _
    | (with_reducible refine Good.of ?_)
    | with_reducible first | (refine Good.next ?_) | (refine Good.some ?_) | exact GoodOpt.none | (refine GoodOpt.map ?_) | (refine Good.getD ?_ ?_) | (refine Good.elim ?_ ?_) | (refine Good.okay ?_) | exact GoodExc.error
    | with_reducible first | apply Good.foldl | apply Good.foldl2 | apply Good.foldl3 | apply Good.foldl1 | (refine Good.fst (by assumption) ?_) | (refine Good.snd (by assumption) ?_) | (refine Good.left (by assumption) ?_) | (refine Good.head (by assumption) ?_) | (refine Good.opt (by assumption) ?_) | (refine Good.exc (by assumption) ?_)
    | split
    | dsimp only
    | (show Kept _ _ _ _ _ _ _ _; dsimp only)

theorem writeMask_good {q x0 s} (h : Good q s) : Good q (writeMask x0 s) := by
  unfold writeMask
  repeat' first
    | with_reducible first | assumption | apply msixDue_good
    | with_reducible intro _
    | (with_reducible refine Good.of ?_)
    | with_reducible first | (refine Good.next ?_) | (refine Good.some ?_) | exact GoodOpt.none | (refine GoodOpt.map ?_) | (refine Good.getD ?_ ?_) | (refine Good.elim ?_ ?_) | (refine Good.okay ?_) | exact GoodExc.error
    | with_reducible first | apply Good.foldl | apply Good.foldl2 | apply Good.foldl3 | apply Good.foldl1 | (refine Good.fst (by assumption) ?_) | (refine Good.snd (by assumption) ?_) | (refine Good.left (by assumption) ?_) | (refine Good.head (by assumption) ?_) | (refine Good.opt (by assumption) ?_) | (refine Good.exc (by assumption) ?_)
    | split
    | dsimp only
    | (show Kept _ _ _ _ _ _ _ _; dsimp only)

theorem sendPending_good {q s} (h : Good q s) : Good q (sendPending s) := by
  unfold sendPending
  repeat' first
    | with_reducible first
        | assumption | apply sendMsix_good | refine Good.of ?_ | refine Good.next ?_ | intro _ | apply Good.foldl
        | refine Good.fst (by assumption) ?_ | refine Good.snd (by assumption) ?_ | refine Good.some ?_
        | exact GoodOpt.none | refine GoodOpt.map ?_ | refine Good.getD ?_ ?_ | refine Good.elim ?_ ?_
        | refine Good.okay ?_ | exact GoodExc.error | apply Good.foldl2 | apply Good.foldl3 | apply Good.foldl1
        | refine Good.left (by assumption) ?_ | refine Good.head (by assumption) ?_
        | refine Good.opt (by assumption) ?_ | refine Good.exc (by assumption) ?_
    | split | dsimp only | (show Kept _ _ _ _ _ _ _ _; dsimp only)

theorem execIrqMaskWrite_good {q x0 s} (h : Good q s) : GoodOut q (execIrqMaskWrite x0 s) := by
  unfold execIrqMaskWrite
  repeat' first
    | with_reducible first | assumption | apply writeMask_good
    | with_reducible intro _
    | (with_reducible refine Good.of ?_)
    | with_reducible first | (refine Good.next ?_) | (refine Good.some ?_) | exact GoodOpt.none | (refine GoodOpt.map ?_) | (refine Good.getD ?_ ?_) | (refine Good.elim ?_ ?_) | (refine Good.okay ?_) | exact GoodExc.error
    | with_reducible first | apply Good.foldl | apply Good.foldl2 | apply Good.foldl3 | apply Good.foldl1 | (refine Good.fst (by assumption) ?_) | (refine Good.snd (by assumption) ?_) | (refine Good.left (by assumption) ?_) | (refine Good.head (by assumption) ?_) | (refine Good.opt (by assumption) ?_) | (refine Good.exc (by assumption) ?_)
    | split
    | dsimp only
    | (show Kept _ _ _ _ _ _ _ _; dsimp only)

theorem execTideCountLowRead_good {q x0 s} (h : Good q s) : GoodOut q (execTideCountLowRead x0 s) := by
  unfold execTideCountLowRead
  repeat' first
    | with_reducible first
        | assumption | apply State_emit_good | refine Good.of ?_ | refine Good.next ?_ | intro _ | apply Good.foldl
        | refine Good.fst (by assumption) ?_ | refine Good.snd (by assumption) ?_ | refine Good.some ?_
        | exact GoodOpt.none | refine GoodOpt.map ?_ | refine Good.getD ?_ ?_ | refine Good.elim ?_ ?_
        | refine Good.okay ?_ | exact GoodExc.error | apply Good.foldl2 | apply Good.foldl3 | apply Good.foldl1
        | refine Good.left (by assumption) ?_ | refine Good.head (by assumption) ?_
        | refine Good.opt (by assumption) ?_ | refine Good.exc (by assumption) ?_
    | split | dsimp only | (show Kept _ _ _ _ _ _ _ _; dsimp only)

theorem writeMsix_good {q x0 x1 s} (h : Good q s) : Good q (writeMsix x0 x1 s) := by
  unfold writeMsix
  repeat' first
    | with_reducible first
        | assumption | apply sendPending_good | refine Good.of ?_ | refine Good.next ?_ | intro _ | apply Good.foldl
        | refine Good.fst (by assumption) ?_ | refine Good.snd (by assumption) ?_ | refine Good.some ?_
        | exact GoodOpt.none | refine GoodOpt.map ?_ | refine Good.getD ?_ ?_ | refine Good.elim ?_ ?_
        | refine Good.okay ?_ | exact GoodExc.error | apply Good.foldl2 | apply Good.foldl3 | apply Good.foldl1
        | refine Good.left (by assumption) ?_ | refine Good.head (by assumption) ?_
        | refine Good.opt (by assumption) ?_ | refine Good.exc (by assumption) ?_
    | split | dsimp only | (show Kept _ _ _ _ _ _ _ _; dsimp only)

theorem writeRequest_good {q x0 x1 x2 s} (h : Good q s) : Good q (writeRequest x0 x1 x2 s) := by
  unfold writeRequest
  repeat' first
    | with_reducible first | assumption | apply State_setMailbox_good
    | with_reducible intro _
    | (with_reducible refine Good.of ?_)
    | with_reducible first | (refine Good.next ?_) | (refine Good.some ?_) | exact GoodOpt.none | (refine GoodOpt.map ?_) | (refine Good.getD ?_ ?_) | (refine Good.elim ?_ ?_) | (refine Good.okay ?_) | exact GoodExc.error
    | with_reducible first | apply Good.foldl | apply Good.foldl2 | apply Good.foldl3 | apply Good.foldl1 | (refine Good.fst (by assumption) ?_) | (refine Good.snd (by assumption) ?_) | (refine Good.left (by assumption) ?_) | (refine Good.head (by assumption) ?_) | (refine Good.opt (by assumption) ?_) | (refine Good.exc (by assumption) ?_)
    | split
    | dsimp only
    | (show Kept _ _ _ _ _ _ _ _; dsimp only)

theorem writeEvr_good {q x0 x1 s} (h : Good q s) : Good q (writeEvr x0 x1 s) := by
  unfold writeEvr
  repeat' first
    | with_reducible first | assumption
    | with_reducible intro _
    | (with_reducible refine Good.of ?_)
    | with_reducible first | (refine Good.next ?_) | (refine Good.some ?_) | exact GoodOpt.none | (refine GoodOpt.map ?_) | (refine Good.getD ?_ ?_) | (refine Good.elim ?_ ?_) | (refine Good.okay ?_) | exact GoodExc.error
    | with_reducible first | apply Good.foldl | apply Good.foldl2 | apply Good.foldl3 | apply Good.foldl1 | (refine Good.fst (by assumption) ?_) | (refine Good.snd (by assumption) ?_) | (refine Good.left (by assumption) ?_) | (refine Good.head (by assumption) ?_) | (refine Good.opt (by assumption) ?_) | (refine Good.exc (by assumption) ?_)
    | split
    | dsimp only
    | (show Kept _ _ _ _ _ _ _ _; dsimp only)

theorem execMsixUnmask_good {q x0 x1 s} (h : Good q s) : GoodOut q (execMsixUnmask x0 x1 s) := by
  unfold execMsixUnmask
  repeat' first
    | with_reducible first | assumption | apply sendPending_good
    | with_reducible intro _
    | (with_reducible refine Good.of ?_)
    | with_reducible first | (refine Good.next ?_) | (refine Good.some ?_) | exact GoodOpt.none | (refine GoodOpt.map ?_) | (refine Good.getD ?_ ?_) | (refine Good.elim ?_ ?_) | (refine Good.okay ?_) | exact GoodExc.error
    | with_reducible first | apply Good.foldl | apply Good.foldl2 | apply Good.foldl3 | apply Good.foldl1 | (refine Good.fst (by assumption) ?_) | (refine Good.snd (by assumption) ?_) | (refine Good.left (by assumption) ?_) | (refine Good.head (by assumption) ?_) | (refine Good.opt (by assumption) ?_) | (refine Good.exc (by assumption) ?_)
    | split
    | dsimp only
    | (show Kept _ _ _ _ _ _ _ _; dsimp only)

theorem execIrqStatusClear_good {q x0 s} (h : Good q s) : GoodOut q (execIrqStatusClear x0 s) := by
  unfold execIrqStatusClear
  repeat' first
    | with_reducible first | assumption | apply clearStatus_good
    | with_reducible intro _
    | (with_reducible refine Good.of ?_)
    | with_reducible first | (refine Good.next ?_) | (refine Good.some ?_) | exact GoodOpt.none | (refine GoodOpt.map ?_) | (refine Good.getD ?_ ?_) | (refine Good.elim ?_ ?_) | (refine Good.okay ?_) | exact GoodExc.error
    | with_reducible first | apply Good.foldl | apply Good.foldl2 | apply Good.foldl3 | apply Good.foldl1 | (refine Good.fst (by assumption) ?_) | (refine Good.snd (by assumption) ?_) | (refine Good.left (by assumption) ?_) | (refine Good.head (by assumption) ?_) | (refine Good.opt (by assumption) ?_) | (refine Good.exc (by assumption) ?_)
    | split
    | dsimp only
    | (show Kept _ _ _ _ _ _ _ _; dsimp only)

theorem execEvrEnableWrite_good {q x0 s} (h : Good q s) : GoodOut q (execEvrEnableWrite x0 s) := by
  unfold execEvrEnableWrite
  repeat' first
    | with_reducible first | assumption | apply writeEnable_good
    | with_reducible intro _
    | (with_reducible refine Good.of ?_)
    | with_reducible first | (refine Good.next ?_) | (refine Good.some ?_) | exact GoodOpt.none | (refine GoodOpt.map ?_) | (refine Good.getD ?_ ?_) | (refine Good.elim ?_ ?_) | (refine Good.okay ?_) | exact GoodExc.error
    | with_reducible first | apply Good.foldl | apply Good.foldl2 | apply Good.foldl3 | apply Good.foldl1 | (refine Good.fst (by assumption) ?_) | (refine Good.snd (by assumption) ?_) | (refine Good.left (by assumption) ?_) | (refine Good.head (by assumption) ?_) | (refine Good.opt (by assumption) ?_) | (refine Good.exc (by assumption) ?_)
    | split
    | dsimp only
    | (show Kept _ _ _ _ _ _ _ _; dsimp only)

theorem execTimeNsRead_good {q s} (h : Good q s) : GoodOut q (execTimeNsRead s) := by
  unfold execTimeNsRead
  repeat' first
    | with_reducible first | assumption | apply State_emit_good
    | with_reducible intro _
    | (with_reducible refine Good.of ?_)
    | with_reducible first | (refine Good.next ?_) | (refine Good.some ?_) | exact GoodOpt.none | (refine GoodOpt.map ?_) | (refine Good.getD ?_ ?_) | (refine Good.elim ?_ ?_) | (refine Good.okay ?_) | exact GoodExc.error
    | with_reducible first | apply Good.foldl | apply Good.foldl2 | apply Good.foldl3 | apply Good.foldl1 | (refine Good.fst (by assumption) ?_) | (refine Good.snd (by assumption) ?_) | (refine Good.left (by assumption) ?_) | (refine Good.head (by assumption) ?_) | (refine Good.opt (by assumption) ?_) | (refine Good.exc (by assumption) ?_)
    | split
    | dsimp only
    | (show Kept _ _ _ _ _ _ _ _; dsimp only)

theorem writeMsixControl_good {q x0 s} (h : Good q s) : Good q (writeMsixControl x0 s) := by
  unfold writeMsixControl
  repeat' first
    | with_reducible first
        | assumption | apply sendPending_good | refine Good.of ?_ | refine Good.next ?_ | intro _ | apply Good.foldl
        | refine Good.fst (by assumption) ?_ | refine Good.snd (by assumption) ?_ | refine Good.some ?_
        | exact GoodOpt.none | refine GoodOpt.map ?_ | refine Good.getD ?_ ?_ | refine Good.elim ?_ ?_
        | refine Good.okay ?_ | exact GoodExc.error | apply Good.foldl2 | apply Good.foldl3 | apply Good.foldl1
        | refine Good.left (by assumption) ?_ | refine Good.head (by assumption) ?_
        | refine Good.opt (by assumption) ?_ | refine Good.exc (by assumption) ?_
    | split | dsimp only | (show Kept _ _ _ _ _ _ _ _; dsimp only)

theorem writeHwbBase_good {q x0 s} (h : Good q s) : Good q (writeHwbBase x0 s) := by
  unfold writeHwbBase
  repeat' first
    | with_reducible first | assumption
    | with_reducible intro _
    | (with_reducible refine Good.of ?_)
    | with_reducible first | (refine Good.next ?_) | (refine Good.some ?_) | exact GoodOpt.none | (refine GoodOpt.map ?_) | (refine Good.getD ?_ ?_) | (refine Good.elim ?_ ?_) | (refine Good.okay ?_) | exact GoodExc.error
    | with_reducible first | apply Good.foldl | apply Good.foldl2 | apply Good.foldl3 | apply Good.foldl1 | (refine Good.fst (by assumption) ?_) | (refine Good.snd (by assumption) ?_) | (refine Good.left (by assumption) ?_) | (refine Good.head (by assumption) ?_) | (refine Good.opt (by assumption) ?_) | (refine Good.exc (by assumption) ?_)
    | split
    | dsimp only
    | (show Kept _ _ _ _ _ _ _ _; dsimp only)

/-! ### Parse -/

/-- A form runs its command. -/
def FormGood (f : Form) : Prop := ∀ (q : Ghost) (c : Caller) (s : State), Good q s → Good q (f.run c s).st

theorem formTiming_good {n} : FormGood (formTiming n) := fun _ _ _ h => cmdHeadSetTiming_good h

theorem formLayerAddress_good {n} : FormGood (formLayerAddress n) := fun _ _ _ h => cmdLayerAddress_good h

theorem formZorder_good {n} : FormGood (formZorder n) := fun _ _ _ h => cmdZorderSet_good h

theorem formOpen_good {n} : FormGood (formOpen n) := fun _ _ _ h => cmdContextOpen_good h

theorem formFlow_good {l n} : FormGood (formFlow l n) := fun _ _ _ h => cmdFlowBind_good h

theorem formNumber_good {n run} (hr : ∀ (q : Ghost) (x : Nat) (s : State), Good q s → Good q (run x s).st) :
    FormGood (formNumber n run) := fun q _ s h => hr q _ s h

theorem formKind_good {n k run f} (hr : ∀ (q : Ghost) (x : KindIndexP) (s : State), Good q s → Good q (run x s).st)
    (e : formKind n k run = some f) : FormGood f := by
  unfold formKind at e
  split at e
  · cases e; exact fun q _ s h => hr q _ s h
  · cases e

theorem formWindow_good {n f} (e : formWindow n = some f) : FormGood f := by
  unfold formWindow at e
  repeat' split at e
  all_goals first
    | contradiction
    | (cases e; first | (intro q c s h; first | exact cmdWindowDefine_good h) | exact formTiming_good | exact formLayerAddress_good | exact formZorder_good | exact formOpen_good | exact formFlow_good | exact formNumber_good (fun _ _ _ h => cmdWindowDefine_good h))
    | exact formKind_good (fun _ _ _ h => cmdWindowDefine_good h) e

theorem formLayer_good {l n f} (e : formLayer l n = some f) : FormGood f := by
  unfold formLayer at e
  repeat' split at e
  all_goals first
    | contradiction
    | (cases e; first | (intro q c s h; first | exact cmdLayerSet_good h) | exact formTiming_good | exact formLayerAddress_good | exact formZorder_good | exact formOpen_good | exact formFlow_good | exact formNumber_good (fun _ _ _ h => cmdLayerSet_good h))
    | exact formKind_good (fun _ _ _ h => cmdLayerSet_good h) e

theorem formFreshness_good {n f} (e : formFreshness n = some f) : FormGood f := by
  unfold formFreshness at e
  repeat' split at e
  all_goals first
    | contradiction
    | (cases e; first | (intro q c s h; first | exact cmdFreshnessSet_good h) | exact formTiming_good | exact formLayerAddress_good | exact formZorder_good | exact formOpen_good | exact formFlow_good | exact formNumber_good (fun _ _ _ h => cmdFreshnessSet_good h))
    | exact formKind_good (fun _ _ _ h => cmdFreshnessSet_good h) e

theorem formHead_good {code n f} (e : formHead code n = some f) : FormGood f := by
  unfold formHead at e
  repeat' split at e
  all_goals first
    | contradiction
    | (cases e; first | (intro q c s h; first | exact cmdHeadCommit_good h | exact cmdHeadEnable_good h | exact cmdHeadStateQuery_good h | exact cmdHeadTwin_good h) | exact formTiming_good | exact formLayerAddress_good | exact formZorder_good | exact formOpen_good | exact formFlow_good | exact formNumber_good (fun _ _ _ h => cmdHeadCommit_good h) | exact formNumber_good (fun _ _ _ h => cmdHeadEnable_good h) | exact formNumber_good (fun _ _ _ h => cmdHeadStateQuery_good h) | exact formNumber_good (fun _ _ _ h => cmdHeadTwin_good h))
    | exact formKind_good (fun _ _ _ h => cmdHeadCommit_good h) e | exact formKind_good (fun _ _ _ h => cmdHeadEnable_good h) e | exact formKind_good (fun _ _ _ h => cmdHeadStateQuery_good h) e | exact formKind_good (fun _ _ _ h => cmdHeadTwin_good h) e

theorem formWall_good {code l n f} (e : formWall code l n = some f) : FormGood f := by
  unfold formWall at e
  repeat' split at e
  all_goals first
    | contradiction
    | (cases e; first | (intro q c s h; first | exact cmdVerdictQuery_good h) | exact formTiming_good | exact formLayerAddress_good | exact formZorder_good | exact formOpen_good | exact formFlow_good | exact formNumber_good (fun _ _ _ h => cmdVerdictQuery_good h))
    | exact formKind_good (fun _ _ _ h => cmdVerdictQuery_good h) e | exact formWindow_good e | exact formLayer_good e | exact formFreshness_good e

theorem formContext_good {code l n f} (e : formContext code l n = some f) : FormGood f := by
  unfold formContext at e
  repeat' split at e
  all_goals first
    | contradiction
    | (cases e; first | (intro q c s h; first | exact cmdContextClose_good h | exact cmdContextStats_good h | exact cmdSluiceSet_good h | exact cmdSourceIsolate_good h) | exact formTiming_good | exact formLayerAddress_good | exact formZorder_good | exact formOpen_good | exact formFlow_good | exact formNumber_good (fun _ _ _ h => cmdContextClose_good h) | exact formNumber_good (fun _ _ _ h => cmdContextStats_good h) | exact formNumber_good (fun _ _ _ h => cmdSluiceSet_good h) | exact formNumber_good (fun _ _ _ h => cmdSourceIsolate_good h))
    | exact formKind_good (fun _ _ _ h => cmdContextClose_good h) e | exact formKind_good (fun _ _ _ h => cmdContextStats_good h) e | exact formKind_good (fun _ _ _ h => cmdSluiceSet_good h) e | exact formKind_good (fun _ _ _ h => cmdSourceIsolate_good h) e

theorem formDecode_good {code n f} (e : formDecode code n = some f) : FormGood f := by
  unfold formDecode at e
  repeat' split at e
  all_goals first
    | contradiction
    | (cases e; first | (intro q c s h; first | exact cmdDecodeAttach_good h | exact cmdDecodePriority_good h | exact cmdDecodeStats_good h) | exact formTiming_good | exact formLayerAddress_good | exact formZorder_good | exact formOpen_good | exact formFlow_good | exact formNumber_good (fun _ _ _ h => cmdDecodeAttach_good h) | exact formNumber_good (fun _ _ _ h => cmdDecodePriority_good h) | exact formNumber_good (fun _ _ _ h => cmdDecodeStats_good h))
    | exact formKind_good (fun _ _ _ h => cmdDecodeAttach_good h) e | exact formKind_good (fun _ _ _ h => cmdDecodePriority_good h) e | exact formKind_good (fun _ _ _ h => cmdDecodeStats_good h) e

theorem formEncode_good {code l n f} (e : formEncode code l n = some f) : FormGood f := by
  unfold formEncode at e
  repeat' split at e
  all_goals first
    | contradiction
    | (cases e; first | (intro q c s h; first | exact cmdEncodeClose_good h | exact cmdEncodeOpen_good h | exact cmdEncodeRate_good h) | exact formTiming_good | exact formLayerAddress_good | exact formZorder_good | exact formOpen_good | exact formFlow_good | exact formNumber_good (fun _ _ _ h => cmdEncodeClose_good h) | exact formNumber_good (fun _ _ _ h => cmdEncodeOpen_good h) | exact formNumber_good (fun _ _ _ h => cmdEncodeRate_good h))
    | exact formKind_good (fun _ _ _ h => cmdEncodeClose_good h) e | exact formKind_good (fun _ _ _ h => cmdEncodeOpen_good h) e | exact formKind_good (fun _ _ _ h => cmdEncodeRate_good h) e

theorem formCrys_good {code n f} (e : formCrys code n = some f) : FormGood f := by
  unfold formCrys at e
  repeat' split at e
  all_goals first
    | contradiction
    | (cases e; first | (intro q c s h; first | exact cmdCrysFlush_good h | exact cmdCrysJob_good h | exact cmdCrysResume_good h) | exact formTiming_good | exact formLayerAddress_good | exact formZorder_good | exact formOpen_good | exact formFlow_good | exact formNumber_good (fun _ _ _ h => cmdCrysFlush_good h) | exact formNumber_good (fun _ _ _ h => cmdCrysJob_good h) | exact formNumber_good (fun _ _ _ h => cmdCrysResume_good h))
    | exact formKind_good (fun _ _ _ h => cmdCrysFlush_good h) e | exact formKind_good (fun _ _ _ h => cmdCrysJob_good h) e | exact formKind_good (fun _ _ _ h => cmdCrysResume_good h) e

theorem formCheck_good {code n f} (e : formCheck code n = some f) : FormGood f := by
  unfold formCheck at e
  repeat' split at e
  all_goals first
    | contradiction
    | (cases e; first | (intro q c s h; first | exact cmdCheckBind_good h | exact cmdCheckStats_good h | exact cmdSealRegion_good h) | exact formTiming_good | exact formLayerAddress_good | exact formZorder_good | exact formOpen_good | exact formFlow_good | exact formNumber_good (fun _ _ _ h => cmdCheckBind_good h) | exact formNumber_good (fun _ _ _ h => cmdCheckStats_good h) | exact formNumber_good (fun _ _ _ h => cmdSealRegion_good h))
    | exact formKind_good (fun _ _ _ h => cmdCheckBind_good h) e | exact formKind_good (fun _ _ _ h => cmdCheckStats_good h) e | exact formKind_good (fun _ _ _ h => cmdSealRegion_good h) e

theorem formTime_good {code n f} (e : formTime code n = some f) : FormGood f := by
  unfold formTime at e
  repeat' split at e
  all_goals first
    | contradiction
    | (cases e; first | (intro q c s h; first | exact cmdPulseSet_good h | exact cmdTideSet_good h | exact cmdTimeQuery_good h | exact cmdTimeSetProfile_good h) | exact formTiming_good | exact formLayerAddress_good | exact formZorder_good | exact formOpen_good | exact formFlow_good | exact formNumber_good (fun _ _ _ h => cmdPulseSet_good h) | exact formNumber_good (fun _ _ _ h => cmdTideSet_good h) | exact formNumber_good (fun _ _ _ h => cmdTimeQuery_good h) | exact formNumber_good (fun _ _ _ h => cmdTimeSetProfile_good h))
    | exact formKind_good (fun _ _ _ h => cmdPulseSet_good h) e | exact formKind_good (fun _ _ _ h => cmdTideSet_good h) e | exact formKind_good (fun _ _ _ h => cmdTimeQuery_good h) e | exact formKind_good (fun _ _ _ h => cmdTimeSetProfile_good h) e

theorem formLink_good {code n f} (e : formLink code n = some f) : FormGood f := by
  unfold formLink at e
  repeat' split at e
  all_goals first
    | contradiction
    | (cases e; first | (intro q c s h; first | exact cmdEqTableQuery_good h | exact cmdEyeScan_good h | exact cmdLinkState_good h) | exact formTiming_good | exact formLayerAddress_good | exact formZorder_good | exact formOpen_good | exact formFlow_good | exact formNumber_good (fun _ _ _ h => cmdEqTableQuery_good h) | exact formNumber_good (fun _ _ _ h => cmdEyeScan_good h) | exact formNumber_good (fun _ _ _ h => cmdLinkState_good h))
    | exact formKind_good (fun _ _ _ h => cmdEqTableQuery_good h) e | exact formKind_good (fun _ _ _ h => cmdEyeScan_good h) e | exact formKind_good (fun _ _ _ h => cmdLinkState_good h) e

theorem formMemory_good {code n f} (e : formMemory code n = some f) : FormGood f := by
  unfold formMemory at e
  repeat' split at e
  all_goals first
    | contradiction
    | (cases e; first | (intro q c s h; first | exact cmdDykeLock_good h | exact cmdDykeRule_good h | exact cmdDykeSync_good h | exact cmdMemErrQuery_good h | exact cmdScrubSet_good h) | exact formTiming_good | exact formLayerAddress_good | exact formZorder_good | exact formOpen_good | exact formFlow_good | exact formNumber_good (fun _ _ _ h => cmdDykeLock_good h) | exact formNumber_good (fun _ _ _ h => cmdDykeRule_good h) | exact formNumber_good (fun _ _ _ h => cmdDykeSync_good h) | exact formNumber_good (fun _ _ _ h => cmdMemErrQuery_good h) | exact formNumber_good (fun _ _ _ h => cmdScrubSet_good h))
    | exact formKind_good (fun _ _ _ h => cmdDykeLock_good h) e | exact formKind_good (fun _ _ _ h => cmdDykeRule_good h) e | exact formKind_good (fun _ _ _ h => cmdDykeSync_good h) e | exact formKind_good (fun _ _ _ h => cmdMemErrQuery_good h) e | exact formKind_good (fun _ _ _ h => cmdScrubSet_good h) e

theorem formTouch_good {code n f} (e : formTouch code n = some f) : FormGood f := by
  unfold formTouch at e
  repeat' split at e
  all_goals first
    | contradiction
    | (cases e; first | (intro q c s h; first | exact cmdTouchConfig_good h | exact cmdTouchRebase_good h | exact cmdTouchRoute_good h) | exact formTiming_good | exact formLayerAddress_good | exact formZorder_good | exact formOpen_good | exact formFlow_good | exact formNumber_good (fun _ _ _ h => cmdTouchConfig_good h) | exact formNumber_good (fun _ _ _ h => cmdTouchRebase_good h) | exact formNumber_good (fun _ _ _ h => cmdTouchRoute_good h))
    | exact formKind_good (fun _ _ _ h => cmdTouchConfig_good h) e | exact formKind_good (fun _ _ _ h => cmdTouchRebase_good h) e | exact formKind_good (fun _ _ _ h => cmdTouchRoute_good h) e

theorem formPower_good {code n f} (e : formPower code n = some f) : FormGood f := by
  unfold formPower at e
  repeat' split at e
  all_goals first
    | contradiction
    | (cases e; first | (intro q c s h; first | exact cmdPowerQuery_good h | exact cmdTrimQuery_good h | exact cmdTrimRun_good h | exact cmdWakeBudget_good h) | exact formTiming_good | exact formLayerAddress_good | exact formZorder_good | exact formOpen_good | exact formFlow_good | exact formNumber_good (fun _ _ _ h => cmdPowerQuery_good h) | exact formNumber_good (fun _ _ _ h => cmdTrimQuery_good h) | exact formNumber_good (fun _ _ _ h => cmdTrimRun_good h) | exact formNumber_good (fun _ _ _ h => cmdWakeBudget_good h))
    | exact formKind_good (fun _ _ _ h => cmdPowerQuery_good h) e | exact formKind_good (fun _ _ _ h => cmdTrimQuery_good h) e | exact formKind_good (fun _ _ _ h => cmdTrimRun_good h) e | exact formKind_good (fun _ _ _ h => cmdWakeBudget_good h) e

theorem formWarden_good {code n f} (e : formWarden code n = some f) : FormGood f := by
  unfold formWarden at e
  repeat' split at e
  all_goals first
    | contradiction
    | (cases e; first | (intro q c s h; first | exact cmdDebugUnlock_good h | exact cmdFence_good h) | exact formTiming_good | exact formLayerAddress_good | exact formZorder_good | exact formOpen_good | exact formFlow_good | exact formNumber_good (fun _ _ _ h => cmdDebugUnlock_good h) | exact formNumber_good (fun _ _ _ h => cmdFence_good h))
    | exact formKind_good (fun _ _ _ h => cmdDebugUnlock_good h) e | exact formKind_good (fun _ _ _ h => cmdFence_good h) e

theorem objectForm_good {code l f} (e : objectForm code l = some f) : FormGood f := by
  unfold objectForm at e
  dsimp only at e
  split at e
  · exact formHead_good e
  · exact formWall_good e
  · exact formContext_good e
  · exact formDecode_good e
  · exact formEncode_good e
  · exact formCrys_good e
  · exact formCheck_good e
  · exact formTime_good e
  · exact formLink_good e
  · exact formMemory_good e
  · exact formTouch_good e
  · exact formPower_good e
  · exact formWarden_good e
  · cases e

theorem runForm_good {q c code l f b s} (hf : ∀ g, f = some g → FormGood g) (h : Good q s) :
    Good q (runForm c code l f b s).st := by
  unfold runForm
  split
  · exact refuse_good h
  · split
    · exact refuse_good h
    · split
      · exact refuse_good h
      · split
        · exact refuse_good h
        · exact hf _ rfl _ _ _ h

end Sys2Proof.Laws
end

