-- ==== Sys2Proof/Laws/Tides.lean ====
section
/-! SUPPORT. What every operation of beds, skims, errors, the mailbox, the tide and start-up keeps (see `Sys2Proof.Laws.Good`): the canonical
form of memory, the command queue, the time, the outputs already given, the programmed keys and the
locked regions. One lemma per operation, cited instead of unfolding it. -/

set_option linter.unusedTactic false
set_option linter.unreachableTactic false

namespace Sys2Proof.Laws

open Sys2Proof Sys2Proof.Machine

/-! ### Bed -/

theorem bedTables_good {q x1 s} (h : Good q s) : Good q (bedTables s x1) := h

theorem bedBase_good {q x1 s} (h : Good q s) : Good q (bedBase s x1) := h

theorem mergeObjects_good {q s0 s t} (h : Good q s) : Good q (mergeObjects s0 s t) := settleGroups_good h

theorem layRecord_good {q x1 s} (h : Good q s) : Good q (layRecord s x1) := by
  unfold layRecord
  repeat' first
    | with_reducible first
        | assumption | apply modHeads_good | apply openFresh_good | apply setWin_good | refine Good.of ?_
        | refine Good.next ?_
    | split | (show Kept _ _ _ _ _ _ _ _; dsimp only)

theorem runRecord_good {q x0 x1 s} (h : Good q s) : Good q (runRecord x0 x1 s).st :=
  runForm_good (fun _ e => objectForm_good e) h

theorem commitAll_good {q s} (h : Good q s) : Good q (commitAll s) := h

theorem settleRate_good {q s} (h : Good q s) : Good q (settleRate s) := by
  unfold settleRate
  repeat' first
    | with_reducible first
        | assumption | refine Good.of ?_ | refine Good.next ?_
    | split | (show Kept _ _ _ _ _ _ _ _; dsimp only)

theorem dryRecord_good {q x0 s} (h : Good q s) : Good q (dryRecord x0 s).st := by
  unfold dryRecord
  repeat' first
    | with_reducible first
        | assumption | apply ok_good | apply runRecord_good | apply commitAll_good | apply settleRate_good
        | refine Good.of ?_ | refine Good.next ?_
    | split | (show Kept _ _ _ _ _ _ _ _; dsimp only)

theorem keepRefusals_good {q x1 s} (h : Good q s) : Good q (keepRefusals s x1) := h

theorem finishBedSync_good {q s} (h : Good q s) : Good q (finishBedSync s) := by
  unfold finishBedSync
  repeat' first
    | with_reducible first
        | assumption | apply completeSyncs_good | refine Good.of ?_ | refine Good.next ?_ | intro _ | apply Good.foldl
        | refine Good.fst (by assumption) ?_ | refine Good.snd (by assumption) ?_ | refine Good.some ?_
        | exact GoodOpt.none | refine GoodOpt.map ?_ | refine Good.getD ?_ ?_ | refine Good.elim ?_ ?_
        | refine Good.okay ?_ | exact GoodExc.error | apply Good.foldl2 | apply Good.foldl3 | apply Good.foldl1
        | refine Good.left (by assumption) ?_ | refine Good.head (by assumption) ?_
        | refine Good.opt (by assumption) ?_ | refine Good.exc (by assumption) ?_
    | split | dsimp only | (show Kept _ _ _ _ _ _ _ _; dsimp only)

theorem swapChannels_good {q x1 x2 s} (h : Good q s) : Good q (swapChannels s x1 x2) := by
  unfold swapChannels
  repeat' first
    | with_reducible first
        | assumption | refine Good.of ?_ | refine Good.next ?_ | intro _ | apply Good.foldl
        | refine Good.fst (by assumption) ?_ | refine Good.snd (by assumption) ?_ | refine Good.some ?_
        | exact GoodOpt.none | refine GoodOpt.map ?_ | refine Good.getD ?_ ?_ | refine Good.elim ?_ ?_
        | refine Good.okay ?_ | exact GoodExc.error | apply Good.foldl2 | apply Good.foldl3 | apply Good.foldl1
        | refine Good.left (by assumption) ?_ | refine Good.head (by assumption) ?_
        | refine Good.opt (by assumption) ?_ | refine Good.exc (by assumption) ?_
    | split | dsimp only | (show Kept _ _ _ _ _ _ _ _; dsimp only)

theorem keepNumbers_good {q x0 x1 s} (h : Good q s) : Good q (keepNumbers x0 x1 s) := by
  unfold keepNumbers
  refine Good.foldl (fun _ _ h => ?_) h
  split
  · split
    · exact h
    · exact swapChannels_good h
  · exact h

theorem runAll_good {q x0 s} (h : Good q s) : Good q (runAll x0 s) := by
  unfold runAll
  repeat' first
    | with_reducible first
        | assumption | apply dryRecord_good | refine Good.of ?_ | refine Good.next ?_ | intro _ | apply Good.foldl
    | split | dsimp only | (show Kept _ _ _ _ _ _ _ _; dsimp only)

theorem endObjects_good {q x1 s} (h : Good q s) : Good q (endObjects s x1) := by
  unfold endObjects
  repeat' first
    | with_reducible first
        | assumption | apply cmdContextClose_good | apply cmdEncodeClose_good | apply cmdTouchRoute_good
        | refine Good.of ?_ | refine Good.next ?_ | intro _ | apply Good.foldl
    | split | dsimp only | (show Kept _ _ _ _ _ _ _ _; dsimp only)

theorem dropApplies_good {q s} (h : Good q s) : Good q (dropApplies s) := by
  unfold dropApplies
  repeat' first
    | with_reducible first
        | assumption | apply dropApprovals_good | apply postApproval_good | apply settleMotion_good
        | refine Good.of ?_ | refine Good.next ?_ | intro _ | apply Good.foldl | refine Good.fst (by assumption) ?_
        | refine Good.snd (by assumption) ?_ | refine Good.some ?_ | exact GoodOpt.none | refine GoodOpt.map ?_
        | refine Good.getD ?_ ?_ | refine Good.elim ?_ ?_ | refine Good.okay ?_ | exact GoodExc.error
        | apply Good.foldl2 | apply Good.foldl3 | apply Good.foldl1 | refine Good.left (by assumption) ?_
        | refine Good.head (by assumption) ?_ | refine Good.opt (by assumption) ?_
        | refine Good.exc (by assumption) ?_
    | split | dsimp only | (show Kept _ _ _ _ _ _ _ _; dsimp only)

theorem propagate_good {q x0 s} (h : Good q s) : Good q (propagate x0 s) := by
  unfold propagate
  repeat' first
    | with_reducible first
        | assumption | apply sendFence_good | refine Good.of ?_ | refine Good.next ?_ | intro _ | apply Good.foldl
        | refine Good.fst (by assumption) ?_ | refine Good.snd (by assumption) ?_ | refine Good.some ?_
        | exact GoodOpt.none | refine GoodOpt.map ?_ | refine Good.getD ?_ ?_ | refine Good.elim ?_ ?_
        | refine Good.okay ?_ | exact GoodExc.error | apply Good.foldl2 | apply Good.foldl3 | apply Good.foldl1
        | refine Good.left (by assumption) ?_ | refine Good.head (by assumption) ?_
        | refine Good.opt (by assumption) ?_ | refine Good.exc (by assumption) ?_
    | split | dsimp only | (show Kept _ _ _ _ _ _ _ _; dsimp only)

theorem bedWel_good {q x0 x2 s} (h : Good q s) : Good q (bedWel x0 s x2) := by
  unfold bedWel
  repeat' first
    | with_reducible first
        | assumption | apply stopWel_good | apply State_setWel_good | refine Good.of ?_ | refine Good.next ?_
    | split | (show Kept _ _ _ _ _ _ _ _; dsimp only)

theorem runSettings_good {q x0 s} (h : Good q s) : Good q (runSettings x0 s) := by
  unfold runSettings
  repeat' first
    | with_reducible first
        | assumption | apply runRecord_good | refine Good.of ?_ | refine Good.next ?_ | intro _ | apply Good.foldl
    | split | dsimp only | (show Kept _ _ _ _ _ _ _ _; dsimp only)

theorem runRoutes_good {q x0 s} (h : Good q s) : Good q (runRoutes x0 s) := by
  unfold runRoutes
  repeat' first
    | with_reducible first
        | assumption | apply runRecord_good | apply commitAll_good | refine Good.of ?_ | refine Good.next ?_ | intro _
        | apply Good.foldl
    | split | dsimp only | (show Kept _ _ _ _ _ _ _ _; dsimp only)

theorem runEnables_good {q x0 s} (h : Good q s) : Good q (runEnables x0 s) := by
  unfold runEnables
  repeat' first
    | with_reducible first
        | assumption | apply runRecord_good | apply releaseContexts_good | apply releaseChannels_good
        | apply disableOne_good | refine Good.of ?_ | refine Good.next ?_ | intro _ | apply Good.foldl
    | split | dsimp only | (show Kept _ _ _ _ _ _ _ _; dsimp only)

theorem bedRoles_good {q x1 s} (h : Good q s) : Good q (bedRoles s x1) := by
  unfold bedRoles
  repeat' first
    | with_reducible first
        | assumption | apply endSessions_good | refine Good.of ?_ | refine Good.next ?_
    | split | (show Kept _ _ _ _ _ _ _ _; dsimp only)

theorem askPeers_good {q s0 s t} (h : Good q s) : Good q (askPeers s0 s t) := by
  unfold askPeers
  split
  · exact requestPeers_good h
  · refine Good.foldl ?_ h
    intro s n hs
    split
    · exact requestMirror_good hs
    · exact hs

theorem applyBed_good {q x1 s} (h : Good q s) : Good q (applyBed s x1) := by
  unfold applyBed
  repeat' first
    | with_reducible first
        | assumption | apply finishBedSync_good | apply keepNumbers_good | apply runAll_good | apply bedBase_good
        | apply endObjects_good | apply dropApplies_good | apply bedTables_good | apply propagate_good
        | apply settleMirrors_good | apply bedWel_good | apply mergeObjects_good | apply runSettings_good
        | apply armCommit_good | apply runRoutes_good | apply runEnables_good | apply bedRoles_good
        | apply askPeers_good | refine Good.of ?_ | refine Good.next ?_ | intro _ | apply Good.foldl
        | refine Good.fst (by assumption) ?_ | refine Good.snd (by assumption) ?_ | refine Good.some ?_
        | exact GoodOpt.none | refine GoodOpt.map ?_ | refine Good.getD ?_ ?_ | refine Good.elim ?_ ?_
        | refine Good.okay ?_ | exact GoodExc.error | apply Good.foldl2 | apply Good.foldl3 | apply Good.foldl1
        | refine Good.left (by assumption) ?_ | refine Good.head (by assumption) ?_
        | refine Good.opt (by assumption) ?_ | refine Good.exc (by assumption) ?_
    | split | dsimp only | (show Kept _ _ _ _ _ _ _ _; dsimp only)

theorem retainBed_good {q x1 s} (h : Good q s) : Good q (retainBed s x1) := by
  unfold retainBed
  repeat' first
    | with_reducible first
        | assumption | apply wardenWrite_good | refine Good.of ?_ | refine Good.next ?_
    | split | (show Kept _ _ _ _ _ _ _ _; dsimp only)

theorem stageAll_good {q s l} (h : Good q s) : GoodExc q (stageAll s l) := by
  induction l generalizing s with
  | nil => exact Good.okay h
  | cons r l ih =>
    unfold stageAll
    split
    · exact ih h
    · dsimp only
      split
      · exact ih (cmdDykeRule_good h)
      · exact GoodExc.error

theorem stageBed_good {q x1 s} (h : Good q s) : GoodExc q (stageBed s x1) := by
  unfold stageBed
  repeat' first
    | with_reducible first
        | assumption | apply stageAll_good | apply stageRules_good | refine Good.of ?_ | refine Good.next ?_ | intro _
        | apply Good.foldl | refine Good.fst (by assumption) ?_ | refine Good.snd (by assumption) ?_
        | refine Good.some ?_ | exact GoodOpt.none | refine GoodOpt.map ?_ | refine Good.getD ?_ ?_
        | refine Good.elim ?_ ?_ | refine Good.okay ?_ | exact GoodExc.error | apply Good.foldl2 | apply Good.foldl3
        | apply Good.foldl1 | refine Good.left (by assumption) ?_ | refine Good.head (by assumption) ?_
        | refine Good.opt (by assumption) ?_ | refine Good.exc (by assumption) ?_
    | split | dsimp only | (show Kept _ _ _ _ _ _ _ _; dsimp only)

theorem acceptBed_good {q x1 s} (h : Good q s) : Good q (acceptBed s x1) := by
  unfold acceptBed
  repeat' first
    | with_reducible first
        | assumption | apply startSync_good | refine Good.of ?_ | refine Good.next ?_
    | split | (show Kept _ _ _ _ _ _ _ _; dsimp only)

theorem checkBed_good {q s l n b t} (h : Good q s) (e : checkBed s l n = .ok (b, t)) : Good q t := by
  unfold checkBed at e
  split at e
  · cases e
  · dsimp only at e
    split at e
    · cases e
    · rename_i t' et
      split at e
      · cases e
      · cases e; exact stageBed_good h _ et

theorem checkBed_fault {q s l n f t} (h : Good q s) (e : checkBed s l n = .error (f, t)) : Good q t := by
  unfold checkBed at e
  split at e
  · cases e; exact h
  · dsimp only at e
    split at e
    · cases e; exact keepRefusals_good h
    · split at e
      · cases e; exact keepRefusals_good h
      · cases e

theorem cmdBedLoad_good {q p s} (h : Good q s) : Good q (cmdBedLoad p s).st := by
  unfold cmdBedLoad
  split
  · exact refuse_good h
  · split
    · exact refuse_good h
    · split
      rename_i l _ s1 e1
      have h1 : Good q s1 := by
        revert e1
        split
        · intro e; exact Good.snd e (wardenRead_good h)
        · intro e; cases e; exact h
      split
      · rename_i e; exact checkBed_fault h1 e
      · rename_i e
        exact ok_good (acceptBed_good (retainBed_good (checkBed_good h1 e)))

theorem execBedLoad_good {q x0 x1 s} (h : Good q s) : GoodOut q (execBedLoad x0 x1 s) := by
  unfold execBedLoad
  repeat' first
    | with_reducible first
        | assumption | apply command_good | apply cmdBedLoad_good | refine Good.of ?_ | refine Good.next ?_
    | split | (show Kept _ _ _ _ _ _ _ _; dsimp only)

/-! ### Skims -/

theorem withdraw_good {q x1 x2 s} (h : Good q s) : Good q (withdraw s x1 x2) := by
  unfold withdraw
  repeat' first
    | with_reducible first
        | assumption | apply dropApprovals_good
    | (show Kept _ _ _ _ _ _ _ _; dsimp only)

theorem approve_good {q x0 x1 s} (h : Good q s) : Good q (approve x0 x1 s) := by
  unfold approve
  repeat' first
    | with_reducible first
        | assumption | apply sendSkim_good | apply postApproval_good | refine Good.of ?_ | refine Good.next ?_
    | split | (show Kept _ _ _ _ _ _ _ _; dsimp only)

theorem cmdSkimApprove_good {q x0 x1 s} (h : Good q s) : Good q (cmdSkimApprove x0 x1 s).st := by
  unfold cmdSkimApprove
  repeat' first
    | with_reducible first
        | assumption | apply refuse_good | apply withdraw_good | apply ok_good | apply approve_good
        | refine Good.of ?_ | refine Good.next ?_
    | split | (show Kept _ _ _ _ _ _ _ _; dsimp only)

theorem storeSkim_good {q x1 x2 x3 s} (h : Good q s) : Good q (storeSkim s x1 x2 x3) := by
  unfold storeSkim
  repeat' first
    | with_reducible first
        | assumption | apply wardenWrite_good | refine Good.of ?_ | refine Good.next ?_
    | split | (show Kept _ _ _ _ _ _ _ _; dsimp only)

theorem cmdSkimStore_good {q x0 x1 s} (h : Good q s) : Good q (cmdSkimStore x0 x1 s).st := by
  unfold cmdSkimStore
  repeat' first
    | with_reducible first
        | assumption | apply refuseFull_good | apply refuse_good | apply wardenRead_good | apply sendSkim_good
        | apply ok_good | apply storeSkim_good | refine Good.of ?_ | refine Good.next ?_
        | refine Good.fst (by assumption) ?_ | refine Good.snd (by assumption) ?_
    | split | dsimp only | (show Kept _ _ _ _ _ _ _ _; dsimp only)

theorem execSkimStore_good {q x0 x1 s} (h : Good q s) : GoodOut q (execSkimStore x0 x1 s) := by
  unfold execSkimStore
  repeat' first
    | with_reducible first
        | assumption | apply command_good | apply cmdSkimStore_good | refine Good.of ?_ | refine Good.next ?_
    | split | (show Kept _ _ _ _ _ _ _ _; dsimp only)

theorem writeSchedule_good {q x1 s} (h : Good q s) : Good q (writeSchedule s x1).st := by
  unfold writeSchedule
  repeat' first
    | with_reducible first
        | assumption | apply refuse_good | apply ok_good | apply wardenWrite_good | refine Good.of ?_
        | refine Good.next ?_
    | split | (show Kept _ _ _ _ _ _ _ _; dsimp only)

theorem cmdConfigQuery_good {q x0 s} (h : Good q s) : Good q (cmdConfigQuery x0 s).st := by
  unfold cmdConfigQuery
  repeat' first
    | with_reducible first
        | assumption | apply refuse_good | apply ok_good | apply writeSchedule_good | refine Good.of ?_
        | refine Good.next ?_
    | split | (show Kept _ _ _ _ _ _ _ _; dsimp only)

theorem execConfigQuery_good {q x0 x1 s} (h : Good q s) : GoodOut q (execConfigQuery x0 x1 s) := by
  unfold execConfigQuery
  repeat' first
    | with_reducible first
        | assumption | apply command_good | apply cmdConfigQuery_good | refine Good.of ?_ | refine Good.next ?_
    | split | (show Kept _ _ _ _ _ _ _ _; dsimp only)

theorem skimRecord_good {q x0 x1 s} (h : Good q s) : Good q (skimRecord x0 x1 s).st := by
  unfold skimRecord
  split
  · exact refuse_good h
  · exact runRecord_good h

theorem runSkim_good {q x0 s} (h : Good q s) : Good q (runSkim x0 s) := by
  unfold runSkim
  repeat' first
    | with_reducible first
        | assumption | apply skimRecord_good | apply keepRefusals_good | refine Good.of ?_ | refine Good.next ?_
        | intro _ | apply Good.foldl | refine Good.fst (by assumption) ?_ | refine Good.snd (by assumption) ?_
        | refine Good.some ?_ | exact GoodOpt.none | refine GoodOpt.map ?_ | refine Good.getD ?_ ?_
        | refine Good.elim ?_ ?_ | refine Good.okay ?_ | exact GoodExc.error | apply Good.foldl2 | apply Good.foldl3
        | apply Good.foldl1 | refine Good.left (by assumption) ?_ | refine Good.head (by assumption) ?_
        | refine Good.opt (by assumption) ?_ | refine Good.exc (by assumption) ?_
    | split | dsimp only | (show Kept _ _ _ _ _ _ _ _; dsimp only)

theorem applyOne_good {q x1 s} (h : Good q s) : Good q (applyOne s x1) := by
  unfold applyOne
  repeat' first
    | with_reducible first
        | assumption | apply runSkim_good | apply armCommit_good | apply settleMotion_good | refine Good.of ?_
        | refine Good.next ?_ | intro _ | apply Good.foldl | refine Good.fst (by assumption) ?_
        | refine Good.snd (by assumption) ?_ | refine Good.some ?_ | exact GoodOpt.none | refine GoodOpt.map ?_
        | refine Good.getD ?_ ?_ | refine Good.elim ?_ ?_ | refine Good.okay ?_ | exact GoodExc.error
        | apply Good.foldl2 | apply Good.foldl3 | apply Good.foldl1 | refine Good.left (by assumption) ?_
        | refine Good.head (by assumption) ?_ | refine Good.opt (by assumption) ?_
        | refine Good.exc (by assumption) ?_
    | split | dsimp only | (show Kept _ _ _ _ _ _ _ _; dsimp only)

theorem stateBefore_good {q s n} (h : Good q s) : Good q (stateBefore s n) := by
  unfold stateBefore
  refine Good.foldl ?_ h
  intro s a hs
  cases tfind s.cfg.skims a.skim with
  | none => exact hs
  | some k => exact runSkim_good hs

theorem answerSkim_good {q x1 x2 x3 s} (h : Good q s) : Good q (answerSkim s x1 x2 x3) := by
  unfold answerSkim
  exact sendSkimTo_good h

theorem removeApply_good {q x1 x2 s} (h : Good q s) : Good q (removeApply s x1 x2) := h

theorem cancelApply_good {q x0 x1 s} (h : Good q s) : Good q (cancelApply x0 x1 s).st := by
  unfold cancelApply
  repeat' first
    | with_reducible first
        | assumption | apply refuse_good | apply dropApprovals_good | apply settleMotion_good | apply ok_good
        | apply sendSkim_good | refine Good.of ?_ | refine Good.next ?_ | intro _ | apply Good.foldl
        | refine Good.fst (by assumption) ?_ | refine Good.snd (by assumption) ?_ | refine Good.some ?_
        | exact GoodOpt.none | refine GoodOpt.map ?_ | refine Good.getD ?_ ?_ | refine Good.elim ?_ ?_
        | refine Good.okay ?_ | exact GoodExc.error | apply Good.foldl2 | apply Good.foldl3 | apply Good.foldl1
        | refine Good.left (by assumption) ?_ | refine Good.head (by assumption) ?_
        | refine Good.opt (by assumption) ?_ | refine Good.exc (by assumption) ?_
    | split | dsimp only | (show Kept _ _ _ _ _ _ _ _; dsimp only)

theorem addApply_good {q x1 s} (h : Good q s) : Good q (addApply s x1) := by
  unfold addApply
  repeat' first
    | with_reducible first
        | assumption | apply takeDetector_good | refine Good.of ?_ | refine Good.next ?_ | intro _ | apply Good.foldl
        | refine Good.fst (by assumption) ?_ | refine Good.snd (by assumption) ?_ | refine Good.some ?_
        | exact GoodOpt.none | refine GoodOpt.map ?_ | refine Good.getD ?_ ?_ | refine Good.elim ?_ ?_
        | refine Good.okay ?_ | exact GoodExc.error | apply Good.foldl2 | apply Good.foldl3 | apply Good.foldl1
        | refine Good.left (by assumption) ?_ | refine Good.head (by assumption) ?_
        | refine Good.opt (by assumption) ?_ | refine Good.exc (by assumption) ?_
    | split | dsimp only | (show Kept _ _ _ _ _ _ _ _; dsimp only)

theorem holdApply_good {q x0 x2 x3 x4 s} (h : Good q s) : Good q (holdApply x0 s x2 x3 x4) := by
  unfold holdApply
  repeat' first
    | with_reducible first
        | assumption | apply addApply_good | apply postApproval_good | refine Good.of ?_ | refine Good.next ?_
    | split | (show Kept _ _ _ _ _ _ _ _; dsimp only)

theorem finishApply_good {q x0 x1 x2 s} (h : Good q s) : Good q (finishApply x0 x1 x2 s).st := by
  unfold finishApply
  repeat' first
    | with_reducible first
        | assumption | apply refuse_good | apply refuseFull_good | apply sendSkim_good | apply holdApply_good
        | apply ok_good | apply addApply_good | refine Good.of ?_ | refine Good.next ?_
    | split | (show Kept _ _ _ _ _ _ _ _; dsimp only)

theorem applyFault_good {q s x1 x2 r} (h : Good q s) (e : applyFault s x1 x2 = some r) : Good q r.st := by
  unfold applyFault at e
  split at e
  · cases e; exact refuse_good h
  · split at e
    · cases e; exact refuse_good h
    · obtain ⟨_, _, rfl⟩ := Option.map_eq_some_iff.mp e
      exact keepRefusals_good h

theorem cmdSkimApply_good {q x0 x1 s} (h : Good q s) : Good q (cmdSkimApply x0 x1 s).st := by
  unfold cmdSkimApply
  split
  · exact cancelApply_good h
  · split
    · exact refuse_good h
    · split
      · rename_i e; exact applyFault_good h e
      · split
        · exact h
        · split
          · exact finishApply_good h
          · exact refuse_good h

theorem execSkimApply_good {q x0 x1 s} (h : Good q s) : GoodOut q (execSkimApply x0 x1 s) := by
  unfold execSkimApply
  repeat' first
    | with_reducible first
        | assumption | apply command_good | apply cmdSkimApply_good | refine Good.of ?_ | refine Good.next ?_
    | split | (show Kept _ _ _ _ _ _ _ _; dsimp only)

theorem execSkimApprove_good {q x0 x1 s} (h : Good q s) : GoodOut q (execSkimApprove x0 x1 s) := by
  unfold execSkimApprove
  repeat' first
    | with_reducible first
        | assumption | apply command_good | apply cmdSkimApprove_good | refine Good.of ?_ | refine Good.next ?_
    | split | (show Kept _ _ _ _ _ _ _ _; dsimp only)

theorem takeStore_good {q x1 x2 x3 x4 s} (h : Good q s) : Good q (takeStore s x1 x2 x3 x4) := by
  unfold takeStore
  repeat' first
    | with_reducible first
        | assumption | apply answerSkim_good | apply storeSkim_good | refine Good.of ?_ | refine Good.next ?_
    | split | (show Kept _ _ _ _ _ _ _ _; dsimp only)

theorem takeApply_good {q x1 x2 x3 x4 x5 s} (h : Good q s) : Good q (takeApply s x1 x2 x3 x4 x5) := by
  unfold takeApply
  repeat' first
    | with_reducible first
        | assumption | apply answerSkim_good | apply stateBefore_good | apply keepRefusals_good
        | apply State_countRefusal_good | apply addApply_good | refine Good.of ?_ | refine Good.next ?_
    | split | (show Kept _ _ _ _ _ _ _ _; dsimp only)

theorem skimMessage_good {q x1 x2 s} (h : Good q s) : Good q (skimMessage s x1 x2) := by
  unfold skimMessage
  repeat' first
    | with_reducible first
        | assumption | apply takeStore_good | apply takeApply_good | apply answerSkim_good | apply removeApply_good
        | refine Good.of ?_ | refine Good.next ?_
    | split | (show Kept _ _ _ _ _ _ _ _; dsimp only)

theorem applySkims_good {q s} (h : Good q s) : Good q (applySkims s) := by
  unfold applySkims
  repeat' first
    | with_reducible first
        | assumption | apply applyOne_good | refine Good.of ?_ | refine Good.next ?_ | intro _ | apply Good.foldl
    | split | dsimp only | (show Kept _ _ _ _ _ _ _ _; dsimp only)

theorem execSkimMessageReceive_good {q x0 x1 x2 s} (h : Good q s) : GoodOut q (execSkimMessageReceive x0 x1 x2 s) := by
  unfold execSkimMessageReceive
  repeat' first
    | with_reducible first
        | assumption | apply packetIn_good | apply sendBlocks_good | apply State_emit_good | apply skimMessage_good
        | refine Good.of ?_ | refine Good.next ?_ | intro _ | apply Good.foldl | refine Good.fst (by assumption) ?_
        | refine Good.snd (by assumption) ?_ | refine Good.some ?_ | exact GoodOpt.none | refine GoodOpt.map ?_
        | refine Good.getD ?_ ?_ | refine Good.elim ?_ ?_ | refine Good.okay ?_ | exact GoodExc.error
        | apply Good.foldl2 | apply Good.foldl3 | apply Good.foldl1 | refine Good.left (by assumption) ?_
        | refine Good.head (by assumption) ?_ | refine Good.opt (by assumption) ?_
        | refine Good.exc (by assumption) ?_
    | split | dsimp only | (show Kept _ _ _ _ _ _ _ _; dsimp only)

/-! ### Errors -/

theorem exitSafe_good {q s} (h : Good q s) : Good q (exitSafe s) := by
  unfold exitSafe
  repeat' first
    | with_reducible first
        | assumption | apply setFences_good | apply postFence_good | refine Good.of ?_ | refine Good.next ?_
    | split | (show Kept _ _ _ _ _ _ _ _; dsimp only)

theorem ackErrors_good {q x0 s} (h : Good q s) : Good q (ackErrors x0 s) := h

theorem cmdErrRead_good {q x0 s} (h : Good q s) : Good q (cmdErrRead x0 s).st := by
  unfold cmdErrRead
  repeat' first
    | with_reducible first
        | assumption | apply refuse_good | apply ok_good | refine Good.of ?_ | refine Good.next ?_
    | split | (show Kept _ _ _ _ _ _ _ _; dsimp only)

theorem endSafe_good {q s} (h : Good q s) : Good q (endSafe s) := by
  unfold endSafe
  repeat' first
    | with_reducible first
        | assumption | apply exitSafe_good | refine Good.of ?_ | refine Good.next ?_
    | split | (show Kept _ _ _ _ _ _ _ _; dsimp only)

theorem cmdErrAck_good {q x0 x1 s} (h : Good q s) : Good q (cmdErrAck x0 x1 s).st := by
  unfold cmdErrAck
  repeat' first
    | with_reducible first
        | assumption | apply refuse_good | apply endSafe_good | apply ackErrors_good | apply ok_good
        | refine Good.of ?_ | refine Good.next ?_
    | split | (show Kept _ _ _ _ _ _ _ _; dsimp only)

theorem execErrAck_good {q x0 x1 s} (h : Good q s) : GoodOut q (execErrAck x0 x1 s) := by
  unfold execErrAck
  repeat' first
    | with_reducible first
        | assumption | apply command_good | apply cmdErrAck_good | refine Good.of ?_ | refine Good.next ?_
    | split | (show Kept _ _ _ _ _ _ _ _; dsimp only)

theorem execErrRead_good {q x0 x1 s} (h : Good q s) : GoodOut q (execErrRead x0 x1 s) := by
  unfold execErrRead
  repeat' first
    | with_reducible first
        | assumption | apply command_good | apply cmdErrRead_good | refine Good.of ?_ | refine Good.next ?_
    | split | (show Kept _ _ _ _ _ _ _ _; dsimp only)

/-! ### Mailbox -/

theorem drawAnswer_good {q s} (h : Good q s) : Good q (drawAnswer s).2 := by
  unfold drawAnswer
  repeat' first
    | with_reducible first | assumption | apply State_drawNat_good
    | with_reducible intro _
    | (with_reducible refine Good.of ?_)
    | with_reducible first | (refine Good.next ?_) | (refine Good.some ?_) | exact GoodOpt.none | (refine GoodOpt.map ?_) | (refine Good.getD ?_ ?_) | (refine Good.okay ?_) | exact GoodExc.error
    | with_reducible first | apply Good.foldl | apply Good.foldl2 | apply Good.foldl3 | apply Good.foldl1 | (refine Good.fst (by assumption) ?_) | (refine Good.snd (by assumption) ?_) | (refine Good.left (by assumption) ?_) | (refine Good.head (by assumption) ?_) | (refine Good.opt (by assumption) ?_) | (refine Good.exc (by assumption) ?_)
    | split
    | dsimp only
    | (show Kept _ _ _ _ _ _ _ _; dsimp only)

theorem withAck_good {q run s} (hr : ∀ b s, Good q s → Good q (run b s).st) (h : Good q s) : Good q (withAck run s).st := by
  unfold withAck
  split
  · exact hr _ _ h
  · exact hr _ _ (State_drawBool_good h)

theorem withPeers_good {q run s} (hr : ∀ l s, Good q s → Good q (run l s).st) (h : Good q s) :
    Good q (withPeers run s).st := by
  unfold withPeers
  split
  · exact hr _ _ h
  · exact hr _ _ (drawAnswer_good h)

theorem formConfig_good {code n f} (e : formConfig code n = some f) : FormGood f := by
  unfold formConfig at e
  repeat' split at e
  all_goals cases e
  · exact fun _ _ _ h => cmdBedLoad_good h
  · exact fun _ _ _ h => withAck_good (fun _ _ h => cmdSkimStore_good h) h
  · exact fun _ _ _ h => withPeers_good (fun _ _ h => cmdSkimApply_good h) h
  · exact fun _ _ _ h => withAck_good (fun _ _ h => cmdSkimApprove_good h) h
  · exact fun _ _ _ h => cmdConfigQuery_good h

theorem formOf_good {code l f} (e : formOf code l = some f) : FormGood f := by
  unfold formOf at e
  dsimp only at e
  split at e
  · cases e; exact fun _ _ _ h => cmdClose_good h
  · cases e; exact fun _ _ _ h => cmdRoleQuery_good h
  · cases e; exact fun _ _ _ h => cmdErrRead_good h
  · cases e; exact fun _ _ _ h => cmdErrAck_good h
  · split at e
    · exact formConfig_good e
    · exact objectForm_good e

theorem openForm_good {code l} : FormGood (openForm code l) := by
  unfold openForm
  dsimp only
  split
  · exact fun _ _ _ h => cmdHello_good h
  · exact fun _ _ _ h => cmdProve_good h

theorem runOpen_good {q c code rec s} (h : Good q s) : Good q (runOpen c code rec s) := by
  unfold runOpen
  split
  · exact complete_good (refuse_good h)
  · exact complete_good (runForm_good (fun _ e => by cases e; exact openForm_good) h)

theorem wrongTag_good {q x1 x2 s} (h : Good q s) : Good q (wrongTag s x1 x2) := by
  unfold wrongTag
  repeat' first
    | with_reducible first
        | assumption | apply State_setSession_good | apply endSession_good | apply raiseErr_good | refine Good.of ?_
        | refine Good.next ?_
    | split | (show Kept _ _ _ _ _ _ _ _; dsimp only)

theorem restingForm_good {b f} (h : FormGood f) : FormGood (restingForm b f) := by
  unfold restingForm
  split
  · exact fun _ _ _ h => refuse_good h
  · exact h

theorem runTagged_good {q c code rec x s} (h : Good q s) : Good q (runTagged c code rec x s) := by
  unfold runTagged
  dsimp only
  split
  · exact completeAccepted_good (refuse_good h)
  · split
    · exact completeAccepted_good (refuse_good h)
    · refine completeAccepted_good (runForm_good (fun g e => ?_) h)
      obtain ⟨f, ef, rfl⟩ := Option.map_eq_some_iff.mp e
      exact restingForm_good (formOf_good ef)

theorem examine_good {q x0 x1 x2 s} (h : Good q s) : Good q (examine x0 x1 x2 s) := by
  unfold examine
  repeat' first
    | with_reducible first
        | assumption | apply complete_good | apply refuse_good | apply runOpen_good | apply wrongTag_good
        | apply runTagged_good | apply noteCode_good | apply acceptSeq_good | refine Good.of ?_ | refine Good.next ?_
    | split | (show Kept _ _ _ _ _ _ _ _; dsimp only)

theorem sluiceRecord_good {q x0 x1 x2 x3 s} (h : Good q s) : Good q (sluiceRecord x0 x1 x2 x3 s) := by
  unfold sluiceRecord
  repeat' first
    | with_reducible first
        | assumption | apply sluiceDropped_good | apply complete_good | apply refuse_good | apply noteHost_good
        | apply State_emit_good | apply examine_good | refine Good.of ?_ | refine Good.next ?_
    | split | (show Kept _ _ _ _ _ _ _ _; dsimp only)

theorem takeRecord_good {q x0 x1 s} (h : Good q s) : Good q (takeRecord x0 x1 s) := by
  unfold takeRecord
  repeat' first
    | with_reducible first
        | assumption | apply examine_good | refine Good.of ?_ | refine Good.next ?_ | intro _ | apply Good.foldl
        | refine Good.fst (by assumption) ?_ | refine Good.snd (by assumption) ?_ | refine Good.some ?_
        | exact GoodOpt.none | refine GoodOpt.map ?_ | refine Good.getD ?_ ?_ | refine Good.elim ?_ ?_
        | refine Good.okay ?_ | exact GoodExc.error | apply Good.foldl2 | apply Good.foldl3 | apply Good.foldl1
        | refine Good.left (by assumption) ?_ | refine Good.head (by assumption) ?_
        | refine Good.opt (by assumption) ?_ | refine Good.exc (by assumption) ?_
    | split | dsimp only | (show Kept _ _ _ _ _ _ _ _; dsimp only)

theorem submit_good {q x0 s} (h : Good q s) : Good q (submit x0 s) := by
  unfold submit
  repeat' first
    | with_reducible first
        | assumption | apply mailboxDone_good | apply noteHost_good | apply State_setMailbox_good
        | apply takeRecord_good | refine Good.of ?_ | refine Good.next ?_ | intro _ | apply Good.foldl
        | refine Good.fst (by assumption) ?_ | refine Good.snd (by assumption) ?_ | refine Good.some ?_
        | exact GoodOpt.none | refine GoodOpt.map ?_ | refine Good.getD ?_ ?_ | refine Good.elim ?_ ?_
        | refine Good.okay ?_ | exact GoodExc.error | apply Good.foldl2 | apply Good.foldl3 | apply Good.foldl1
        | refine Good.left (by assumption) ?_ | refine Good.head (by assumption) ?_
        | refine Good.opt (by assumption) ?_ | refine Good.exc (by assumption) ?_
    | split | dsimp only | (show Kept _ _ _ _ _ _ _ _; dsimp only)

theorem execSluiceDatagram_good {q x0 x1 x2 x3 x4 s} (h : Good q s) : GoodOut q (execSluiceDatagram x0 x1 x2 x3 x4 s) := by
  unfold execSluiceDatagram
  repeat' first
    | with_reducible first
        | assumption | apply sluiceDropped_good | apply State_setPort_good | apply sluiceRecord_good
        | refine Good.of ?_ | refine Good.next ?_
    | split | dsimp only | (show Kept _ _ _ _ _ _ _ _; dsimp only)

theorem goneTaken_good {q x0 x1 x2 s} (h : Good q s) : Good q (goneTaken x0 x1 x2 s) := by
  unfold goneTaken
  repeat' first
    | with_reducible first
        | assumption | apply abandonRunning_good | apply State_setMailbox_good | apply endSessions_good
        | refine Good.of ?_ | refine Good.next ?_ | intro _ | apply Good.foldl | refine Good.fst (by assumption) ?_
        | refine Good.snd (by assumption) ?_ | refine Good.some ?_ | exact GoodOpt.none | refine GoodOpt.map ?_
        | refine Good.getD ?_ ?_ | refine Good.elim ?_ ?_ | refine Good.okay ?_ | exact GoodExc.error
        | apply Good.foldl2 | apply Good.foldl3 | apply Good.foldl1 | refine Good.left (by assumption) ?_
        | refine Good.head (by assumption) ?_ | refine Good.opt (by assumption) ?_
        | refine Good.exc (by assumption) ?_
    | split | dsimp only | (show Kept _ _ _ _ _ _ _ _; dsimp only)

theorem startWaiting_good {q x1 s} (h : Good q s) : Good q (startWaiting s x1) := by
  unfold startWaiting
  repeat' first
    | with_reducible first
        | assumption | apply takeRecord_good | apply State_setMailbox_good | apply goneTaken_good | refine Good.of ?_
        | refine Good.next ?_ | intro _ | apply Good.foldl | refine Good.fst (by assumption) ?_
        | refine Good.snd (by assumption) ?_ | refine Good.some ?_ | exact GoodOpt.none | refine GoodOpt.map ?_
        | refine Good.getD ?_ ?_ | refine Good.elim ?_ ?_ | refine Good.okay ?_ | exact GoodExc.error
        | apply Good.foldl2 | apply Good.foldl3 | apply Good.foldl1 | refine Good.left (by assumption) ?_
        | refine Good.head (by assumption) ?_ | refine Good.opt (by assumption) ?_
        | refine Good.exc (by assumption) ?_
    | split | dsimp only | (show Kept _ _ _ _ _ _ _ _; dsimp only)

/-- A step on an empty queue lets a PAN cycle pass and starts the mailbox records that wait. -/
theorem idleStep_good {q s} (h : Good q s) : Good { q with now := q.now + panT } (idleStep s) :=
  Good.foldl (fun _ _ h => startWaiting_good h) (idleCycle_good h)

theorem writeMailbox_good {q x0 x1 s} (h : Good q s) : Good q (writeMailbox x0 x1 s) := by
  unfold writeMailbox
  repeat' first
    | with_reducible first
        | assumption | apply State_setMailbox_good | apply submit_good | refine Good.of ?_ | refine Good.next ?_
    | split | (show Kept _ _ _ _ _ _ _ _; dsimp only)

theorem writeMailboxWord_good {q x0 x1 x2 s} (h : Good q s) : Good q (writeMailboxWord x0 x1 x2 s) := by
  unfold writeMailboxWord
  repeat' first
    | with_reducible first
        | assumption | apply writeMailbox_good | apply writeRequest_good | refine Good.of ?_ | refine Good.next ?_
    | split | (show Kept _ _ _ _ _ _ _ _; dsimp only)

theorem execMailboxAck_good {q x0 x1 s} (h : Good q s) : GoodOut q (execMailboxAck x0 x1 s) := by
  unfold execMailboxAck
  repeat' first
    | with_reducible first
        | assumption | apply writeMailbox_good | refine Good.of ?_ | refine Good.next ?_
    | split | (show Kept _ _ _ _ _ _ _ _; dsimp only)

theorem execMailboxGo_good {q x0 x1 s} (h : Good q s) : GoodOut q (execMailboxGo x0 x1 s) := by
  unfold execMailboxGo
  repeat' first
    | with_reducible first
        | assumption | apply writeMailbox_good | refine Good.of ?_ | refine Good.next ?_
    | split | (show Kept _ _ _ _ _ _ _ _; dsimp only)

theorem writeEvrWord_good {q x0 x1 s} (h : Good q s) : Good q (writeEvrWord x0 x1 s) := by
  unfold writeEvrWord
  repeat' first
    | with_reducible first
        | assumption | apply writeEnable_good | apply writeCons_good | apply writeEvr_good | refine Good.of ?_
        | refine Good.next ?_
    | split | (show Kept _ _ _ _ _ _ _ _; dsimp only)

theorem writeHwa_good {q x0 x1 s} (h : Good q s) : Good q (writeHwa x0 x1 s) := by
  unfold writeHwa
  repeat' first
    | with_reducible first
        | assumption | apply writeMailboxWord_good | apply writeEvrWord_good | apply clearStatus_good
        | apply writeMask_good | apply writeHbFence_good | apply writeHwbBase_good | refine Good.of ?_
        | refine Good.next ?_
    | split | (show Kept _ _ _ _ _ _ _ _; dsimp only)

theorem execRegisterWrite_good {q x0 x1 x2 s} (h : Good q s) : GoodOut q (execRegisterWrite x0 x1 x2 s) := by
  unfold execRegisterWrite
  repeat' first
    | with_reducible first
        | assumption | apply writeHwa_good | apply writeMsix_good | apply writeMsixControl_good | refine Good.of ?_
        | refine Good.next ?_ | intro _ | apply Good.foldl | refine Good.fst (by assumption) ?_
        | refine Good.snd (by assumption) ?_ | refine Good.some ?_ | exact GoodOpt.none | refine GoodOpt.map ?_
        | refine Good.getD ?_ ?_ | refine Good.elim ?_ ?_ | refine Good.okay ?_ | exact GoodExc.error
        | apply Good.foldl2 | apply Good.foldl3 | apply Good.foldl1 | refine Good.left (by assumption) ?_
        | refine Good.head (by assumption) ?_ | refine Good.opt (by assumption) ?_
        | refine Good.exc (by assumption) ?_
    | split | dsimp only | (show Kept _ _ _ _ _ _ _ _; dsimp only)

/-! ### Tide -/

theorem takeColours_good {q s} (h : Good q s) : Good q (takeColours s) := h

theorem tidePans_good {q s} (h : Good q s) : Good q (tidePans s) := by
  unfold tidePans
  repeat' first
    | with_reducible first
        | assumption | apply tideCopies_good | apply State_setPan_good | refine Good.of ?_ | refine Good.next ?_
        | intro _ | apply Good.foldl
    | split | dsimp only | (show Kept _ _ _ _ _ _ _ _; dsimp only)

theorem takeRate_good {q s} (h : Good q s) : Good q (takeRate s) := by
  unfold takeRate
  repeat' first
    | with_reducible first
        | assumption | refine Good.of ?_ | refine Good.next ?_
    | split | (show Kept _ _ _ _ _ _ _ _; dsimp only)

theorem takeBed_good {q s} (h : Good q s) : Good q (takeBed s) := by
  unfold takeBed
  repeat' first
    | with_reducible first
        | assumption | apply applyBed_good | refine Good.of ?_ | refine Good.next ?_
    | split | (show Kept _ _ _ _ _ _ _ _; dsimp only)

theorem tideEffects_good {q x1 s} (h : Good q s) : Good q (tideEffects s x1) := by
  unfold tideEffects
  repeat' first
    | with_reducible first
        | assumption | apply tideMessages_good | apply decodeTide_good | apply tidePans_good | apply takeColours_good
        | apply takeRate_good | apply applySkims_good | apply takeBed_good
    | (show Kept _ _ _ _ _ _ _ _; dsimp only)

theorem tideRebase_good {q x1 x2 x3 s} (h : Good q s) : Good q (tideRebase s x1 x2 x3) := by
  unfold tideRebase
  repeat' first
    | with_reducible first
        | assumption | apply raiseErr_good | apply postFw_good | refine Good.of ?_ | refine Good.next ?_
    | split | (show Kept _ _ _ _ _ _ _ _; dsimp only)

theorem advanceTide_good {q s} (h : Good q s) : Good q (advanceTide s) := by
  unfold advanceTide
  repeat' first
    | with_reducible first
        | assumption | apply tideRebase_good | refine Good.of ?_ | refine Good.next ?_
    | split | (show Kept _ _ _ _ _ _ _ _; dsimp only)

theorem execTide_good {q s} (h : Good q s) : GoodOut q (execTide s) := by
  unfold execTide
  repeat' first
    | with_reducible first
        | assumption | apply tideEffects_good | apply pruneWords_good | apply slewWord_good | apply advanceTide_good
        | refine Good.of ?_ | refine Good.next ?_
    | split | (show Kept _ _ _ _ _ _ _ _; dsimp only)

/-! ### Startup -/

/-- The key store keeps its keys where the rest of each slot returns to reset. -/
theorem keptKeys {g : Nat → List Byte → Prop} {t : Tab KeySlot} (h : ∀ k x, g k x → (tget ({} : KeySlot) t k).key = some x) :
    ∀ k x, g k x → (tget ({} : KeySlot) (tmap (fun _ (k : KeySlot) => { ({} : KeySlot) with key := k.key }) t) k).key = some x := by
  intro k x hk
  have e := h k x hk
  unfold tget at e
  unfold tget
  rw [tfind_tmap]
  cases hf : tfind t k with
  | none => rw [hf] at e; exact e
  | some v => rw [hf] at e; exact e

theorem released_good {q s} (k : Clocks) (td sr pw sl sc f) (hk : k.now = s.clk.now) (h : Good q s) :
    Good q { s with clk := k, tide := td, start := sr, power := pw, slots := sl, mem := { s.mem with scrub := sc }, fences := f } :=
  ⟨h.queue, h.cells, h.locked, h.keys, h.out, hk.trans h.now⟩

theorem releaseDie_good {q s} (h : Good q s) : Good q (releaseDie s) := by
  unfold releaseDie
  dsimp only
  split
  · exact ballChange_good (released_good _ _ _ _ _ _ _ rfl h)
  · exact released_good _ _ _ _ _ _ _ rfl h

theorem execWarmResetRelease_good {q s} (h : Good q s) : GoodOut q (execWarmResetRelease s) := by
  unfold execWarmResetRelease
  repeat' first
    | with_reducible first
        | assumption | apply releaseDie_good | apply raiseErr_good | apply enterSafe_good | refine Good.of ?_
        | refine Good.next ?_
    | split | (show Kept _ _ _ _ _ _ _ _; dsimp only)

/-- PORST_N keeps all but the locked regions (R506, R392). -/
theorem execPorstNAssert_good {q s} (h : Good q s) : GoodOut { q with locked := fun _ _ => False } (execPorstNAssert s) := by
  have hp : Good { q with locked := fun _ _ => False } (powerOff s) :=
    ⟨h.queue, (fun _ => rfl), fun _ _ e => e.elim, keptKeys h.keys, h.out, h.now⟩
  exact Good.next hp

theorem hostLinkDown_good {q s} (h : Good q s) : Good q (hostLinkDown s) := by
  unfold hostLinkDown
  repeat' first
    | with_reducible first
        | assumption | apply endSessions_good | apply abandonRunning_good | refine Good.of ?_ | refine Good.next ?_
    | split | (show Kept _ _ _ _ _ _ _ _; dsimp only)

theorem execPerstN_good {q s} (h : Good q s) : GoodOut q (execPerstN s) := by
  unfold execPerstN
  repeat' first
    | with_reducible first
        | assumption | apply hostLinkDown_good | refine Good.of ?_ | refine Good.next ?_
    | split | (show Kept _ _ _ _ _ _ _ _; dsimp only)

theorem execPwrGood_good {q x0 s} (h : Good q s) : GoodOut q (execPwrGood x0 s) := by
  unfold execPwrGood
  repeat' first
    | with_reducible first
        | assumption | apply pmbus_good | apply loadNvm_good | apply releaseDie_good | apply raiseErr_good
        | apply startRun_good | refine Good.of ?_ | refine Good.next ?_ | intro _ | apply Good.foldl
        | refine Good.fst (by assumption) ?_ | refine Good.snd (by assumption) ?_ | refine Good.some ?_
        | exact GoodOpt.none | refine GoodOpt.map ?_ | refine Good.getD ?_ ?_ | refine Good.elim ?_ ?_
        | refine Good.okay ?_ | exact GoodExc.error | apply Good.foldl2 | apply Good.foldl3 | apply Good.foldl1
        | refine Good.left (by assumption) ?_ | refine Good.head (by assumption) ?_
        | refine Good.opt (by assumption) ?_ | refine Good.exc (by assumption) ?_
    | split | dsimp only | (show Kept _ _ _ _ _ _ _ _; dsimp only)

theorem defaultBedBad_good {q x1 x2 s} (h : Good q s) : Good q (defaultBedBad s x1 x2) := by
  unfold defaultBedBad
  repeat' first
    | with_reducible first
        | assumption | apply raiseErr_good
    | (show Kept _ _ _ _ _ _ _ _; dsimp only)

theorem firstBed_good {q l s} (h : Good q s) : Good q (firstBed l s) := by
  induction l generalizing s with
  | nil => exact h
  | cons e r ih =>
    obtain ⟨k, b⟩ := e
    unfold firstBed
    split
    · rename_i e; exact acceptBed_good (checkBed_good h e)
    · rename_i e; exact ih (defaultBedBad_good (checkBed_fault h e))

theorem warmState_good {q s n} (h : Good q s) : Good q (warmState s n) := by
  refine ⟨h.queue, h.cells, ?_, ?_, h.out, h.now⟩
  · intro n r hr
    have a := h.locked n r hr
    refine ⟨a.1, ?_⟩
    show tfind (s.mem.dyke.force.filter (fun e => s.mem.dyke.locked.contains e.1)) n = some r
    rw [tfind_filter (p := fun k => s.mem.dyke.locked.contains k) (by simpa using a.1)]
    exact a.2
  · exact keptKeys h.keys

theorem beginWarm_good {q x1 s} (h : Good q s) : Good q (beginWarm s x1) := by
  unfold beginWarm
  repeat' first
    | with_reducible first
        | assumption | apply endDebug_good | apply releaseDeferred_good | apply warmState_good
        | apply restartWarden_good | refine Good.of ?_ | refine Good.next ?_ | intro _ | apply Good.foldl
        | refine Good.fst (by assumption) ?_ | refine Good.snd (by assumption) ?_ | refine Good.some ?_
        | exact GoodOpt.none | refine GoodOpt.map ?_ | refine Good.getD ?_ ?_ | refine Good.elim ?_ ?_
        | refine Good.okay ?_ | exact GoodExc.error | apply Good.foldl2 | apply Good.foldl3 | apply Good.foldl1
        | refine Good.left (by assumption) ?_ | refine Good.head (by assumption) ?_
        | refine Good.opt (by assumption) ?_ | refine Good.exc (by assumption) ?_
    | split | dsimp only | (show Kept _ _ _ _ _ _ _ _; dsimp only)

theorem execRestTimeout_good {q s} (h : Good q s) : GoodOut q (execRestTimeout s) := by
  unfold execRestTimeout
  repeat' first
    | with_reducible first
        | assumption | apply enterPower_good | apply beginWarm_good | refine Good.of ?_ | refine Good.next ?_
    | split | (show Kept _ _ _ _ _ _ _ _; dsimp only)

theorem execLrefALost_good {q s} (h : Good q s) : GoodOut q (execLrefALost s) := by
  unfold execLrefALost
  repeat' first
    | with_reducible first
        | assumption | apply raiseErr_good | refine Good.of ?_ | refine Good.next ?_
    | split | (show Kept _ _ _ _ _ _ _ _; dsimp only)

theorem execThermalCheck_good {q x0 s} (h : Good q s) : GoodOut q (execThermalCheck x0 s) := by
  unfold execThermalCheck
  repeat' first
    | with_reducible first
        | assumption | apply raiseErr_good | refine Good.of ?_ | refine Good.next ?_
    | split | (show Kept _ _ _ _ _ _ _ _; dsimp only)

theorem readRetained_good {q s} (h : Good q s) : Good q (readRetained s).2 := by
  unfold readRetained
  repeat' first
    | with_reducible first
        | assumption | apply wardenRead_good | refine Good.of ?_ | refine Good.next ?_
    | split | (show Kept _ _ _ _ _ _ _ _; dsimp only)

theorem startBed_good {q x0 s} (h : Good q s) : Good q (startBed x0 s) := by
  unfold startBed
  repeat' first
    | with_reducible first
        | assumption | apply readRetained_good | apply firstBed_good | refine Good.of ?_ | refine Good.next ?_
    | split | (show Kept _ _ _ _ _ _ _ _; dsimp only)

theorem execWardenReady_good {q x0 s} (h : Good q s) : GoodOut q (execWardenReady x0 s) := by
  unfold execWardenReady
  repeat' first
    | with_reducible first
        | assumption | apply flushHeld_good | apply startBed_good | refine Good.of ?_ | refine Good.next ?_
    | split | dsimp only | (show Kept _ _ _ _ _ _ _ _; dsimp only)

theorem haltWarden_good {q s} (h : Good q s) : Good q (haltWarden s) := by
  unfold haltWarden
  repeat' first
    | with_reducible first
        | assumption | apply raiseErr_good | refine Good.of ?_ | refine Good.next ?_
    | split | (show Kept _ _ _ _ _ _ _ _; dsimp only)

theorem lockNew_keeps {d : Dyke} {m n : Nat} {r x : Region} (hn : n ∈ d.locked) (hr : tfind d.force n = some r) :
    n ∈ (lockNew d m x).locked ∧ tfind (lockNew d m x).force n = some r := by
  unfold lockNew
  split
  · exact ⟨hn, hr⟩
  · rename_i hm
    have hne : n ≠ m := fun e => hm (by subst e; simpa using hn)
    exact ⟨mem_insertAsc.2 (Or.inr hn), by rw [tfind_tset_other hne]; exact hr⟩

theorem runImage_good {q x1 x2 s} (h : Good q s) : Good q (runImage s x1 x2) := by
  have hd := setDyke_good (d := bootRegions s.mem.dyke) h (fun n r hn hr => by
    have a := lockNew_keeps (m := 254) (x := wardenRegion 0xB3FD00 0x100) hn hr
    exact lockNew_keeps a.1 a.2)
  exact hd

theorem imageBad_good {q x1 x2 s} (h : Good q s) : Good q (imageBad s x1 x2) := by
  unfold imageBad
  repeat' first
    | with_reducible first
        | assumption | apply raiseErr_good | refine Good.of ?_ | refine Good.next ?_ | intro _ | apply Good.foldl
        | refine Good.fst (by assumption) ?_ | refine Good.snd (by assumption) ?_ | refine Good.some ?_
        | exact GoodOpt.none | refine GoodOpt.map ?_ | refine Good.getD ?_ ?_ | refine Good.elim ?_ ?_
        | refine Good.okay ?_ | exact GoodExc.error | apply Good.foldl2 | apply Good.foldl3 | apply Good.foldl1
        | refine Good.left (by assumption) ?_ | refine Good.head (by assumption) ?_
        | refine Good.opt (by assumption) ?_ | refine Good.exc (by assumption) ?_
    | split | dsimp only | (show Kept _ _ _ _ _ _ _ _; dsimp only)

theorem execFirmwareBoot_good {q x0 x1 s} (h : Good q s) : GoodOut q (execFirmwareBoot x0 x1 s) := by
  unfold execFirmwareBoot
  repeat' first
    | with_reducible first
        | assumption | apply haltWarden_good | apply runImage_good | apply imageBad_good | refine Good.of ?_
        | refine Good.next ?_ | intro _ | apply Good.foldl | refine Good.fst (by assumption) ?_
        | refine Good.snd (by assumption) ?_ | refine Good.some ?_ | exact GoodOpt.none | refine GoodOpt.map ?_
        | refine Good.getD ?_ ?_ | refine Good.elim ?_ ?_ | refine Good.okay ?_ | exact GoodExc.error
        | apply Good.foldl2 | apply Good.foldl3 | apply Good.foldl1 | refine Good.left (by assumption) ?_
        | refine Good.head (by assumption) ?_ | refine Good.opt (by assumption) ?_
        | refine Good.exc (by assumption) ?_
    | split | dsimp only | (show Kept _ _ _ _ _ _ _ _; dsimp only)

theorem execRestartWatchdog_good {q s} (h : Good q s) : GoodOut q (execRestartWatchdog s) := by
  unfold execRestartWatchdog
  repeat' first
    | with_reducible first
        | assumption | apply beginWarm_good | refine Good.of ?_ | refine Good.next ?_
    | split | (show Kept _ _ _ _ _ _ _ _; dsimp only)

theorem execLrefBLost_good {q s} (h : Good q s) : GoodOut q (execLrefBLost s) := by
  unfold execLrefBLost
  repeat' first
    | with_reducible first
        | assumption | apply raiseErr_good | apply enterAbsent_good | refine Good.of ?_ | refine Good.next ?_
        | intro _ | apply Good.foldl
    | split | dsimp only | (show Kept _ _ _ _ _ _ _ _; dsimp only)

theorem execWarmReset_good {q x0 s} (h : Good q s) : GoodOut q (execWarmReset x0 s) := by
  unfold execWarmReset
  repeat' first
    | with_reducible first
        | assumption | apply beginWarm_good | refine Good.of ?_ | refine Good.next ?_
    | split | (show Kept _ _ _ _ _ _ _ _; dsimp only)

theorem execMemoryTrainingDone_good {q x0 s} (h : Good q s) : GoodOut q (execMemoryTrainingDone x0 s) := by
  unfold execMemoryTrainingDone
  repeat' first
    | with_reducible first
        | assumption | apply raiseErr_good | refine Good.of ?_ | refine Good.next ?_ | intro _ | apply Good.foldl
    | split | dsimp only | (show Kept _ _ _ _ _ _ _ _; dsimp only)

theorem execWatchdog_good {q x0 x1 s} (h : Good q s) : GoodOut q (execWatchdog x0 x1 s) := by
  unfold execWatchdog
  repeat' first
    | with_reducible first
        | assumption | apply raiseErr_good | refine Good.of ?_ | refine Good.next ?_
    | split | (show Kept _ _ _ _ _ _ _ _; dsimp only)

theorem execPcieRefclkLost_good {q s} (h : Good q s) : GoodOut q (execPcieRefclkLost s) := by
  unfold execPcieRefclkLost
  repeat' first
    | with_reducible first
        | assumption | apply hostLinkDown_good | apply raiseErr_good | refine Good.of ?_ | refine Good.next ?_
    | split | (show Kept _ _ _ _ _ _ _ _; dsimp only)

theorem execFabricParity_good {q x0 x1 s} (h : Good q s) : GoodOut q (execFabricParity x0 x1 s) := by
  unfold execFabricParity
  repeat' first
    | with_reducible first
        | assumption | apply raiseErr_good | refine Good.of ?_ | refine Good.next ?_
    | split | (show Kept _ _ _ _ _ _ _ _; dsimp only)

theorem execFatalHandling_good {q s} (h : Good q s) : GoodOut q (execFatalHandling s) := by
  unfold execFatalHandling
  repeat' first
    | with_reducible first
        | assumption | refine Good.of ?_ | refine Good.next ?_
    | split | (show Kept _ _ _ _ _ _ _ _; dsimp only)

theorem execRefclkLost_good {q s} (h : Good q s) : GoodOut q (execRefclkLost s) := by
  unfold execRefclkLost
  repeat' first
    | with_reducible first
        | assumption | apply raiseErr_good | apply finishRunning_good | refine Good.of ?_ | refine Good.next ?_
    | split | dsimp only | (show Kept _ _ _ _ _ _ _ _; dsimp only)

theorem execPcieLinkDown_good {q s} (h : Good q s) : GoodOut q (execPcieLinkDown s) := by
  unfold execPcieLinkDown
  repeat' first
    | with_reducible first
        | assumption | apply hostLinkDown_good | refine Good.of ?_ | refine Good.next ?_
    | split | (show Kept _ _ _ _ _ _ _ _; dsimp only)

theorem execRefclkReturn_good {q x0 s} (h : Good q s) : GoodOut q (execRefclkReturn x0 s) := by
  unfold execRefclkReturn
  split
  · exact Good.next h
  · exact Good.next (released_good _ _ _ _ _ _ _ rfl h)

end Sys2Proof.Laws
end

