-- ==== Sys2Proof/Laws/Exec.lean ====
section
/-! SUPPORT. What every command but PORST_N_ASSERT keeps (`exec_good`). -/

namespace Sys2Proof.Laws

open Sys2Proof Sys2Proof.Machine

theorem exec_good {q c s} (hc : c ≠ .porstNAssert) (h : Good q s) : GoodOut q (exec c s) := by
  cases c with
  | hello _ _ => exact execHello_good h
  | prove _ _ => exact execProve_good h
  | close _ => exact execClose_good h
  | roleQuery _ => exact execRoleQuery_good h
  | bedLoad _ _ => exact execBedLoad_good h
  | skimStore _ _ => exact execSkimStore_good h
  | skimApply _ _ => exact execSkimApply_good h
  | skimApprove _ _ => exact execSkimApprove_good h
  | configQuery _ _ => exact execConfigQuery_good h
  | headSetTiming _ _ => exact execHeadSetTiming_good h
  | headCommit _ _ => exact execHeadCommit_good h
  | headTwin _ _ => exact execHeadTwin_good h
  | headStateQuery _ _ => exact execHeadStateQuery_good h
  | headEnable _ _ => exact execHeadEnable_good h
  | windowDefine _ _ => exact execWindowDefine_good h
  | layerSet _ _ => exact execLayerSet_good h
  | layerAddress _ _ => exact execLayerAddress_good h
  | zorderSet _ _ => exact execZorderSet_good h
  | freshnessSet _ _ => exact execFreshnessSet_good h
  | verdictQuery _ _ => exact execVerdictQuery_good h
  | contextOpen _ _ => exact execContextOpen_good h
  | contextClose _ _ => exact execContextClose_good h
  | flowBind _ _ => exact execFlowBind_good h
  | sourceIsolate _ _ => exact execSourceIsolate_good h
  | contextStats _ _ => exact execContextStats_good h
  | sluiceSet _ _ => exact execSluiceSet_good h
  | decodeAttach _ _ => exact execDecodeAttach_good h
  | decodePriority _ _ => exact execDecodePriority_good h
  | decodeStats _ _ => exact execDecodeStats_good h
  | encodeOpen _ _ => exact execEncodeOpen_good h
  | encodeRate _ _ => exact execEncodeRate_good h
  | encodeClose _ _ => exact execEncodeClose_good h
  | crysJob _ _ => exact execCrysJob_good h
  | crysResume _ _ => exact execCrysResume_good h
  | crysFlush _ _ => exact execCrysFlush_good h
  | checkBind _ _ => exact execCheckBind_good h
  | sealRegion _ _ => exact execSealRegion_good h
  | checkStats _ _ => exact execCheckStats_good h
  | timeSetProfile _ _ => exact execTimeSetProfile_good h
  | pulseSet _ _ => exact execPulseSet_good h
  | timeQuery _ => exact execTimeQuery_good h
  | tideSet _ _ => exact execTideSet_good h
  | linkState _ _ => exact execLinkState_good h
  | eyeScan _ _ => exact execEyeScan_good h
  | eqTableQuery _ _ => exact execEqTableQuery_good h
  | dykeRule _ _ => exact execDykeRule_good h
  | dykeSync _ => exact execDykeSync_good h
  | dykeLock _ _ => exact execDykeLock_good h
  | memErrQuery _ _ => exact execMemErrQuery_good h
  | scrubSet _ _ => exact execScrubSet_good h
  | touchConfig _ _ => exact execTouchConfig_good h
  | touchRebase _ _ => exact execTouchRebase_good h
  | touchRoute _ _ => exact execTouchRoute_good h
  | trimRun _ _ => exact execTrimRun_good h
  | trimQuery _ _ => exact execTrimQuery_good h
  | wakeBudget _ _ => exact execWakeBudget_good h
  | powerQuery _ => exact execPowerQuery_good h
  | errRead _ _ => exact execErrRead_good h
  | errAck _ _ => exact execErrAck_good h
  | fence _ _ => exact execFence_good h
  | debugUnlock _ _ => exact execDebugUnlock_good h
  | swFence _ => exact execSwFence_good h
  | swRelease _ => exact execSwRelease_good h
  | mailboxGo _ _ => exact execMailboxGo_good h
  | mailboxAck _ _ => exact execMailboxAck_good h
  | irqStatusClear _ => exact execIrqStatusClear_good h
  | irqMaskWrite _ => exact execIrqMaskWrite_good h
  | msixUnmask _ _ => exact execMsixUnmask_good h
  | hwbBaseWrite _ => exact execHwbBaseWrite_good h
  | hwbAccess _ _ => exact execHwbAccess_good h
  | evrEnableWrite _ => exact execEvrEnableWrite_good h
  | evrConsWrite _ => exact execEvrConsWrite_good h
  | tideCountLowRead _ => exact execTideCountLowRead_good h
  | timeNsRead => exact execTimeNsRead_good h
  | registerWrite _ _ _ => exact execRegisterWrite_good h
  | debugProbeToken _ => exact execDebugProbeToken_good h
  | debugAccess _ _ => exact execDebugAccess_good h
  | keyProgram _ _ => exact execKeyProgram_good h
  | sluiceDatagram _ _ _ _ _ => exact execSluiceDatagram_good h
  | tide => exact execTide_good h
  | headFlip _ => exact execHeadFlip_good h
  | headLatchEdge _ => exact execHeadLatchEdge_good h
  | frontPorchEnd _ => exact execFrontPorchEnd_good h
  | vrrLineBoundary _ => exact execVrrLineBoundary_good h
  | waitTimeout _ => exact execWaitTimeout_good h
  | takePoint _ _ => exact execTakePoint_good h
  | groupCompose _ => exact execGroupCompose_good h
  | spanEvaluate _ _ _ _ _ _ => exact execSpanEvaluate_good h
  | salinityPass _ _ => exact execSalinityPass_good h
  | stateCopyComplete _ _ => exact execStateCopyComplete_good h
  | gaugeReload _ => exact execGaugeReload_good h
  | fenceNCapture => exact execFenceNCapture_good h
  | fenceNRelease => exact execFenceNRelease_good h
  | sealCompare _ _ _ => exact execSealCompare_good h
  | hpdPresent _ _ _ => exact execHpdPresent_good h
  | hpdUnplug _ _ => exact execHpdUnplug_good h
  | irqHpd _ _ _ => exact execIrqHpd_good h
  | dpLinkLockLoss _ => exact execDpLinkLockLoss_good h
  | auxTimeout _ _ _ => exact execAuxTimeout_good h
  | linkTrainingDone _ _ _ => exact execLinkTrainingDone_good h
  | trainingTimeout _ => exact execTrainingTimeout_good h
  | memoryRequest _ => exact execMemoryRequest_good h
  | slotPosition => exact execSlotPosition_good h
  | memoryAccessComplete _ _ => exact execMemoryAccessComplete_good h
  | scrubPacingRead _ => exact execScrubPacingRead_good h
  | dykeSyncComplete => exact execDykeSyncComplete_good h
  | ethFrameReceive _ _ => exact execEthFrameReceive_good h
  | ethLinkChange _ _ => exact execEthLinkChange_good h
  | mgmtFrame _ _ => exact execMgmtFrame_good h
  | mediaPacketProcess _ => exact execMediaPacketProcess_good h
  | frameTimeout _ => exact execFrameTimeout_good h
  | dgsTileDecode _ _ => exact execDgsTileDecode_good h
  | fillCopy _ => exact execFillCopy_good h
  | bufferComplete _ => exact execBufferComplete_good h
  | checkCompareEnd _ => exact execCheckCompareEnd_good h
  | detectorComplete _ => exact execDetectorComplete_good h
  | decodePictureStart _ _ => exact execDecodePictureStart_good h
  | decodePictureEnd _ => exact execDecodePictureEnd_good h
  | pictureOutput _ => exact execPictureOutput_good h
  | decodeLagDiscard _ => exact execDecodeLagDiscard_good h
  | encodeFrameDue _ => exact execEncodeFrameDue_good h
  | encodeLineComplete _ => exact execEncodeLineComplete_good h
  | encodeFrameStart _ => exact execEncodeFrameStart_good h
  | slicePublish _ _ => exact execSlicePublish_good h
  | rtpTransmit _ => exact execRtpTransmit_good h
  | crysJobStart => exact execCrysJobStart_good h
  | crysDone _ => exact execCrysDone_good h
  | eyeDone _ _ _ => exact execEyeDone_good h
  | ptpReceive _ _ _ => exact execPtpReceive_good h
  | ptpSyncTransmit _ => exact execPtpSyncTransmit_good h
  | ptpAnnounceTransmit _ => exact execPtpAnnounceTransmit_good h
  | ptpDelayReqTransmit _ => exact execPtpDelayReqTransmit_good h
  | sourceLost => exact execSourceLost_good h
  | ppsEdge _ _ => exact execPpsEdge_good h
  | tenMhzGate _ _ => exact execTenMhzGate_good h
  | pulseEdge _ => exact execPulseEdge_good h
  | evtInEdge _ _ => exact execEvtInEdge_good h
  | welondDetect _ _ => exact execWelondDetect_good h
  | welondLock _ _ _ => exact execWelondLock_good h
  | welondAttemptTimeout _ => exact execWelondAttemptTimeout_good h
  | welondRetry _ _ => exact execWelondRetry_good h
  | welondTerminationLost _ => exact execWelondTerminationLost_good h
  | capabilitySend _ => exact execCapabilitySend_good h
  | capabilityReceive _ _ => exact execCapabilityReceive_good h
  | welondLaneLockLoss _ _ _ => exact execWelondLaneLockLoss_good h
  | widthBlockReceive _ _ _ => exact execWidthBlockReceive_good h
  | laneRetrain _ _ _ => exact execLaneRetrain_good h
  | mirrorSetReceive _ _ _ => exact execMirrorSetReceive_good h
  | mirrorRequest _ _ _ => exact execMirrorRequest_good h
  | mirrorBufferSend _ _ => exact execMirrorBufferSend_good h
  | mirrorPacketReceive _ _ => exact execMirrorPacketReceive_good h
  | fenceBlockReceive _ _ _ => exact execFenceBlockReceive_good h
  | fenceBlockPeriodic _ => exact execFenceBlockPeriodic_good h
  | tideMessageReceive _ _ _ _ _ => exact execTideMessageReceive_good h
  | skimMessageReceive _ _ _ => exact execSkimMessageReceive_good h
  | touchPacketReceive _ _ => exact execTouchPacketReceive_good h
  | touchFrame _ _ _ => exact execTouchFrame_good h
  | baselineDone _ => exact execBaselineDone_good h
  | negRebase _ _ => exact execNegRebase_good h
  | thresholdUpdate _ => exact execThresholdUpdate_good h
  | chargerNoiseEntry _ => exact execChargerNoiseEntry_good h
  | chargerNoiseExit _ => exact execChargerNoiseExit_good h
  | slowScanEntry _ => exact execSlowScanEntry_good h
  | slowScanFrame _ _ => exact execSlowScanFrame_good h
  | touchStuck _ _ => exact execTouchStuck_good h
  | touchSaturated _ _ => exact execTouchSaturated_good h
  | touchReport _ => exact execTouchReport_good h
  | temperatureSample _ => exact execTemperatureSample_good h
  | trimElementStep _ _ _ => exact execTrimElementStep_good h
  | trimRunComplete => exact execTrimRunComplete_good h
  | avsSample _ => exact execAvsSample_good h
  | voutReadback _ _ => exact execVoutReadback_good h
  | thermalCheck _ => exact execThermalCheck_good h
  | restTimeout => exact execRestTimeout_good h
  | wakeIn _ => exact execWakeIn_good h
  | powerExitDone => exact execPowerExitDone_good h
  | refclkLost => exact execRefclkLost_good h
  | refclkReturn _ => exact execRefclkReturn_good h
  | lrefALost => exact execLrefALost_good h
  | lrefBLost => exact execLrefBLost_good h
  | pcieRefclkLost => exact execPcieRefclkLost_good h
  | pcieLinkDown => exact execPcieLinkDown_good h
  | perstN => exact execPerstN_good h
  | pwrGood _ => exact execPwrGood_good h
  | porstNAssert => exact absurd rfl hc
  | firmwareBoot _ _ => exact execFirmwareBoot_good h
  | memoryTrainingDone _ => exact execMemoryTrainingDone_good h
  | wardenReady _ => exact execWardenReady_good h
  | warmReset _ => exact execWarmReset_good h
  | warmResetRelease => exact execWarmResetRelease_good h
  | restartWatchdog => exact execRestartWatchdog_good h
  | watchdog _ _ => exact execWatchdog_good h
  | fabricParity _ _ => exact execFabricParity_good h
  | fatalHandling => exact execFatalHandling_good h
  | halfOpenExpiry _ => exact execHalfOpenExpiry_good h
  | sessionIdleTimeout _ => exact execSessionIdleTimeout_good h
  | approvalExpiry _ => exact execApprovalExpiry_good h
  | debugTokenExpiry => exact execDebugTokenExpiry_good h
  | debugSessionExpiry => exact execDebugSessionExpiry_good h
  | pictureAbandoned _ => exact execPictureAbandoned_good h
  | encodeFrameAbandoned _ => exact execEncodeFrameAbandoned_good h
  | receiverAdapted _ _ => exact execReceiverAdapted_good h
  | narrowingTimeout _ => exact execNarrowingTimeout_good h

/-- A step on an empty queue lets one PAN cycle pass; with a command at the front, its effect is that command's. -/
theorem step_idle {s : State} (h : s.pending = []) : step s = .next (idleStep s) := by
  unfold step; rw [h]

theorem step_front {s : State} {c : Instr} {r : List Instr} (h : s.pending = c :: r) :
    step s = exec c { s with pending := r } := by
  unfold step; rw [h]

end Sys2Proof.Laws
end

