-- ==== Sys2Proof/Laws/State.lean ====
section
/-! SUPPORT. One lemma per field of `State` and update: which field each named update changes. -/

namespace Sys2Proof.Laws

open Sys2Proof.Machine

theorem tget_tset_same {A : Type} {d : A} {t : Tab A} {n : Nat} {a : A} : tget d (tset t n a) n = a := by
  simp [tget, tfind_tset_same]
theorem tget_tset_other {A : Type} {d : A} {t : Tab A} {n k : Nat} {a : A} (h : k ≠ n) :
    tget d (tset t n a) k = tget d t k := by
  simp [tget, tfind_tset_other h]

variable (s : State) (n : Nat)

/-! ### setHead -/

@[simp] theorem setHead_clk (v : Head) : (s.setHead n v).clk = s.clk := rfl
@[simp] theorem setHead_tide (v : Head) : (s.setHead n v).tide = s.tide := rfl
@[simp] theorem setHead_slots (v : Head) : (s.setHead n v).slots = s.slots := rfl
@[simp] theorem setHead_mem (v : Head) : (s.setHead n v).mem = s.mem := rfl
@[simp] theorem setHead_ctxs (v : Head) : (s.setHead n v).ctxs = s.ctxs := rfl
@[simp] theorem setHead_wins (v : Head) : (s.setHead n v).wins = s.wins := rfl
@[simp] theorem setHead_dpl (v : Head) : (s.setHead n v).dpl = s.dpl := rfl
@[simp] theorem setHead_clamps (v : Head) : (s.setHead n v).clamps = s.clamps := rfl
@[simp] theorem setHead_coeffs (v : Head) : (s.setHead n v).coeffs = s.coeffs := rfl
@[simp] theorem setHead_demands (v : Head) : (s.setHead n v).demands = s.demands := rfl
@[simp] theorem setHead_rates (v : Head) : (s.setHead n v).rates = s.rates := rfl
@[simp] theorem setHead_colours (v : Head) : (s.setHead n v).colours = s.colours := rfl
@[simp] theorem setHead_nextColours (v : Head) : (s.setHead n v).nextColours = s.nextColours := rfl
@[simp] theorem setHead_commitSeq (v : Head) : (s.setHead n v).commitSeq = s.commitSeq := rfl
@[simp] theorem setHead_pans (v : Head) : (s.setHead n v).pans = s.pans := rfl
@[simp] theorem setHead_fences (v : Head) : (s.setHead n v).fences = s.fences := rfl
@[simp] theorem setHead_fenceRuns (v : Head) : (s.setHead n v).fenceRuns = s.fenceRuns := rfl
@[simp] theorem setHead_ports (v : Head) : (s.setHead n v).ports = s.ports := rfl
@[simp] theorem setHead_media (v : Head) : (s.setHead n v).media = s.media := rfl
@[simp] theorem setHead_flows (v : Head) : (s.setHead n v).flows = s.flows := rfl
@[simp] theorem setHead_decs (v : Head) : (s.setHead n v).decs = s.decs := rfl
@[simp] theorem setHead_encs (v : Head) : (s.setHead n v).encs = s.encs := rfl
@[simp] theorem setHead_encEngines (v : Head) : (s.setHead n v).encEngines = s.encEngines := rfl
@[simp] theorem setHead_jobs (v : Head) : (s.setHead n v).jobs = s.jobs := rfl
@[simp] theorem setHead_jobQueue (v : Head) : (s.setHead n v).jobQueue = s.jobQueue := rfl
@[simp] theorem setHead_lanes (v : Head) : (s.setHead n v).lanes = s.lanes := rfl
@[simp] theorem setHead_checks (v : Head) : (s.setHead n v).checks = s.checks := rfl
@[simp] theorem setHead_servo (v : Head) : (s.setHead n v).servo = s.servo := rfl
@[simp] theorem setHead_pulses (v : Head) : (s.setHead n v).pulses = s.pulses := rfl
@[simp] theorem setHead_captures (v : Head) : (s.setHead n v).captures = s.captures := rfl
@[simp] theorem setHead_laneEq (v : Head) : (s.setHead n v).laneEq = s.laneEq := rfl
@[simp] theorem setHead_rx (v : Head) : (s.setHead n v).rx = s.rx := rfl
@[simp] theorem setHead_ring (v : Head) : (s.setHead n v).ring = s.ring := rfl
@[simp] theorem setHead_wels (v : Head) : (s.setHead n v).wels = s.wels := rfl
@[simp] theorem setHead_lineTx (v : Head) : (s.setHead n v).lineTx = s.lineTx := rfl
@[simp] theorem setHead_lineRx (v : Head) : (s.setHead n v).lineRx = s.lineRx := rfl
@[simp] theorem setHead_mailboxes (v : Head) : (s.setHead n v).mailboxes = s.mailboxes := rfl
@[simp] theorem setHead_sessions (v : Head) : (s.setHead n v).sessions = s.sessions := rfl
@[simp] theorem setHead_approvals (v : Head) : (s.setHead n v).approvals = s.approvals := rfl
@[simp] theorem setHead_keys (v : Head) : (s.setHead n v).keys = s.keys := rfl
@[simp] theorem setHead_hwbBase (v : Head) : (s.setHead n v).hwbBase = s.hwbBase := rfl
@[simp] theorem setHead_hwbIdent (v : Head) : (s.setHead n v).hwbIdent = s.hwbIdent := rfl
@[simp] theorem setHead_running (v : Head) : (s.setHead n v).running = s.running := rfl
@[simp] theorem setHead_evr (v : Head) : (s.setHead n v).evr = s.evr := rfl
@[simp] theorem setHead_irq (v : Head) : (s.setHead n v).irq = s.irq := rfl
@[simp] theorem setHead_errs (v : Head) : (s.setHead n v).errs = s.errs := rfl
@[simp] theorem setHead_errNext (v : Head) : (s.setHead n v).errNext = s.errNext := rfl
@[simp] theorem setHead_errOverflow (v : Head) : (s.setHead n v).errOverflow = s.errOverflow := rfl
@[simp] theorem setHead_debug (v : Head) : (s.setHead n v).debug = s.debug := rfl
@[simp] theorem setHead_cfg (v : Head) : (s.setHead n v).cfg = s.cfg := rfl
@[simp] theorem setHead_desks (v : Head) : (s.setHead n v).desks = s.desks := rfl
@[simp] theorem setHead_touchIx (v : Head) : (s.setHead n v).touchIx = s.touchIx := rfl
@[simp] theorem setHead_trim (v : Head) : (s.setHead n v).trim = s.trim := rfl
@[simp] theorem setHead_power (v : Head) : (s.setHead n v).power = s.power := rfl
@[simp] theorem setHead_start (v : Head) : (s.setHead n v).start = s.start := rfl
@[simp] theorem setHead_fresh (v : Head) : (s.setHead n v).fresh = s.fresh := rfl
@[simp] theorem setHead_out (v : Head) : (s.setHead n v).out = s.out := rfl
@[simp] theorem setHead_pending (v : Head) : (s.setHead n v).pending = s.pending := rfl
@[simp] theorem setHead_head (v : Head) : (s.setHead n v).head n = v := tget_tset_same
theorem setHead_head_other (v : Head) {k : Nat} (h : k ≠ n) : (s.setHead n v).head k = s.head k :=
  tget_tset_other h

/-! ### setCtx -/

@[simp] theorem setCtx_clk (v : Ctx) : (s.setCtx n v).clk = s.clk := rfl
@[simp] theorem setCtx_tide (v : Ctx) : (s.setCtx n v).tide = s.tide := rfl
@[simp] theorem setCtx_slots (v : Ctx) : (s.setCtx n v).slots = s.slots := rfl
@[simp] theorem setCtx_mem (v : Ctx) : (s.setCtx n v).mem = s.mem := rfl
@[simp] theorem setCtx_wins (v : Ctx) : (s.setCtx n v).wins = s.wins := rfl
@[simp] theorem setCtx_heads (v : Ctx) : (s.setCtx n v).heads = s.heads := rfl
@[simp] theorem setCtx_dpl (v : Ctx) : (s.setCtx n v).dpl = s.dpl := rfl
@[simp] theorem setCtx_clamps (v : Ctx) : (s.setCtx n v).clamps = s.clamps := rfl
@[simp] theorem setCtx_coeffs (v : Ctx) : (s.setCtx n v).coeffs = s.coeffs := rfl
@[simp] theorem setCtx_demands (v : Ctx) : (s.setCtx n v).demands = s.demands := rfl
@[simp] theorem setCtx_rates (v : Ctx) : (s.setCtx n v).rates = s.rates := rfl
@[simp] theorem setCtx_colours (v : Ctx) : (s.setCtx n v).colours = s.colours := rfl
@[simp] theorem setCtx_nextColours (v : Ctx) : (s.setCtx n v).nextColours = s.nextColours := rfl
@[simp] theorem setCtx_commitSeq (v : Ctx) : (s.setCtx n v).commitSeq = s.commitSeq := rfl
@[simp] theorem setCtx_pans (v : Ctx) : (s.setCtx n v).pans = s.pans := rfl
@[simp] theorem setCtx_fences (v : Ctx) : (s.setCtx n v).fences = s.fences := rfl
@[simp] theorem setCtx_fenceRuns (v : Ctx) : (s.setCtx n v).fenceRuns = s.fenceRuns := rfl
@[simp] theorem setCtx_ports (v : Ctx) : (s.setCtx n v).ports = s.ports := rfl
@[simp] theorem setCtx_media (v : Ctx) : (s.setCtx n v).media = s.media := rfl
@[simp] theorem setCtx_flows (v : Ctx) : (s.setCtx n v).flows = s.flows := rfl
@[simp] theorem setCtx_decs (v : Ctx) : (s.setCtx n v).decs = s.decs := rfl
@[simp] theorem setCtx_encs (v : Ctx) : (s.setCtx n v).encs = s.encs := rfl
@[simp] theorem setCtx_encEngines (v : Ctx) : (s.setCtx n v).encEngines = s.encEngines := rfl
@[simp] theorem setCtx_jobs (v : Ctx) : (s.setCtx n v).jobs = s.jobs := rfl
@[simp] theorem setCtx_jobQueue (v : Ctx) : (s.setCtx n v).jobQueue = s.jobQueue := rfl
@[simp] theorem setCtx_lanes (v : Ctx) : (s.setCtx n v).lanes = s.lanes := rfl
@[simp] theorem setCtx_checks (v : Ctx) : (s.setCtx n v).checks = s.checks := rfl
@[simp] theorem setCtx_servo (v : Ctx) : (s.setCtx n v).servo = s.servo := rfl
@[simp] theorem setCtx_pulses (v : Ctx) : (s.setCtx n v).pulses = s.pulses := rfl
@[simp] theorem setCtx_captures (v : Ctx) : (s.setCtx n v).captures = s.captures := rfl
@[simp] theorem setCtx_laneEq (v : Ctx) : (s.setCtx n v).laneEq = s.laneEq := rfl
@[simp] theorem setCtx_rx (v : Ctx) : (s.setCtx n v).rx = s.rx := rfl
@[simp] theorem setCtx_ring (v : Ctx) : (s.setCtx n v).ring = s.ring := rfl
@[simp] theorem setCtx_wels (v : Ctx) : (s.setCtx n v).wels = s.wels := rfl
@[simp] theorem setCtx_lineTx (v : Ctx) : (s.setCtx n v).lineTx = s.lineTx := rfl
@[simp] theorem setCtx_lineRx (v : Ctx) : (s.setCtx n v).lineRx = s.lineRx := rfl
@[simp] theorem setCtx_mailboxes (v : Ctx) : (s.setCtx n v).mailboxes = s.mailboxes := rfl
@[simp] theorem setCtx_sessions (v : Ctx) : (s.setCtx n v).sessions = s.sessions := rfl
@[simp] theorem setCtx_approvals (v : Ctx) : (s.setCtx n v).approvals = s.approvals := rfl
@[simp] theorem setCtx_keys (v : Ctx) : (s.setCtx n v).keys = s.keys := rfl
@[simp] theorem setCtx_hwbBase (v : Ctx) : (s.setCtx n v).hwbBase = s.hwbBase := rfl
@[simp] theorem setCtx_hwbIdent (v : Ctx) : (s.setCtx n v).hwbIdent = s.hwbIdent := rfl
@[simp] theorem setCtx_running (v : Ctx) : (s.setCtx n v).running = s.running := rfl
@[simp] theorem setCtx_evr (v : Ctx) : (s.setCtx n v).evr = s.evr := rfl
@[simp] theorem setCtx_irq (v : Ctx) : (s.setCtx n v).irq = s.irq := rfl
@[simp] theorem setCtx_errs (v : Ctx) : (s.setCtx n v).errs = s.errs := rfl
@[simp] theorem setCtx_errNext (v : Ctx) : (s.setCtx n v).errNext = s.errNext := rfl
@[simp] theorem setCtx_errOverflow (v : Ctx) : (s.setCtx n v).errOverflow = s.errOverflow := rfl
@[simp] theorem setCtx_debug (v : Ctx) : (s.setCtx n v).debug = s.debug := rfl
@[simp] theorem setCtx_cfg (v : Ctx) : (s.setCtx n v).cfg = s.cfg := rfl
@[simp] theorem setCtx_desks (v : Ctx) : (s.setCtx n v).desks = s.desks := rfl
@[simp] theorem setCtx_touchIx (v : Ctx) : (s.setCtx n v).touchIx = s.touchIx := rfl
@[simp] theorem setCtx_trim (v : Ctx) : (s.setCtx n v).trim = s.trim := rfl
@[simp] theorem setCtx_power (v : Ctx) : (s.setCtx n v).power = s.power := rfl
@[simp] theorem setCtx_start (v : Ctx) : (s.setCtx n v).start = s.start := rfl
@[simp] theorem setCtx_fresh (v : Ctx) : (s.setCtx n v).fresh = s.fresh := rfl
@[simp] theorem setCtx_out (v : Ctx) : (s.setCtx n v).out = s.out := rfl
@[simp] theorem setCtx_pending (v : Ctx) : (s.setCtx n v).pending = s.pending := rfl
@[simp] theorem setCtx_ctx (v : Ctx) : (s.setCtx n v).ctx n = v := tget_tset_same
theorem setCtx_ctx_other (v : Ctx) {k : Nat} (h : k ≠ n) : (s.setCtx n v).ctx k = s.ctx k :=
  tget_tset_other h

/-! ### setPan -/

@[simp] theorem setPan_clk (v : Pan) : (s.setPan n v).clk = s.clk := rfl
@[simp] theorem setPan_tide (v : Pan) : (s.setPan n v).tide = s.tide := rfl
@[simp] theorem setPan_slots (v : Pan) : (s.setPan n v).slots = s.slots := rfl
@[simp] theorem setPan_mem (v : Pan) : (s.setPan n v).mem = s.mem := rfl
@[simp] theorem setPan_ctxs (v : Pan) : (s.setPan n v).ctxs = s.ctxs := rfl
@[simp] theorem setPan_wins (v : Pan) : (s.setPan n v).wins = s.wins := rfl
@[simp] theorem setPan_heads (v : Pan) : (s.setPan n v).heads = s.heads := rfl
@[simp] theorem setPan_dpl (v : Pan) : (s.setPan n v).dpl = s.dpl := rfl
@[simp] theorem setPan_clamps (v : Pan) : (s.setPan n v).clamps = s.clamps := rfl
@[simp] theorem setPan_coeffs (v : Pan) : (s.setPan n v).coeffs = s.coeffs := rfl
@[simp] theorem setPan_demands (v : Pan) : (s.setPan n v).demands = s.demands := rfl
@[simp] theorem setPan_rates (v : Pan) : (s.setPan n v).rates = s.rates := rfl
@[simp] theorem setPan_colours (v : Pan) : (s.setPan n v).colours = s.colours := rfl
@[simp] theorem setPan_nextColours (v : Pan) : (s.setPan n v).nextColours = s.nextColours := rfl
@[simp] theorem setPan_commitSeq (v : Pan) : (s.setPan n v).commitSeq = s.commitSeq := rfl
@[simp] theorem setPan_fences (v : Pan) : (s.setPan n v).fences = s.fences := rfl
@[simp] theorem setPan_fenceRuns (v : Pan) : (s.setPan n v).fenceRuns = s.fenceRuns := rfl
@[simp] theorem setPan_ports (v : Pan) : (s.setPan n v).ports = s.ports := rfl
@[simp] theorem setPan_media (v : Pan) : (s.setPan n v).media = s.media := rfl
@[simp] theorem setPan_flows (v : Pan) : (s.setPan n v).flows = s.flows := rfl
@[simp] theorem setPan_decs (v : Pan) : (s.setPan n v).decs = s.decs := rfl
@[simp] theorem setPan_encs (v : Pan) : (s.setPan n v).encs = s.encs := rfl
@[simp] theorem setPan_encEngines (v : Pan) : (s.setPan n v).encEngines = s.encEngines := rfl
@[simp] theorem setPan_jobs (v : Pan) : (s.setPan n v).jobs = s.jobs := rfl
@[simp] theorem setPan_jobQueue (v : Pan) : (s.setPan n v).jobQueue = s.jobQueue := rfl
@[simp] theorem setPan_lanes (v : Pan) : (s.setPan n v).lanes = s.lanes := rfl
@[simp] theorem setPan_checks (v : Pan) : (s.setPan n v).checks = s.checks := rfl
@[simp] theorem setPan_servo (v : Pan) : (s.setPan n v).servo = s.servo := rfl
@[simp] theorem setPan_pulses (v : Pan) : (s.setPan n v).pulses = s.pulses := rfl
@[simp] theorem setPan_captures (v : Pan) : (s.setPan n v).captures = s.captures := rfl
@[simp] theorem setPan_laneEq (v : Pan) : (s.setPan n v).laneEq = s.laneEq := rfl
@[simp] theorem setPan_rx (v : Pan) : (s.setPan n v).rx = s.rx := rfl
@[simp] theorem setPan_ring (v : Pan) : (s.setPan n v).ring = s.ring := rfl
@[simp] theorem setPan_wels (v : Pan) : (s.setPan n v).wels = s.wels := rfl
@[simp] theorem setPan_lineTx (v : Pan) : (s.setPan n v).lineTx = s.lineTx := rfl
@[simp] theorem setPan_lineRx (v : Pan) : (s.setPan n v).lineRx = s.lineRx := rfl
@[simp] theorem setPan_mailboxes (v : Pan) : (s.setPan n v).mailboxes = s.mailboxes := rfl
@[simp] theorem setPan_sessions (v : Pan) : (s.setPan n v).sessions = s.sessions := rfl
@[simp] theorem setPan_approvals (v : Pan) : (s.setPan n v).approvals = s.approvals := rfl
@[simp] theorem setPan_keys (v : Pan) : (s.setPan n v).keys = s.keys := rfl
@[simp] theorem setPan_hwbBase (v : Pan) : (s.setPan n v).hwbBase = s.hwbBase := rfl
@[simp] theorem setPan_hwbIdent (v : Pan) : (s.setPan n v).hwbIdent = s.hwbIdent := rfl
@[simp] theorem setPan_running (v : Pan) : (s.setPan n v).running = s.running := rfl
@[simp] theorem setPan_evr (v : Pan) : (s.setPan n v).evr = s.evr := rfl
@[simp] theorem setPan_irq (v : Pan) : (s.setPan n v).irq = s.irq := rfl
@[simp] theorem setPan_errs (v : Pan) : (s.setPan n v).errs = s.errs := rfl
@[simp] theorem setPan_errNext (v : Pan) : (s.setPan n v).errNext = s.errNext := rfl
@[simp] theorem setPan_errOverflow (v : Pan) : (s.setPan n v).errOverflow = s.errOverflow := rfl
@[simp] theorem setPan_debug (v : Pan) : (s.setPan n v).debug = s.debug := rfl
@[simp] theorem setPan_cfg (v : Pan) : (s.setPan n v).cfg = s.cfg := rfl
@[simp] theorem setPan_desks (v : Pan) : (s.setPan n v).desks = s.desks := rfl
@[simp] theorem setPan_touchIx (v : Pan) : (s.setPan n v).touchIx = s.touchIx := rfl
@[simp] theorem setPan_trim (v : Pan) : (s.setPan n v).trim = s.trim := rfl
@[simp] theorem setPan_power (v : Pan) : (s.setPan n v).power = s.power := rfl
@[simp] theorem setPan_start (v : Pan) : (s.setPan n v).start = s.start := rfl
@[simp] theorem setPan_fresh (v : Pan) : (s.setPan n v).fresh = s.fresh := rfl
@[simp] theorem setPan_out (v : Pan) : (s.setPan n v).out = s.out := rfl
@[simp] theorem setPan_pending (v : Pan) : (s.setPan n v).pending = s.pending := rfl
@[simp] theorem setPan_pan (v : Pan) : (s.setPan n v).pan n = v := tget_tset_same
theorem setPan_pan_other (v : Pan) {k : Nat} (h : k ≠ n) : (s.setPan n v).pan k = s.pan k :=
  tget_tset_other h

/-! ### setPort -/

@[simp] theorem setPort_clk (v : Port) : (s.setPort n v).clk = s.clk := rfl
@[simp] theorem setPort_tide (v : Port) : (s.setPort n v).tide = s.tide := rfl
@[simp] theorem setPort_slots (v : Port) : (s.setPort n v).slots = s.slots := rfl
@[simp] theorem setPort_mem (v : Port) : (s.setPort n v).mem = s.mem := rfl
@[simp] theorem setPort_ctxs (v : Port) : (s.setPort n v).ctxs = s.ctxs := rfl
@[simp] theorem setPort_wins (v : Port) : (s.setPort n v).wins = s.wins := rfl
@[simp] theorem setPort_heads (v : Port) : (s.setPort n v).heads = s.heads := rfl
@[simp] theorem setPort_dpl (v : Port) : (s.setPort n v).dpl = s.dpl := rfl
@[simp] theorem setPort_clamps (v : Port) : (s.setPort n v).clamps = s.clamps := rfl
@[simp] theorem setPort_coeffs (v : Port) : (s.setPort n v).coeffs = s.coeffs := rfl
@[simp] theorem setPort_demands (v : Port) : (s.setPort n v).demands = s.demands := rfl
@[simp] theorem setPort_rates (v : Port) : (s.setPort n v).rates = s.rates := rfl
@[simp] theorem setPort_colours (v : Port) : (s.setPort n v).colours = s.colours := rfl
@[simp] theorem setPort_nextColours (v : Port) : (s.setPort n v).nextColours = s.nextColours := rfl
@[simp] theorem setPort_commitSeq (v : Port) : (s.setPort n v).commitSeq = s.commitSeq := rfl
@[simp] theorem setPort_pans (v : Port) : (s.setPort n v).pans = s.pans := rfl
@[simp] theorem setPort_fences (v : Port) : (s.setPort n v).fences = s.fences := rfl
@[simp] theorem setPort_fenceRuns (v : Port) : (s.setPort n v).fenceRuns = s.fenceRuns := rfl
@[simp] theorem setPort_media (v : Port) : (s.setPort n v).media = s.media := rfl
@[simp] theorem setPort_flows (v : Port) : (s.setPort n v).flows = s.flows := rfl
@[simp] theorem setPort_decs (v : Port) : (s.setPort n v).decs = s.decs := rfl
@[simp] theorem setPort_encs (v : Port) : (s.setPort n v).encs = s.encs := rfl
@[simp] theorem setPort_encEngines (v : Port) : (s.setPort n v).encEngines = s.encEngines := rfl
@[simp] theorem setPort_jobs (v : Port) : (s.setPort n v).jobs = s.jobs := rfl
@[simp] theorem setPort_jobQueue (v : Port) : (s.setPort n v).jobQueue = s.jobQueue := rfl
@[simp] theorem setPort_lanes (v : Port) : (s.setPort n v).lanes = s.lanes := rfl
@[simp] theorem setPort_checks (v : Port) : (s.setPort n v).checks = s.checks := rfl
@[simp] theorem setPort_servo (v : Port) : (s.setPort n v).servo = s.servo := rfl
@[simp] theorem setPort_pulses (v : Port) : (s.setPort n v).pulses = s.pulses := rfl
@[simp] theorem setPort_captures (v : Port) : (s.setPort n v).captures = s.captures := rfl
@[simp] theorem setPort_laneEq (v : Port) : (s.setPort n v).laneEq = s.laneEq := rfl
@[simp] theorem setPort_rx (v : Port) : (s.setPort n v).rx = s.rx := rfl
@[simp] theorem setPort_ring (v : Port) : (s.setPort n v).ring = s.ring := rfl
@[simp] theorem setPort_wels (v : Port) : (s.setPort n v).wels = s.wels := rfl
@[simp] theorem setPort_lineTx (v : Port) : (s.setPort n v).lineTx = s.lineTx := rfl
@[simp] theorem setPort_lineRx (v : Port) : (s.setPort n v).lineRx = s.lineRx := rfl
@[simp] theorem setPort_mailboxes (v : Port) : (s.setPort n v).mailboxes = s.mailboxes := rfl
@[simp] theorem setPort_sessions (v : Port) : (s.setPort n v).sessions = s.sessions := rfl
@[simp] theorem setPort_approvals (v : Port) : (s.setPort n v).approvals = s.approvals := rfl
@[simp] theorem setPort_keys (v : Port) : (s.setPort n v).keys = s.keys := rfl
@[simp] theorem setPort_hwbBase (v : Port) : (s.setPort n v).hwbBase = s.hwbBase := rfl
@[simp] theorem setPort_hwbIdent (v : Port) : (s.setPort n v).hwbIdent = s.hwbIdent := rfl
@[simp] theorem setPort_running (v : Port) : (s.setPort n v).running = s.running := rfl
@[simp] theorem setPort_evr (v : Port) : (s.setPort n v).evr = s.evr := rfl
@[simp] theorem setPort_irq (v : Port) : (s.setPort n v).irq = s.irq := rfl
@[simp] theorem setPort_errs (v : Port) : (s.setPort n v).errs = s.errs := rfl
@[simp] theorem setPort_errNext (v : Port) : (s.setPort n v).errNext = s.errNext := rfl
@[simp] theorem setPort_errOverflow (v : Port) : (s.setPort n v).errOverflow = s.errOverflow := rfl
@[simp] theorem setPort_debug (v : Port) : (s.setPort n v).debug = s.debug := rfl
@[simp] theorem setPort_cfg (v : Port) : (s.setPort n v).cfg = s.cfg := rfl
@[simp] theorem setPort_desks (v : Port) : (s.setPort n v).desks = s.desks := rfl
@[simp] theorem setPort_touchIx (v : Port) : (s.setPort n v).touchIx = s.touchIx := rfl
@[simp] theorem setPort_trim (v : Port) : (s.setPort n v).trim = s.trim := rfl
@[simp] theorem setPort_power (v : Port) : (s.setPort n v).power = s.power := rfl
@[simp] theorem setPort_start (v : Port) : (s.setPort n v).start = s.start := rfl
@[simp] theorem setPort_fresh (v : Port) : (s.setPort n v).fresh = s.fresh := rfl
@[simp] theorem setPort_out (v : Port) : (s.setPort n v).out = s.out := rfl
@[simp] theorem setPort_pending (v : Port) : (s.setPort n v).pending = s.pending := rfl
@[simp] theorem setPort_port (v : Port) : (s.setPort n v).port n = v := tget_tset_same
theorem setPort_port_other (v : Port) {k : Nat} (h : k ≠ n) : (s.setPort n v).port k = s.port k :=
  tget_tset_other h

/-! ### setDec -/

@[simp] theorem setDec_clk (v : DecEngine) : (s.setDec n v).clk = s.clk := rfl
@[simp] theorem setDec_tide (v : DecEngine) : (s.setDec n v).tide = s.tide := rfl
@[simp] theorem setDec_slots (v : DecEngine) : (s.setDec n v).slots = s.slots := rfl
@[simp] theorem setDec_mem (v : DecEngine) : (s.setDec n v).mem = s.mem := rfl
@[simp] theorem setDec_ctxs (v : DecEngine) : (s.setDec n v).ctxs = s.ctxs := rfl
@[simp] theorem setDec_wins (v : DecEngine) : (s.setDec n v).wins = s.wins := rfl
@[simp] theorem setDec_heads (v : DecEngine) : (s.setDec n v).heads = s.heads := rfl
@[simp] theorem setDec_dpl (v : DecEngine) : (s.setDec n v).dpl = s.dpl := rfl
@[simp] theorem setDec_clamps (v : DecEngine) : (s.setDec n v).clamps = s.clamps := rfl
@[simp] theorem setDec_coeffs (v : DecEngine) : (s.setDec n v).coeffs = s.coeffs := rfl
@[simp] theorem setDec_demands (v : DecEngine) : (s.setDec n v).demands = s.demands := rfl
@[simp] theorem setDec_rates (v : DecEngine) : (s.setDec n v).rates = s.rates := rfl
@[simp] theorem setDec_colours (v : DecEngine) : (s.setDec n v).colours = s.colours := rfl
@[simp] theorem setDec_nextColours (v : DecEngine) : (s.setDec n v).nextColours = s.nextColours := rfl
@[simp] theorem setDec_commitSeq (v : DecEngine) : (s.setDec n v).commitSeq = s.commitSeq := rfl
@[simp] theorem setDec_pans (v : DecEngine) : (s.setDec n v).pans = s.pans := rfl
@[simp] theorem setDec_fences (v : DecEngine) : (s.setDec n v).fences = s.fences := rfl
@[simp] theorem setDec_fenceRuns (v : DecEngine) : (s.setDec n v).fenceRuns = s.fenceRuns := rfl
@[simp] theorem setDec_ports (v : DecEngine) : (s.setDec n v).ports = s.ports := rfl
@[simp] theorem setDec_media (v : DecEngine) : (s.setDec n v).media = s.media := rfl
@[simp] theorem setDec_flows (v : DecEngine) : (s.setDec n v).flows = s.flows := rfl
@[simp] theorem setDec_encs (v : DecEngine) : (s.setDec n v).encs = s.encs := rfl
@[simp] theorem setDec_encEngines (v : DecEngine) : (s.setDec n v).encEngines = s.encEngines := rfl
@[simp] theorem setDec_jobs (v : DecEngine) : (s.setDec n v).jobs = s.jobs := rfl
@[simp] theorem setDec_jobQueue (v : DecEngine) : (s.setDec n v).jobQueue = s.jobQueue := rfl
@[simp] theorem setDec_lanes (v : DecEngine) : (s.setDec n v).lanes = s.lanes := rfl
@[simp] theorem setDec_checks (v : DecEngine) : (s.setDec n v).checks = s.checks := rfl
@[simp] theorem setDec_servo (v : DecEngine) : (s.setDec n v).servo = s.servo := rfl
@[simp] theorem setDec_pulses (v : DecEngine) : (s.setDec n v).pulses = s.pulses := rfl
@[simp] theorem setDec_captures (v : DecEngine) : (s.setDec n v).captures = s.captures := rfl
@[simp] theorem setDec_laneEq (v : DecEngine) : (s.setDec n v).laneEq = s.laneEq := rfl
@[simp] theorem setDec_rx (v : DecEngine) : (s.setDec n v).rx = s.rx := rfl
@[simp] theorem setDec_ring (v : DecEngine) : (s.setDec n v).ring = s.ring := rfl
@[simp] theorem setDec_wels (v : DecEngine) : (s.setDec n v).wels = s.wels := rfl
@[simp] theorem setDec_lineTx (v : DecEngine) : (s.setDec n v).lineTx = s.lineTx := rfl
@[simp] theorem setDec_lineRx (v : DecEngine) : (s.setDec n v).lineRx = s.lineRx := rfl
@[simp] theorem setDec_mailboxes (v : DecEngine) : (s.setDec n v).mailboxes = s.mailboxes := rfl
@[simp] theorem setDec_sessions (v : DecEngine) : (s.setDec n v).sessions = s.sessions := rfl
@[simp] theorem setDec_approvals (v : DecEngine) : (s.setDec n v).approvals = s.approvals := rfl
@[simp] theorem setDec_keys (v : DecEngine) : (s.setDec n v).keys = s.keys := rfl
@[simp] theorem setDec_hwbBase (v : DecEngine) : (s.setDec n v).hwbBase = s.hwbBase := rfl
@[simp] theorem setDec_hwbIdent (v : DecEngine) : (s.setDec n v).hwbIdent = s.hwbIdent := rfl
@[simp] theorem setDec_running (v : DecEngine) : (s.setDec n v).running = s.running := rfl
@[simp] theorem setDec_evr (v : DecEngine) : (s.setDec n v).evr = s.evr := rfl
@[simp] theorem setDec_irq (v : DecEngine) : (s.setDec n v).irq = s.irq := rfl
@[simp] theorem setDec_errs (v : DecEngine) : (s.setDec n v).errs = s.errs := rfl
@[simp] theorem setDec_errNext (v : DecEngine) : (s.setDec n v).errNext = s.errNext := rfl
@[simp] theorem setDec_errOverflow (v : DecEngine) : (s.setDec n v).errOverflow = s.errOverflow := rfl
@[simp] theorem setDec_debug (v : DecEngine) : (s.setDec n v).debug = s.debug := rfl
@[simp] theorem setDec_cfg (v : DecEngine) : (s.setDec n v).cfg = s.cfg := rfl
@[simp] theorem setDec_desks (v : DecEngine) : (s.setDec n v).desks = s.desks := rfl
@[simp] theorem setDec_touchIx (v : DecEngine) : (s.setDec n v).touchIx = s.touchIx := rfl
@[simp] theorem setDec_trim (v : DecEngine) : (s.setDec n v).trim = s.trim := rfl
@[simp] theorem setDec_power (v : DecEngine) : (s.setDec n v).power = s.power := rfl
@[simp] theorem setDec_start (v : DecEngine) : (s.setDec n v).start = s.start := rfl
@[simp] theorem setDec_fresh (v : DecEngine) : (s.setDec n v).fresh = s.fresh := rfl
@[simp] theorem setDec_out (v : DecEngine) : (s.setDec n v).out = s.out := rfl
@[simp] theorem setDec_pending (v : DecEngine) : (s.setDec n v).pending = s.pending := rfl
@[simp] theorem setDec_dec (v : DecEngine) : (s.setDec n v).dec n = v := tget_tset_same
theorem setDec_dec_other (v : DecEngine) {k : Nat} (h : k ≠ n) : (s.setDec n v).dec k = s.dec k :=
  tget_tset_other h

/-! ### setEncEngine -/

@[simp] theorem setEncEngine_clk (v : EncEngine) : (s.setEncEngine n v).clk = s.clk := rfl
@[simp] theorem setEncEngine_tide (v : EncEngine) : (s.setEncEngine n v).tide = s.tide := rfl
@[simp] theorem setEncEngine_slots (v : EncEngine) : (s.setEncEngine n v).slots = s.slots := rfl
@[simp] theorem setEncEngine_mem (v : EncEngine) : (s.setEncEngine n v).mem = s.mem := rfl
@[simp] theorem setEncEngine_ctxs (v : EncEngine) : (s.setEncEngine n v).ctxs = s.ctxs := rfl
@[simp] theorem setEncEngine_wins (v : EncEngine) : (s.setEncEngine n v).wins = s.wins := rfl
@[simp] theorem setEncEngine_heads (v : EncEngine) : (s.setEncEngine n v).heads = s.heads := rfl
@[simp] theorem setEncEngine_dpl (v : EncEngine) : (s.setEncEngine n v).dpl = s.dpl := rfl
@[simp] theorem setEncEngine_clamps (v : EncEngine) : (s.setEncEngine n v).clamps = s.clamps := rfl
@[simp] theorem setEncEngine_coeffs (v : EncEngine) : (s.setEncEngine n v).coeffs = s.coeffs := rfl
@[simp] theorem setEncEngine_demands (v : EncEngine) : (s.setEncEngine n v).demands = s.demands := rfl
@[simp] theorem setEncEngine_rates (v : EncEngine) : (s.setEncEngine n v).rates = s.rates := rfl
@[simp] theorem setEncEngine_colours (v : EncEngine) : (s.setEncEngine n v).colours = s.colours := rfl
@[simp] theorem setEncEngine_nextColours (v : EncEngine) : (s.setEncEngine n v).nextColours = s.nextColours := rfl
@[simp] theorem setEncEngine_commitSeq (v : EncEngine) : (s.setEncEngine n v).commitSeq = s.commitSeq := rfl
@[simp] theorem setEncEngine_pans (v : EncEngine) : (s.setEncEngine n v).pans = s.pans := rfl
@[simp] theorem setEncEngine_fences (v : EncEngine) : (s.setEncEngine n v).fences = s.fences := rfl
@[simp] theorem setEncEngine_fenceRuns (v : EncEngine) : (s.setEncEngine n v).fenceRuns = s.fenceRuns := rfl
@[simp] theorem setEncEngine_ports (v : EncEngine) : (s.setEncEngine n v).ports = s.ports := rfl
@[simp] theorem setEncEngine_media (v : EncEngine) : (s.setEncEngine n v).media = s.media := rfl
@[simp] theorem setEncEngine_flows (v : EncEngine) : (s.setEncEngine n v).flows = s.flows := rfl
@[simp] theorem setEncEngine_decs (v : EncEngine) : (s.setEncEngine n v).decs = s.decs := rfl
@[simp] theorem setEncEngine_encs (v : EncEngine) : (s.setEncEngine n v).encs = s.encs := rfl
@[simp] theorem setEncEngine_jobs (v : EncEngine) : (s.setEncEngine n v).jobs = s.jobs := rfl
@[simp] theorem setEncEngine_jobQueue (v : EncEngine) : (s.setEncEngine n v).jobQueue = s.jobQueue := rfl
@[simp] theorem setEncEngine_lanes (v : EncEngine) : (s.setEncEngine n v).lanes = s.lanes := rfl
@[simp] theorem setEncEngine_checks (v : EncEngine) : (s.setEncEngine n v).checks = s.checks := rfl
@[simp] theorem setEncEngine_servo (v : EncEngine) : (s.setEncEngine n v).servo = s.servo := rfl
@[simp] theorem setEncEngine_pulses (v : EncEngine) : (s.setEncEngine n v).pulses = s.pulses := rfl
@[simp] theorem setEncEngine_captures (v : EncEngine) : (s.setEncEngine n v).captures = s.captures := rfl
@[simp] theorem setEncEngine_laneEq (v : EncEngine) : (s.setEncEngine n v).laneEq = s.laneEq := rfl
@[simp] theorem setEncEngine_rx (v : EncEngine) : (s.setEncEngine n v).rx = s.rx := rfl
@[simp] theorem setEncEngine_ring (v : EncEngine) : (s.setEncEngine n v).ring = s.ring := rfl
@[simp] theorem setEncEngine_wels (v : EncEngine) : (s.setEncEngine n v).wels = s.wels := rfl
@[simp] theorem setEncEngine_lineTx (v : EncEngine) : (s.setEncEngine n v).lineTx = s.lineTx := rfl
@[simp] theorem setEncEngine_lineRx (v : EncEngine) : (s.setEncEngine n v).lineRx = s.lineRx := rfl
@[simp] theorem setEncEngine_mailboxes (v : EncEngine) : (s.setEncEngine n v).mailboxes = s.mailboxes := rfl
@[simp] theorem setEncEngine_sessions (v : EncEngine) : (s.setEncEngine n v).sessions = s.sessions := rfl
@[simp] theorem setEncEngine_approvals (v : EncEngine) : (s.setEncEngine n v).approvals = s.approvals := rfl
@[simp] theorem setEncEngine_keys (v : EncEngine) : (s.setEncEngine n v).keys = s.keys := rfl
@[simp] theorem setEncEngine_hwbBase (v : EncEngine) : (s.setEncEngine n v).hwbBase = s.hwbBase := rfl
@[simp] theorem setEncEngine_hwbIdent (v : EncEngine) : (s.setEncEngine n v).hwbIdent = s.hwbIdent := rfl
@[simp] theorem setEncEngine_running (v : EncEngine) : (s.setEncEngine n v).running = s.running := rfl
@[simp] theorem setEncEngine_evr (v : EncEngine) : (s.setEncEngine n v).evr = s.evr := rfl
@[simp] theorem setEncEngine_irq (v : EncEngine) : (s.setEncEngine n v).irq = s.irq := rfl
@[simp] theorem setEncEngine_errs (v : EncEngine) : (s.setEncEngine n v).errs = s.errs := rfl
@[simp] theorem setEncEngine_errNext (v : EncEngine) : (s.setEncEngine n v).errNext = s.errNext := rfl
@[simp] theorem setEncEngine_errOverflow (v : EncEngine) : (s.setEncEngine n v).errOverflow = s.errOverflow := rfl
@[simp] theorem setEncEngine_debug (v : EncEngine) : (s.setEncEngine n v).debug = s.debug := rfl
@[simp] theorem setEncEngine_cfg (v : EncEngine) : (s.setEncEngine n v).cfg = s.cfg := rfl
@[simp] theorem setEncEngine_desks (v : EncEngine) : (s.setEncEngine n v).desks = s.desks := rfl
@[simp] theorem setEncEngine_touchIx (v : EncEngine) : (s.setEncEngine n v).touchIx = s.touchIx := rfl
@[simp] theorem setEncEngine_trim (v : EncEngine) : (s.setEncEngine n v).trim = s.trim := rfl
@[simp] theorem setEncEngine_power (v : EncEngine) : (s.setEncEngine n v).power = s.power := rfl
@[simp] theorem setEncEngine_start (v : EncEngine) : (s.setEncEngine n v).start = s.start := rfl
@[simp] theorem setEncEngine_fresh (v : EncEngine) : (s.setEncEngine n v).fresh = s.fresh := rfl
@[simp] theorem setEncEngine_out (v : EncEngine) : (s.setEncEngine n v).out = s.out := rfl
@[simp] theorem setEncEngine_pending (v : EncEngine) : (s.setEncEngine n v).pending = s.pending := rfl
@[simp] theorem setEncEngine_encEngine (v : EncEngine) : (s.setEncEngine n v).encEngine n = v := tget_tset_same
theorem setEncEngine_encEngine_other (v : EncEngine) {k : Nat} (h : k ≠ n) : (s.setEncEngine n v).encEngine k = s.encEngine k :=
  tget_tset_other h

/-! ### setEnc -/

@[simp] theorem setEnc_clk (v : Enc) : (s.setEnc n v).clk = s.clk := rfl
@[simp] theorem setEnc_tide (v : Enc) : (s.setEnc n v).tide = s.tide := rfl
@[simp] theorem setEnc_slots (v : Enc) : (s.setEnc n v).slots = s.slots := rfl
@[simp] theorem setEnc_mem (v : Enc) : (s.setEnc n v).mem = s.mem := rfl
@[simp] theorem setEnc_ctxs (v : Enc) : (s.setEnc n v).ctxs = s.ctxs := rfl
@[simp] theorem setEnc_wins (v : Enc) : (s.setEnc n v).wins = s.wins := rfl
@[simp] theorem setEnc_heads (v : Enc) : (s.setEnc n v).heads = s.heads := rfl
@[simp] theorem setEnc_dpl (v : Enc) : (s.setEnc n v).dpl = s.dpl := rfl
@[simp] theorem setEnc_clamps (v : Enc) : (s.setEnc n v).clamps = s.clamps := rfl
@[simp] theorem setEnc_coeffs (v : Enc) : (s.setEnc n v).coeffs = s.coeffs := rfl
@[simp] theorem setEnc_demands (v : Enc) : (s.setEnc n v).demands = s.demands := rfl
@[simp] theorem setEnc_rates (v : Enc) : (s.setEnc n v).rates = s.rates := rfl
@[simp] theorem setEnc_colours (v : Enc) : (s.setEnc n v).colours = s.colours := rfl
@[simp] theorem setEnc_nextColours (v : Enc) : (s.setEnc n v).nextColours = s.nextColours := rfl
@[simp] theorem setEnc_commitSeq (v : Enc) : (s.setEnc n v).commitSeq = s.commitSeq := rfl
@[simp] theorem setEnc_pans (v : Enc) : (s.setEnc n v).pans = s.pans := rfl
@[simp] theorem setEnc_fences (v : Enc) : (s.setEnc n v).fences = s.fences := rfl
@[simp] theorem setEnc_fenceRuns (v : Enc) : (s.setEnc n v).fenceRuns = s.fenceRuns := rfl
@[simp] theorem setEnc_ports (v : Enc) : (s.setEnc n v).ports = s.ports := rfl
@[simp] theorem setEnc_media (v : Enc) : (s.setEnc n v).media = s.media := rfl
@[simp] theorem setEnc_flows (v : Enc) : (s.setEnc n v).flows = s.flows := rfl
@[simp] theorem setEnc_decs (v : Enc) : (s.setEnc n v).decs = s.decs := rfl
@[simp] theorem setEnc_encEngines (v : Enc) : (s.setEnc n v).encEngines = s.encEngines := rfl
@[simp] theorem setEnc_jobs (v : Enc) : (s.setEnc n v).jobs = s.jobs := rfl
@[simp] theorem setEnc_jobQueue (v : Enc) : (s.setEnc n v).jobQueue = s.jobQueue := rfl
@[simp] theorem setEnc_lanes (v : Enc) : (s.setEnc n v).lanes = s.lanes := rfl
@[simp] theorem setEnc_checks (v : Enc) : (s.setEnc n v).checks = s.checks := rfl
@[simp] theorem setEnc_servo (v : Enc) : (s.setEnc n v).servo = s.servo := rfl
@[simp] theorem setEnc_pulses (v : Enc) : (s.setEnc n v).pulses = s.pulses := rfl
@[simp] theorem setEnc_captures (v : Enc) : (s.setEnc n v).captures = s.captures := rfl
@[simp] theorem setEnc_laneEq (v : Enc) : (s.setEnc n v).laneEq = s.laneEq := rfl
@[simp] theorem setEnc_rx (v : Enc) : (s.setEnc n v).rx = s.rx := rfl
@[simp] theorem setEnc_ring (v : Enc) : (s.setEnc n v).ring = s.ring := rfl
@[simp] theorem setEnc_wels (v : Enc) : (s.setEnc n v).wels = s.wels := rfl
@[simp] theorem setEnc_lineTx (v : Enc) : (s.setEnc n v).lineTx = s.lineTx := rfl
@[simp] theorem setEnc_lineRx (v : Enc) : (s.setEnc n v).lineRx = s.lineRx := rfl
@[simp] theorem setEnc_mailboxes (v : Enc) : (s.setEnc n v).mailboxes = s.mailboxes := rfl
@[simp] theorem setEnc_sessions (v : Enc) : (s.setEnc n v).sessions = s.sessions := rfl
@[simp] theorem setEnc_approvals (v : Enc) : (s.setEnc n v).approvals = s.approvals := rfl
@[simp] theorem setEnc_keys (v : Enc) : (s.setEnc n v).keys = s.keys := rfl
@[simp] theorem setEnc_hwbBase (v : Enc) : (s.setEnc n v).hwbBase = s.hwbBase := rfl
@[simp] theorem setEnc_hwbIdent (v : Enc) : (s.setEnc n v).hwbIdent = s.hwbIdent := rfl
@[simp] theorem setEnc_running (v : Enc) : (s.setEnc n v).running = s.running := rfl
@[simp] theorem setEnc_evr (v : Enc) : (s.setEnc n v).evr = s.evr := rfl
@[simp] theorem setEnc_irq (v : Enc) : (s.setEnc n v).irq = s.irq := rfl
@[simp] theorem setEnc_errs (v : Enc) : (s.setEnc n v).errs = s.errs := rfl
@[simp] theorem setEnc_errNext (v : Enc) : (s.setEnc n v).errNext = s.errNext := rfl
@[simp] theorem setEnc_errOverflow (v : Enc) : (s.setEnc n v).errOverflow = s.errOverflow := rfl
@[simp] theorem setEnc_debug (v : Enc) : (s.setEnc n v).debug = s.debug := rfl
@[simp] theorem setEnc_cfg (v : Enc) : (s.setEnc n v).cfg = s.cfg := rfl
@[simp] theorem setEnc_desks (v : Enc) : (s.setEnc n v).desks = s.desks := rfl
@[simp] theorem setEnc_touchIx (v : Enc) : (s.setEnc n v).touchIx = s.touchIx := rfl
@[simp] theorem setEnc_trim (v : Enc) : (s.setEnc n v).trim = s.trim := rfl
@[simp] theorem setEnc_power (v : Enc) : (s.setEnc n v).power = s.power := rfl
@[simp] theorem setEnc_start (v : Enc) : (s.setEnc n v).start = s.start := rfl
@[simp] theorem setEnc_fresh (v : Enc) : (s.setEnc n v).fresh = s.fresh := rfl
@[simp] theorem setEnc_out (v : Enc) : (s.setEnc n v).out = s.out := rfl
@[simp] theorem setEnc_pending (v : Enc) : (s.setEnc n v).pending = s.pending := rfl

/-! ### setJob -/

@[simp] theorem setJob_clk (v : Job) : (s.setJob n v).clk = s.clk := rfl
@[simp] theorem setJob_tide (v : Job) : (s.setJob n v).tide = s.tide := rfl
@[simp] theorem setJob_slots (v : Job) : (s.setJob n v).slots = s.slots := rfl
@[simp] theorem setJob_mem (v : Job) : (s.setJob n v).mem = s.mem := rfl
@[simp] theorem setJob_ctxs (v : Job) : (s.setJob n v).ctxs = s.ctxs := rfl
@[simp] theorem setJob_wins (v : Job) : (s.setJob n v).wins = s.wins := rfl
@[simp] theorem setJob_heads (v : Job) : (s.setJob n v).heads = s.heads := rfl
@[simp] theorem setJob_dpl (v : Job) : (s.setJob n v).dpl = s.dpl := rfl
@[simp] theorem setJob_clamps (v : Job) : (s.setJob n v).clamps = s.clamps := rfl
@[simp] theorem setJob_coeffs (v : Job) : (s.setJob n v).coeffs = s.coeffs := rfl
@[simp] theorem setJob_demands (v : Job) : (s.setJob n v).demands = s.demands := rfl
@[simp] theorem setJob_rates (v : Job) : (s.setJob n v).rates = s.rates := rfl
@[simp] theorem setJob_colours (v : Job) : (s.setJob n v).colours = s.colours := rfl
@[simp] theorem setJob_nextColours (v : Job) : (s.setJob n v).nextColours = s.nextColours := rfl
@[simp] theorem setJob_commitSeq (v : Job) : (s.setJob n v).commitSeq = s.commitSeq := rfl
@[simp] theorem setJob_pans (v : Job) : (s.setJob n v).pans = s.pans := rfl
@[simp] theorem setJob_fences (v : Job) : (s.setJob n v).fences = s.fences := rfl
@[simp] theorem setJob_fenceRuns (v : Job) : (s.setJob n v).fenceRuns = s.fenceRuns := rfl
@[simp] theorem setJob_ports (v : Job) : (s.setJob n v).ports = s.ports := rfl
@[simp] theorem setJob_media (v : Job) : (s.setJob n v).media = s.media := rfl
@[simp] theorem setJob_flows (v : Job) : (s.setJob n v).flows = s.flows := rfl
@[simp] theorem setJob_decs (v : Job) : (s.setJob n v).decs = s.decs := rfl
@[simp] theorem setJob_encs (v : Job) : (s.setJob n v).encs = s.encs := rfl
@[simp] theorem setJob_encEngines (v : Job) : (s.setJob n v).encEngines = s.encEngines := rfl
@[simp] theorem setJob_jobQueue (v : Job) : (s.setJob n v).jobQueue = s.jobQueue := rfl
@[simp] theorem setJob_lanes (v : Job) : (s.setJob n v).lanes = s.lanes := rfl
@[simp] theorem setJob_checks (v : Job) : (s.setJob n v).checks = s.checks := rfl
@[simp] theorem setJob_servo (v : Job) : (s.setJob n v).servo = s.servo := rfl
@[simp] theorem setJob_pulses (v : Job) : (s.setJob n v).pulses = s.pulses := rfl
@[simp] theorem setJob_captures (v : Job) : (s.setJob n v).captures = s.captures := rfl
@[simp] theorem setJob_laneEq (v : Job) : (s.setJob n v).laneEq = s.laneEq := rfl
@[simp] theorem setJob_rx (v : Job) : (s.setJob n v).rx = s.rx := rfl
@[simp] theorem setJob_ring (v : Job) : (s.setJob n v).ring = s.ring := rfl
@[simp] theorem setJob_wels (v : Job) : (s.setJob n v).wels = s.wels := rfl
@[simp] theorem setJob_lineTx (v : Job) : (s.setJob n v).lineTx = s.lineTx := rfl
@[simp] theorem setJob_lineRx (v : Job) : (s.setJob n v).lineRx = s.lineRx := rfl
@[simp] theorem setJob_mailboxes (v : Job) : (s.setJob n v).mailboxes = s.mailboxes := rfl
@[simp] theorem setJob_sessions (v : Job) : (s.setJob n v).sessions = s.sessions := rfl
@[simp] theorem setJob_approvals (v : Job) : (s.setJob n v).approvals = s.approvals := rfl
@[simp] theorem setJob_keys (v : Job) : (s.setJob n v).keys = s.keys := rfl
@[simp] theorem setJob_hwbBase (v : Job) : (s.setJob n v).hwbBase = s.hwbBase := rfl
@[simp] theorem setJob_hwbIdent (v : Job) : (s.setJob n v).hwbIdent = s.hwbIdent := rfl
@[simp] theorem setJob_running (v : Job) : (s.setJob n v).running = s.running := rfl
@[simp] theorem setJob_evr (v : Job) : (s.setJob n v).evr = s.evr := rfl
@[simp] theorem setJob_irq (v : Job) : (s.setJob n v).irq = s.irq := rfl
@[simp] theorem setJob_errs (v : Job) : (s.setJob n v).errs = s.errs := rfl
@[simp] theorem setJob_errNext (v : Job) : (s.setJob n v).errNext = s.errNext := rfl
@[simp] theorem setJob_errOverflow (v : Job) : (s.setJob n v).errOverflow = s.errOverflow := rfl
@[simp] theorem setJob_debug (v : Job) : (s.setJob n v).debug = s.debug := rfl
@[simp] theorem setJob_cfg (v : Job) : (s.setJob n v).cfg = s.cfg := rfl
@[simp] theorem setJob_desks (v : Job) : (s.setJob n v).desks = s.desks := rfl
@[simp] theorem setJob_touchIx (v : Job) : (s.setJob n v).touchIx = s.touchIx := rfl
@[simp] theorem setJob_trim (v : Job) : (s.setJob n v).trim = s.trim := rfl
@[simp] theorem setJob_power (v : Job) : (s.setJob n v).power = s.power := rfl
@[simp] theorem setJob_start (v : Job) : (s.setJob n v).start = s.start := rfl
@[simp] theorem setJob_fresh (v : Job) : (s.setJob n v).fresh = s.fresh := rfl
@[simp] theorem setJob_out (v : Job) : (s.setJob n v).out = s.out := rfl
@[simp] theorem setJob_pending (v : Job) : (s.setJob n v).pending = s.pending := rfl

/-! ### setLane -/

@[simp] theorem setLane_clk (v : Lane) : (s.setLane n v).clk = s.clk := rfl
@[simp] theorem setLane_tide (v : Lane) : (s.setLane n v).tide = s.tide := rfl
@[simp] theorem setLane_slots (v : Lane) : (s.setLane n v).slots = s.slots := rfl
@[simp] theorem setLane_mem (v : Lane) : (s.setLane n v).mem = s.mem := rfl
@[simp] theorem setLane_ctxs (v : Lane) : (s.setLane n v).ctxs = s.ctxs := rfl
@[simp] theorem setLane_wins (v : Lane) : (s.setLane n v).wins = s.wins := rfl
@[simp] theorem setLane_heads (v : Lane) : (s.setLane n v).heads = s.heads := rfl
@[simp] theorem setLane_dpl (v : Lane) : (s.setLane n v).dpl = s.dpl := rfl
@[simp] theorem setLane_clamps (v : Lane) : (s.setLane n v).clamps = s.clamps := rfl
@[simp] theorem setLane_coeffs (v : Lane) : (s.setLane n v).coeffs = s.coeffs := rfl
@[simp] theorem setLane_demands (v : Lane) : (s.setLane n v).demands = s.demands := rfl
@[simp] theorem setLane_rates (v : Lane) : (s.setLane n v).rates = s.rates := rfl
@[simp] theorem setLane_colours (v : Lane) : (s.setLane n v).colours = s.colours := rfl
@[simp] theorem setLane_nextColours (v : Lane) : (s.setLane n v).nextColours = s.nextColours := rfl
@[simp] theorem setLane_commitSeq (v : Lane) : (s.setLane n v).commitSeq = s.commitSeq := rfl
@[simp] theorem setLane_pans (v : Lane) : (s.setLane n v).pans = s.pans := rfl
@[simp] theorem setLane_fences (v : Lane) : (s.setLane n v).fences = s.fences := rfl
@[simp] theorem setLane_fenceRuns (v : Lane) : (s.setLane n v).fenceRuns = s.fenceRuns := rfl
@[simp] theorem setLane_ports (v : Lane) : (s.setLane n v).ports = s.ports := rfl
@[simp] theorem setLane_media (v : Lane) : (s.setLane n v).media = s.media := rfl
@[simp] theorem setLane_flows (v : Lane) : (s.setLane n v).flows = s.flows := rfl
@[simp] theorem setLane_decs (v : Lane) : (s.setLane n v).decs = s.decs := rfl
@[simp] theorem setLane_encs (v : Lane) : (s.setLane n v).encs = s.encs := rfl
@[simp] theorem setLane_encEngines (v : Lane) : (s.setLane n v).encEngines = s.encEngines := rfl
@[simp] theorem setLane_jobs (v : Lane) : (s.setLane n v).jobs = s.jobs := rfl
@[simp] theorem setLane_jobQueue (v : Lane) : (s.setLane n v).jobQueue = s.jobQueue := rfl
@[simp] theorem setLane_checks (v : Lane) : (s.setLane n v).checks = s.checks := rfl
@[simp] theorem setLane_servo (v : Lane) : (s.setLane n v).servo = s.servo := rfl
@[simp] theorem setLane_pulses (v : Lane) : (s.setLane n v).pulses = s.pulses := rfl
@[simp] theorem setLane_captures (v : Lane) : (s.setLane n v).captures = s.captures := rfl
@[simp] theorem setLane_laneEq (v : Lane) : (s.setLane n v).laneEq = s.laneEq := rfl
@[simp] theorem setLane_rx (v : Lane) : (s.setLane n v).rx = s.rx := rfl
@[simp] theorem setLane_ring (v : Lane) : (s.setLane n v).ring = s.ring := rfl
@[simp] theorem setLane_wels (v : Lane) : (s.setLane n v).wels = s.wels := rfl
@[simp] theorem setLane_lineTx (v : Lane) : (s.setLane n v).lineTx = s.lineTx := rfl
@[simp] theorem setLane_lineRx (v : Lane) : (s.setLane n v).lineRx = s.lineRx := rfl
@[simp] theorem setLane_mailboxes (v : Lane) : (s.setLane n v).mailboxes = s.mailboxes := rfl
@[simp] theorem setLane_sessions (v : Lane) : (s.setLane n v).sessions = s.sessions := rfl
@[simp] theorem setLane_approvals (v : Lane) : (s.setLane n v).approvals = s.approvals := rfl
@[simp] theorem setLane_keys (v : Lane) : (s.setLane n v).keys = s.keys := rfl
@[simp] theorem setLane_hwbBase (v : Lane) : (s.setLane n v).hwbBase = s.hwbBase := rfl
@[simp] theorem setLane_hwbIdent (v : Lane) : (s.setLane n v).hwbIdent = s.hwbIdent := rfl
@[simp] theorem setLane_running (v : Lane) : (s.setLane n v).running = s.running := rfl
@[simp] theorem setLane_evr (v : Lane) : (s.setLane n v).evr = s.evr := rfl
@[simp] theorem setLane_irq (v : Lane) : (s.setLane n v).irq = s.irq := rfl
@[simp] theorem setLane_errs (v : Lane) : (s.setLane n v).errs = s.errs := rfl
@[simp] theorem setLane_errNext (v : Lane) : (s.setLane n v).errNext = s.errNext := rfl
@[simp] theorem setLane_errOverflow (v : Lane) : (s.setLane n v).errOverflow = s.errOverflow := rfl
@[simp] theorem setLane_debug (v : Lane) : (s.setLane n v).debug = s.debug := rfl
@[simp] theorem setLane_cfg (v : Lane) : (s.setLane n v).cfg = s.cfg := rfl
@[simp] theorem setLane_desks (v : Lane) : (s.setLane n v).desks = s.desks := rfl
@[simp] theorem setLane_touchIx (v : Lane) : (s.setLane n v).touchIx = s.touchIx := rfl
@[simp] theorem setLane_trim (v : Lane) : (s.setLane n v).trim = s.trim := rfl
@[simp] theorem setLane_power (v : Lane) : (s.setLane n v).power = s.power := rfl
@[simp] theorem setLane_start (v : Lane) : (s.setLane n v).start = s.start := rfl
@[simp] theorem setLane_fresh (v : Lane) : (s.setLane n v).fresh = s.fresh := rfl
@[simp] theorem setLane_out (v : Lane) : (s.setLane n v).out = s.out := rfl
@[simp] theorem setLane_pending (v : Lane) : (s.setLane n v).pending = s.pending := rfl
@[simp] theorem setLane_lane (v : Lane) : (s.setLane n v).lane n = v := tget_tset_same
theorem setLane_lane_other (v : Lane) {k : Nat} (h : k ≠ n) : (s.setLane n v).lane k = s.lane k :=
  tget_tset_other h

/-! ### setCheck -/

@[simp] theorem setCheck_clk (v : Check) : (s.setCheck n v).clk = s.clk := rfl
@[simp] theorem setCheck_tide (v : Check) : (s.setCheck n v).tide = s.tide := rfl
@[simp] theorem setCheck_slots (v : Check) : (s.setCheck n v).slots = s.slots := rfl
@[simp] theorem setCheck_mem (v : Check) : (s.setCheck n v).mem = s.mem := rfl
@[simp] theorem setCheck_ctxs (v : Check) : (s.setCheck n v).ctxs = s.ctxs := rfl
@[simp] theorem setCheck_wins (v : Check) : (s.setCheck n v).wins = s.wins := rfl
@[simp] theorem setCheck_heads (v : Check) : (s.setCheck n v).heads = s.heads := rfl
@[simp] theorem setCheck_dpl (v : Check) : (s.setCheck n v).dpl = s.dpl := rfl
@[simp] theorem setCheck_clamps (v : Check) : (s.setCheck n v).clamps = s.clamps := rfl
@[simp] theorem setCheck_coeffs (v : Check) : (s.setCheck n v).coeffs = s.coeffs := rfl
@[simp] theorem setCheck_demands (v : Check) : (s.setCheck n v).demands = s.demands := rfl
@[simp] theorem setCheck_rates (v : Check) : (s.setCheck n v).rates = s.rates := rfl
@[simp] theorem setCheck_colours (v : Check) : (s.setCheck n v).colours = s.colours := rfl
@[simp] theorem setCheck_nextColours (v : Check) : (s.setCheck n v).nextColours = s.nextColours := rfl
@[simp] theorem setCheck_commitSeq (v : Check) : (s.setCheck n v).commitSeq = s.commitSeq := rfl
@[simp] theorem setCheck_pans (v : Check) : (s.setCheck n v).pans = s.pans := rfl
@[simp] theorem setCheck_fences (v : Check) : (s.setCheck n v).fences = s.fences := rfl
@[simp] theorem setCheck_fenceRuns (v : Check) : (s.setCheck n v).fenceRuns = s.fenceRuns := rfl
@[simp] theorem setCheck_ports (v : Check) : (s.setCheck n v).ports = s.ports := rfl
@[simp] theorem setCheck_media (v : Check) : (s.setCheck n v).media = s.media := rfl
@[simp] theorem setCheck_flows (v : Check) : (s.setCheck n v).flows = s.flows := rfl
@[simp] theorem setCheck_decs (v : Check) : (s.setCheck n v).decs = s.decs := rfl
@[simp] theorem setCheck_encs (v : Check) : (s.setCheck n v).encs = s.encs := rfl
@[simp] theorem setCheck_encEngines (v : Check) : (s.setCheck n v).encEngines = s.encEngines := rfl
@[simp] theorem setCheck_jobs (v : Check) : (s.setCheck n v).jobs = s.jobs := rfl
@[simp] theorem setCheck_jobQueue (v : Check) : (s.setCheck n v).jobQueue = s.jobQueue := rfl
@[simp] theorem setCheck_lanes (v : Check) : (s.setCheck n v).lanes = s.lanes := rfl
@[simp] theorem setCheck_servo (v : Check) : (s.setCheck n v).servo = s.servo := rfl
@[simp] theorem setCheck_pulses (v : Check) : (s.setCheck n v).pulses = s.pulses := rfl
@[simp] theorem setCheck_captures (v : Check) : (s.setCheck n v).captures = s.captures := rfl
@[simp] theorem setCheck_laneEq (v : Check) : (s.setCheck n v).laneEq = s.laneEq := rfl
@[simp] theorem setCheck_rx (v : Check) : (s.setCheck n v).rx = s.rx := rfl
@[simp] theorem setCheck_ring (v : Check) : (s.setCheck n v).ring = s.ring := rfl
@[simp] theorem setCheck_wels (v : Check) : (s.setCheck n v).wels = s.wels := rfl
@[simp] theorem setCheck_lineTx (v : Check) : (s.setCheck n v).lineTx = s.lineTx := rfl
@[simp] theorem setCheck_lineRx (v : Check) : (s.setCheck n v).lineRx = s.lineRx := rfl
@[simp] theorem setCheck_mailboxes (v : Check) : (s.setCheck n v).mailboxes = s.mailboxes := rfl
@[simp] theorem setCheck_sessions (v : Check) : (s.setCheck n v).sessions = s.sessions := rfl
@[simp] theorem setCheck_approvals (v : Check) : (s.setCheck n v).approvals = s.approvals := rfl
@[simp] theorem setCheck_keys (v : Check) : (s.setCheck n v).keys = s.keys := rfl
@[simp] theorem setCheck_hwbBase (v : Check) : (s.setCheck n v).hwbBase = s.hwbBase := rfl
@[simp] theorem setCheck_hwbIdent (v : Check) : (s.setCheck n v).hwbIdent = s.hwbIdent := rfl
@[simp] theorem setCheck_running (v : Check) : (s.setCheck n v).running = s.running := rfl
@[simp] theorem setCheck_evr (v : Check) : (s.setCheck n v).evr = s.evr := rfl
@[simp] theorem setCheck_irq (v : Check) : (s.setCheck n v).irq = s.irq := rfl
@[simp] theorem setCheck_errs (v : Check) : (s.setCheck n v).errs = s.errs := rfl
@[simp] theorem setCheck_errNext (v : Check) : (s.setCheck n v).errNext = s.errNext := rfl
@[simp] theorem setCheck_errOverflow (v : Check) : (s.setCheck n v).errOverflow = s.errOverflow := rfl
@[simp] theorem setCheck_debug (v : Check) : (s.setCheck n v).debug = s.debug := rfl
@[simp] theorem setCheck_cfg (v : Check) : (s.setCheck n v).cfg = s.cfg := rfl
@[simp] theorem setCheck_desks (v : Check) : (s.setCheck n v).desks = s.desks := rfl
@[simp] theorem setCheck_touchIx (v : Check) : (s.setCheck n v).touchIx = s.touchIx := rfl
@[simp] theorem setCheck_trim (v : Check) : (s.setCheck n v).trim = s.trim := rfl
@[simp] theorem setCheck_power (v : Check) : (s.setCheck n v).power = s.power := rfl
@[simp] theorem setCheck_start (v : Check) : (s.setCheck n v).start = s.start := rfl
@[simp] theorem setCheck_fresh (v : Check) : (s.setCheck n v).fresh = s.fresh := rfl
@[simp] theorem setCheck_out (v : Check) : (s.setCheck n v).out = s.out := rfl
@[simp] theorem setCheck_pending (v : Check) : (s.setCheck n v).pending = s.pending := rfl

/-! ### setPulse -/

@[simp] theorem setPulse_clk (v : PulseSt) : (s.setPulse n v).clk = s.clk := rfl
@[simp] theorem setPulse_tide (v : PulseSt) : (s.setPulse n v).tide = s.tide := rfl
@[simp] theorem setPulse_slots (v : PulseSt) : (s.setPulse n v).slots = s.slots := rfl
@[simp] theorem setPulse_mem (v : PulseSt) : (s.setPulse n v).mem = s.mem := rfl
@[simp] theorem setPulse_ctxs (v : PulseSt) : (s.setPulse n v).ctxs = s.ctxs := rfl
@[simp] theorem setPulse_wins (v : PulseSt) : (s.setPulse n v).wins = s.wins := rfl
@[simp] theorem setPulse_heads (v : PulseSt) : (s.setPulse n v).heads = s.heads := rfl
@[simp] theorem setPulse_dpl (v : PulseSt) : (s.setPulse n v).dpl = s.dpl := rfl
@[simp] theorem setPulse_clamps (v : PulseSt) : (s.setPulse n v).clamps = s.clamps := rfl
@[simp] theorem setPulse_coeffs (v : PulseSt) : (s.setPulse n v).coeffs = s.coeffs := rfl
@[simp] theorem setPulse_demands (v : PulseSt) : (s.setPulse n v).demands = s.demands := rfl
@[simp] theorem setPulse_rates (v : PulseSt) : (s.setPulse n v).rates = s.rates := rfl
@[simp] theorem setPulse_colours (v : PulseSt) : (s.setPulse n v).colours = s.colours := rfl
@[simp] theorem setPulse_nextColours (v : PulseSt) : (s.setPulse n v).nextColours = s.nextColours := rfl
@[simp] theorem setPulse_commitSeq (v : PulseSt) : (s.setPulse n v).commitSeq = s.commitSeq := rfl
@[simp] theorem setPulse_pans (v : PulseSt) : (s.setPulse n v).pans = s.pans := rfl
@[simp] theorem setPulse_fences (v : PulseSt) : (s.setPulse n v).fences = s.fences := rfl
@[simp] theorem setPulse_fenceRuns (v : PulseSt) : (s.setPulse n v).fenceRuns = s.fenceRuns := rfl
@[simp] theorem setPulse_ports (v : PulseSt) : (s.setPulse n v).ports = s.ports := rfl
@[simp] theorem setPulse_media (v : PulseSt) : (s.setPulse n v).media = s.media := rfl
@[simp] theorem setPulse_flows (v : PulseSt) : (s.setPulse n v).flows = s.flows := rfl
@[simp] theorem setPulse_decs (v : PulseSt) : (s.setPulse n v).decs = s.decs := rfl
@[simp] theorem setPulse_encs (v : PulseSt) : (s.setPulse n v).encs = s.encs := rfl
@[simp] theorem setPulse_encEngines (v : PulseSt) : (s.setPulse n v).encEngines = s.encEngines := rfl
@[simp] theorem setPulse_jobs (v : PulseSt) : (s.setPulse n v).jobs = s.jobs := rfl
@[simp] theorem setPulse_jobQueue (v : PulseSt) : (s.setPulse n v).jobQueue = s.jobQueue := rfl
@[simp] theorem setPulse_lanes (v : PulseSt) : (s.setPulse n v).lanes = s.lanes := rfl
@[simp] theorem setPulse_checks (v : PulseSt) : (s.setPulse n v).checks = s.checks := rfl
@[simp] theorem setPulse_servo (v : PulseSt) : (s.setPulse n v).servo = s.servo := rfl
@[simp] theorem setPulse_captures (v : PulseSt) : (s.setPulse n v).captures = s.captures := rfl
@[simp] theorem setPulse_laneEq (v : PulseSt) : (s.setPulse n v).laneEq = s.laneEq := rfl
@[simp] theorem setPulse_rx (v : PulseSt) : (s.setPulse n v).rx = s.rx := rfl
@[simp] theorem setPulse_ring (v : PulseSt) : (s.setPulse n v).ring = s.ring := rfl
@[simp] theorem setPulse_wels (v : PulseSt) : (s.setPulse n v).wels = s.wels := rfl
@[simp] theorem setPulse_lineTx (v : PulseSt) : (s.setPulse n v).lineTx = s.lineTx := rfl
@[simp] theorem setPulse_lineRx (v : PulseSt) : (s.setPulse n v).lineRx = s.lineRx := rfl
@[simp] theorem setPulse_mailboxes (v : PulseSt) : (s.setPulse n v).mailboxes = s.mailboxes := rfl
@[simp] theorem setPulse_sessions (v : PulseSt) : (s.setPulse n v).sessions = s.sessions := rfl
@[simp] theorem setPulse_approvals (v : PulseSt) : (s.setPulse n v).approvals = s.approvals := rfl
@[simp] theorem setPulse_keys (v : PulseSt) : (s.setPulse n v).keys = s.keys := rfl
@[simp] theorem setPulse_hwbBase (v : PulseSt) : (s.setPulse n v).hwbBase = s.hwbBase := rfl
@[simp] theorem setPulse_hwbIdent (v : PulseSt) : (s.setPulse n v).hwbIdent = s.hwbIdent := rfl
@[simp] theorem setPulse_running (v : PulseSt) : (s.setPulse n v).running = s.running := rfl
@[simp] theorem setPulse_evr (v : PulseSt) : (s.setPulse n v).evr = s.evr := rfl
@[simp] theorem setPulse_irq (v : PulseSt) : (s.setPulse n v).irq = s.irq := rfl
@[simp] theorem setPulse_errs (v : PulseSt) : (s.setPulse n v).errs = s.errs := rfl
@[simp] theorem setPulse_errNext (v : PulseSt) : (s.setPulse n v).errNext = s.errNext := rfl
@[simp] theorem setPulse_errOverflow (v : PulseSt) : (s.setPulse n v).errOverflow = s.errOverflow := rfl
@[simp] theorem setPulse_debug (v : PulseSt) : (s.setPulse n v).debug = s.debug := rfl
@[simp] theorem setPulse_cfg (v : PulseSt) : (s.setPulse n v).cfg = s.cfg := rfl
@[simp] theorem setPulse_desks (v : PulseSt) : (s.setPulse n v).desks = s.desks := rfl
@[simp] theorem setPulse_touchIx (v : PulseSt) : (s.setPulse n v).touchIx = s.touchIx := rfl
@[simp] theorem setPulse_trim (v : PulseSt) : (s.setPulse n v).trim = s.trim := rfl
@[simp] theorem setPulse_power (v : PulseSt) : (s.setPulse n v).power = s.power := rfl
@[simp] theorem setPulse_start (v : PulseSt) : (s.setPulse n v).start = s.start := rfl
@[simp] theorem setPulse_fresh (v : PulseSt) : (s.setPulse n v).fresh = s.fresh := rfl
@[simp] theorem setPulse_out (v : PulseSt) : (s.setPulse n v).out = s.out := rfl
@[simp] theorem setPulse_pending (v : PulseSt) : (s.setPulse n v).pending = s.pending := rfl
@[simp] theorem setPulse_pulse (v : PulseSt) : (s.setPulse n v).pulse n = v := tget_tset_same
theorem setPulse_pulse_other (v : PulseSt) {k : Nat} (h : k ≠ n) : (s.setPulse n v).pulse k = s.pulse k :=
  tget_tset_other h

/-! ### setCapture -/

@[simp] theorem setCapture_clk (v : Capture) : (s.setCapture n v).clk = s.clk := rfl
@[simp] theorem setCapture_tide (v : Capture) : (s.setCapture n v).tide = s.tide := rfl
@[simp] theorem setCapture_slots (v : Capture) : (s.setCapture n v).slots = s.slots := rfl
@[simp] theorem setCapture_mem (v : Capture) : (s.setCapture n v).mem = s.mem := rfl
@[simp] theorem setCapture_ctxs (v : Capture) : (s.setCapture n v).ctxs = s.ctxs := rfl
@[simp] theorem setCapture_wins (v : Capture) : (s.setCapture n v).wins = s.wins := rfl
@[simp] theorem setCapture_heads (v : Capture) : (s.setCapture n v).heads = s.heads := rfl
@[simp] theorem setCapture_dpl (v : Capture) : (s.setCapture n v).dpl = s.dpl := rfl
@[simp] theorem setCapture_clamps (v : Capture) : (s.setCapture n v).clamps = s.clamps := rfl
@[simp] theorem setCapture_coeffs (v : Capture) : (s.setCapture n v).coeffs = s.coeffs := rfl
@[simp] theorem setCapture_demands (v : Capture) : (s.setCapture n v).demands = s.demands := rfl
@[simp] theorem setCapture_rates (v : Capture) : (s.setCapture n v).rates = s.rates := rfl
@[simp] theorem setCapture_colours (v : Capture) : (s.setCapture n v).colours = s.colours := rfl
@[simp] theorem setCapture_nextColours (v : Capture) : (s.setCapture n v).nextColours = s.nextColours := rfl
@[simp] theorem setCapture_commitSeq (v : Capture) : (s.setCapture n v).commitSeq = s.commitSeq := rfl
@[simp] theorem setCapture_pans (v : Capture) : (s.setCapture n v).pans = s.pans := rfl
@[simp] theorem setCapture_fences (v : Capture) : (s.setCapture n v).fences = s.fences := rfl
@[simp] theorem setCapture_fenceRuns (v : Capture) : (s.setCapture n v).fenceRuns = s.fenceRuns := rfl
@[simp] theorem setCapture_ports (v : Capture) : (s.setCapture n v).ports = s.ports := rfl
@[simp] theorem setCapture_media (v : Capture) : (s.setCapture n v).media = s.media := rfl
@[simp] theorem setCapture_flows (v : Capture) : (s.setCapture n v).flows = s.flows := rfl
@[simp] theorem setCapture_decs (v : Capture) : (s.setCapture n v).decs = s.decs := rfl
@[simp] theorem setCapture_encs (v : Capture) : (s.setCapture n v).encs = s.encs := rfl
@[simp] theorem setCapture_encEngines (v : Capture) : (s.setCapture n v).encEngines = s.encEngines := rfl
@[simp] theorem setCapture_jobs (v : Capture) : (s.setCapture n v).jobs = s.jobs := rfl
@[simp] theorem setCapture_jobQueue (v : Capture) : (s.setCapture n v).jobQueue = s.jobQueue := rfl
@[simp] theorem setCapture_lanes (v : Capture) : (s.setCapture n v).lanes = s.lanes := rfl
@[simp] theorem setCapture_checks (v : Capture) : (s.setCapture n v).checks = s.checks := rfl
@[simp] theorem setCapture_servo (v : Capture) : (s.setCapture n v).servo = s.servo := rfl
@[simp] theorem setCapture_pulses (v : Capture) : (s.setCapture n v).pulses = s.pulses := rfl
@[simp] theorem setCapture_laneEq (v : Capture) : (s.setCapture n v).laneEq = s.laneEq := rfl
@[simp] theorem setCapture_rx (v : Capture) : (s.setCapture n v).rx = s.rx := rfl
@[simp] theorem setCapture_ring (v : Capture) : (s.setCapture n v).ring = s.ring := rfl
@[simp] theorem setCapture_wels (v : Capture) : (s.setCapture n v).wels = s.wels := rfl
@[simp] theorem setCapture_lineTx (v : Capture) : (s.setCapture n v).lineTx = s.lineTx := rfl
@[simp] theorem setCapture_lineRx (v : Capture) : (s.setCapture n v).lineRx = s.lineRx := rfl
@[simp] theorem setCapture_mailboxes (v : Capture) : (s.setCapture n v).mailboxes = s.mailboxes := rfl
@[simp] theorem setCapture_sessions (v : Capture) : (s.setCapture n v).sessions = s.sessions := rfl
@[simp] theorem setCapture_approvals (v : Capture) : (s.setCapture n v).approvals = s.approvals := rfl
@[simp] theorem setCapture_keys (v : Capture) : (s.setCapture n v).keys = s.keys := rfl
@[simp] theorem setCapture_hwbBase (v : Capture) : (s.setCapture n v).hwbBase = s.hwbBase := rfl
@[simp] theorem setCapture_hwbIdent (v : Capture) : (s.setCapture n v).hwbIdent = s.hwbIdent := rfl
@[simp] theorem setCapture_running (v : Capture) : (s.setCapture n v).running = s.running := rfl
@[simp] theorem setCapture_evr (v : Capture) : (s.setCapture n v).evr = s.evr := rfl
@[simp] theorem setCapture_irq (v : Capture) : (s.setCapture n v).irq = s.irq := rfl
@[simp] theorem setCapture_errs (v : Capture) : (s.setCapture n v).errs = s.errs := rfl
@[simp] theorem setCapture_errNext (v : Capture) : (s.setCapture n v).errNext = s.errNext := rfl
@[simp] theorem setCapture_errOverflow (v : Capture) : (s.setCapture n v).errOverflow = s.errOverflow := rfl
@[simp] theorem setCapture_debug (v : Capture) : (s.setCapture n v).debug = s.debug := rfl
@[simp] theorem setCapture_cfg (v : Capture) : (s.setCapture n v).cfg = s.cfg := rfl
@[simp] theorem setCapture_desks (v : Capture) : (s.setCapture n v).desks = s.desks := rfl
@[simp] theorem setCapture_touchIx (v : Capture) : (s.setCapture n v).touchIx = s.touchIx := rfl
@[simp] theorem setCapture_trim (v : Capture) : (s.setCapture n v).trim = s.trim := rfl
@[simp] theorem setCapture_power (v : Capture) : (s.setCapture n v).power = s.power := rfl
@[simp] theorem setCapture_start (v : Capture) : (s.setCapture n v).start = s.start := rfl
@[simp] theorem setCapture_fresh (v : Capture) : (s.setCapture n v).fresh = s.fresh := rfl
@[simp] theorem setCapture_out (v : Capture) : (s.setCapture n v).out = s.out := rfl
@[simp] theorem setCapture_pending (v : Capture) : (s.setCapture n v).pending = s.pending := rfl
@[simp] theorem setCapture_capture (v : Capture) : (s.setCapture n v).capture n = v := tget_tset_same
theorem setCapture_capture_other (v : Capture) {k : Nat} (h : k ≠ n) : (s.setCapture n v).capture k = s.capture k :=
  tget_tset_other h

/-! ### setWel -/

@[simp] theorem setWel_clk (v : Wel) : (s.setWel n v).clk = s.clk := rfl
@[simp] theorem setWel_tide (v : Wel) : (s.setWel n v).tide = s.tide := rfl
@[simp] theorem setWel_slots (v : Wel) : (s.setWel n v).slots = s.slots := rfl
@[simp] theorem setWel_mem (v : Wel) : (s.setWel n v).mem = s.mem := rfl
@[simp] theorem setWel_ctxs (v : Wel) : (s.setWel n v).ctxs = s.ctxs := rfl
@[simp] theorem setWel_wins (v : Wel) : (s.setWel n v).wins = s.wins := rfl
@[simp] theorem setWel_heads (v : Wel) : (s.setWel n v).heads = s.heads := rfl
@[simp] theorem setWel_dpl (v : Wel) : (s.setWel n v).dpl = s.dpl := rfl
@[simp] theorem setWel_clamps (v : Wel) : (s.setWel n v).clamps = s.clamps := rfl
@[simp] theorem setWel_coeffs (v : Wel) : (s.setWel n v).coeffs = s.coeffs := rfl
@[simp] theorem setWel_demands (v : Wel) : (s.setWel n v).demands = s.demands := rfl
@[simp] theorem setWel_rates (v : Wel) : (s.setWel n v).rates = s.rates := rfl
@[simp] theorem setWel_colours (v : Wel) : (s.setWel n v).colours = s.colours := rfl
@[simp] theorem setWel_nextColours (v : Wel) : (s.setWel n v).nextColours = s.nextColours := rfl
@[simp] theorem setWel_commitSeq (v : Wel) : (s.setWel n v).commitSeq = s.commitSeq := rfl
@[simp] theorem setWel_pans (v : Wel) : (s.setWel n v).pans = s.pans := rfl
@[simp] theorem setWel_fences (v : Wel) : (s.setWel n v).fences = s.fences := rfl
@[simp] theorem setWel_fenceRuns (v : Wel) : (s.setWel n v).fenceRuns = s.fenceRuns := rfl
@[simp] theorem setWel_ports (v : Wel) : (s.setWel n v).ports = s.ports := rfl
@[simp] theorem setWel_media (v : Wel) : (s.setWel n v).media = s.media := rfl
@[simp] theorem setWel_flows (v : Wel) : (s.setWel n v).flows = s.flows := rfl
@[simp] theorem setWel_decs (v : Wel) : (s.setWel n v).decs = s.decs := rfl
@[simp] theorem setWel_encs (v : Wel) : (s.setWel n v).encs = s.encs := rfl
@[simp] theorem setWel_encEngines (v : Wel) : (s.setWel n v).encEngines = s.encEngines := rfl
@[simp] theorem setWel_jobs (v : Wel) : (s.setWel n v).jobs = s.jobs := rfl
@[simp] theorem setWel_jobQueue (v : Wel) : (s.setWel n v).jobQueue = s.jobQueue := rfl
@[simp] theorem setWel_lanes (v : Wel) : (s.setWel n v).lanes = s.lanes := rfl
@[simp] theorem setWel_checks (v : Wel) : (s.setWel n v).checks = s.checks := rfl
@[simp] theorem setWel_servo (v : Wel) : (s.setWel n v).servo = s.servo := rfl
@[simp] theorem setWel_pulses (v : Wel) : (s.setWel n v).pulses = s.pulses := rfl
@[simp] theorem setWel_captures (v : Wel) : (s.setWel n v).captures = s.captures := rfl
@[simp] theorem setWel_laneEq (v : Wel) : (s.setWel n v).laneEq = s.laneEq := rfl
@[simp] theorem setWel_rx (v : Wel) : (s.setWel n v).rx = s.rx := rfl
@[simp] theorem setWel_ring (v : Wel) : (s.setWel n v).ring = s.ring := rfl
@[simp] theorem setWel_lineTx (v : Wel) : (s.setWel n v).lineTx = s.lineTx := rfl
@[simp] theorem setWel_lineRx (v : Wel) : (s.setWel n v).lineRx = s.lineRx := rfl
@[simp] theorem setWel_mailboxes (v : Wel) : (s.setWel n v).mailboxes = s.mailboxes := rfl
@[simp] theorem setWel_sessions (v : Wel) : (s.setWel n v).sessions = s.sessions := rfl
@[simp] theorem setWel_approvals (v : Wel) : (s.setWel n v).approvals = s.approvals := rfl
@[simp] theorem setWel_keys (v : Wel) : (s.setWel n v).keys = s.keys := rfl
@[simp] theorem setWel_hwbBase (v : Wel) : (s.setWel n v).hwbBase = s.hwbBase := rfl
@[simp] theorem setWel_hwbIdent (v : Wel) : (s.setWel n v).hwbIdent = s.hwbIdent := rfl
@[simp] theorem setWel_running (v : Wel) : (s.setWel n v).running = s.running := rfl
@[simp] theorem setWel_evr (v : Wel) : (s.setWel n v).evr = s.evr := rfl
@[simp] theorem setWel_irq (v : Wel) : (s.setWel n v).irq = s.irq := rfl
@[simp] theorem setWel_errs (v : Wel) : (s.setWel n v).errs = s.errs := rfl
@[simp] theorem setWel_errNext (v : Wel) : (s.setWel n v).errNext = s.errNext := rfl
@[simp] theorem setWel_errOverflow (v : Wel) : (s.setWel n v).errOverflow = s.errOverflow := rfl
@[simp] theorem setWel_debug (v : Wel) : (s.setWel n v).debug = s.debug := rfl
@[simp] theorem setWel_cfg (v : Wel) : (s.setWel n v).cfg = s.cfg := rfl
@[simp] theorem setWel_desks (v : Wel) : (s.setWel n v).desks = s.desks := rfl
@[simp] theorem setWel_touchIx (v : Wel) : (s.setWel n v).touchIx = s.touchIx := rfl
@[simp] theorem setWel_trim (v : Wel) : (s.setWel n v).trim = s.trim := rfl
@[simp] theorem setWel_power (v : Wel) : (s.setWel n v).power = s.power := rfl
@[simp] theorem setWel_start (v : Wel) : (s.setWel n v).start = s.start := rfl
@[simp] theorem setWel_fresh (v : Wel) : (s.setWel n v).fresh = s.fresh := rfl
@[simp] theorem setWel_out (v : Wel) : (s.setWel n v).out = s.out := rfl
@[simp] theorem setWel_pending (v : Wel) : (s.setWel n v).pending = s.pending := rfl
@[simp] theorem setWel_wel (v : Wel) : (s.setWel n v).wel n = v := tget_tset_same
theorem setWel_wel_other (v : Wel) {k : Nat} (h : k ≠ n) : (s.setWel n v).wel k = s.wel k :=
  tget_tset_other h

/-! ### setRxLane -/

@[simp] theorem setRxLane_clk (v : RxLane) : (s.setRxLane n v).clk = s.clk := rfl
@[simp] theorem setRxLane_tide (v : RxLane) : (s.setRxLane n v).tide = s.tide := rfl
@[simp] theorem setRxLane_slots (v : RxLane) : (s.setRxLane n v).slots = s.slots := rfl
@[simp] theorem setRxLane_mem (v : RxLane) : (s.setRxLane n v).mem = s.mem := rfl
@[simp] theorem setRxLane_ctxs (v : RxLane) : (s.setRxLane n v).ctxs = s.ctxs := rfl
@[simp] theorem setRxLane_wins (v : RxLane) : (s.setRxLane n v).wins = s.wins := rfl
@[simp] theorem setRxLane_heads (v : RxLane) : (s.setRxLane n v).heads = s.heads := rfl
@[simp] theorem setRxLane_dpl (v : RxLane) : (s.setRxLane n v).dpl = s.dpl := rfl
@[simp] theorem setRxLane_clamps (v : RxLane) : (s.setRxLane n v).clamps = s.clamps := rfl
@[simp] theorem setRxLane_coeffs (v : RxLane) : (s.setRxLane n v).coeffs = s.coeffs := rfl
@[simp] theorem setRxLane_demands (v : RxLane) : (s.setRxLane n v).demands = s.demands := rfl
@[simp] theorem setRxLane_rates (v : RxLane) : (s.setRxLane n v).rates = s.rates := rfl
@[simp] theorem setRxLane_colours (v : RxLane) : (s.setRxLane n v).colours = s.colours := rfl
@[simp] theorem setRxLane_nextColours (v : RxLane) : (s.setRxLane n v).nextColours = s.nextColours := rfl
@[simp] theorem setRxLane_commitSeq (v : RxLane) : (s.setRxLane n v).commitSeq = s.commitSeq := rfl
@[simp] theorem setRxLane_pans (v : RxLane) : (s.setRxLane n v).pans = s.pans := rfl
@[simp] theorem setRxLane_fences (v : RxLane) : (s.setRxLane n v).fences = s.fences := rfl
@[simp] theorem setRxLane_fenceRuns (v : RxLane) : (s.setRxLane n v).fenceRuns = s.fenceRuns := rfl
@[simp] theorem setRxLane_ports (v : RxLane) : (s.setRxLane n v).ports = s.ports := rfl
@[simp] theorem setRxLane_media (v : RxLane) : (s.setRxLane n v).media = s.media := rfl
@[simp] theorem setRxLane_flows (v : RxLane) : (s.setRxLane n v).flows = s.flows := rfl
@[simp] theorem setRxLane_decs (v : RxLane) : (s.setRxLane n v).decs = s.decs := rfl
@[simp] theorem setRxLane_encs (v : RxLane) : (s.setRxLane n v).encs = s.encs := rfl
@[simp] theorem setRxLane_encEngines (v : RxLane) : (s.setRxLane n v).encEngines = s.encEngines := rfl
@[simp] theorem setRxLane_jobs (v : RxLane) : (s.setRxLane n v).jobs = s.jobs := rfl
@[simp] theorem setRxLane_jobQueue (v : RxLane) : (s.setRxLane n v).jobQueue = s.jobQueue := rfl
@[simp] theorem setRxLane_lanes (v : RxLane) : (s.setRxLane n v).lanes = s.lanes := rfl
@[simp] theorem setRxLane_checks (v : RxLane) : (s.setRxLane n v).checks = s.checks := rfl
@[simp] theorem setRxLane_servo (v : RxLane) : (s.setRxLane n v).servo = s.servo := rfl
@[simp] theorem setRxLane_pulses (v : RxLane) : (s.setRxLane n v).pulses = s.pulses := rfl
@[simp] theorem setRxLane_captures (v : RxLane) : (s.setRxLane n v).captures = s.captures := rfl
@[simp] theorem setRxLane_laneEq (v : RxLane) : (s.setRxLane n v).laneEq = s.laneEq := rfl
@[simp] theorem setRxLane_ring (v : RxLane) : (s.setRxLane n v).ring = s.ring := rfl
@[simp] theorem setRxLane_wels (v : RxLane) : (s.setRxLane n v).wels = s.wels := rfl
@[simp] theorem setRxLane_lineTx (v : RxLane) : (s.setRxLane n v).lineTx = s.lineTx := rfl
@[simp] theorem setRxLane_lineRx (v : RxLane) : (s.setRxLane n v).lineRx = s.lineRx := rfl
@[simp] theorem setRxLane_mailboxes (v : RxLane) : (s.setRxLane n v).mailboxes = s.mailboxes := rfl
@[simp] theorem setRxLane_sessions (v : RxLane) : (s.setRxLane n v).sessions = s.sessions := rfl
@[simp] theorem setRxLane_approvals (v : RxLane) : (s.setRxLane n v).approvals = s.approvals := rfl
@[simp] theorem setRxLane_keys (v : RxLane) : (s.setRxLane n v).keys = s.keys := rfl
@[simp] theorem setRxLane_hwbBase (v : RxLane) : (s.setRxLane n v).hwbBase = s.hwbBase := rfl
@[simp] theorem setRxLane_hwbIdent (v : RxLane) : (s.setRxLane n v).hwbIdent = s.hwbIdent := rfl
@[simp] theorem setRxLane_running (v : RxLane) : (s.setRxLane n v).running = s.running := rfl
@[simp] theorem setRxLane_evr (v : RxLane) : (s.setRxLane n v).evr = s.evr := rfl
@[simp] theorem setRxLane_irq (v : RxLane) : (s.setRxLane n v).irq = s.irq := rfl
@[simp] theorem setRxLane_errs (v : RxLane) : (s.setRxLane n v).errs = s.errs := rfl
@[simp] theorem setRxLane_errNext (v : RxLane) : (s.setRxLane n v).errNext = s.errNext := rfl
@[simp] theorem setRxLane_errOverflow (v : RxLane) : (s.setRxLane n v).errOverflow = s.errOverflow := rfl
@[simp] theorem setRxLane_debug (v : RxLane) : (s.setRxLane n v).debug = s.debug := rfl
@[simp] theorem setRxLane_cfg (v : RxLane) : (s.setRxLane n v).cfg = s.cfg := rfl
@[simp] theorem setRxLane_desks (v : RxLane) : (s.setRxLane n v).desks = s.desks := rfl
@[simp] theorem setRxLane_touchIx (v : RxLane) : (s.setRxLane n v).touchIx = s.touchIx := rfl
@[simp] theorem setRxLane_trim (v : RxLane) : (s.setRxLane n v).trim = s.trim := rfl
@[simp] theorem setRxLane_power (v : RxLane) : (s.setRxLane n v).power = s.power := rfl
@[simp] theorem setRxLane_start (v : RxLane) : (s.setRxLane n v).start = s.start := rfl
@[simp] theorem setRxLane_fresh (v : RxLane) : (s.setRxLane n v).fresh = s.fresh := rfl
@[simp] theorem setRxLane_out (v : RxLane) : (s.setRxLane n v).out = s.out := rfl
@[simp] theorem setRxLane_pending (v : RxLane) : (s.setRxLane n v).pending = s.pending := rfl
@[simp] theorem setRxLane_rxLane (v : RxLane) : (s.setRxLane n v).rxLane n = v := tget_tset_same
theorem setRxLane_rxLane_other (v : RxLane) {k : Nat} (h : k ≠ n) : (s.setRxLane n v).rxLane k = s.rxLane k :=
  tget_tset_other h

/-! ### setMailbox -/

@[simp] theorem setMailbox_clk (v : Mailbox) : (s.setMailbox n v).clk = s.clk := rfl
@[simp] theorem setMailbox_tide (v : Mailbox) : (s.setMailbox n v).tide = s.tide := rfl
@[simp] theorem setMailbox_slots (v : Mailbox) : (s.setMailbox n v).slots = s.slots := rfl
@[simp] theorem setMailbox_mem (v : Mailbox) : (s.setMailbox n v).mem = s.mem := rfl
@[simp] theorem setMailbox_ctxs (v : Mailbox) : (s.setMailbox n v).ctxs = s.ctxs := rfl
@[simp] theorem setMailbox_wins (v : Mailbox) : (s.setMailbox n v).wins = s.wins := rfl
@[simp] theorem setMailbox_heads (v : Mailbox) : (s.setMailbox n v).heads = s.heads := rfl
@[simp] theorem setMailbox_dpl (v : Mailbox) : (s.setMailbox n v).dpl = s.dpl := rfl
@[simp] theorem setMailbox_clamps (v : Mailbox) : (s.setMailbox n v).clamps = s.clamps := rfl
@[simp] theorem setMailbox_coeffs (v : Mailbox) : (s.setMailbox n v).coeffs = s.coeffs := rfl
@[simp] theorem setMailbox_demands (v : Mailbox) : (s.setMailbox n v).demands = s.demands := rfl
@[simp] theorem setMailbox_rates (v : Mailbox) : (s.setMailbox n v).rates = s.rates := rfl
@[simp] theorem setMailbox_colours (v : Mailbox) : (s.setMailbox n v).colours = s.colours := rfl
@[simp] theorem setMailbox_nextColours (v : Mailbox) : (s.setMailbox n v).nextColours = s.nextColours := rfl
@[simp] theorem setMailbox_commitSeq (v : Mailbox) : (s.setMailbox n v).commitSeq = s.commitSeq := rfl
@[simp] theorem setMailbox_pans (v : Mailbox) : (s.setMailbox n v).pans = s.pans := rfl
@[simp] theorem setMailbox_fences (v : Mailbox) : (s.setMailbox n v).fences = s.fences := rfl
@[simp] theorem setMailbox_fenceRuns (v : Mailbox) : (s.setMailbox n v).fenceRuns = s.fenceRuns := rfl
@[simp] theorem setMailbox_ports (v : Mailbox) : (s.setMailbox n v).ports = s.ports := rfl
@[simp] theorem setMailbox_media (v : Mailbox) : (s.setMailbox n v).media = s.media := rfl
@[simp] theorem setMailbox_flows (v : Mailbox) : (s.setMailbox n v).flows = s.flows := rfl
@[simp] theorem setMailbox_decs (v : Mailbox) : (s.setMailbox n v).decs = s.decs := rfl
@[simp] theorem setMailbox_encs (v : Mailbox) : (s.setMailbox n v).encs = s.encs := rfl
@[simp] theorem setMailbox_encEngines (v : Mailbox) : (s.setMailbox n v).encEngines = s.encEngines := rfl
@[simp] theorem setMailbox_jobs (v : Mailbox) : (s.setMailbox n v).jobs = s.jobs := rfl
@[simp] theorem setMailbox_jobQueue (v : Mailbox) : (s.setMailbox n v).jobQueue = s.jobQueue := rfl
@[simp] theorem setMailbox_lanes (v : Mailbox) : (s.setMailbox n v).lanes = s.lanes := rfl
@[simp] theorem setMailbox_checks (v : Mailbox) : (s.setMailbox n v).checks = s.checks := rfl
@[simp] theorem setMailbox_servo (v : Mailbox) : (s.setMailbox n v).servo = s.servo := rfl
@[simp] theorem setMailbox_pulses (v : Mailbox) : (s.setMailbox n v).pulses = s.pulses := rfl
@[simp] theorem setMailbox_captures (v : Mailbox) : (s.setMailbox n v).captures = s.captures := rfl
@[simp] theorem setMailbox_laneEq (v : Mailbox) : (s.setMailbox n v).laneEq = s.laneEq := rfl
@[simp] theorem setMailbox_rx (v : Mailbox) : (s.setMailbox n v).rx = s.rx := rfl
@[simp] theorem setMailbox_ring (v : Mailbox) : (s.setMailbox n v).ring = s.ring := rfl
@[simp] theorem setMailbox_wels (v : Mailbox) : (s.setMailbox n v).wels = s.wels := rfl
@[simp] theorem setMailbox_lineTx (v : Mailbox) : (s.setMailbox n v).lineTx = s.lineTx := rfl
@[simp] theorem setMailbox_lineRx (v : Mailbox) : (s.setMailbox n v).lineRx = s.lineRx := rfl
@[simp] theorem setMailbox_sessions (v : Mailbox) : (s.setMailbox n v).sessions = s.sessions := rfl
@[simp] theorem setMailbox_approvals (v : Mailbox) : (s.setMailbox n v).approvals = s.approvals := rfl
@[simp] theorem setMailbox_keys (v : Mailbox) : (s.setMailbox n v).keys = s.keys := rfl
@[simp] theorem setMailbox_hwbBase (v : Mailbox) : (s.setMailbox n v).hwbBase = s.hwbBase := rfl
@[simp] theorem setMailbox_hwbIdent (v : Mailbox) : (s.setMailbox n v).hwbIdent = s.hwbIdent := rfl
@[simp] theorem setMailbox_running (v : Mailbox) : (s.setMailbox n v).running = s.running := rfl
@[simp] theorem setMailbox_evr (v : Mailbox) : (s.setMailbox n v).evr = s.evr := rfl
@[simp] theorem setMailbox_irq (v : Mailbox) : (s.setMailbox n v).irq = s.irq := rfl
@[simp] theorem setMailbox_errs (v : Mailbox) : (s.setMailbox n v).errs = s.errs := rfl
@[simp] theorem setMailbox_errNext (v : Mailbox) : (s.setMailbox n v).errNext = s.errNext := rfl
@[simp] theorem setMailbox_errOverflow (v : Mailbox) : (s.setMailbox n v).errOverflow = s.errOverflow := rfl
@[simp] theorem setMailbox_debug (v : Mailbox) : (s.setMailbox n v).debug = s.debug := rfl
@[simp] theorem setMailbox_cfg (v : Mailbox) : (s.setMailbox n v).cfg = s.cfg := rfl
@[simp] theorem setMailbox_desks (v : Mailbox) : (s.setMailbox n v).desks = s.desks := rfl
@[simp] theorem setMailbox_touchIx (v : Mailbox) : (s.setMailbox n v).touchIx = s.touchIx := rfl
@[simp] theorem setMailbox_trim (v : Mailbox) : (s.setMailbox n v).trim = s.trim := rfl
@[simp] theorem setMailbox_power (v : Mailbox) : (s.setMailbox n v).power = s.power := rfl
@[simp] theorem setMailbox_start (v : Mailbox) : (s.setMailbox n v).start = s.start := rfl
@[simp] theorem setMailbox_fresh (v : Mailbox) : (s.setMailbox n v).fresh = s.fresh := rfl
@[simp] theorem setMailbox_out (v : Mailbox) : (s.setMailbox n v).out = s.out := rfl
@[simp] theorem setMailbox_pending (v : Mailbox) : (s.setMailbox n v).pending = s.pending := rfl
@[simp] theorem setMailbox_mailbox (v : Mailbox) : (s.setMailbox n v).mailbox n = v := tget_tset_same
theorem setMailbox_mailbox_other (v : Mailbox) {k : Nat} (h : k ≠ n) : (s.setMailbox n v).mailbox k = s.mailbox k :=
  tget_tset_other h

/-! ### setKeySlot -/

@[simp] theorem setKeySlot_clk (v : KeySlot) : (s.setKeySlot n v).clk = s.clk := rfl
@[simp] theorem setKeySlot_tide (v : KeySlot) : (s.setKeySlot n v).tide = s.tide := rfl
@[simp] theorem setKeySlot_slots (v : KeySlot) : (s.setKeySlot n v).slots = s.slots := rfl
@[simp] theorem setKeySlot_mem (v : KeySlot) : (s.setKeySlot n v).mem = s.mem := rfl
@[simp] theorem setKeySlot_ctxs (v : KeySlot) : (s.setKeySlot n v).ctxs = s.ctxs := rfl
@[simp] theorem setKeySlot_wins (v : KeySlot) : (s.setKeySlot n v).wins = s.wins := rfl
@[simp] theorem setKeySlot_heads (v : KeySlot) : (s.setKeySlot n v).heads = s.heads := rfl
@[simp] theorem setKeySlot_dpl (v : KeySlot) : (s.setKeySlot n v).dpl = s.dpl := rfl
@[simp] theorem setKeySlot_clamps (v : KeySlot) : (s.setKeySlot n v).clamps = s.clamps := rfl
@[simp] theorem setKeySlot_coeffs (v : KeySlot) : (s.setKeySlot n v).coeffs = s.coeffs := rfl
@[simp] theorem setKeySlot_demands (v : KeySlot) : (s.setKeySlot n v).demands = s.demands := rfl
@[simp] theorem setKeySlot_rates (v : KeySlot) : (s.setKeySlot n v).rates = s.rates := rfl
@[simp] theorem setKeySlot_colours (v : KeySlot) : (s.setKeySlot n v).colours = s.colours := rfl
@[simp] theorem setKeySlot_nextColours (v : KeySlot) : (s.setKeySlot n v).nextColours = s.nextColours := rfl
@[simp] theorem setKeySlot_commitSeq (v : KeySlot) : (s.setKeySlot n v).commitSeq = s.commitSeq := rfl
@[simp] theorem setKeySlot_pans (v : KeySlot) : (s.setKeySlot n v).pans = s.pans := rfl
@[simp] theorem setKeySlot_fences (v : KeySlot) : (s.setKeySlot n v).fences = s.fences := rfl
@[simp] theorem setKeySlot_fenceRuns (v : KeySlot) : (s.setKeySlot n v).fenceRuns = s.fenceRuns := rfl
@[simp] theorem setKeySlot_ports (v : KeySlot) : (s.setKeySlot n v).ports = s.ports := rfl
@[simp] theorem setKeySlot_media (v : KeySlot) : (s.setKeySlot n v).media = s.media := rfl
@[simp] theorem setKeySlot_flows (v : KeySlot) : (s.setKeySlot n v).flows = s.flows := rfl
@[simp] theorem setKeySlot_decs (v : KeySlot) : (s.setKeySlot n v).decs = s.decs := rfl
@[simp] theorem setKeySlot_encs (v : KeySlot) : (s.setKeySlot n v).encs = s.encs := rfl
@[simp] theorem setKeySlot_encEngines (v : KeySlot) : (s.setKeySlot n v).encEngines = s.encEngines := rfl
@[simp] theorem setKeySlot_jobs (v : KeySlot) : (s.setKeySlot n v).jobs = s.jobs := rfl
@[simp] theorem setKeySlot_jobQueue (v : KeySlot) : (s.setKeySlot n v).jobQueue = s.jobQueue := rfl
@[simp] theorem setKeySlot_lanes (v : KeySlot) : (s.setKeySlot n v).lanes = s.lanes := rfl
@[simp] theorem setKeySlot_checks (v : KeySlot) : (s.setKeySlot n v).checks = s.checks := rfl
@[simp] theorem setKeySlot_servo (v : KeySlot) : (s.setKeySlot n v).servo = s.servo := rfl
@[simp] theorem setKeySlot_pulses (v : KeySlot) : (s.setKeySlot n v).pulses = s.pulses := rfl
@[simp] theorem setKeySlot_captures (v : KeySlot) : (s.setKeySlot n v).captures = s.captures := rfl
@[simp] theorem setKeySlot_laneEq (v : KeySlot) : (s.setKeySlot n v).laneEq = s.laneEq := rfl
@[simp] theorem setKeySlot_rx (v : KeySlot) : (s.setKeySlot n v).rx = s.rx := rfl
@[simp] theorem setKeySlot_ring (v : KeySlot) : (s.setKeySlot n v).ring = s.ring := rfl
@[simp] theorem setKeySlot_wels (v : KeySlot) : (s.setKeySlot n v).wels = s.wels := rfl
@[simp] theorem setKeySlot_lineTx (v : KeySlot) : (s.setKeySlot n v).lineTx = s.lineTx := rfl
@[simp] theorem setKeySlot_lineRx (v : KeySlot) : (s.setKeySlot n v).lineRx = s.lineRx := rfl
@[simp] theorem setKeySlot_mailboxes (v : KeySlot) : (s.setKeySlot n v).mailboxes = s.mailboxes := rfl
@[simp] theorem setKeySlot_sessions (v : KeySlot) : (s.setKeySlot n v).sessions = s.sessions := rfl
@[simp] theorem setKeySlot_approvals (v : KeySlot) : (s.setKeySlot n v).approvals = s.approvals := rfl
@[simp] theorem setKeySlot_hwbBase (v : KeySlot) : (s.setKeySlot n v).hwbBase = s.hwbBase := rfl
@[simp] theorem setKeySlot_hwbIdent (v : KeySlot) : (s.setKeySlot n v).hwbIdent = s.hwbIdent := rfl
@[simp] theorem setKeySlot_running (v : KeySlot) : (s.setKeySlot n v).running = s.running := rfl
@[simp] theorem setKeySlot_evr (v : KeySlot) : (s.setKeySlot n v).evr = s.evr := rfl
@[simp] theorem setKeySlot_irq (v : KeySlot) : (s.setKeySlot n v).irq = s.irq := rfl
@[simp] theorem setKeySlot_errs (v : KeySlot) : (s.setKeySlot n v).errs = s.errs := rfl
@[simp] theorem setKeySlot_errNext (v : KeySlot) : (s.setKeySlot n v).errNext = s.errNext := rfl
@[simp] theorem setKeySlot_errOverflow (v : KeySlot) : (s.setKeySlot n v).errOverflow = s.errOverflow := rfl
@[simp] theorem setKeySlot_debug (v : KeySlot) : (s.setKeySlot n v).debug = s.debug := rfl
@[simp] theorem setKeySlot_cfg (v : KeySlot) : (s.setKeySlot n v).cfg = s.cfg := rfl
@[simp] theorem setKeySlot_desks (v : KeySlot) : (s.setKeySlot n v).desks = s.desks := rfl
@[simp] theorem setKeySlot_touchIx (v : KeySlot) : (s.setKeySlot n v).touchIx = s.touchIx := rfl
@[simp] theorem setKeySlot_trim (v : KeySlot) : (s.setKeySlot n v).trim = s.trim := rfl
@[simp] theorem setKeySlot_power (v : KeySlot) : (s.setKeySlot n v).power = s.power := rfl
@[simp] theorem setKeySlot_start (v : KeySlot) : (s.setKeySlot n v).start = s.start := rfl
@[simp] theorem setKeySlot_fresh (v : KeySlot) : (s.setKeySlot n v).fresh = s.fresh := rfl
@[simp] theorem setKeySlot_out (v : KeySlot) : (s.setKeySlot n v).out = s.out := rfl
@[simp] theorem setKeySlot_pending (v : KeySlot) : (s.setKeySlot n v).pending = s.pending := rfl
@[simp] theorem setKeySlot_keySlot (v : KeySlot) : (s.setKeySlot n v).keySlot n = v := tget_tset_same
theorem setKeySlot_keySlot_other (v : KeySlot) {k : Nat} (h : k ≠ n) : (s.setKeySlot n v).keySlot k = s.keySlot k :=
  tget_tset_other h

/-! ### setSession -/

@[simp] theorem setSession_clk (v : Session) : (s.setSession n v).clk = s.clk := rfl
@[simp] theorem setSession_tide (v : Session) : (s.setSession n v).tide = s.tide := rfl
@[simp] theorem setSession_slots (v : Session) : (s.setSession n v).slots = s.slots := rfl
@[simp] theorem setSession_mem (v : Session) : (s.setSession n v).mem = s.mem := rfl
@[simp] theorem setSession_ctxs (v : Session) : (s.setSession n v).ctxs = s.ctxs := rfl
@[simp] theorem setSession_wins (v : Session) : (s.setSession n v).wins = s.wins := rfl
@[simp] theorem setSession_heads (v : Session) : (s.setSession n v).heads = s.heads := rfl
@[simp] theorem setSession_dpl (v : Session) : (s.setSession n v).dpl = s.dpl := rfl
@[simp] theorem setSession_clamps (v : Session) : (s.setSession n v).clamps = s.clamps := rfl
@[simp] theorem setSession_coeffs (v : Session) : (s.setSession n v).coeffs = s.coeffs := rfl
@[simp] theorem setSession_demands (v : Session) : (s.setSession n v).demands = s.demands := rfl
@[simp] theorem setSession_rates (v : Session) : (s.setSession n v).rates = s.rates := rfl
@[simp] theorem setSession_colours (v : Session) : (s.setSession n v).colours = s.colours := rfl
@[simp] theorem setSession_nextColours (v : Session) : (s.setSession n v).nextColours = s.nextColours := rfl
@[simp] theorem setSession_commitSeq (v : Session) : (s.setSession n v).commitSeq = s.commitSeq := rfl
@[simp] theorem setSession_pans (v : Session) : (s.setSession n v).pans = s.pans := rfl
@[simp] theorem setSession_fences (v : Session) : (s.setSession n v).fences = s.fences := rfl
@[simp] theorem setSession_fenceRuns (v : Session) : (s.setSession n v).fenceRuns = s.fenceRuns := rfl
@[simp] theorem setSession_ports (v : Session) : (s.setSession n v).ports = s.ports := rfl
@[simp] theorem setSession_media (v : Session) : (s.setSession n v).media = s.media := rfl
@[simp] theorem setSession_flows (v : Session) : (s.setSession n v).flows = s.flows := rfl
@[simp] theorem setSession_decs (v : Session) : (s.setSession n v).decs = s.decs := rfl
@[simp] theorem setSession_encs (v : Session) : (s.setSession n v).encs = s.encs := rfl
@[simp] theorem setSession_encEngines (v : Session) : (s.setSession n v).encEngines = s.encEngines := rfl
@[simp] theorem setSession_jobs (v : Session) : (s.setSession n v).jobs = s.jobs := rfl
@[simp] theorem setSession_jobQueue (v : Session) : (s.setSession n v).jobQueue = s.jobQueue := rfl
@[simp] theorem setSession_lanes (v : Session) : (s.setSession n v).lanes = s.lanes := rfl
@[simp] theorem setSession_checks (v : Session) : (s.setSession n v).checks = s.checks := rfl
@[simp] theorem setSession_servo (v : Session) : (s.setSession n v).servo = s.servo := rfl
@[simp] theorem setSession_pulses (v : Session) : (s.setSession n v).pulses = s.pulses := rfl
@[simp] theorem setSession_captures (v : Session) : (s.setSession n v).captures = s.captures := rfl
@[simp] theorem setSession_laneEq (v : Session) : (s.setSession n v).laneEq = s.laneEq := rfl
@[simp] theorem setSession_rx (v : Session) : (s.setSession n v).rx = s.rx := rfl
@[simp] theorem setSession_ring (v : Session) : (s.setSession n v).ring = s.ring := rfl
@[simp] theorem setSession_wels (v : Session) : (s.setSession n v).wels = s.wels := rfl
@[simp] theorem setSession_lineTx (v : Session) : (s.setSession n v).lineTx = s.lineTx := rfl
@[simp] theorem setSession_lineRx (v : Session) : (s.setSession n v).lineRx = s.lineRx := rfl
@[simp] theorem setSession_mailboxes (v : Session) : (s.setSession n v).mailboxes = s.mailboxes := rfl
@[simp] theorem setSession_approvals (v : Session) : (s.setSession n v).approvals = s.approvals := rfl
@[simp] theorem setSession_keys (v : Session) : (s.setSession n v).keys = s.keys := rfl
@[simp] theorem setSession_hwbBase (v : Session) : (s.setSession n v).hwbBase = s.hwbBase := rfl
@[simp] theorem setSession_hwbIdent (v : Session) : (s.setSession n v).hwbIdent = s.hwbIdent := rfl
@[simp] theorem setSession_running (v : Session) : (s.setSession n v).running = s.running := rfl
@[simp] theorem setSession_evr (v : Session) : (s.setSession n v).evr = s.evr := rfl
@[simp] theorem setSession_irq (v : Session) : (s.setSession n v).irq = s.irq := rfl
@[simp] theorem setSession_errs (v : Session) : (s.setSession n v).errs = s.errs := rfl
@[simp] theorem setSession_errNext (v : Session) : (s.setSession n v).errNext = s.errNext := rfl
@[simp] theorem setSession_errOverflow (v : Session) : (s.setSession n v).errOverflow = s.errOverflow := rfl
@[simp] theorem setSession_debug (v : Session) : (s.setSession n v).debug = s.debug := rfl
@[simp] theorem setSession_cfg (v : Session) : (s.setSession n v).cfg = s.cfg := rfl
@[simp] theorem setSession_desks (v : Session) : (s.setSession n v).desks = s.desks := rfl
@[simp] theorem setSession_touchIx (v : Session) : (s.setSession n v).touchIx = s.touchIx := rfl
@[simp] theorem setSession_trim (v : Session) : (s.setSession n v).trim = s.trim := rfl
@[simp] theorem setSession_power (v : Session) : (s.setSession n v).power = s.power := rfl
@[simp] theorem setSession_start (v : Session) : (s.setSession n v).start = s.start := rfl
@[simp] theorem setSession_fresh (v : Session) : (s.setSession n v).fresh = s.fresh := rfl
@[simp] theorem setSession_out (v : Session) : (s.setSession n v).out = s.out := rfl
@[simp] theorem setSession_pending (v : Session) : (s.setSession n v).pending = s.pending := rfl

/-! ### setDesk -/

@[simp] theorem setDesk_clk (v : Desk) : (s.setDesk n v).clk = s.clk := rfl
@[simp] theorem setDesk_tide (v : Desk) : (s.setDesk n v).tide = s.tide := rfl
@[simp] theorem setDesk_slots (v : Desk) : (s.setDesk n v).slots = s.slots := rfl
@[simp] theorem setDesk_mem (v : Desk) : (s.setDesk n v).mem = s.mem := rfl
@[simp] theorem setDesk_ctxs (v : Desk) : (s.setDesk n v).ctxs = s.ctxs := rfl
@[simp] theorem setDesk_wins (v : Desk) : (s.setDesk n v).wins = s.wins := rfl
@[simp] theorem setDesk_heads (v : Desk) : (s.setDesk n v).heads = s.heads := rfl
@[simp] theorem setDesk_dpl (v : Desk) : (s.setDesk n v).dpl = s.dpl := rfl
@[simp] theorem setDesk_clamps (v : Desk) : (s.setDesk n v).clamps = s.clamps := rfl
@[simp] theorem setDesk_coeffs (v : Desk) : (s.setDesk n v).coeffs = s.coeffs := rfl
@[simp] theorem setDesk_demands (v : Desk) : (s.setDesk n v).demands = s.demands := rfl
@[simp] theorem setDesk_rates (v : Desk) : (s.setDesk n v).rates = s.rates := rfl
@[simp] theorem setDesk_colours (v : Desk) : (s.setDesk n v).colours = s.colours := rfl
@[simp] theorem setDesk_nextColours (v : Desk) : (s.setDesk n v).nextColours = s.nextColours := rfl
@[simp] theorem setDesk_commitSeq (v : Desk) : (s.setDesk n v).commitSeq = s.commitSeq := rfl
@[simp] theorem setDesk_pans (v : Desk) : (s.setDesk n v).pans = s.pans := rfl
@[simp] theorem setDesk_fences (v : Desk) : (s.setDesk n v).fences = s.fences := rfl
@[simp] theorem setDesk_fenceRuns (v : Desk) : (s.setDesk n v).fenceRuns = s.fenceRuns := rfl
@[simp] theorem setDesk_ports (v : Desk) : (s.setDesk n v).ports = s.ports := rfl
@[simp] theorem setDesk_media (v : Desk) : (s.setDesk n v).media = s.media := rfl
@[simp] theorem setDesk_flows (v : Desk) : (s.setDesk n v).flows = s.flows := rfl
@[simp] theorem setDesk_decs (v : Desk) : (s.setDesk n v).decs = s.decs := rfl
@[simp] theorem setDesk_encs (v : Desk) : (s.setDesk n v).encs = s.encs := rfl
@[simp] theorem setDesk_encEngines (v : Desk) : (s.setDesk n v).encEngines = s.encEngines := rfl
@[simp] theorem setDesk_jobs (v : Desk) : (s.setDesk n v).jobs = s.jobs := rfl
@[simp] theorem setDesk_jobQueue (v : Desk) : (s.setDesk n v).jobQueue = s.jobQueue := rfl
@[simp] theorem setDesk_lanes (v : Desk) : (s.setDesk n v).lanes = s.lanes := rfl
@[simp] theorem setDesk_checks (v : Desk) : (s.setDesk n v).checks = s.checks := rfl
@[simp] theorem setDesk_servo (v : Desk) : (s.setDesk n v).servo = s.servo := rfl
@[simp] theorem setDesk_pulses (v : Desk) : (s.setDesk n v).pulses = s.pulses := rfl
@[simp] theorem setDesk_captures (v : Desk) : (s.setDesk n v).captures = s.captures := rfl
@[simp] theorem setDesk_laneEq (v : Desk) : (s.setDesk n v).laneEq = s.laneEq := rfl
@[simp] theorem setDesk_rx (v : Desk) : (s.setDesk n v).rx = s.rx := rfl
@[simp] theorem setDesk_ring (v : Desk) : (s.setDesk n v).ring = s.ring := rfl
@[simp] theorem setDesk_wels (v : Desk) : (s.setDesk n v).wels = s.wels := rfl
@[simp] theorem setDesk_lineTx (v : Desk) : (s.setDesk n v).lineTx = s.lineTx := rfl
@[simp] theorem setDesk_lineRx (v : Desk) : (s.setDesk n v).lineRx = s.lineRx := rfl
@[simp] theorem setDesk_mailboxes (v : Desk) : (s.setDesk n v).mailboxes = s.mailboxes := rfl
@[simp] theorem setDesk_sessions (v : Desk) : (s.setDesk n v).sessions = s.sessions := rfl
@[simp] theorem setDesk_approvals (v : Desk) : (s.setDesk n v).approvals = s.approvals := rfl
@[simp] theorem setDesk_keys (v : Desk) : (s.setDesk n v).keys = s.keys := rfl
@[simp] theorem setDesk_hwbBase (v : Desk) : (s.setDesk n v).hwbBase = s.hwbBase := rfl
@[simp] theorem setDesk_hwbIdent (v : Desk) : (s.setDesk n v).hwbIdent = s.hwbIdent := rfl
@[simp] theorem setDesk_running (v : Desk) : (s.setDesk n v).running = s.running := rfl
@[simp] theorem setDesk_evr (v : Desk) : (s.setDesk n v).evr = s.evr := rfl
@[simp] theorem setDesk_irq (v : Desk) : (s.setDesk n v).irq = s.irq := rfl
@[simp] theorem setDesk_errs (v : Desk) : (s.setDesk n v).errs = s.errs := rfl
@[simp] theorem setDesk_errNext (v : Desk) : (s.setDesk n v).errNext = s.errNext := rfl
@[simp] theorem setDesk_errOverflow (v : Desk) : (s.setDesk n v).errOverflow = s.errOverflow := rfl
@[simp] theorem setDesk_debug (v : Desk) : (s.setDesk n v).debug = s.debug := rfl
@[simp] theorem setDesk_cfg (v : Desk) : (s.setDesk n v).cfg = s.cfg := rfl
@[simp] theorem setDesk_touchIx (v : Desk) : (s.setDesk n v).touchIx = s.touchIx := rfl
@[simp] theorem setDesk_trim (v : Desk) : (s.setDesk n v).trim = s.trim := rfl
@[simp] theorem setDesk_power (v : Desk) : (s.setDesk n v).power = s.power := rfl
@[simp] theorem setDesk_start (v : Desk) : (s.setDesk n v).start = s.start := rfl
@[simp] theorem setDesk_fresh (v : Desk) : (s.setDesk n v).fresh = s.fresh := rfl
@[simp] theorem setDesk_out (v : Desk) : (s.setDesk n v).out = s.out := rfl
@[simp] theorem setDesk_pending (v : Desk) : (s.setDesk n v).pending = s.pending := rfl
@[simp] theorem setDesk_desk (v : Desk) : (s.setDesk n v).desk n = v := tget_tset_same
theorem setDesk_desk_other (v : Desk) {k : Nat} (h : k ≠ n) : (s.setDesk n v).desk k = s.desk k :=
  tget_tset_other h

/-! ### setMemChan -/

@[simp] theorem setMemChan_clk (v : MemChan) : (s.setMemChan n v).clk = s.clk := rfl
@[simp] theorem setMemChan_tide (v : MemChan) : (s.setMemChan n v).tide = s.tide := rfl
@[simp] theorem setMemChan_slots (v : MemChan) : (s.setMemChan n v).slots = s.slots := rfl
@[simp] theorem setMemChan_ctxs (v : MemChan) : (s.setMemChan n v).ctxs = s.ctxs := rfl
@[simp] theorem setMemChan_wins (v : MemChan) : (s.setMemChan n v).wins = s.wins := rfl
@[simp] theorem setMemChan_heads (v : MemChan) : (s.setMemChan n v).heads = s.heads := rfl
@[simp] theorem setMemChan_dpl (v : MemChan) : (s.setMemChan n v).dpl = s.dpl := rfl
@[simp] theorem setMemChan_clamps (v : MemChan) : (s.setMemChan n v).clamps = s.clamps := rfl
@[simp] theorem setMemChan_coeffs (v : MemChan) : (s.setMemChan n v).coeffs = s.coeffs := rfl
@[simp] theorem setMemChan_demands (v : MemChan) : (s.setMemChan n v).demands = s.demands := rfl
@[simp] theorem setMemChan_rates (v : MemChan) : (s.setMemChan n v).rates = s.rates := rfl
@[simp] theorem setMemChan_colours (v : MemChan) : (s.setMemChan n v).colours = s.colours := rfl
@[simp] theorem setMemChan_nextColours (v : MemChan) : (s.setMemChan n v).nextColours = s.nextColours := rfl
@[simp] theorem setMemChan_commitSeq (v : MemChan) : (s.setMemChan n v).commitSeq = s.commitSeq := rfl
@[simp] theorem setMemChan_pans (v : MemChan) : (s.setMemChan n v).pans = s.pans := rfl
@[simp] theorem setMemChan_fences (v : MemChan) : (s.setMemChan n v).fences = s.fences := rfl
@[simp] theorem setMemChan_fenceRuns (v : MemChan) : (s.setMemChan n v).fenceRuns = s.fenceRuns := rfl
@[simp] theorem setMemChan_ports (v : MemChan) : (s.setMemChan n v).ports = s.ports := rfl
@[simp] theorem setMemChan_media (v : MemChan) : (s.setMemChan n v).media = s.media := rfl
@[simp] theorem setMemChan_flows (v : MemChan) : (s.setMemChan n v).flows = s.flows := rfl
@[simp] theorem setMemChan_decs (v : MemChan) : (s.setMemChan n v).decs = s.decs := rfl
@[simp] theorem setMemChan_encs (v : MemChan) : (s.setMemChan n v).encs = s.encs := rfl
@[simp] theorem setMemChan_encEngines (v : MemChan) : (s.setMemChan n v).encEngines = s.encEngines := rfl
@[simp] theorem setMemChan_jobs (v : MemChan) : (s.setMemChan n v).jobs = s.jobs := rfl
@[simp] theorem setMemChan_jobQueue (v : MemChan) : (s.setMemChan n v).jobQueue = s.jobQueue := rfl
@[simp] theorem setMemChan_lanes (v : MemChan) : (s.setMemChan n v).lanes = s.lanes := rfl
@[simp] theorem setMemChan_checks (v : MemChan) : (s.setMemChan n v).checks = s.checks := rfl
@[simp] theorem setMemChan_servo (v : MemChan) : (s.setMemChan n v).servo = s.servo := rfl
@[simp] theorem setMemChan_pulses (v : MemChan) : (s.setMemChan n v).pulses = s.pulses := rfl
@[simp] theorem setMemChan_captures (v : MemChan) : (s.setMemChan n v).captures = s.captures := rfl
@[simp] theorem setMemChan_laneEq (v : MemChan) : (s.setMemChan n v).laneEq = s.laneEq := rfl
@[simp] theorem setMemChan_rx (v : MemChan) : (s.setMemChan n v).rx = s.rx := rfl
@[simp] theorem setMemChan_ring (v : MemChan) : (s.setMemChan n v).ring = s.ring := rfl
@[simp] theorem setMemChan_wels (v : MemChan) : (s.setMemChan n v).wels = s.wels := rfl
@[simp] theorem setMemChan_lineTx (v : MemChan) : (s.setMemChan n v).lineTx = s.lineTx := rfl
@[simp] theorem setMemChan_lineRx (v : MemChan) : (s.setMemChan n v).lineRx = s.lineRx := rfl
@[simp] theorem setMemChan_mailboxes (v : MemChan) : (s.setMemChan n v).mailboxes = s.mailboxes := rfl
@[simp] theorem setMemChan_sessions (v : MemChan) : (s.setMemChan n v).sessions = s.sessions := rfl
@[simp] theorem setMemChan_approvals (v : MemChan) : (s.setMemChan n v).approvals = s.approvals := rfl
@[simp] theorem setMemChan_keys (v : MemChan) : (s.setMemChan n v).keys = s.keys := rfl
@[simp] theorem setMemChan_hwbBase (v : MemChan) : (s.setMemChan n v).hwbBase = s.hwbBase := rfl
@[simp] theorem setMemChan_hwbIdent (v : MemChan) : (s.setMemChan n v).hwbIdent = s.hwbIdent := rfl
@[simp] theorem setMemChan_running (v : MemChan) : (s.setMemChan n v).running = s.running := rfl
@[simp] theorem setMemChan_evr (v : MemChan) : (s.setMemChan n v).evr = s.evr := rfl
@[simp] theorem setMemChan_irq (v : MemChan) : (s.setMemChan n v).irq = s.irq := rfl
@[simp] theorem setMemChan_errs (v : MemChan) : (s.setMemChan n v).errs = s.errs := rfl
@[simp] theorem setMemChan_errNext (v : MemChan) : (s.setMemChan n v).errNext = s.errNext := rfl
@[simp] theorem setMemChan_errOverflow (v : MemChan) : (s.setMemChan n v).errOverflow = s.errOverflow := rfl
@[simp] theorem setMemChan_debug (v : MemChan) : (s.setMemChan n v).debug = s.debug := rfl
@[simp] theorem setMemChan_cfg (v : MemChan) : (s.setMemChan n v).cfg = s.cfg := rfl
@[simp] theorem setMemChan_desks (v : MemChan) : (s.setMemChan n v).desks = s.desks := rfl
@[simp] theorem setMemChan_touchIx (v : MemChan) : (s.setMemChan n v).touchIx = s.touchIx := rfl
@[simp] theorem setMemChan_trim (v : MemChan) : (s.setMemChan n v).trim = s.trim := rfl
@[simp] theorem setMemChan_power (v : MemChan) : (s.setMemChan n v).power = s.power := rfl
@[simp] theorem setMemChan_start (v : MemChan) : (s.setMemChan n v).start = s.start := rfl
@[simp] theorem setMemChan_fresh (v : MemChan) : (s.setMemChan n v).fresh = s.fresh := rfl
@[simp] theorem setMemChan_out (v : MemChan) : (s.setMemChan n v).out = s.out := rfl
@[simp] theorem setMemChan_pending (v : MemChan) : (s.setMemChan n v).pending = s.pending := rfl
@[simp] theorem setMemChan_mem_cells (v : MemChan) : (s.setMemChan n v).mem.cells = s.mem.cells := rfl
@[simp] theorem setMemChan_mem_upset (v : MemChan) : (s.setMemChan n v).mem.upset = s.mem.upset := rfl
@[simp] theorem setMemChan_mem_lastAddr (v : MemChan) : (s.setMemChan n v).mem.lastAddr = s.mem.lastAddr := rfl
@[simp] theorem setMemChan_mem_lastSynd (v : MemChan) : (s.setMemChan n v).mem.lastSynd = s.mem.lastSynd := rfl
@[simp] theorem setMemChan_mem_scrub (v : MemChan) : (s.setMemChan n v).mem.scrub = s.mem.scrub := rfl
@[simp] theorem setMemChan_mem_dyke (v : MemChan) : (s.setMemChan n v).mem.dyke = s.mem.dyke := rfl
@[simp] theorem setMemChan_memChan (v : MemChan) : (s.setMemChan n v).memChan n = v := tget_tset_same
theorem setMemChan_memChan_other (v : MemChan) {k : Nat} (h : k ≠ n) : (s.setMemChan n v).memChan k = s.memChan k :=
  tget_tset_other h

/-! ### emit -/

@[simp] theorem emit_clk (o : Output) : (s.emit o).clk = s.clk := rfl
@[simp] theorem emit_tide (o : Output) : (s.emit o).tide = s.tide := rfl
@[simp] theorem emit_slots (o : Output) : (s.emit o).slots = s.slots := rfl
@[simp] theorem emit_mem (o : Output) : (s.emit o).mem = s.mem := rfl
@[simp] theorem emit_ctxs (o : Output) : (s.emit o).ctxs = s.ctxs := rfl
@[simp] theorem emit_wins (o : Output) : (s.emit o).wins = s.wins := rfl
@[simp] theorem emit_heads (o : Output) : (s.emit o).heads = s.heads := rfl
@[simp] theorem emit_dpl (o : Output) : (s.emit o).dpl = s.dpl := rfl
@[simp] theorem emit_clamps (o : Output) : (s.emit o).clamps = s.clamps := rfl
@[simp] theorem emit_coeffs (o : Output) : (s.emit o).coeffs = s.coeffs := rfl
@[simp] theorem emit_demands (o : Output) : (s.emit o).demands = s.demands := rfl
@[simp] theorem emit_rates (o : Output) : (s.emit o).rates = s.rates := rfl
@[simp] theorem emit_colours (o : Output) : (s.emit o).colours = s.colours := rfl
@[simp] theorem emit_nextColours (o : Output) : (s.emit o).nextColours = s.nextColours := rfl
@[simp] theorem emit_commitSeq (o : Output) : (s.emit o).commitSeq = s.commitSeq := rfl
@[simp] theorem emit_pans (o : Output) : (s.emit o).pans = s.pans := rfl
@[simp] theorem emit_fences (o : Output) : (s.emit o).fences = s.fences := rfl
@[simp] theorem emit_fenceRuns (o : Output) : (s.emit o).fenceRuns = s.fenceRuns := rfl
@[simp] theorem emit_ports (o : Output) : (s.emit o).ports = s.ports := rfl
@[simp] theorem emit_media (o : Output) : (s.emit o).media = s.media := rfl
@[simp] theorem emit_flows (o : Output) : (s.emit o).flows = s.flows := rfl
@[simp] theorem emit_decs (o : Output) : (s.emit o).decs = s.decs := rfl
@[simp] theorem emit_encs (o : Output) : (s.emit o).encs = s.encs := rfl
@[simp] theorem emit_encEngines (o : Output) : (s.emit o).encEngines = s.encEngines := rfl
@[simp] theorem emit_jobs (o : Output) : (s.emit o).jobs = s.jobs := rfl
@[simp] theorem emit_jobQueue (o : Output) : (s.emit o).jobQueue = s.jobQueue := rfl
@[simp] theorem emit_lanes (o : Output) : (s.emit o).lanes = s.lanes := rfl
@[simp] theorem emit_checks (o : Output) : (s.emit o).checks = s.checks := rfl
@[simp] theorem emit_servo (o : Output) : (s.emit o).servo = s.servo := rfl
@[simp] theorem emit_pulses (o : Output) : (s.emit o).pulses = s.pulses := rfl
@[simp] theorem emit_captures (o : Output) : (s.emit o).captures = s.captures := rfl
@[simp] theorem emit_laneEq (o : Output) : (s.emit o).laneEq = s.laneEq := rfl
@[simp] theorem emit_rx (o : Output) : (s.emit o).rx = s.rx := rfl
@[simp] theorem emit_ring (o : Output) : (s.emit o).ring = s.ring := rfl
@[simp] theorem emit_wels (o : Output) : (s.emit o).wels = s.wels := rfl
@[simp] theorem emit_lineTx (o : Output) : (s.emit o).lineTx = s.lineTx := rfl
@[simp] theorem emit_lineRx (o : Output) : (s.emit o).lineRx = s.lineRx := rfl
@[simp] theorem emit_mailboxes (o : Output) : (s.emit o).mailboxes = s.mailboxes := rfl
@[simp] theorem emit_sessions (o : Output) : (s.emit o).sessions = s.sessions := rfl
@[simp] theorem emit_approvals (o : Output) : (s.emit o).approvals = s.approvals := rfl
@[simp] theorem emit_keys (o : Output) : (s.emit o).keys = s.keys := rfl
@[simp] theorem emit_hwbBase (o : Output) : (s.emit o).hwbBase = s.hwbBase := rfl
@[simp] theorem emit_hwbIdent (o : Output) : (s.emit o).hwbIdent = s.hwbIdent := rfl
@[simp] theorem emit_running (o : Output) : (s.emit o).running = s.running := rfl
@[simp] theorem emit_evr (o : Output) : (s.emit o).evr = s.evr := rfl
@[simp] theorem emit_irq (o : Output) : (s.emit o).irq = s.irq := rfl
@[simp] theorem emit_errs (o : Output) : (s.emit o).errs = s.errs := rfl
@[simp] theorem emit_errNext (o : Output) : (s.emit o).errNext = s.errNext := rfl
@[simp] theorem emit_errOverflow (o : Output) : (s.emit o).errOverflow = s.errOverflow := rfl
@[simp] theorem emit_debug (o : Output) : (s.emit o).debug = s.debug := rfl
@[simp] theorem emit_cfg (o : Output) : (s.emit o).cfg = s.cfg := rfl
@[simp] theorem emit_desks (o : Output) : (s.emit o).desks = s.desks := rfl
@[simp] theorem emit_touchIx (o : Output) : (s.emit o).touchIx = s.touchIx := rfl
@[simp] theorem emit_trim (o : Output) : (s.emit o).trim = s.trim := rfl
@[simp] theorem emit_power (o : Output) : (s.emit o).power = s.power := rfl
@[simp] theorem emit_start (o : Output) : (s.emit o).start = s.start := rfl
@[simp] theorem emit_fresh (o : Output) : (s.emit o).fresh = s.fresh := rfl
@[simp] theorem emit_pending (o : Output) : (s.emit o).pending = s.pending := rfl

/-! ### pass -/

@[simp] theorem pass_tide : (s.pass).tide = s.tide := rfl
@[simp] theorem pass_slots : (s.pass).slots = s.slots := rfl
@[simp] theorem pass_mem : (s.pass).mem = s.mem := rfl
@[simp] theorem pass_ctxs : (s.pass).ctxs = s.ctxs := rfl
@[simp] theorem pass_wins : (s.pass).wins = s.wins := rfl
@[simp] theorem pass_heads : (s.pass).heads = s.heads := rfl
@[simp] theorem pass_dpl : (s.pass).dpl = s.dpl := rfl
@[simp] theorem pass_clamps : (s.pass).clamps = s.clamps := rfl
@[simp] theorem pass_coeffs : (s.pass).coeffs = s.coeffs := rfl
@[simp] theorem pass_demands : (s.pass).demands = s.demands := rfl
@[simp] theorem pass_rates : (s.pass).rates = s.rates := rfl
@[simp] theorem pass_colours : (s.pass).colours = s.colours := rfl
@[simp] theorem pass_nextColours : (s.pass).nextColours = s.nextColours := rfl
@[simp] theorem pass_commitSeq : (s.pass).commitSeq = s.commitSeq := rfl
@[simp] theorem pass_pans : (s.pass).pans = s.pans := rfl
@[simp] theorem pass_fences : (s.pass).fences = s.fences := rfl
@[simp] theorem pass_fenceRuns : (s.pass).fenceRuns = s.fenceRuns := rfl
@[simp] theorem pass_ports : (s.pass).ports = s.ports := rfl
@[simp] theorem pass_media : (s.pass).media = s.media := rfl
@[simp] theorem pass_flows : (s.pass).flows = s.flows := rfl
@[simp] theorem pass_decs : (s.pass).decs = s.decs := rfl
@[simp] theorem pass_encs : (s.pass).encs = s.encs := rfl
@[simp] theorem pass_encEngines : (s.pass).encEngines = s.encEngines := rfl
@[simp] theorem pass_jobs : (s.pass).jobs = s.jobs := rfl
@[simp] theorem pass_jobQueue : (s.pass).jobQueue = s.jobQueue := rfl
@[simp] theorem pass_lanes : (s.pass).lanes = s.lanes := rfl
@[simp] theorem pass_checks : (s.pass).checks = s.checks := rfl
@[simp] theorem pass_servo : (s.pass).servo = s.servo := rfl
@[simp] theorem pass_pulses : (s.pass).pulses = s.pulses := rfl
@[simp] theorem pass_captures : (s.pass).captures = s.captures := rfl
@[simp] theorem pass_laneEq : (s.pass).laneEq = s.laneEq := rfl
@[simp] theorem pass_rx : (s.pass).rx = s.rx := rfl
@[simp] theorem pass_ring : (s.pass).ring = s.ring := rfl
@[simp] theorem pass_wels : (s.pass).wels = s.wels := rfl
@[simp] theorem pass_lineTx : (s.pass).lineTx = s.lineTx := rfl
@[simp] theorem pass_lineRx : (s.pass).lineRx = s.lineRx := rfl
@[simp] theorem pass_mailboxes : (s.pass).mailboxes = s.mailboxes := rfl
@[simp] theorem pass_sessions : (s.pass).sessions = s.sessions := rfl
@[simp] theorem pass_approvals : (s.pass).approvals = s.approvals := rfl
@[simp] theorem pass_keys : (s.pass).keys = s.keys := rfl
@[simp] theorem pass_hwbBase : (s.pass).hwbBase = s.hwbBase := rfl
@[simp] theorem pass_hwbIdent : (s.pass).hwbIdent = s.hwbIdent := rfl
@[simp] theorem pass_running : (s.pass).running = s.running := rfl
@[simp] theorem pass_evr : (s.pass).evr = s.evr := rfl
@[simp] theorem pass_irq : (s.pass).irq = s.irq := rfl
@[simp] theorem pass_errs : (s.pass).errs = s.errs := rfl
@[simp] theorem pass_errNext : (s.pass).errNext = s.errNext := rfl
@[simp] theorem pass_errOverflow : (s.pass).errOverflow = s.errOverflow := rfl
@[simp] theorem pass_debug : (s.pass).debug = s.debug := rfl
@[simp] theorem pass_cfg : (s.pass).cfg = s.cfg := rfl
@[simp] theorem pass_desks : (s.pass).desks = s.desks := rfl
@[simp] theorem pass_touchIx : (s.pass).touchIx = s.touchIx := rfl
@[simp] theorem pass_trim : (s.pass).trim = s.trim := rfl
@[simp] theorem pass_power : (s.pass).power = s.power := rfl
@[simp] theorem pass_start : (s.pass).start = s.start := rfl
@[simp] theorem pass_fresh : (s.pass).fresh = s.fresh := rfl
@[simp] theorem pass_out : (s.pass).out = s.out := rfl
@[simp] theorem pass_pending : (s.pass).pending = s.pending := rfl

/-! ### countRefusal -/

@[simp] theorem countRefusal_clk : (s.countRefusal n).clk = s.clk := rfl
@[simp] theorem countRefusal_tide : (s.countRefusal n).tide = s.tide := rfl
@[simp] theorem countRefusal_slots : (s.countRefusal n).slots = s.slots := rfl
@[simp] theorem countRefusal_mem : (s.countRefusal n).mem = s.mem := rfl
@[simp] theorem countRefusal_ctxs : (s.countRefusal n).ctxs = s.ctxs := rfl
@[simp] theorem countRefusal_wins : (s.countRefusal n).wins = s.wins := rfl
@[simp] theorem countRefusal_heads : (s.countRefusal n).heads = s.heads := rfl
@[simp] theorem countRefusal_dpl : (s.countRefusal n).dpl = s.dpl := rfl
@[simp] theorem countRefusal_clamps : (s.countRefusal n).clamps = s.clamps := rfl
@[simp] theorem countRefusal_coeffs : (s.countRefusal n).coeffs = s.coeffs := rfl
@[simp] theorem countRefusal_demands : (s.countRefusal n).demands = s.demands := rfl
@[simp] theorem countRefusal_rates : (s.countRefusal n).rates = s.rates := rfl
@[simp] theorem countRefusal_colours : (s.countRefusal n).colours = s.colours := rfl
@[simp] theorem countRefusal_nextColours : (s.countRefusal n).nextColours = s.nextColours := rfl
@[simp] theorem countRefusal_commitSeq : (s.countRefusal n).commitSeq = s.commitSeq := rfl
@[simp] theorem countRefusal_pans : (s.countRefusal n).pans = s.pans := rfl
@[simp] theorem countRefusal_fences : (s.countRefusal n).fences = s.fences := rfl
@[simp] theorem countRefusal_fenceRuns : (s.countRefusal n).fenceRuns = s.fenceRuns := rfl
@[simp] theorem countRefusal_ports : (s.countRefusal n).ports = s.ports := rfl
@[simp] theorem countRefusal_media : (s.countRefusal n).media = s.media := rfl
@[simp] theorem countRefusal_flows : (s.countRefusal n).flows = s.flows := rfl
@[simp] theorem countRefusal_decs : (s.countRefusal n).decs = s.decs := rfl
@[simp] theorem countRefusal_encs : (s.countRefusal n).encs = s.encs := rfl
@[simp] theorem countRefusal_encEngines : (s.countRefusal n).encEngines = s.encEngines := rfl
@[simp] theorem countRefusal_jobs : (s.countRefusal n).jobs = s.jobs := rfl
@[simp] theorem countRefusal_jobQueue : (s.countRefusal n).jobQueue = s.jobQueue := rfl
@[simp] theorem countRefusal_lanes : (s.countRefusal n).lanes = s.lanes := rfl
@[simp] theorem countRefusal_checks : (s.countRefusal n).checks = s.checks := rfl
@[simp] theorem countRefusal_servo : (s.countRefusal n).servo = s.servo := rfl
@[simp] theorem countRefusal_pulses : (s.countRefusal n).pulses = s.pulses := rfl
@[simp] theorem countRefusal_captures : (s.countRefusal n).captures = s.captures := rfl
@[simp] theorem countRefusal_laneEq : (s.countRefusal n).laneEq = s.laneEq := rfl
@[simp] theorem countRefusal_rx : (s.countRefusal n).rx = s.rx := rfl
@[simp] theorem countRefusal_ring : (s.countRefusal n).ring = s.ring := rfl
@[simp] theorem countRefusal_wels : (s.countRefusal n).wels = s.wels := rfl
@[simp] theorem countRefusal_lineTx : (s.countRefusal n).lineTx = s.lineTx := rfl
@[simp] theorem countRefusal_lineRx : (s.countRefusal n).lineRx = s.lineRx := rfl
@[simp] theorem countRefusal_mailboxes : (s.countRefusal n).mailboxes = s.mailboxes := rfl
@[simp] theorem countRefusal_sessions : (s.countRefusal n).sessions = s.sessions := rfl
@[simp] theorem countRefusal_approvals : (s.countRefusal n).approvals = s.approvals := rfl
@[simp] theorem countRefusal_keys : (s.countRefusal n).keys = s.keys := rfl
@[simp] theorem countRefusal_hwbBase : (s.countRefusal n).hwbBase = s.hwbBase := rfl
@[simp] theorem countRefusal_hwbIdent : (s.countRefusal n).hwbIdent = s.hwbIdent := rfl
@[simp] theorem countRefusal_running : (s.countRefusal n).running = s.running := rfl
@[simp] theorem countRefusal_evr : (s.countRefusal n).evr = s.evr := rfl
@[simp] theorem countRefusal_irq : (s.countRefusal n).irq = s.irq := rfl
@[simp] theorem countRefusal_errs : (s.countRefusal n).errs = s.errs := rfl
@[simp] theorem countRefusal_errNext : (s.countRefusal n).errNext = s.errNext := rfl
@[simp] theorem countRefusal_errOverflow : (s.countRefusal n).errOverflow = s.errOverflow := rfl
@[simp] theorem countRefusal_debug : (s.countRefusal n).debug = s.debug := rfl
@[simp] theorem countRefusal_desks : (s.countRefusal n).desks = s.desks := rfl
@[simp] theorem countRefusal_touchIx : (s.countRefusal n).touchIx = s.touchIx := rfl
@[simp] theorem countRefusal_trim : (s.countRefusal n).trim = s.trim := rfl
@[simp] theorem countRefusal_power : (s.countRefusal n).power = s.power := rfl
@[simp] theorem countRefusal_start : (s.countRefusal n).start = s.start := rfl
@[simp] theorem countRefusal_fresh : (s.countRefusal n).fresh = s.fresh := rfl
@[simp] theorem countRefusal_out : (s.countRefusal n).out = s.out := rfl
@[simp] theorem countRefusal_pending : (s.countRefusal n).pending = s.pending := rfl

/-! ### writeMem -/

@[simp] theorem writeMem_clk (l : List Byte) : (s.writeMem n l).clk = s.clk := rfl
@[simp] theorem writeMem_tide (l : List Byte) : (s.writeMem n l).tide = s.tide := rfl
@[simp] theorem writeMem_slots (l : List Byte) : (s.writeMem n l).slots = s.slots := rfl
@[simp] theorem writeMem_ctxs (l : List Byte) : (s.writeMem n l).ctxs = s.ctxs := rfl
@[simp] theorem writeMem_wins (l : List Byte) : (s.writeMem n l).wins = s.wins := rfl
@[simp] theorem writeMem_heads (l : List Byte) : (s.writeMem n l).heads = s.heads := rfl
@[simp] theorem writeMem_dpl (l : List Byte) : (s.writeMem n l).dpl = s.dpl := rfl
@[simp] theorem writeMem_clamps (l : List Byte) : (s.writeMem n l).clamps = s.clamps := rfl
@[simp] theorem writeMem_coeffs (l : List Byte) : (s.writeMem n l).coeffs = s.coeffs := rfl
@[simp] theorem writeMem_demands (l : List Byte) : (s.writeMem n l).demands = s.demands := rfl
@[simp] theorem writeMem_rates (l : List Byte) : (s.writeMem n l).rates = s.rates := rfl
@[simp] theorem writeMem_colours (l : List Byte) : (s.writeMem n l).colours = s.colours := rfl
@[simp] theorem writeMem_nextColours (l : List Byte) : (s.writeMem n l).nextColours = s.nextColours := rfl
@[simp] theorem writeMem_commitSeq (l : List Byte) : (s.writeMem n l).commitSeq = s.commitSeq := rfl
@[simp] theorem writeMem_pans (l : List Byte) : (s.writeMem n l).pans = s.pans := rfl
@[simp] theorem writeMem_fences (l : List Byte) : (s.writeMem n l).fences = s.fences := rfl
@[simp] theorem writeMem_fenceRuns (l : List Byte) : (s.writeMem n l).fenceRuns = s.fenceRuns := rfl
@[simp] theorem writeMem_ports (l : List Byte) : (s.writeMem n l).ports = s.ports := rfl
@[simp] theorem writeMem_media (l : List Byte) : (s.writeMem n l).media = s.media := rfl
@[simp] theorem writeMem_flows (l : List Byte) : (s.writeMem n l).flows = s.flows := rfl
@[simp] theorem writeMem_decs (l : List Byte) : (s.writeMem n l).decs = s.decs := rfl
@[simp] theorem writeMem_encs (l : List Byte) : (s.writeMem n l).encs = s.encs := rfl
@[simp] theorem writeMem_encEngines (l : List Byte) : (s.writeMem n l).encEngines = s.encEngines := rfl
@[simp] theorem writeMem_jobs (l : List Byte) : (s.writeMem n l).jobs = s.jobs := rfl
@[simp] theorem writeMem_jobQueue (l : List Byte) : (s.writeMem n l).jobQueue = s.jobQueue := rfl
@[simp] theorem writeMem_lanes (l : List Byte) : (s.writeMem n l).lanes = s.lanes := rfl
@[simp] theorem writeMem_checks (l : List Byte) : (s.writeMem n l).checks = s.checks := rfl
@[simp] theorem writeMem_servo (l : List Byte) : (s.writeMem n l).servo = s.servo := rfl
@[simp] theorem writeMem_pulses (l : List Byte) : (s.writeMem n l).pulses = s.pulses := rfl
@[simp] theorem writeMem_captures (l : List Byte) : (s.writeMem n l).captures = s.captures := rfl
@[simp] theorem writeMem_laneEq (l : List Byte) : (s.writeMem n l).laneEq = s.laneEq := rfl
@[simp] theorem writeMem_rx (l : List Byte) : (s.writeMem n l).rx = s.rx := rfl
@[simp] theorem writeMem_ring (l : List Byte) : (s.writeMem n l).ring = s.ring := rfl
@[simp] theorem writeMem_wels (l : List Byte) : (s.writeMem n l).wels = s.wels := rfl
@[simp] theorem writeMem_lineTx (l : List Byte) : (s.writeMem n l).lineTx = s.lineTx := rfl
@[simp] theorem writeMem_lineRx (l : List Byte) : (s.writeMem n l).lineRx = s.lineRx := rfl
@[simp] theorem writeMem_mailboxes (l : List Byte) : (s.writeMem n l).mailboxes = s.mailboxes := rfl
@[simp] theorem writeMem_sessions (l : List Byte) : (s.writeMem n l).sessions = s.sessions := rfl
@[simp] theorem writeMem_approvals (l : List Byte) : (s.writeMem n l).approvals = s.approvals := rfl
@[simp] theorem writeMem_keys (l : List Byte) : (s.writeMem n l).keys = s.keys := rfl
@[simp] theorem writeMem_hwbBase (l : List Byte) : (s.writeMem n l).hwbBase = s.hwbBase := rfl
@[simp] theorem writeMem_hwbIdent (l : List Byte) : (s.writeMem n l).hwbIdent = s.hwbIdent := rfl
@[simp] theorem writeMem_running (l : List Byte) : (s.writeMem n l).running = s.running := rfl
@[simp] theorem writeMem_evr (l : List Byte) : (s.writeMem n l).evr = s.evr := rfl
@[simp] theorem writeMem_irq (l : List Byte) : (s.writeMem n l).irq = s.irq := rfl
@[simp] theorem writeMem_errs (l : List Byte) : (s.writeMem n l).errs = s.errs := rfl
@[simp] theorem writeMem_errNext (l : List Byte) : (s.writeMem n l).errNext = s.errNext := rfl
@[simp] theorem writeMem_errOverflow (l : List Byte) : (s.writeMem n l).errOverflow = s.errOverflow := rfl
@[simp] theorem writeMem_debug (l : List Byte) : (s.writeMem n l).debug = s.debug := rfl
@[simp] theorem writeMem_cfg (l : List Byte) : (s.writeMem n l).cfg = s.cfg := rfl
@[simp] theorem writeMem_desks (l : List Byte) : (s.writeMem n l).desks = s.desks := rfl
@[simp] theorem writeMem_touchIx (l : List Byte) : (s.writeMem n l).touchIx = s.touchIx := rfl
@[simp] theorem writeMem_trim (l : List Byte) : (s.writeMem n l).trim = s.trim := rfl
@[simp] theorem writeMem_power (l : List Byte) : (s.writeMem n l).power = s.power := rfl
@[simp] theorem writeMem_start (l : List Byte) : (s.writeMem n l).start = s.start := rfl
@[simp] theorem writeMem_fresh (l : List Byte) : (s.writeMem n l).fresh = s.fresh := rfl
@[simp] theorem writeMem_out (l : List Byte) : (s.writeMem n l).out = s.out := rfl
@[simp] theorem writeMem_pending (l : List Byte) : (s.writeMem n l).pending = s.pending := rfl

end Sys2Proof.Laws
end

