-- ==== Sys2Proof/Machine/Pins.lean ====
section
/-! DEFINITION. The balls (spec/21): what each of the 3,364 balls carries (R526 to R535), and the state of the balls that the block
drives at low speed (R330, R523, R540). -/

namespace Sys2Proof.Machine

inductive Rail where
  | vss
  | agndCal
  | vddCore
  | vddSram
  | vddHbm
  | vddqHbm
  | vppHbm
  | laneL
  | laneH
  | vddIo
  | vddAon
  | vddTouch
  deriving DecidableEq, Repr

/-- A high-speed lane of the package, by its port (R529 to R531). -/
inductive LanePins where
  | dpl (lane : Nat)
  | eln (lane : Nat) (rx : Bool)
  | wln (lane : Nat) (rx : Bool)
  | pcie (lane : Nat) (rx : Bool)
  deriving DecidableEq, Repr

/-- The low-speed signals of an Ethernet module (R530). -/
inductive ModulePin where
  | modprsN
  | intN
  | resetN
  | lpmode
  | modselN
  deriving DecidableEq, Repr

/-- The reference and low-speed signals of R531 and R533. -/
inductive MiscPin where
  | refclk (n : Bool)
  | lrefA (n : Bool)
  | lrefB (n : Bool)
  | pcieRefclk (n : Bool)
  | calref
  | perstN
  | xspiClk
  | xspiDqs
  | xspiCsN
  | xspiResetN
  | xspiDq (k : Nat)
  | porstN
  | warmN
  | wakeInN
  | safeN
  | pmbScl
  | pmbSda
  | dbgTck
  | dbgTms
  | dbgTdi
  | dbgTdo
  | dbgTrstN
  | pulse (p : Nat)
  | evtIn (k : Nat)
  | ppsIn
  | tenMhzIn
  | fenceN
  | modScl
  | modSda
  deriving DecidableEq, Repr

/-- What a ball carries; `n` is the negative half of a pair. -/
inductive Ball where
  | supply (r : Rail)
  | lane (l : LanePins) (n : Bool)
  | aux (head : Nat) (n : Bool)
  | hpd (head : Nat)
  | module (port : Nat) (m : ModulePin)
  | drv (desk k : Nat)
  | sns (desk k : Nat)
  | misc (m : MiscPin)
  deriving DecidableEq, Repr

def vssBall : Ball := .supply .vss

/-- A display quad block (R529): depth, position. -/
def displayBall (q i j : Nat) : Ball :=
  let pair (k : Nat) (n : Bool) := Ball.lane (.dpl (4 * q + k)) n
  match i, j with
  | 1, 1 => pair 0 false
  | 1, 2 => pair 0 true
  | 1, 4 => pair 1 false
  | 1, 5 => pair 1 true
  | 3, 1 => pair 2 false
  | 3, 2 => pair 2 true
  | 3, 4 => pair 3 false
  | 3, 5 => pair 3 true
  | 4, 3 => .supply .laneL
  | 5, 1 => .aux (2 * q) false
  | 5, 2 => .aux (2 * q) true
  | 5, 4 => .aux (2 * q + 1) false
  | 5, 5 => .aux (2 * q + 1) true
  | 6, 2 => .supply .vddIo
  | 6, 4 => .supply .vddIo
  | 7, 1 => .hpd (2 * q)
  | 7, 3 => .supply .laneH
  | 7, 5 => .hpd (2 * q + 1)
  | 8, 1 => .supply .laneL
  | 8, 2 => .supply .laneL
  | 8, 4 => .supply .laneH
  | 8, 5 => .supply .laneH
  | _, _ => vssBall

/-- Rows 1 to 6 and row 8 of a block of four receive and four transmit pairs (R530): `lane` gives pair k of one direction. -/
def quadBall (lane : Nat → Bool → LanePins) (i c : Nat) : Ball :=
  let pair (k : Nat) (rx n : Bool) := Ball.lane (lane k rx) n
  let row (k : Nat) (rx : Bool) :=
    match c with
    | 1 => pair k rx false
    | 2 => pair k rx true
    | 4 => pair (k + 1) rx false
    | 5 => pair (k + 1) rx true
    | _ => vssBall
  match i with
  | 1 => row 0 false
  | 3 => row 0 true
  | 4 => row 2 false
  | 6 => row 2 true
  | 8 => if c = 1 || c = 2 then .supply .laneL else if c = 4 || c = 5 then .supply .laneH else vssBall
  | _ => vssBall

/-- An Ethernet block (R530). -/
def etherBall (p i j : Nat) : Ball :=
  match i, j with
  | 7, 1 => .module p .modprsN
  | 7, 2 => .module p .intN
  | 7, 3 => .module p .resetN
  | 7, 4 => .module p .lpmode
  | 7, 5 => .module p .modselN
  | 7, _ => .supply .vddIo
  | _, _ => quadBall (fun k rx => .eln (4 * p + k) rx) i j

/-- A Welond block, of two halves (R531). -/
def welondBall (w i j : Nat) : Ball :=
  quadBall (fun k rx => .wln (8 * w + 4 * ((j - 1) / 6) + k) rx) i ((j - 1) % 6 + 1)

/-- The PCI Express block (R531). -/
def pcieBall (i j : Nat) : Ball :=
  match i, j with
  | 7, 1 => .misc (.pcieRefclk false)
  | 7, 2 => .misc (.pcieRefclk true)
  | 7, 4 => .misc .perstN
  | 7, 6 => .supply .vddIo
  | _, _ => quadBall (fun k rx => .pcie (4 * ((j - 1) / 6) + k) rx) i ((j - 1) % 6 + 1)

/-- A touch block (R532). -/
def touchBall (t i j : Nat) : Ball :=
  if i ≤ 4 then .drv t (12 * (i - 1) + j - 1)
  else if i ≤ 6 then .sns t (12 * (i - 5) + j - 1)
  else if i = 7 then
    if j ≤ 8 then .sns t (24 + j - 1) else if j ≤ 10 then .supply .vddTouch else vssBall
  else if j % 2 = 1 then .supply .vddTouch else vssBall

/-- MISC_A (R533). -/
def miscA (i j : Nat) : Ball :=
  match i, j with
  | 1, 1 => .misc (.refclk false)
  | 1, 2 => .misc (.refclk true)
  | 1, 4 => .misc .calref
  | 1, 5 => .supply .agndCal
  | 3, 1 => .misc .xspiClk
  | 3, 2 => .misc .xspiDqs
  | 3, 3 => .misc .xspiCsN
  | 3, 4 => .misc .xspiResetN
  | 6, 1 => .misc .porstN
  | 6, 2 => .misc .warmN
  | 6, 3 => .misc .wakeInN
  | 6, 4 => .misc .safeN
  | 6, 5 => .misc .pmbScl
  | 6, 6 => .misc .pmbSda
  | 7, 1 => .misc .dbgTck
  | 7, 2 => .misc .dbgTms
  | 7, 3 => .misc .dbgTdi
  | 7, 4 => .misc .dbgTdo
  | 7, 5 => .misc .dbgTrstN
  | _, _ =>
    if i = 4 || i = 5 then
      if j ≤ 4 then .misc (.xspiDq (4 * (i - 4) + j - 1)) else if j = 6 then .supply .vddIo else vssBall
    else if i = 3 && j = 6 then .supply .vddIo
    else if i = 8 && !(j = 3 || j = 6) then .supply .vddAon
    else vssBall

/-- MISC_B (R533). -/
def miscB (i j : Nat) : Ball :=
  match i, j with
  | 1, 1 => .misc (.lrefA false)
  | 1, 2 => .misc (.lrefA true)
  | 1, 4 => .misc (.lrefB false)
  | 1, 5 => .misc (.lrefB true)
  | 5, 1 => .misc (.evtIn 0)
  | 5, 2 => .misc (.evtIn 1)
  | 5, 3 => .misc .ppsIn
  | 5, 4 => .misc .tenMhzIn
  | 6, 1 => .misc .fenceN
  | 6, 2 => .misc .modScl
  | 6, 3 => .misc .modSda
  | _, _ =>
    if (i = 3 || i = 4) && j ≤ 4 then .misc (.pulse (4 * (i - 3) + j - 1))
    else if (i = 3 || i = 4 || i = 5) && j = 6 then .supply .vddIo
    else if i = 8 && j % 2 = 1 then .supply .vddIo
    else vssBall

/-- The supply field (R535). -/
def fieldBall (u v : Nat) : Ball :=
  if (u + v) % 2 = 0 then vssBall
  else if u ≤ 8 || 35 ≤ u then
    if v % 6 = 1 || v % 6 = 2 then .supply .vddqHbm else if v % 6 = 3 then .supply .vppHbm else .supply .vddHbm
  else if v % 7 = 0 then .supply .vddSram
  else .supply .vddCore

/-- The ball of a row and a column (R526 to R528). -/
def ballAt (row col : Nat) : Ball :=
  if row ≤ 8 then
    if col ≤ 40 then displayBall ((col - 1) / 5) row ((col - 1) % 5 + 1)
    else etherBall ((col - 41) / 6) row ((col - 41) % 6 + 1)
  else if 51 ≤ row then
    let i := 59 - row
    if col ≤ 40 then displayBall ((col - 1) / 5 + 8) i ((col - 1) % 5 + 1)
    else if col ≤ 46 then etherBall 3 i (col - 40)
    else pcieBall i (col - 46)
  else if col ≤ 8 then
    if row ≤ 14 then miscA col (row - 8) else touchBall ((row - 15) / 12) col ((row - 15) % 12 + 1)
  else if 51 ≤ col then
    let i := 59 - col
    if row ≤ 32 then welondBall ((row - 9) / 12) i ((row - 9) % 12 + 1)
    else if row ≤ 44 then touchBall 3 i (row - 32)
    else miscB i (row - 44)
  else fieldBall (row - 8) (col - 8)

/-- How many balls of the package satisfy a test (R536). -/
def countBalls (p : Ball → Bool) : Nat :=
  ((List.range 58).map fun r => ((List.range 58).filter fun c => p (ballAt (r + 1) (c + 1))).length).sum

/-! ### What the block drives -/

inductive Drive where
  | low
  | high
  /-- An open-drain ball that is not pulled, or a push-pull ball at high impedance. -/
  | released
  | idle
  deriving DecidableEq, Repr

/-- Before step 3 of R507 the main die drives nothing (R540). -/
def State.held (s : State) : Bool := decide (s.start.boot = .porst)

/-- A ball of a desk that scans beyond the electrodes it has, driven low during every scan (R537). -/
def unusedLine (s : State) (t used k : Nat) : Bool := (s.desk t).st != .off && decide (used ≤ k)

/-- The low-speed balls whose state the spec gives at every moment: PULSE (R330), SAFE_N (R523), the reset of an Ethernet module
(R540), and the balls of R540 while the main die is held. None: an input, or a level that a protocol gives. -/
def driven (s : State) (b : Ball) : Option Drive :=
  match b with
  | .misc (.pulse p) => some (if !s.held && pulseLevel (s.pulse p) then .high else .low)
  | .misc .safeN => some (if safeNLow s then .low else .released)
  | .module p .resetN =>
    some (if !s.held && (List.range 4).any (fun i => (s.port (4 * p + i)).exists_) then .released else .low)
  | .lane (.dpl _) _ => if s.held then some .idle else none
  | .lane (.eln _ false) _ => if s.held then some .idle else none
  | .lane (.wln _ false) _ => if s.held then some .idle else none
  | .lane (.pcie _ false) _ => if s.held then some .idle else none
  | .aux _ _ => if s.held then some .released else none
  | .misc .dbgTdo => if s.held then some .released else none
  | .misc (.xspiDq _) => if s.held then some .released else none
  | .misc .xspiDqs => if s.held then some .released else none
  | .misc .xspiCsN => if s.held then some .high else none
  | .misc .xspiResetN => if s.held then some .low else none
  | .module _ .lpmode => if s.held then some .released else none
  | .module _ .modselN => if s.held then some .released else none
  | .misc .pmbScl => if s.held then some .released else none
  | .misc .pmbSda => if s.held then some .released else none
  | .misc .modScl => if s.held then some .released else none
  | .misc .modSda => if s.held then some .released else none
  | .drv t k => if s.held || unusedLine s t (s.desk t).cfg.drive k then some .low else none
  | .sns t k => if !s.held && unusedLine s t (s.desk t).cfg.sense k then some .low else none
  | _ => none

end Sys2Proof.Machine
end

