-- ==== Sys2Proof/WellFormed.lean ====
section
/-! DEFINITION. Well-formed commands: every operand fits the field of the record, the register or the wire format that carries
it (spec/15 R425, R429 and the parameter tables of the commands). -/

namespace Sys2Proof

/-- Each value fits its width in bits. -/
def fits (l : List (Nat × Nat)) : Bool := l.all (fun e => decide (e.1 < 2 ^ e.2))

/-- A signed value fits its width. -/
def fitsInt (v : Int) (w : Nat) : Bool := decide (-(2 ^ (w - 1) : Int) ≤ v) && decide (v < (2 ^ (w - 1) : Int))

/-- A window, context or similar number that may be absent fits 16 bits and is not the code for absent. -/
def fitsOpt : Option Nat → Bool
  | none => true
  | some n => decide (n < 0xFFFF)

def IpAddr.wf (a : IpAddr) : Bool := fits [(a.addr, if a.v6 then 128 else 32)]

def Caller.wf (c : Caller) : Bool :=
  fits [(c.slot, 8), (c.seq, 32)] &&
    (match c.via with
     | .mailbox _ => true
     | .sluice _ src u => src.wf && fits [(u, 16)]
     | .image r => decide (r < 4))

/-! ### Parameter blocks -/

def HelloP.wf (p : HelloP) : Bool := fits [(p.keySlot, 3)] && p.nc.length == 16
def ProveP.wf (p : ProveP) : Bool := p.proof.length == 32
def BedLoadP.wf (p : BedLoadP) : Bool := fits [(p.addr, 64), (p.bytes, 32)]
def SkimStoreP.wf (p : SkimStoreP) : Bool := fits [(p.skim, 8), (p.addr, 64), (p.bytes, 32)]

def PeerAnswer.wf : PeerAnswer → Bool
  | .refused d st off => fits [(d, 8), (st, 16), (off, 32)]
  | _ => true

def SkimApplyP.wf (p : SkimApplyP) : Bool := fits [(p.skim, 8), (p.tide, 64)] && p.peers.all (·.wf)
def SkimApproveP.wf (p : SkimApproveP) : Bool := fits [(p.skim, 8), (p.tide, 64)]
def ConfigQueryP.wf (p : ConfigQueryP) : Bool := fits [(p.kind, 8), (p.index, 8), (p.addr, 64)]

def Timing.wf (t : Timing) : Bool :=
  fits [(t.matrix, 2), (t.mult, 3), (t.waitMask, 12)] &&
    fits ([t.hactive, t.hfp, t.hsync, t.hbp, t.vactive, t.vfpMin, t.vfpNom, t.vfpMax, t.vsync, t.vbp, t.phaseLines].map (·, 16))

def HeadSetTimingP.wf (p : HeadSetTimingP) : Bool := fits [(p.head, 8)] && p.t.wf
def HeadTwinP.wf (p : HeadTwinP) : Bool := fits [(p.pair, 4)]
def HeadEnableP.wf (p : HeadEnableP) : Bool := fits [(p.head, 8)]

def WinGeom.wf (g : WinGeom) : Bool :=
  fits [(g.layer, 8), (g.x, 16), (g.y, 16), (g.w, 16), (g.h, 16)] && fitsOpt g.context

def WindowDefineP.wf : WindowDefineP → Bool
  | .define w g => fits [(w, 16)] && g.wf
  | .delete w => fits [(w, 16)]
  | .place h x y => fits [(h, 8), (x, 16), (y, 16)]

def LayerSettings.wf (l : LayerSettings) : Bool :=
  fits [(l.srcX, 16), (l.srcY, 16), (l.srcW, 16), (l.srcH, 16), (l.globalAlpha, 11), (l.filterH, 4), (l.filterV, 4), (l.matrix, 2)]

def LayerSetP.wf : LayerSetP → Bool
  | .settings w l => fits [(w, 16)] && l.wf
  | .palette w first l => fits [(w, 16), (first, 8), (l.length, 8)] && fits (l.map (·, 32))

def LayerAddressP.wf (p : LayerAddressP) : Bool := fits [(p.context, 16), (p.buffer, 8), (p.capNs, 32), (p.capS, 48)]
def ZOrder.wf (z : ZOrder) : Bool := fits [(z.background, 30)] && fits (z.level.map (·, 8)) && z.level.length == 12
def ZOrderSetP.wf (p : ZOrderSetP) : Bool := fits [(p.head, 8)] && p.z.wf

def Policy.wf (p : Policy) : Bool :=
  fits [(p.budgetUs, 32), (p.frozenRepeat, 8), (p.recover, 8), (p.colourSet, 8), (p.glyphCorner, 2)]

def ColourSet.wf (c : ColourSet) : Bool :=
  fits (c.a.map (·, 32)) && fits (c.b.map (·, 32)) && c.a.length == 5 && c.b.length == 5

def FreshnessSetP.wf : FreshnessSetP → Bool
  | .policy w p => fits [(w, 16)] && p.wf
  | .colours n c => fits [(n, 8)] && c.wf
  | .membership w g => fits [(w, 16), (g, 8)]

def CtxParams.wf (p : CtxParams) : Bool :=
  fits [(p.type, 4), (p.method, 4), (p.format, 8), (p.width, 16), (p.height, 16), (p.ring, 4), (p.extId, 8), (p.extForm, 1),
    (p.clockRate, 32), (p.timeoutUs, 32), (p.stream, 16), (p.returnPort, 16), (p.originDevice, 8), (p.originContext, 16),
    (p.base, 64), (p.pitch, 32), (p.plane1, 32), (p.stride0, 32), (p.stride1, 32)]

def ContextOpenP.wf (p : ContextOpenP) : Bool := fits [(p.context, 16)] && p.p.wf

def FlowRule.wf (r : FlowRule) : Bool :=
  fits [(r.path, 1), (r.port, 4), (r.context, 16), (r.vlan, 12), (r.srcPort, 16), (r.dstPort, 16)] && r.src.wf && r.dst.wf &&
    r.src.v6 == r.dst.v6

def FlowBindP.wf (p : FlowBindP) : Bool := fits [(p.rule, 16)] && p.r.wf
def SourceIsolateP.wf (p : SourceIsolateP) : Bool := fits [(p.context, 16)]
def SluiceSetP.wf (p : SluiceSetP) : Bool := fits [(p.port, 4), (p.udpPort, 16), (p.rateKbps, 32)]

def Attach.wf (a : Attach) : Bool :=
  fits [(a.codec, 2), (a.cls, 2), (a.pool, 8), (a.maxRate, 32), (a.maxAu, 32), (a.lagMs, 16), (a.rtcpPort, 16), (a.poolBase, 64),
    (a.poolPitch, 32), (a.refBase, 64), (a.refPitch, 32)]

def DecodeAttachP.wf (p : DecodeAttachP) : Bool := fits [(p.context, 16)] && p.a.wf
def DecodePriorityP.wf (p : DecodePriorityP) : Bool := fits [(p.context, 16), (p.cls, 2), (p.lagMs, 16)]

def EncParams.wf (p : EncParams) : Bool :=
  fits [(p.engine, 1), (p.rotate, 2), (p.matrix, 2), (p.source, 16), (p.filterH, 4), (p.filterV, 4), (p.frameDiv, 4),
    (p.sliceRows, 8), (p.outKind, 2), (p.srcX, 16), (p.srcY, 16), (p.srcW, 16), (p.srcH, 16), (p.outW, 16), (p.outH, 16),
    (p.idrFrames, 16), (p.mtu, 16)] &&
    fits [(p.inputBase, 64), (p.reconBase, 64), (p.ringBase, 64), (p.ringBytes, 32), (p.port, 4), (p.dscp, 6), (p.pt, 7),
      (p.extId, 8), (p.srcPort, 16), (p.dstPort, 16), (p.ssrc, 32), (p.paceMbps, 16)] && p.dst.wf

def EncodeOpenP.wf (p : EncodeOpenP) : Bool := fits [(p.enc, 8)] && p.p.wf
def EncRate.wf (r : EncRate) : Bool := fits [(r.q, 8), (r.capFrame, 32), (r.capSecond, 32)]
def EncodeRateP.wf (p : EncodeRateP) : Bool := fits [(p.enc, 8)] && p.rate.wf

def CrysParams.wf (p : CrysParams) : Bool :=
  fits [(p.blockKib, 16), (p.row, 16), (p.inBase, 64), (p.inBytes, 32), (p.outBytes, 32), (p.outBase, 64), (p.stateBase, 64),
    (p.indexBase, 64), (p.indexEntries, 32)]

def CrysJobP.wf (p : CrysJobP) : Bool := fits [(p.job, 8)] && p.p.wf
def CrysResumeP.wf (p : CrysResumeP) : Bool := fits [(p.job, 8), (p.outBytes, 32), (p.outBase, 64)]
def CrysFlushP.wf (p : CrysFlushP) : Bool := fits [(p.job, 8), (p.at_, 32)]
def CheckBindP.wf (p : CheckBindP) : Bool := fits [(p.channel, 16), (p.context, 16)]

def SealRegionP.wf (p : SealRegionP) : Bool :=
  fits [(p.head, 8), (p.region, 3), (p.op, 2), (p.poly, 2), (p.x, 16), (p.y, 16), (p.w, 16), (p.h, 16)]

def Profile.wf (p : Profile) : Bool :=
  fits [(p.source, 3), (p.transport, 2), (p.domain, 8), (p.priority1, 8), (p.priority2, 8), (p.announceTimeout, 8), (p.ports, 16),
    (p.todS, 48)] && fitsInt p.logSync 8 && fitsInt p.logAnnounce 8 && fitsInt p.logDelayReq 8

def Pulse.wf (p : Pulse) : Bool :=
  fits [(p.mode, 2), (p.fine, 2), (p.startNs, 32), (p.startS, 48), (p.period, 32), (p.width, 32), (p.div, 8)] &&
    fitsInt p.offset 32

def PulseSetP.wf (p : PulseSetP) : Bool := fits [(p.target, 4)] && p.p.wf
def TideSetP.wf (p : TideSetP) : Bool := fits [(p.num, 32), (p.den, 32)]
def KindIndexP.wf (p : KindIndexP) : Bool := fits [(p.kind, 8), (p.index, 8)]

def EyeScanP.wf (p : EyeScanP) : Bool :=
  fits [(p.kind, 8), (p.lane, 8), (p.step, 4), (p.dwell, 6), (p.resultBase, 64)] && fitsInt p.phaseLo 8 && fitsInt p.phaseHi 8 &&
    fitsInt p.voltLo 8 && fitsInt p.voltHi 8

def Region.wf (r : Region) : Bool := fits [(r.base, 24), (r.pages, 24), (r.read, 20), (r.write, 20)]
def DykeRuleP.wf (p : DykeRuleP) : Bool := fits [(p.region, 16)] && p.r.wf
def ScrubSetP.wf (p : ScrubSetP) : Bool := fits [(p.periodH, 16)]

def DeskConfig.wf (d : DeskConfig) : Bool :=
  fits [(d.drive, 8), (d.sense, 8), (d.f0, 16), (d.f1, 16), (d.f2, 16), (d.f3, 16), (d.thMin, 16), (d.thMax, 16), (d.noiseLimit, 16),
    (d.noiseMult, 8), (d.slowAfterS, 16), (d.approachTh, 16), (d.stuckS, 32)]

def TouchConfigP.wf (p : TouchConfigP) : Bool := fits [(p.desk, 2)] && p.cfg.wf
def TouchRebaseP.wf (p : TouchRebaseP) : Bool := fits [(p.desk, 2), (p.op, 2)]

def Route.wf (r : Route) : Bool :=
  fits ((r.head, 8) :: [r.gx, r.gy, r.gw, r.gh, r.hx, r.hy, r.hw, r.hh].map (·, 16))

def TouchRouteP.wf (p : TouchRouteP) : Bool := fits [(p.desk, 2), (p.entry, 3)] && p.r.wf
def TrimRunP.wf (p : TrimRunP) : Bool := fits [(p.deltaC, 8)]
def TrimQueryP.wf (p : TrimQueryP) : Bool := fits [(p.kind, 8), (p.item, 8), (p.index, 16)]
def Budgets.wf (b : Budgets) : Bool := fits ([b.displayMs, b.ingestMs, b.touchMs, b.hostMs, b.restS].map (·, 16))
def ErrReadP.wf (p : ErrReadP) : Bool := fits [(p.first, 8), (p.count, 8)]
def ErrAckP.wf (p : ErrAckP) : Bool := fits [(p.id, 16)]
def FenceP.wf (p : FenceP) : Bool := fits [(p.set, 8), (p.release, 8), (p.ballMap, 8)]
def DebugUnlockP.wf (p : DebugUnlockP) : Bool := fits [(p.durationS, 32)]

/-! ### What accesses and events carry -/

def MemOp.wf : MemOp → Bool
  | .read n => decide (0 < n)
  | .write d => !d.isEmpty

def EthKind.wf : EthKind → Bool
  | .udp src dst sp dp _ => src.wf && dst.wf && src.v6 == dst.v6 && fits [(sp, 16), (dp, 16)]
  | .nd d => d.wf && d.v6
  | .echo d => d.wf
  | .groupQuery v6 g => g.elim true (fun a => a.wf && a.v6 == v6)
  | _ => true

def EthFrame.wf (f : EthFrame) : Bool := fits [(f.vlan, 12)] && f.kind.wf

def ClockData.wf (d : ClockData) : Bool :=
  fits [(d.priority1, 8), (d.cls, 8), (d.accuracy, 8), (d.variance, 16), (d.priority2, 8), (d.gm, 64), (d.steps, 16)]

def PtpBody.wf : PtpBody → Bool
  | .delayResp _ clock port => fits [(clock, 64), (port, 16)]
  | .announce d => d.wf
  | _ => true

def PtpMsg.wf (m : PtpMsg) : Bool :=
  fits [(m.transport, 2), (m.domain, 8), (m.srcClock, 64), (m.srcPort, 16), (m.seq, 16)] && fitsInt m.correction 64 && m.body.wf

def Sink.wf (k : Sink) : Bool := fits [(k.maxRate, 3), (k.maxLanes, 3), (k.fmin, 16), (k.fmax, 16)]
def EqRequest.wf (r : EqRequest) : Bool := fits [(r.swing, 2), (r.pre, 2), (r.preset, 4)]

/-- A block of a Welond stream: its kind and its 8 bytes (R345). -/
def blockWf (b : Bool × List Byte) : Bool := b.2.length == 8

def FreshRecord.wf (r : FreshRecord) : Bool :=
  fits [(r.capNs, 32), (r.capS, 48), (r.alive, 32), (r.aliveRun, 8), (r.contentRun, 8), (r.goodRun, 8), (r.causes, 16), (r.seq, 32)]

def MirrorBody.wf : MirrorBody → Bool
  | .data off _ => fits [(off, 32)]
  | .record r => r.wf

def MirrorPacket.wf (p : MirrorPacket) : Bool := p.blocks.all blockWf && fits [(p.originContext, 16)] && p.body.wf

def MirrorAsk.wf (a : MirrorAsk) : Bool :=
  fits [(a.origin, 8), (a.device, 8), (a.context, 16), (a.priority, 8), (a.rateKbs, 32), (a.compKbs, 32)]

def SkimMsg.wf : SkimMsg → Bool
  | .store k role _ => decide (k < 32) && fits [(role, 2)]
  | .apply k t n _ => decide (k < 32) && fits [(t, 64), (n, 64)]
  | .cancel k t => decide (k < 32) && fits [(t, 64)]
  | .approve k t => decide (k < 32) && fits [(t, 64)]
  | .withdraw k t => decide (k < 32) && fits [(t, 64)]
  | .ack d c l => fits [(d, 2), (c, 3)] && decide (l.length ≤ 2) && fits (l.map (fun x => (x, 32)))

def StreamSet.wf (p : StreamSet) : Bool :=
  fits [(p.profile, 8), (p.level, 8), (p.depth, 8), (p.chromaDepth, 8), (p.chroma, 2), (p.codedW, 16), (p.codedH, 16),
    (p.maxRefs, 5)] && decide (p.frameNumBits ≤ 16)

def PictureHead.wf (h : PictureHead) : Bool :=
  h.set.wf && decide (h.frameNum < 2 ^ h.set.frameNumBits) && fitsInt h.poc 32 && h.refs.all (fun r => fitsInt r.poc 32) && h.reads.all (fun r => fitsInt r.1 32)

def SliceCode.wf (c : SliceCode) : Bool := !c.nal.isEmpty

def NodeReading.wf (r : NodeReading) : Bool := fits [(r.bursts, 8), (r.fraction, 4)]

def TrimStep.wf : TrimStep → Bool
  | .measure e r sensor edge => decide (e < 64) && fits [(r.1, 32), (r.2, 32)] && fitsInt sensor 16 && fitsInt edge 16
  | .move a b => [a, b].all (fun x => x.elim true (fun n => decide (n < 64)))

def GaugeEntry.wf (e : GaugeEntry) : Bool := fits [(e.win, 16), (e.groups, 8)] && e.g.wf && e.pol.wf

def Upset.wf (u : Upset) : Bool := u.entry.elim true (·.wf)

/-- A fault of a channel or of the voter, on a cycle of the pass (R89). -/
def PassFault.wf (f : PassFault) : Bool := decide (f.unit < 4) && decide (f.cycle < 64)

def MemRequest.wf (r : MemRequest) : Bool := fits [(r.cls, 6), (r.identity, 5)] && r.op.wf

def RecordRead.wf (r : RecordRead) : Bool :=
  fits [(r.win, 16)] && decide (r.line < 2 ^ 30) && r.synd.elim true (fun l => l.length == 4 && l.all (fun x => decide (x < 256)))

def FlashSlot.wf (f : FlashSlot) : Bool :=
  fits [(f.version, 32), (f.key.1, 384), (f.key.2, 384), (f.sig.1, 384), (f.sig.2, 384)] && decide (f.image.length ≤ 2 ^ 22)

/-- A command whose operands the record, register or wire format can carry. -/
def Instr.wf : Instr → Bool
  | .hello c p => c.wf && p.wf
  | .prove c p => c.wf && p.wf
  | .close c => c.wf
  | .roleQuery c => c.wf
  | .bedLoad c p => c.wf && p.wf
  | .skimStore c p => c.wf && p.wf
  | .skimApply c p => c.wf && p.wf
  | .skimApprove c p => c.wf && p.wf
  | .configQuery c p => c.wf && p.wf
  | .headSetTiming c p => c.wf && p.wf
  | .headCommit c heads => c.wf && fits [(heads, 32)]
  | .headTwin c p => c.wf && p.wf
  | .headStateQuery c h => c.wf && fits [(h, 8)]
  | .headEnable c p => c.wf && p.wf
  | .windowDefine c p => c.wf && p.wf
  | .layerSet c p => c.wf && p.wf
  | .layerAddress c p => c.wf && p.wf
  | .zorderSet c p => c.wf && p.wf
  | .freshnessSet c p => c.wf && p.wf
  | .verdictQuery c w => c.wf && fits [(w, 16)]
  | .contextOpen c p => c.wf && p.wf
  | .contextClose c n => c.wf && fits [(n, 16)]
  | .flowBind c p => c.wf && p.wf
  | .sourceIsolate c p => c.wf && p.wf
  | .contextStats c n => c.wf && fits [(n, 16)]
  | .sluiceSet c p => c.wf && p.wf
  | .decodeAttach c p => c.wf && p.wf
  | .decodePriority c p => c.wf && p.wf
  | .decodeStats c n => c.wf && fits [(n, 16)]
  | .encodeOpen c p => c.wf && p.wf
  | .encodeRate c p => c.wf && p.wf
  | .encodeClose c e => c.wf && fits [(e, 8)]
  | .crysJob c p => c.wf && p.wf
  | .crysResume c p => c.wf && p.wf
  | .crysFlush c p => c.wf && p.wf
  | .checkBind c p => c.wf && p.wf
  | .sealRegion c p => c.wf && p.wf
  | .checkStats c n => c.wf && fits [(n, 16)]
  | .timeSetProfile c p => c.wf && p.wf
  | .pulseSet c p => c.wf && p.wf
  | .timeQuery c => c.wf
  | .tideSet c p => c.wf && p.wf
  | .linkState c p => c.wf && p.wf
  | .eyeScan c p => c.wf && p.wf
  | .eqTableQuery c p => c.wf && p.wf
  | .dykeRule c p => c.wf && p.wf
  | .dykeSync c => c.wf
  | .dykeLock c r => c.wf && fits [(r, 16)]
  | .memErrQuery c p => c.wf && p.wf
  | .scrubSet c p => c.wf && p.wf
  | .touchConfig c p => c.wf && p.wf
  | .touchRebase c p => c.wf && p.wf
  | .touchRoute c p => c.wf && p.wf
  | .trimRun c p => c.wf && p.wf
  | .trimQuery c p => c.wf && p.wf
  | .wakeBudget c p => c.wf && p.wf
  | .powerQuery c => c.wf
  | .errRead c p => c.wf && p.wf
  | .errAck c p => c.wf && p.wf
  | .fence c p => c.wf && p.wf
  | .debugUnlock c p => c.wf && p.wf
  | .swFence _ => true
  | .swRelease _ => true
  | .mailboxGo _ _ => true
  | .mailboxAck _ _ => true
  | .irqStatusClear _ => true
  | .irqMaskWrite _ => true
  | .msixUnmask _ _ => true
  | .hwbBaseWrite _ => true
  | .hwbAccess off op => fits [(off, 30)] && op.wf
  | .evrEnableWrite _ => true
  | .evrConsWrite _ => true
  | .tideCountLowRead _ => true
  | .timeNsRead => true
  | .registerWrite _ off _ => fits [(off, 16)] && off % 4 == 0
  | .debugProbeToken _ => true
  | .debugAccess addr op => fits [(addr, 36)] && op.wf
  | .keyProgram _ key => key.length == 32
  | .sluiceDatagram _ src u len l => src.wf && fits [(u, 16)] && decide (l.length < len)
  | .tide => true
  | .headFlip _ => true
  | .headLatchEdge _ => true
  | .frontPorchEnd _ => true
  | .vrrLineBoundary _ => true
  | .waitTimeout _ => true
  | .takePoint _ l => l.all (·.wf)
  | .groupCompose _ => true
  | .spanEvaluate _ _ line a b c => fits [(line, 16)] && a.wf && b.wf && c.wf
  | .salinityPass _ l => l.all (·.wf)
  | .stateCopyComplete _ _ => true
  | .gaugeReload _ => true
  | .fenceNCapture => true
  | .fenceNRelease => true
  | .sealCompare _ _ _ => true
  | .hpdPresent _ _ k => k.wf
  | .hpdUnplug _ _ => true
  | .irqHpd _ _ _ => true
  | .dpLinkLockLoss _ => true
  | .auxTimeout _ _ _ => true
  | .linkTrainingDone _ _ l => l.all (fun r => r.all (·.wf))
  | .trainingTimeout _ => true
  | .memoryRequest r => r.wf
  | .slotPosition => true
  | .memoryAccessComplete l _ => l.all (fun e => decide (e.1 < 68))
  | .scrubPacingRead l => l.all (fun e => decide (e.1 < 32) && decide (e.2.1 < 68))
  | .dykeSyncComplete => true
  | .ethFrameReceive _ f => f.wf
  | .ethLinkChange _ _ => true
  | .mgmtFrame _ f => f.wf
  | .mediaPacketProcess _ => true
  | .frameTimeout _ => true
  | .dgsTileDecode _ t => fits [(t, 16)]
  | .fillCopy _ => true
  | .bufferComplete _ => true
  | .checkCompareEnd _ => true
  | .detectorComplete _ => true
  | .decodePictureStart _ h => h.wf
  | .decodePictureEnd _ => true
  | .pictureOutput _ => true
  | .decodeLagDiscard _ => true
  | .encodeFrameDue _ => true
  | .encodeLineComplete _ => true
  | .encodeFrameStart _ => true
  | .slicePublish _ c => c.wf
  | .rtpTransmit _ => true
  | .crysJobStart => true
  | .crysDone _ => true
  | .eyeDone k _ l => decide (k = 1 ∨ k = 2) && fits (l.map (·, 32))
  | .ptpReceive _ m w => m.wf && fitsInt w 32
  | .ptpSyncTransmit _ => true
  | .ptpAnnounceTransmit _ => true
  | .ptpDelayReqTransmit _ => true
  | .sourceLost => true
  | .ppsEdge _ w => fitsInt w 32
  | .tenMhzGate m w => fitsInt m 32 && fitsInt w 32
  | .pulseEdge _ => true
  | .evtInEdge _ _ => true
  | .welondDetect _ n => fits [(n, 8)]
  | .welondLock _ _ _ => true
  | .welondAttemptTimeout _ => true
  | .welondRetry _ n => fits [(n, 8)]
  | .welondTerminationLost _ => true
  | .capabilitySend _ => true
  | .capabilityReceive _ l => l.all blockWf
  | .welondLaneLockLoss _ _ _ => true
  | .widthBlockReceive _ _ _ => true
  | .laneRetrain _ _ _ => true
  | .mirrorSetReceive _ b l => b.all blockWf && l.all (fun e => fits [(e.1, 8), (e.2, 16)])
  | .mirrorRequest _ b a => b.all blockWf && a.wf
  | .mirrorBufferSend _ _ => true
  | .mirrorPacketReceive _ p => p.wf
  | .fenceBlockReceive _ _ _ => true
  | .fenceBlockPeriodic _ => true
  | .tideMessageReceive _ b n _ _ => b.all blockWf && fits [(n, 64)]
  | .skimMessageReceive _ b m => b.all blockWf && m.wf
  | .touchPacketReceive _ l => l.all blockWf
  | .touchFrame _ l n => l.all (·.wf) && n.length == 4
  | .baselineDone _ => true
  | .negRebase _ n => decide (n < 1536)
  | .thresholdUpdate _ => true
  | .chargerNoiseEntry _ => true
  | .chargerNoiseExit _ => true
  | .slowScanEntry _ => true
  | .slowScanFrame _ l => l.all (·.wf)
  | .touchStuck _ _ => true
  | .touchSaturated _ n => decide (n < 1536)
  | .touchReport _ => true
  | .temperatureSample l => l.length == 16 && l.all (fitsInt · 16)
  | .trimElementStep item i x => decide (1 ≤ item) && decide (item ≤ 5) && fits [(i, 8)] && x.wf
  | .trimRunComplete => true
  | .avsSample l => l.length == 32 && fits (l.map (·, 6))
  | .voutReadback _ uv => fits [(uv, 32)]
  | .thermalCheck l => l.length == 20 && l.all (fitsInt · 16)
  | .restTimeout => true
  | .wakeIn _ => true
  | .powerExitDone => true
  | .refclkLost => true
  | .refclkReturn _ => true
  | .lrefALost => true
  | .lrefBLost => true
  | .pcieRefclkLost => true
  | .pcieLinkDown => true
  | .perstN => true
  | .pwrGood uv => fits [(uv, 32)]
  | .porstNAssert => true
  | .firmwareBoot a b => a.wf && b.wf
  | .memoryTrainingDone l => l.all (fun c => decide (c < 32))
  | .wardenReady f => f.elim true (fun l => decide (l.length ≤ 2 ^ 20))
  | .warmReset c => decide (1 ≤ c) && decide (c ≤ 3)
  | .warmResetRelease => true
  | .restartWatchdog => true
  | .watchdog _ _ => true
  | .fabricParity id a => fits [(id, 5), (a, 64)]
  | .fatalHandling => true
  | .halfOpenExpiry _ => true
  | .sessionIdleTimeout _ => true
  | .approvalExpiry k => decide (k < 32)
  | .debugTokenExpiry => true
  | .debugSessionExpiry => true
  | .pictureAbandoned _ => true
  | .encodeFrameAbandoned _ => true
  | .receiverAdapted _ n => fits [(n, 8)]
  | .narrowingTimeout _ => true

end Sys2Proof
end

