-- ==== Sys2Proof/Tests/Slice0.lean ====
section
/-! SUPPORT. Tests of the model on small states, and for every statement with hypotheses a witness that meets them. -/

namespace Sys2Proof.Tests

set_option Elab.async false

open Sys2Proof Sys2Proof.Machine Sys2Proof.Safety

/-! ### Small states -/

/-- A device after power-up, with its host link up and its warden ready. -/
def readyState : State :=
  { State.reset with start := { State.reset.start with boot := .up, warden := .ready } }

/-- A state `t` ticks later on every clock. -/
def later (s : State) (t : Nat) : State :=
  { s with clk := { s.clk with
      now := s.clk.now + t, ref := s.clk.ref + t * one40, aon := s.clk.aon + t * one40, net := s.clk.net + t * one40,
      wel := s.clk.wel + t * one40, host := s.clk.host + t * one40, base := s.clk.base + t * one40 / nsT,
      panTime := s.clk.panTime + t } }

/-- An open session on mailbox 3, slot 0, with key slot 0. -/
def openedSession : Session :=
  { isOpen := true, keySlot := 0, binding := .mailbox 3, nc := zeros 16, nd := zeros 16, key := [1#8], at_ := 0 }

def openedState : State :=
  (readyState.setKeySlot 0 { ({} : KeySlot) with key := some [1#8] }).setSession 0 openedSession

def sessionCaller : Caller := ⟨.mailbox 3, 0, 1⟩

/-- A record of an image, run with the role OWNER. -/
def img : Caller := ⟨.image 3, 0, 1⟩

theorem runs_img {code : Nat} (s : State) (h : baseRole code ≤ 3 := by decide) : Runs img code s [] s := ⟨h, rfl⟩


/-! ### Well-formedness: a term for each check, which the check refuses -/

def zIpAddr : IpAddr := ⟨false, 0⟩
def zCaller : Caller := ⟨(.mailbox 0), 0, 0⟩
def zHelloP : HelloP := ⟨0, List.replicate 16 0⟩
def zProveP : ProveP := ⟨List.replicate 32 0, false⟩
def zBedLoadP : BedLoadP := ⟨0, 0⟩
def zSkimStoreP : SkimStoreP := ⟨0, false, 0, 0, false⟩
def zSkimApplyP : SkimApplyP := ⟨0, false, false, 0, []⟩
def zSkimApproveP : SkimApproveP := ⟨0, 0, false⟩
def zConfigQueryP : ConfigQueryP := ⟨0, 0, 0⟩
def zTiming : Timing := ⟨false, false, false, false, 0, false, false, 0, 0, 0, 0, 0, 0, 0, 0, 0, 0, 0, 0, 0⟩
def zHeadSetTimingP : HeadSetTimingP := ⟨0, zTiming⟩
def zHeadTwinP : HeadTwinP := ⟨0, false⟩
def zHeadEnableP : HeadEnableP := ⟨0, false, false⟩
def zWinGeom : WinGeom := ⟨0, none, 0, 0, 0, 0⟩
def zLayerSettings : LayerSettings := ⟨0, 0, 0, 0, 0, 0, 0, 0, false, false, false⟩
def zLayerAddressP : LayerAddressP := ⟨0, 0, false, false, 0, 0⟩
def zZOrder : ZOrder := ⟨false, 0, List.replicate 12 0⟩
def zZOrderSetP : ZOrderSetP := ⟨0, zZOrder⟩
def zPolicy : Policy := ⟨0, 0, 0, 0, false, 0, false, false, false, false, false, false⟩
def zColourSet : ColourSet := ⟨List.replicate 5 0, List.replicate 5 0⟩
def zCtxParams : CtxParams := ⟨0, 0, 0, 0, 0, 0, 0, 0, 0, 0, 0, 0, 0, 0, 0, 0, 0, 0, 0⟩
def zContextOpenP : ContextOpenP := ⟨0, zCtxParams⟩
def zFlowRule : FlowRule := ⟨0, false, false, false, false, 0, 0, 0, zIpAddr, zIpAddr, 0, 0⟩
def zFlowBindP : FlowBindP := ⟨0, false, zFlowRule⟩
def zSourceIsolateP : SourceIsolateP := ⟨0, false, false⟩
def zSluiceSetP : SluiceSetP := ⟨0, false, 0, 0⟩
def zAttach : Attach := ⟨0, 0, false, 0, 0, 0, 0, 0, 0, 0, 0, 0⟩
def zDecodeAttachP : DecodeAttachP := ⟨0, zAttach⟩
def zDecodePriorityP : DecodePriorityP := ⟨0, 0, false, 0⟩
def zEncParams : EncParams := ⟨0, false, false, false, 0, 0, 0, 0, 0, 0, 0, 0, 0, 0, 0, 0, 0, 0, 0, 0, 0, 0, 0, 0, 0, zIpAddr, 0, 0, 0, 0, 0, 0, 0⟩
def zEncodeOpenP : EncodeOpenP := ⟨0, zEncParams⟩
def zEncRate : EncRate := ⟨0, 0, 0⟩
def zEncodeRateP : EncodeRateP := ⟨0, false, false, zEncRate⟩
def zCrysParams : CrysParams := ⟨false, false, false, 0, 0, 0, 0, 0, 0, 0, 0, 0⟩
def zCrysJobP : CrysJobP := ⟨0, zCrysParams⟩
def zCrysResumeP : CrysResumeP := ⟨0, 0, 0⟩
def zCrysFlushP : CrysFlushP := ⟨0, 0⟩
def zCheckBindP : CheckBindP := ⟨0, false, false, false, false, 0⟩
def zSealRegionP : SealRegionP := ⟨0, 0, 0, 0, 0, 0, 0, 0⟩
def zProfile : Profile := ⟨0, false, 0, false, 0, 0, 0, 0, 0, 0, 0, 0, 0⟩
def zPulse : Pulse := ⟨0, false, 0, 0, 0, 0, 0, 0, 0⟩
def zPulseSetP : PulseSetP := ⟨0, zPulse⟩
def zTideSetP : TideSetP := ⟨0, 0⟩
def zKindIndexP : KindIndexP := ⟨0, 0⟩
def zEyeScanP : EyeScanP := ⟨0, 0, 0, 0, 0, 0, 0, 0, 0⟩
def zRegion : Region := ⟨false, 0, 0, 0, 0⟩
def zDykeRuleP : DykeRuleP := ⟨0, false, zRegion⟩
def zScrubSetP : ScrubSetP := ⟨false, 0⟩
def zDeskConfig : DeskConfig := ⟨false, false, false, false, false, 0, 0, 0, 0, 0, 0, 0, 0, 0, 0, 0, 0, 0⟩
def zTouchConfigP : TouchConfigP := ⟨0, zDeskConfig⟩
def zTouchRebaseP : TouchRebaseP := ⟨0, 0⟩
def zRoute : Route := ⟨false, false, 0, 0, 0, 0, 0, 0, 0, 0, 0⟩
def zTouchRouteP : TouchRouteP := ⟨0, 0, false, zRoute⟩
def zTrimRunP : TrimRunP := ⟨false, false, 0⟩
def zTrimQueryP : TrimQueryP := ⟨0, 0, 0⟩
def zBudgets : Budgets := ⟨0, 0, 0, 0, 0⟩
def zErrReadP : ErrReadP := ⟨0, 0⟩
def zErrAckP : ErrAckP := ⟨0, false, false, false⟩
def zFenceP : FenceP := ⟨0, 0, false, 0⟩
def zDebugUnlockP : DebugUnlockP := ⟨false, 0⟩
def zEthFrame : EthFrame := ⟨0, false, 0, 0, (.udp zIpAddr zIpAddr 0 0 [])⟩
def zClockData : ClockData := ⟨0, 0, 0, 0, 0, 0, 0⟩
def zPtpMsg : PtpMsg := ⟨0, 0, 0, 0, 0, 0, (.sync false 0)⟩
def zSink : Sink := ⟨0, 0, false, false, false, 0, 0⟩
def zEqRequest : EqRequest := ⟨0, 0, 0⟩
def zFreshRecord : FreshRecord := ⟨0, 0, 0, 0, 0, 0, 0, 0⟩
def zMirrorPacket : MirrorPacket := ⟨[], 0, (.data 0 [])⟩
def zMirrorAsk : MirrorAsk := ⟨0, 0, 0, false, 0, 0, 0⟩
def zStreamSet : StreamSet := ⟨0, 0, 0, 0, 0, 0, 0, (0, 0, 0, 0), none, none, 0, false, false, 0, 0, false, false, false, false⟩
def zPictureHead : PictureHead := ⟨zStreamSet, 0, false, false, false, [], 0, false, none, [], [], []⟩
def zSliceCode : SliceCode := ⟨[], []⟩
def zNodeReading : NodeReading := ⟨0, 0⟩
def zGaugeEntry : GaugeEntry := ⟨0, zWinGeom, zPolicy, 0⟩
def zUpset : Upset := ⟨0, 0, none⟩
def zPassFault : PassFault := ⟨0, 0, 0⟩
def zMemRequest : MemRequest := ⟨0, 0, 0, false, .read 1⟩
def zRecordRead : RecordRead := ⟨0, 0, none⟩
def zFlashSlot : FlashSlot := ⟨[], 0, (0, 0), (0, 0)⟩

theorem test_ill_formed_blocks_1 :
    zCaller.wf = true ∧ [
      { zCaller with slot := 256 }, { zCaller with seq := 4294967296 }].all (fun t => !t.wf) = true ∧
    zHelloP.wf = true ∧ [
      { zHelloP with keySlot := 8 }, { zHelloP with nc := [] }].all (fun t => !t.wf) = true ∧
    zProveP.wf = true ∧ [
      { zProveP with proof := [] }].all (fun t => !t.wf) = true ∧
    zBedLoadP.wf = true ∧ [
      { zBedLoadP with addr := 18446744073709551616 }, { zBedLoadP with bytes := 4294967296 }].all (fun t => !t.wf) = true ∧
    zSkimStoreP.wf = true ∧ [
      { zSkimStoreP with skim := 256 }, { zSkimStoreP with addr := 18446744073709551616 },
      { zSkimStoreP with bytes := 4294967296 }].all (fun t => !t.wf) = true ∧
    zSkimApplyP.wf = true ∧ [
      { zSkimApplyP with skim := 256 }, { zSkimApplyP with tide := 18446744073709551616 }].all (fun t => !t.wf) = true ∧
    zSkimApproveP.wf = true ∧ [
      { zSkimApproveP with skim := 256 }, { zSkimApproveP with tide := 18446744073709551616 }].all (fun t => !t.wf) = true ∧
    zConfigQueryP.wf = true ∧ [
      { zConfigQueryP with kind := 256 }, { zConfigQueryP with index := 256 },
      { zConfigQueryP with addr := 18446744073709551616 }].all (fun t => !t.wf) = true ∧
    zTiming.wf = true ∧ [
      { zTiming with matrix := 4 }, { zTiming with mult := 8 }, { zTiming with waitMask := 4096 },
      { zTiming with hactive := 65536 }, { zTiming with hfp := 65536 }, { zTiming with hsync := 65536 },
      { zTiming with hbp := 65536 }, { zTiming with vactive := 65536 }, { zTiming with vfpMin := 65536 },
      { zTiming with vfpNom := 65536 }, { zTiming with vfpMax := 65536 }, { zTiming with vsync := 65536 },
      { zTiming with vbp := 65536 }, { zTiming with phaseLines := 65536 }].all (fun t => !t.wf) = true ∧
    zHeadSetTimingP.wf = true ∧ [
      { zHeadSetTimingP with head := 256 }].all (fun t => !t.wf) = true ∧
    zHeadTwinP.wf = true ∧ [
      { zHeadTwinP with pair := 16 }].all (fun t => !t.wf) = true ∧
    zHeadEnableP.wf = true ∧ [
      { zHeadEnableP with head := 256 }].all (fun t => !t.wf) = true ∧
    zWinGeom.wf = true ∧ [
      { zWinGeom with layer := 256 }, { zWinGeom with x := 65536 }, { zWinGeom with y := 65536 },
      { zWinGeom with w := 65536 }, { zWinGeom with h := 65536 }, { zWinGeom with context := some 65535 }].all (fun t => !t.wf) = true ∧
    zLayerSettings.wf = true ∧ [
      { zLayerSettings with srcX := 65536 }, { zLayerSettings with srcY := 65536 }, { zLayerSettings with srcW := 65536 },
      { zLayerSettings with srcH := 65536 }, { zLayerSettings with globalAlpha := 2048 },
      { zLayerSettings with filterH := 16 }, { zLayerSettings with filterV := 16 }, { zLayerSettings with matrix := 4 }].all (fun t => !t.wf) = true ∧
    zLayerAddressP.wf = true ∧ [
      { zLayerAddressP with context := 65536 }, { zLayerAddressP with buffer := 256 },
      { zLayerAddressP with capNs := 4294967296 }, { zLayerAddressP with capS := 281474976710656 }].all (fun t => !t.wf) = true ∧
    zZOrder.wf = true ∧ [
      { zZOrder with background := 1073741824 }, { zZOrder with level := List.replicate 12 256 },
      { zZOrder with level := [] }].all (fun t => !t.wf) = true ∧
    zZOrderSetP.wf = true ∧ [
      { zZOrderSetP with head := 256 }].all (fun t => !t.wf) = true ∧
    zPolicy.wf = true ∧ [
      { zPolicy with budgetUs := 4294967296 }, { zPolicy with frozenRepeat := 256 }, { zPolicy with recover := 256 },
      { zPolicy with colourSet := 256 }, { zPolicy with glyphCorner := 4 }].all (fun t => !t.wf) = true := by decide

theorem test_ill_formed_blocks_2 :
    zColourSet.wf = true ∧ [
      { zColourSet with a := List.replicate 5 4294967296 }, { zColourSet with b := List.replicate 5 4294967296 },
      { zColourSet with a := [] }, { zColourSet with b := [] }].all (fun t => !t.wf) = true ∧
    zCtxParams.wf = true ∧ [
      { zCtxParams with type := 16 }, { zCtxParams with method := 16 }, { zCtxParams with format := 256 },
      { zCtxParams with width := 65536 }, { zCtxParams with height := 65536 }, { zCtxParams with ring := 16 },
      { zCtxParams with extId := 256 }, { zCtxParams with extForm := 2 }, { zCtxParams with clockRate := 4294967296 },
      { zCtxParams with timeoutUs := 4294967296 }, { zCtxParams with stream := 65536 },
      { zCtxParams with returnPort := 65536 }, { zCtxParams with originDevice := 256 },
      { zCtxParams with originContext := 65536 }, { zCtxParams with base := 18446744073709551616 },
      { zCtxParams with pitch := 4294967296 }, { zCtxParams with plane1 := 4294967296 },
      { zCtxParams with stride0 := 4294967296 }, { zCtxParams with stride1 := 4294967296 }].all (fun t => !t.wf) = true ∧
    zContextOpenP.wf = true ∧ [
      { zContextOpenP with context := 65536 }].all (fun t => !t.wf) = true ∧
    zFlowRule.wf = true ∧ [
      { zFlowRule with path := 2 }, { zFlowRule with port := 16 }, { zFlowRule with context := 65536 },
      { zFlowRule with vlan := 4096 }, { zFlowRule with srcPort := 65536 }, { zFlowRule with dstPort := 65536 }].all (fun t => !t.wf) = true ∧
    zFlowBindP.wf = true ∧ [
      { zFlowBindP with rule := 65536 }].all (fun t => !t.wf) = true ∧
    zSourceIsolateP.wf = true ∧ [
      { zSourceIsolateP with context := 65536 }].all (fun t => !t.wf) = true ∧
    zSluiceSetP.wf = true ∧ [
      { zSluiceSetP with port := 16 }, { zSluiceSetP with udpPort := 65536 }, { zSluiceSetP with rateKbps := 4294967296 }].all (fun t => !t.wf) = true ∧
    zAttach.wf = true ∧ [
      { zAttach with codec := 4 }, { zAttach with cls := 4 }, { zAttach with pool := 256 },
      { zAttach with maxRate := 4294967296 }, { zAttach with maxAu := 4294967296 }, { zAttach with lagMs := 65536 },
      { zAttach with rtcpPort := 65536 }, { zAttach with poolBase := 18446744073709551616 },
      { zAttach with poolPitch := 4294967296 }, { zAttach with refBase := 18446744073709551616 },
      { zAttach with refPitch := 4294967296 }].all (fun t => !t.wf) = true ∧
    zDecodeAttachP.wf = true ∧ [
      { zDecodeAttachP with context := 65536 }].all (fun t => !t.wf) = true ∧
    zDecodePriorityP.wf = true ∧ [
      { zDecodePriorityP with context := 65536 }, { zDecodePriorityP with cls := 4 },
      { zDecodePriorityP with lagMs := 65536 }].all (fun t => !t.wf) = true ∧
    zEncParams.wf = true ∧ [
      { zEncParams with engine := 2 }, { zEncParams with rotate := 4 }, { zEncParams with matrix := 4 },
      { zEncParams with source := 65536 }, { zEncParams with filterH := 16 }, { zEncParams with filterV := 16 },
      { zEncParams with frameDiv := 16 }, { zEncParams with sliceRows := 256 }, { zEncParams with outKind := 4 },
      { zEncParams with srcX := 65536 }, { zEncParams with srcY := 65536 }, { zEncParams with srcW := 65536 },
      { zEncParams with srcH := 65536 }, { zEncParams with outW := 65536 }, { zEncParams with outH := 65536 },
      { zEncParams with idrFrames := 65536 }, { zEncParams with mtu := 65536 },
      { zEncParams with inputBase := 18446744073709551616 }, { zEncParams with reconBase := 18446744073709551616 },
      { zEncParams with ringBase := 18446744073709551616 }, { zEncParams with ringBytes := 4294967296 },
      { zEncParams with port := 16 }, { zEncParams with dscp := 64 }, { zEncParams with pt := 128 },
      { zEncParams with extId := 256 }, { zEncParams with srcPort := 65536 }, { zEncParams with dstPort := 65536 },
      { zEncParams with ssrc := 4294967296 }, { zEncParams with paceMbps := 65536 }].all (fun t => !t.wf) = true := by decide

theorem test_ill_formed_blocks_3 :
    zEncodeOpenP.wf = true ∧ [
      { zEncodeOpenP with enc := 256 }].all (fun t => !t.wf) = true ∧
    zEncRate.wf = true ∧ [
      { zEncRate with q := 256 }, { zEncRate with capFrame := 4294967296 }, { zEncRate with capSecond := 4294967296 }].all (fun t => !t.wf) = true ∧
    zEncodeRateP.wf = true ∧ [
      { zEncodeRateP with enc := 256 }].all (fun t => !t.wf) = true ∧
    zCrysParams.wf = true ∧ [
      { zCrysParams with blockKib := 65536 }, { zCrysParams with row := 65536 },
      { zCrysParams with inBase := 18446744073709551616 }, { zCrysParams with inBytes := 4294967296 },
      { zCrysParams with outBytes := 4294967296 }, { zCrysParams with outBase := 18446744073709551616 },
      { zCrysParams with stateBase := 18446744073709551616 }, { zCrysParams with indexBase := 18446744073709551616 },
      { zCrysParams with indexEntries := 4294967296 }].all (fun t => !t.wf) = true ∧
    zCrysJobP.wf = true ∧ [
      { zCrysJobP with job := 256 }].all (fun t => !t.wf) = true ∧
    zCrysResumeP.wf = true ∧ [
      { zCrysResumeP with job := 256 }, { zCrysResumeP with outBytes := 4294967296 },
      { zCrysResumeP with outBase := 18446744073709551616 }].all (fun t => !t.wf) = true ∧
    zCrysFlushP.wf = true ∧ [
      { zCrysFlushP with job := 256 }, { zCrysFlushP with at_ := 4294967296 }].all (fun t => !t.wf) = true ∧
    zCheckBindP.wf = true ∧ [
      { zCheckBindP with channel := 65536 }, { zCheckBindP with context := 65536 }].all (fun t => !t.wf) = true ∧
    zSealRegionP.wf = true ∧ [
      { zSealRegionP with head := 256 }, { zSealRegionP with region := 8 }, { zSealRegionP with op := 4 },
      { zSealRegionP with poly := 4 }, { zSealRegionP with x := 65536 }, { zSealRegionP with y := 65536 },
      { zSealRegionP with w := 65536 }, { zSealRegionP with h := 65536 }].all (fun t => !t.wf) = true ∧
    zProfile.wf = true ∧ [
      { zProfile with source := 8 }, { zProfile with transport := 4 }, { zProfile with domain := 256 },
      { zProfile with priority1 := 256 }, { zProfile with priority2 := 256 }, { zProfile with announceTimeout := 256 },
      { zProfile with ports := 65536 }, { zProfile with todS := 281474976710656 }, { zProfile with logSync := 128 },
      { zProfile with logSync := -129 }, { zProfile with logAnnounce := 128 }, { zProfile with logAnnounce := -129 },
      { zProfile with logDelayReq := 128 }, { zProfile with logDelayReq := -129 }].all (fun t => !t.wf) = true ∧
    zPulse.wf = true ∧ [
      { zPulse with mode := 4 }, { zPulse with fine := 4 }, { zPulse with startNs := 4294967296 },
      { zPulse with startS := 281474976710656 }, { zPulse with period := 4294967296 },
      { zPulse with width := 4294967296 }, { zPulse with div := 256 }, { zPulse with offset := 2147483648 },
      { zPulse with offset := -2147483649 }].all (fun t => !t.wf) = true ∧
    zPulseSetP.wf = true ∧ [
      { zPulseSetP with target := 16 }].all (fun t => !t.wf) = true ∧
    zTideSetP.wf = true ∧ [
      { zTideSetP with num := 4294967296 }, { zTideSetP with den := 4294967296 }].all (fun t => !t.wf) = true ∧
    zKindIndexP.wf = true ∧ [
      { zKindIndexP with kind := 256 }, { zKindIndexP with index := 256 }].all (fun t => !t.wf) = true ∧
    zEyeScanP.wf = true ∧ [
      { zEyeScanP with kind := 256 }, { zEyeScanP with lane := 256 }, { zEyeScanP with step := 16 },
      { zEyeScanP with dwell := 64 }, { zEyeScanP with resultBase := 18446744073709551616 },
      { zEyeScanP with phaseLo := 128 }, { zEyeScanP with phaseLo := -129 }, { zEyeScanP with phaseHi := 128 },
      { zEyeScanP with phaseHi := -129 }, { zEyeScanP with voltLo := 128 }, { zEyeScanP with voltLo := -129 },
      { zEyeScanP with voltHi := 128 }, { zEyeScanP with voltHi := -129 }].all (fun t => !t.wf) = true := by decide

theorem test_ill_formed_blocks_4 :
    zRegion.wf = true ∧ [
      { zRegion with base := 16777216 }, { zRegion with pages := 16777216 }, { zRegion with read := 1048576 },
      { zRegion with write := 1048576 }].all (fun t => !t.wf) = true ∧
    zDykeRuleP.wf = true ∧ [
      { zDykeRuleP with region := 65536 }].all (fun t => !t.wf) = true ∧
    zScrubSetP.wf = true ∧ [
      { zScrubSetP with periodH := 65536 }].all (fun t => !t.wf) = true ∧
    zDeskConfig.wf = true ∧ [
      { zDeskConfig with drive := 256 }, { zDeskConfig with sense := 256 }, { zDeskConfig with f0 := 65536 },
      { zDeskConfig with f1 := 65536 }, { zDeskConfig with f2 := 65536 }, { zDeskConfig with f3 := 65536 },
      { zDeskConfig with thMin := 65536 }, { zDeskConfig with thMax := 65536 }, { zDeskConfig with noiseLimit := 65536 },
      { zDeskConfig with noiseMult := 256 }, { zDeskConfig with slowAfterS := 65536 },
      { zDeskConfig with approachTh := 65536 }, { zDeskConfig with stuckS := 4294967296 }].all (fun t => !t.wf) = true ∧
    zTouchConfigP.wf = true ∧ [
      { zTouchConfigP with desk := 4 }].all (fun t => !t.wf) = true ∧
    zTouchRebaseP.wf = true ∧ [
      { zTouchRebaseP with desk := 4 }, { zTouchRebaseP with op := 4 }].all (fun t => !t.wf) = true ∧
    zRoute.wf = true ∧ [
      { zRoute with head := 256 }, { zRoute with gx := 65536 }, { zRoute with gy := 65536 }, { zRoute with gw := 65536 },
      { zRoute with gh := 65536 }, { zRoute with hx := 65536 }, { zRoute with hy := 65536 }, { zRoute with hw := 65536 },
      { zRoute with hh := 65536 }].all (fun t => !t.wf) = true ∧
    zTouchRouteP.wf = true ∧ [
      { zTouchRouteP with desk := 4 }, { zTouchRouteP with entry := 8 }].all (fun t => !t.wf) = true ∧
    zTrimRunP.wf = true ∧ [
      { zTrimRunP with deltaC := 256 }].all (fun t => !t.wf) = true ∧
    zTrimQueryP.wf = true ∧ [
      { zTrimQueryP with kind := 256 }, { zTrimQueryP with item := 256 }, { zTrimQueryP with index := 65536 }].all (fun t => !t.wf) = true ∧
    zBudgets.wf = true ∧ [
      { zBudgets with displayMs := 65536 }, { zBudgets with ingestMs := 65536 }, { zBudgets with touchMs := 65536 },
      { zBudgets with hostMs := 65536 }, { zBudgets with restS := 65536 }].all (fun t => !t.wf) = true ∧
    zErrReadP.wf = true ∧ [
      { zErrReadP with first := 256 }, { zErrReadP with count := 256 }].all (fun t => !t.wf) = true ∧
    zErrAckP.wf = true ∧ [
      { zErrAckP with id := 65536 }].all (fun t => !t.wf) = true ∧
    zFenceP.wf = true ∧ [
      { zFenceP with set := 256 }, { zFenceP with release := 256 }, { zFenceP with ballMap := 256 }].all (fun t => !t.wf) = true ∧
    zDebugUnlockP.wf = true ∧ [
      { zDebugUnlockP with durationS := 4294967296 }].all (fun t => !t.wf) = true ∧
    zEthFrame.wf = true ∧ [
      { zEthFrame with vlan := 4096 }].all (fun t => !t.wf) = true ∧
    zClockData.wf = true ∧ [
      { zClockData with priority1 := 256 }, { zClockData with cls := 256 }, { zClockData with accuracy := 256 },
      { zClockData with variance := 65536 }, { zClockData with priority2 := 256 },
      { zClockData with gm := 18446744073709551616 }, { zClockData with steps := 65536 }].all (fun t => !t.wf) = true ∧
    zPtpMsg.wf = true ∧ [
      { zPtpMsg with transport := 4 }, { zPtpMsg with domain := 256 }, { zPtpMsg with srcClock := 18446744073709551616 },
      { zPtpMsg with srcPort := 65536 }, { zPtpMsg with seq := 65536 },
      { zPtpMsg with correction := 9223372036854775808 }, { zPtpMsg with correction := -9223372036854775809 }].all (fun t => !t.wf) = true := by decide

theorem test_ill_formed_blocks_5 :
    zSink.wf = true ∧ [
      { zSink with maxRate := 8 }, { zSink with maxLanes := 8 }, { zSink with fmin := 65536 },
      { zSink with fmax := 65536 }].all (fun t => !t.wf) = true ∧
    zEqRequest.wf = true ∧ [
      { zEqRequest with swing := 4 }, { zEqRequest with pre := 4 }, { zEqRequest with preset := 16 }].all (fun t => !t.wf) = true ∧
    zFreshRecord.wf = true ∧ [
      { zFreshRecord with capNs := 4294967296 }, { zFreshRecord with capS := 281474976710656 },
      { zFreshRecord with alive := 4294967296 }, { zFreshRecord with aliveRun := 256 },
      { zFreshRecord with contentRun := 256 }, { zFreshRecord with goodRun := 256 },
      { zFreshRecord with causes := 65536 }, { zFreshRecord with seq := 4294967296 }].all (fun t => !t.wf) = true ∧
    zMirrorPacket.wf = true ∧ [
      { zMirrorPacket with originContext := 65536 }].all (fun t => !t.wf) = true ∧
    zMirrorAsk.wf = true ∧ [
      { zMirrorAsk with origin := 256 }, { zMirrorAsk with device := 256 }, { zMirrorAsk with context := 65536 },
      { zMirrorAsk with priority := 256 }, { zMirrorAsk with rateKbs := 4294967296 },
      { zMirrorAsk with compKbs := 4294967296 }].all (fun t => !t.wf) = true ∧
    zStreamSet.wf = true ∧ [
      { zStreamSet with profile := 256 }, { zStreamSet with level := 256 }, { zStreamSet with depth := 256 },
      { zStreamSet with chromaDepth := 256 }, { zStreamSet with chroma := 4 }, { zStreamSet with codedW := 65536 },
      { zStreamSet with codedH := 65536 }, { zStreamSet with maxRefs := 32 }].all (fun t => !t.wf) = true ∧
    zPictureHead.wf = true ∧ [
      { zPictureHead with poc := 2147483648 }, { zPictureHead with poc := -2147483649 }].all (fun t => !t.wf) = true ∧
    zNodeReading.wf = true ∧ [
      { zNodeReading with bursts := 256 }, { zNodeReading with fraction := 16 }].all (fun t => !t.wf) = true ∧
    zGaugeEntry.wf = true ∧ [
      { zGaugeEntry with win := 65536 }, { zGaugeEntry with groups := 256 }].all (fun t => !t.wf) = true ∧
    zMemRequest.wf = true ∧ [
      { zMemRequest with cls := 64 }, { zMemRequest with identity := 32 }].all (fun t => !t.wf) = true ∧
    zRecordRead.wf = true ∧ [
      { zRecordRead with win := 65536 }].all (fun t => !t.wf) = true ∧
    zFlashSlot.wf = true ∧ [
      { zFlashSlot with version := 4294967296 }].all (fun t => !t.wf) = true := by decide

theorem test_ill_formed_commands_1 : ([
    .close { zCaller with slot := 256 }, .close ⟨.image 4, 0, 0⟩, .close ⟨.sluice 0 ⟨false, 4294967296⟩ 0, 0, 0⟩,
    .close ⟨.sluice 0 zIpAddr 65536, 0, 0⟩, .hello zCaller { zHelloP with keySlot := 8 },
    .skimApply zCaller { zSkimApplyP with peers := [.refused 256 0 0] }, .windowDefine zCaller (.define 65536 zWinGeom),
    .windowDefine zCaller (.delete 65536), .windowDefine zCaller (.place 256 0 0),
    .layerSet zCaller (.settings 65536 zLayerSettings), .layerSet zCaller (.palette 0 0 [4294967296]),
    .layerSet zCaller (.palette 0 256 []), .freshnessSet zCaller (.policy 65536 zPolicy),
    .freshnessSet zCaller (.colours 256 zColourSet), .freshnessSet zCaller (.membership 0 256),
    .flowBind zCaller { zFlowBindP with r := { zFlowRule with src := ⟨true, 0⟩ } }, .headCommit zCaller 4294967296,
    .headStateQuery zCaller 256, .verdictQuery zCaller 65536, .contextClose zCaller 65536, .encodeClose zCaller 256,
    .dykeLock zCaller 65536, .hwbAccess 1073741824 (.read 1), .hwbAccess 0 (.read 0), .hwbAccess 0 (.write []),
    .registerWrite .hwa 2 0, .registerWrite .msix 65536 0, .debugAccess 68719476736 (.read 1), .keyProgram 0 [],
    .sluiceDatagram 0 zIpAddr 0 3 [1, 2, 3]] : List Instr).all (fun i => !i.wf) = true := by decide +kernel

theorem test_ill_formed_commands_2 : ([
    .takePoint 0 [⟨65536, 0, none⟩], .takePoint 0 [⟨0, 1073741824, none⟩], .takePoint 0 [⟨0, 0, some [0]⟩],
    .takePoint 0 [⟨0, 0, some [0, 0, 0, 256]⟩], .memoryAccessComplete [(68, 1)] false, .scrubPacingRead [(32, 0, 1)],
    .dgsTileDecode 0 65536, .eyeDone 3 0 [], .ppsEdge true 2147483648, .welondDetect 0 256, .welondRetry 0 256,
    .skimMessageReceive 0 [] (.cancel 32 0), .skimMessageReceive 0 [(true, [])] (.cancel 0 0),
    .skimMessageReceive 0 [] (.ack 4 0 []), .negRebase 0 1536, .touchSaturated 0 1536,
    .trimElementStep 0 0 (.move none none), .trimElementStep 6 0 (.move none none),
    .trimElementStep 1 256 (.move none none), .trimElementStep 3 0 (.move (some 64) none),
    .trimElementStep 3 0 (.measure 64 (0, 0) 0 0), .trimElementStep 3 0 (.measure 0 (4294967296, 0) 0 0),
    .trimElementStep 3 0 (.measure 0 (0, 0) 32768 0), .trimElementStep 3 0 (.measure 0 (0, 0) 0 32768),
    .voutReadback true 4294967296, .pwrGood 4294967296,
    .firmwareBoot { zFlashSlot with version := 4294967296 } zFlashSlot,
    .firmwareBoot zFlashSlot { zFlashSlot with key := (0, 0x1000000000000000000000000000000000000000000000000000000000000000000000000000000000000000000000000) },
    .firmwareBoot { zFlashSlot with sig := (0x1000000000000000000000000000000000000000000000000000000000000000000000000000000000000000000000000, 0) } zFlashSlot,
    .memoryTrainingDone [32]] : List Instr).all (fun i => !i.wf) = true := by decide +kernel

theorem test_ill_formed_commands_3 : ([
    .warmReset 0, .warmReset 4, .fabricParity 32 0, .approvalExpiry 32, .receiverAdapted 0 256,
    .memoryRequest { zMemRequest with cls := 64 }, .spanEvaluate 0 0 65536 zUpset zUpset zUpset,
    .spanEvaluate 0 0 0 ⟨0, 0, some { zGaugeEntry with groups := 256 }⟩ zUpset zUpset, .salinityPass 0 [⟨4, 0, 0⟩],
    .salinityPass 0 [⟨0, 64, 0⟩], .hpdPresent 0 0 { zSink with maxRate := 8 }, .linkTrainingDone 0 false [[⟨4, 0, 0⟩]],
    .mgmtFrame 0 { zEthFrame with vlan := 4096 }, .ethFrameReceive 0 { zEthFrame with vlan := 4096 },
    .ethFrameReceive 0 { zEthFrame with kind := .nd zIpAddr },
    .ethFrameReceive 0 { zEthFrame with kind := .groupQuery true (some zIpAddr) },
    .decodePictureStart 0 { zPictureHead with poc := 2147483648 },
    .decodePictureStart 0 { zPictureHead with set := { zStreamSet with profile := 256 } }, .slicePublish 0 ⟨[], []⟩,
    .ptpReceive 0 { zPtpMsg with domain := 256 } 0, .ptpReceive 0 { zPtpMsg with body := .delayResp 0 0 65536 } 0,
    .ptpReceive 0 { zPtpMsg with body := .announce { zClockData with cls := 256 } } 0, .ptpReceive 0 zPtpMsg 2147483648,
    .tenMhzGate 2147483648 0, .tenMhzGate 0 2147483648, .capabilityReceive 0 [(true, [])],
    .touchPacketReceive 0 [(false, zeros 7)], .mirrorPacketReceive 0 { zMirrorPacket with originContext := 65536 },
    .mirrorPacketReceive 0 { zMirrorPacket with blocks := [(true, [])] },
    .mirrorRequest 0 [] { zMirrorAsk with origin := 256 }] : List Instr).all (fun i => !i.wf) = true := by decide +kernel

theorem test_ill_formed_commands_4 : ([
    .mirrorRequest 0 [(true, [])] zMirrorAsk, .mirrorSetReceive 0 [] [(256, 0)], .mirrorSetReceive 0 [(true, [])] [],
    .tideMessageReceive 0 [] 18446744073709551616 0 none, .tideMessageReceive 0 [(true, [])] 0 0 none,
    .touchFrame 0 [⟨0, 16⟩] [[], [], [], []], .touchFrame 0 [] [], .slowScanFrame 0 [⟨256, 0⟩], .temperatureSample [],
    .temperatureSample (List.replicate 16 32768), .avsSample [], .avsSample (List.replicate 32 64), .thermalCheck [],
    .thermalCheck (List.replicate 20 32768), .decodePictureStart 0 { zPictureHead with frameNum := 1 }] : List Instr).all (fun i => !i.wf) = true := by decide +kernel

/-! ### Values that the spec works out -/

/-- R304: the check column, over the ASCII bytes "123456789". -/
theorem test_crc_checks :
    let l := (List.range 9).map (fun i => byte (0x31 + i))
    crc 0 l = 0xCBF43926 ∧ crc 1 l = 0xE3069283 ∧ crc 2 l = 0x29B1 ∧ crc 3 l = 0xDF := by decide +kernel

/-- Example of ch. 10: "ABABABA" as one block. -/
def ababaA : CrysParams := ⟨false, false, false, 4, 0, 0, 7, 64, 0, 0, 0, 0⟩
def ababa : List Byte := [0x41, 0x42, 0x41, 0x42, 0x41, 0x42, 0x41]

theorem test_compress : (compress ababaA [] ababa {} 64).out.reverse = [0x00, 0x83, 0x08, 0x11, 0x48, 0x30, 0x20] := by decide +kernel

theorem test_compress_stops :
    let r := compress ababaA [] ababa {} 4
    r.out.reverse = [0x00, 0x83, 0x08] ∧ r.c.bits.reverse = [false, false, true] ∧ r.c.inPos = 4 ∧ r.ended = 2 := by decide +kernel

theorem test_compress_resumes :
    let r := compress ababaA [] ababa (compress ababaA [] ababa {} 4).c 4
    r.out.reverse = [0x11, 0x48, 0x30, 0x20] := by decide +kernel

theorem test_decompress : (decodeBlock false 0 7 [0x00, 0x83, 0x08, 0x11, 0x48, 0x30, 0x20]).1 = some ababa := by decide +kernel

/-- R547, example of ch. 1: the re-base after tide 5,213. -/
def rebaseState : State :=
  let t := 1775200000 * secT + 4100 * usT
  { readyState with
    clk := { readyState.clk with now := 90 * secT, panTime := t, base := t * one40 / nsT },
    tide := { readyState.tide with count := 5213, index := 5213, lastAt := t, lastNow := 90 * secT, rebaseArmed := true } }

theorem test_rebase_index : rebaseIndex rebaseState = 106512000001 := by decide +kernel

theorem test_rebase_tide :
    let s := advanceTide (later rebaseState (15080000 * panT))
    tideDue (later rebaseState (15080000 * panT)) = true ∧ tideDue (later rebaseState (15079999 * panT)) = false ∧
      s.tide.count = 106512000001 ∧ s.tide.lastNow - rebaseState.tide.lastNow = 15080000 * panT := by decide +kernel

/-- R18: 60000/1001 Hz puts tides 20,020,000 PAN cycles apart; R20 at 60 Hz. -/
theorem test_tide_spacing :
    (cmdTideSet ⟨60000, 1001⟩ readyState).resp = leBytes 4 20020000 ∧
      tideNow rebaseState 106512000002 - tideNow rebaseState 106512000001 = 20000000 * panT := by decide +kernel

/-- Example of ch. 5 and ch. 6: HEAD_07 at 10 and 8 bits. -/
def timing07 (depth : Bool) : Timing :=
  ⟨false, false, false, depth, 0, false, false, 1, 3840, 48, 32, 80, 2160, 8, 48, 600, 8, 6, 0, 0⟩

theorem test_rate_carries :
    carries (timing07 true) 60 1 2 6 = true ∧ carries (timing07 true) 60 1 2 3 = false ∧ carries (timing07 false) 60 1 2 3 = true ∧
      carries (timing07 true) 60 1 2 4 = true := by decide +kernel

/-- Example of ch. 8: the check of R243 with 24 CRITICAL and 56 LIVE contexts, and with 80 CRITICAL ones. -/
def cctv (cls : Nat) : CtxParams × Attach :=
  ({ zCtxParams with type := 1, width := 1920, height := 1080 }, { zAttach with cls := cls, maxRate := 25000, maxAu := 262144 })

theorem test_decode_check :
    pictureCost (cctv 2).1 262144 = 1647616 ∧ decodeFits readyState (List.replicate 24 (cctv 2) ++ List.replicate 56 (cctv 1)) = true ∧
      decodeFits readyState (List.replicate 80 (cctv 2)) = false := by decide +kernel

/-- Example of ch. 9: the charge of the supervisor's desk monitor, whose line time the example rounds to 7,500.750 ns; the
exact one gives a cycle more (notes/assumptions/70.md). -/
theorem test_encode_charge :
    encCharge readyState { zEncParams with outW := 1920, outH := 1080, frameDiv := 2, sliceRows := 2 } (some (timing07 true)) =
      16327573 := by decide +kernel

/-- Example of ch. 12: PULSE_0 from the tide, in units of 0.5 ns. -/
theorem test_pulse_edges :
    let c : Pulse := ⟨3, false, 1, 0, 0, 0, 10000, -1000, 1⟩
    pulseInst 60 1 c 106512000001 = some (1775200000 * 2000000000 + 33329334) ∧
      pulseInst 60 1 c 106512000002 = some (1775200000 * 2000000000 + 66662667) ∧
      pulseInst 60 1 c 106512000003 = some (1775200000 * 2000000000 + 99996001) := by decide +kernel

/-- Example of ch. 13: capacities in kB/s, and what is admitted at width 2. -/
def mirrorsOf (n first kbs prio : Nat) : List Mirror :=
  (List.range n).map (fun i => ⟨1, first + i, 0, false, prio, kbs, true, none, false⟩)

theorem test_mirror_capacity :
    (capacity 8 2).1 / (1000 * (capacity 8 2).2) = 25980571 ∧ (capacity 2 2).1 / (1000 * (capacity 2 2).2) = 6495142 := by
  decide +kernel

theorem test_mirror_admission :
    ((admitList (capacity 2 2) 0 (mirrorsOf 12 0 40000 250 ++ mirrorsOf 24 12 77760 200 ++ mirrorsOf 16 36 77760 150 ++
      mirrorsOf 20 80 414720 100)).filter (·.admitted)).map (·.context) = List.range 52 ++ (List.range 7).map (80 + ·) := by
  decide +kernel

/-- Example of ch. 14: session slot 2 writes across the end of region 40. -/
def saltState : State :=
  let t : Tab Region := [(40, ⟨false, 0x240000, 0x1000, 0x3004, 4⟩), (41, ⟨false, 0x241000, 0x1000, 0x1400, 0x400⟩)]
  { readyState with mem := { readyState.mem with dyke := { readyState.mem.dyke with force := t, staged := t } } }

theorem test_dyke_write :
    let s := (devWrite saltState 2 0x240FFFF00 (List.replicate 512 0xAB#8)).2
    s.mem.cells.length = 256 ∧ readCell s.mem.cells 0x240FFFFFF = 0xAB#8 ∧ readCell s.mem.cells 0x241000000 = 0#8 ∧
      s.mem.dyke.log.map (fun r => (r.master, r.write, r.region, r.firstAddr, r.deniedBytes)) =
        [(2, true, 41, 0x241000000, 256)] := by decide +kernel

theorem test_dyke_masks :
    dykePermits saltState idPan 0x240000000 64 false = true ∧ dykePermits saltState idPan 0x240000000 64 true = false ∧
      dykePermits saltState idDecoder 0x241000000 64 true = true ∧ dykePermits saltState idCrys 0x240FFFFC0 128 false = false := by
  decide

/-- Example of ch. 15 and ch. 16: a command repeats the last sequence number and is refused with REPLAY. -/
theorem test_replay :
    (match exec (.errRead sessionCaller ⟨0, 1⟩) (openedState.setSession 0 { openedSession with lastSeq := 1 }) with
      | .next t => decide ((t.mailbox 3).status = 0x0023)
      | _ => false) = true := by decide +kernel

/-- Example of ch. 18: from the glass to the source. -/
theorem test_touch_mapping :
    headAt ⟨false, false, 24, 0, 0, 6144, 4096, 0, 0, 3840, 2160⟩ 2739 1440 = (438240, 194400) ∧
      sourcePos 438240 2560 3840 2 5120 0 = 584311 ∧ sourcePos 194400 1440 1080 1 1440 0 = 259199 := by decide +kernel

/-! ### What each part does at its edges -/

theorem test_ill_formed_flash (l : List Byte) (h : 2 ^ 20 < l.length) : (Instr.wardenReady (some l)).wf = false :=
  decide_eq_false (by omega)

theorem test_ill_formed_image (f : FlashSlot) (h : 2 ^ 22 < f.image.length) : f.wf = false := by
  simp only [FlashSlot.wf, decide_eq_false (Nat.not_le.mpr h), Bool.and_false]

theorem test_step_takes_the_front :
    step { readyState with pending := [.irqMaskWrite 5#32, .tideCountLowRead false] } =
      exec (.irqMaskWrite 5#32) { readyState with pending := [.tideCountLowRead false] } := rfl

theorem test_table_spells_no_command : decodeTableWord 0 0 = none ∧ readyState.withFetchWord 32 7 = readyState := ⟨rfl, rfl⟩

theorem test_reset_is_dark : hostUp State.reset = false ∧ safeNLow State.reset = true ∧ State.reset.pending = [] := by decide

/-- The balls that the examples of ch. 21 name. -/
theorem test_ball_map :
    ballAt 7 20 = .hpd 7 ∧ ballAt 3 16 = .lane (.dpl 14) false ∧ ballAt 56 57 = .lane (.pcie 5 true) true ∧
      ballAt 29 7 = .sns 1 26 ∧ ballAt 31 36 = .supply .vddSram ∧ ballAt 10 13 = .supply .vddHbm := by decide +kernel

/-! ### Witnesses of the statements -/

theorem wit_idle : State.reset.pending = [] := rfl

theorem wit_memory_canonical : ∃ s : State, s.mem.cells ≠ [] ∧ Memory.wf s.mem.cells = true :=
  ⟨{ ({} : State) with mem := { ({} : Mem) with cells := [(3, 1#8)] } }, by decide, by decide⟩

theorem wit_keeps_queue : Memory.wf State.reset.mem.cells = true ∧ ∃ t, exec .porstNAssert State.reset = .next t :=
  ⟨by decide, _, rfl⟩

theorem wit_key_kept : ∃ s : State, Memory.wf s.mem.cells = true ∧ (s.keySlot 2).key = some [7#8] :=
  ⟨State.reset.setKeySlot 2 { ({} : KeySlot) with key := some [7#8] }, by decide, by decide⟩

theorem wit_locked : ∃ s : State, Memory.wf s.mem.cells = true ∧ 255 ∈ s.mem.dyke.locked ∧
    tfind s.mem.dyke.force 255 = some (wardenRegion 0xB3FE00 0x200) :=
  ⟨runImage State.reset 0 [], by decide, by decide, by decide⟩

theorem wit_byte_write : Memory.wf [(3, 1#8), (9, 2#8)] = true ∧ (3 : Nat) ≠ 9 := by decide

theorem wit_hello : ∃ (c : Caller) (p : HelloP) (s : State), Received c s ∧ bindingOf c.via = some (.mailbox 3) ∧
    boundTo (arrived c s) (.mailbox 3) = false ∧ tfree (arrived c s).sessions (slotLimit (arrived c s) c.via) = some 0 ∧
    p.keySlot ≤ 7 ∧ ((arrived c s).keySlot p.keySlot).until_ ≤ (arrived c s).ref ∧
    ((arrived c s).keySlot p.keySlot).key ≠ none :=
  ⟨⟨.mailbox 3, 0xFF, 0⟩, ⟨7, zeros 16⟩, readyState.setKeySlot 7 { ({} : KeySlot) with key := some [1#8] },
    ⟨by decide, by decide, by decide⟩, by decide, by decide, by decide, by decide, by decide, by decide⟩
theorem wit_prove : ∃ (c : Caller) (x : Session) (s : State), Received c s ∧ tfind (arrived c s).sessions c.slot = some x ∧
    x.isOpen = false ∧ some x.binding = bindingOf c.via ∧ (arrived c s).ref < x.at_ + secT ∧
    ((arrived c s).keySlot x.keySlot).key = some [1#8] ∧ isMailbox c.via = true ∧ (arrived c s).hwbIdent = 0 :=
  ⟨⟨.mailbox 3, 0, 0⟩, { isOpen := false, keySlot := 0, binding := .mailbox 3, nc := zeros 16, nd := zeros 16, at_ := 0 },
    (readyState.setKeySlot 0 { ({} : KeySlot) with key := some [1#8] }).setSession 0
      { isOpen := false, keySlot := 0, binding := .mailbox 3, nc := zeros 16, nd := zeros 16, at_ := 0 },
    ⟨by decide, by decide, by decide⟩, by decide, by decide, by decide, by decide, by decide, by decide, by decide⟩

theorem wit_runs_mailbox : ∃ (c : Caller) (s a : State), Runs c 0x0103 s [1#8] a :=
  ⟨sessionCaller, openedState, _, openedSession, ⟨⟨by decide, by decide, by decide⟩, by decide, by decide, by decide, by decide⟩,
    rfl, rfl⟩
theorem wit_runs_image : ∃ (c : Caller) (s a : State), Runs c 0x0104 s [] a ∧ tfind a.sessions c.slot = some openedSession :=
  ⟨⟨.image 3, 0, 1⟩, openedState, openedState, ⟨by decide, rfl⟩, by decide⟩
theorem wit_half_open : ∃ (s : State) (x : Session), tfind s.sessions 2 = some x ∧ x.isOpen = false ∧ x.at_ + secT ≤ s.ref :=
  ⟨(later readyState secT).setSession 2 { openedSession with isOpen := false, at_ := 0 }, _, rfl, by decide, by decide⟩
theorem wit_idle_session : ∃ (s : State) (x : Session), tfind s.sessions 2 = some x ∧ x.isOpen = true ∧
    x.at_ + s.cfg.idleS * secT ≤ s.ref :=
  ⟨(later readyState (60 * secT)).setSession 2 { openedSession with at_ := 0 }, _, rfl, by decide, by decide⟩

theorem wit_debug_unlock : ∃ (s a : State), Runs sessionCaller 0x0F04 s [1#8] a ∧ isMailbox sessionCaller.via = true ∧
    (a.keySlot 0).key = some [1#8] ∧ a.debug = .closed :=
  ⟨openedState, _, ⟨openedSession, ⟨⟨by decide, by decide, by decide⟩, by decide, by decide, by decide, by decide⟩, rfl, rfl⟩,
    by decide, by decide, by decide⟩
theorem wit_debug_close : ∃ (s a : State), Runs sessionCaller 0x0F04 s [1#8] a ∧ isMailbox sessionCaller.via = true ∧
    (a.keySlot 0).key = some [1#8] ∧ a.debug = .opened 1 60 0 :=
  ⟨{ openedState with debug := .opened 1 60 0 }, _, ⟨openedSession, ⟨⟨by decide, by decide, by decide⟩, by decide, by decide,
    by decide, by decide⟩, rfl, rfl⟩, by decide, by decide, by decide⟩
theorem wit_debug_token : ∃ s : State, s.debug = .awaiting (5#128).toNat 1 60 0 ∧ s.ref < 0 + 60 * secT :=
  ⟨{ readyState with debug := .awaiting 5 1 60 0 }, rfl, by decide⟩
theorem wit_debug_lapse : ∃ s : State, s.debug = .awaiting 5 1 60 0 ∧ 0 + 60 * secT ≤ s.ref :=
  ⟨{ later readyState (60 * secT) with debug := .awaiting 5 1 60 0 }, rfl, by decide⟩
theorem wit_debug_expiry : ∃ s : State, s.debug = .opened 1 60 0 ∧ 0 + 60 * secT ≤ s.ref :=
  ⟨{ later readyState (60 * secT) with debug := .opened 1 60 0 }, rfl, by decide⟩
theorem wit_key_program : released readyState = true ∧ debugOpen readyState = true ∧ (readyState.keySlot 5).key = none := by
  decide

def ruleA : Region := ⟨false, 0x240000, 0x1000, 3, 2⟩
def dykeState : State := stageRules readyState [(40, ruleA)]
theorem wit_dyke_define : ∃ s, Runs img 0x0C01 s [] s ∧ dykeTarget s 0xFFFF = some 0 ∧ holdsRule s 0 = false ∧
    regionFields ⟨true, 0x241000, 1, 1, 0⟩ = true ∧
    (∀ e ∈ s.mem.dyke.staged, e.1 ≠ 0 → pagesMeet e.2 ⟨true, 0x241000, 1, 1, 0⟩ = false) :=
  ⟨dykeState, runs_img _, by decide, by decide, by decide, by decide⟩
theorem wit_dyke_delete : ∃ s, Runs img 0x0C01 s [] s ∧ dykeTarget s 40 = some 40 ∧ holdsRule s 40 = false ∧
    thas s.mem.dyke.staged 40 = true := ⟨dykeState, runs_img _, by decide, by decide, by decide⟩
theorem wit_dyke_sync : ∃ s, Runs img 0x0C02 s [] s := ⟨dykeState, runs_img _⟩
theorem wit_dyke_lock : ∃ s, Runs img 0x0C03 s [] s ∧ 40 ∉ s.mem.dyke.locked ∧ thas s.mem.dyke.staged 40 = true :=
  ⟨dykeState, runs_img _, by decide, by decide⟩
theorem wit_sync_overdue : ∃ (s : State) (j : SyncJob), s.mem.dyke.syncs = [j] ∧ j.caller = some sessionCaller ∧
    syncCode j = 0x0C02 := ⟨startSync dykeState (some sessionCaller) none, _, rfl, rfl, rfl⟩
theorem wit_sync_done : ∃ (s : State) (j : SyncJob), s.mem.dyke.syncs = [j] ∧ j.caller = none ∧ j.lock = some 40 ∧
    40 ∉ s.mem.dyke.locked ∧ tfind j.rules 40 = some ruleA := ⟨startSync dykeState none (some 40), _, rfl, rfl, rfl, by decide, rfl⟩
theorem wit_sync_command : ∃ (s : State) (j : SyncJob), s.mem.dyke.syncs = [j] ∧ j.caller = some sessionCaller ∧ j.lock = none :=
  ⟨startSync dykeState (some sessionCaller) none, _, rfl, rfl, rfl⟩

theorem wit_lock_undefined : ∃ s, Runs img 0x0C03 s [] s ∧ 41 ∉ s.mem.dyke.locked ∧ thas s.mem.dyke.staged 41 = false :=
  ⟨dykeState, runs_img _, by decide, by decide⟩
def lockedState : State := { dykeState with mem := { dykeState.mem with dyke := { dykeState.mem.dyke with
  locked := [40], force := [(40, ruleA)] } } }
theorem wit_lock_again : ∃ s, Runs img 0x0C03 s [] s ∧ 40 ∈ s.mem.dyke.locked := ⟨lockedState, runs_img _, by decide⟩
theorem wit_rule_locked : ∃ s, Runs img 0x0C01 s [] s ∧ (40 : Nat) ≠ 0xFFFF ∧ 40 ∈ s.mem.dyke.locked :=
  ⟨lockedState, runs_img _, by decide, by decide⟩

theorem wit_scrub_set : ∃ s, Runs img 0x0C05 s [] s ∧ ownedPositions (scheduleNow s) 0x32 ≠ 0 :=
  ⟨{ readyState with slots := { readyState.slots with sched := [(0, 0x32)] } }, runs_img _,
    Nat.pos_iff_ne_zero.mp (List.length_pos_of_mem (List.mem_filter.mpr ⟨List.mem_range.mpr (by decide : 0 < 2048), by decide⟩))⟩
theorem wit_mem_query : ∃ s, Runs img 0x0C04 s [] s := ⟨readyState, runs_img _⟩

theorem wit_memory_request : ∃ (s : State) (r : MemRequest), memoryUp s = true ∧ classDefined r.cls = true ∧ r.cls ≠ 0x3E ∧
    r.identity < 20 := ⟨readyState, ⟨0x10, 3, 0x1000, false, .read 64⟩, by decide, by decide, by decide, by decide⟩
theorem wit_slot_position : ∃ s : State, memoryUp s = true ∧ s.slots.started ≤ posNow s ∧
    ¬(classAt (scheduleNow s) (posNow s % 2048) = 0x32 ∧ scrubDue s = true) ∧ classAt (scheduleNow s) (posNow s % 2048) = 0x3F :=
  ⟨readyState, by decide, by decide, by decide, by decide⟩
theorem wit_refresh_position : ∃ s : State, memoryUp s = true ∧ s.slots.started ≤ posNow s ∧
    ¬(classAt (scheduleNow s) (posNow s % 2048) = 0x32 ∧ scrubDue s = true) ∧ classAt (scheduleNow s) (posNow s % 2048) = 0x3E :=
  ⟨later readyState (31 * 30), by decide, by decide, by decide, by decide⟩
theorem wit_access_complete : ∃ (s : State) (f : InFlight), s.slots.flight = [f] ∧ f.doneAt ≤ s.memCycle :=
  ⟨{ later readyState (15 * 94) with slots := { readyState.slots with
      flight := [⟨⟨0, 0x3F, 3, 64, false, .read false⟩, 94⟩] } }, _, rfl, by decide⟩
theorem wit_scrub_read : ∃ s : State, memoryUp s = true ∧ scrubDue s = true ∧
    classAt (scheduleNow s) (posNow s % 2048) = 0x32 ∧ s.slots.started ≤ posNow s :=
  ⟨{ later readyState (15 * 4096 * 1430) with slots := { readyState.slots with sched := [(0, 0x32)] } }, by decide, by decide,
    by decide, by decide⟩

theorem wit_hwb_base : hostUp readyState = true ∧ (0x240000000#64).toNat / 2 ^ 21 * 2 ^ 21 + 2 ^ 30 ≤ memTop ∧
    memTop < (0xFFFFFFFFFF#64).toNat / 2 ^ 21 * 2 ^ 21 + 2 ^ 30 ∧ 0x3FFFFFC0 + 64 ≤ 2 ^ 30 := by decide

def openDyke : State := { readyState with mem := { readyState.mem with dyke := { readyState.mem.dyke with
  force := [(40, ⟨false, 0, 1, 2, 2⟩)], staged := [(40, ⟨false, 0, 1, 2, 2⟩)] } } }
theorem wit_devwrite : ∃ s : State, Memory.wf s.mem.cells = true ∧ s.mem.upset = [] ∧ s.mem.dyke.staged = s.mem.dyke.force ∧
    judgePage s s.mem.dyke.force 1 true (4095 / 4096) = true ∧ judgePage s s.mem.dyke.force 1 true (4096 / 4096) = false :=
  ⟨openDyke, by decide, rfl, rfl, by decide, by decide⟩

theorem wit_one_symbol : Memory.wf readyState.mem.cells = true ∧ lineUpset readyState 5 = [0, 0, 0, 0] ∧ (67 : Nat) < 68 ∧
    (255#8 : Byte) ≠ 0#8 := by decide

theorem wit_poison : Memory.wf readyState.mem.cells = true ∧ (zeros 64).length = 64 ∧ (3 : Nat) < 4 := by decide

theorem wit_line_write : Memory.wf readyState.mem.cells = true ∧ (zeros 64).length = 64 ∧ 64 * 3 + 64 ≤ 256 := by decide

def tm60 : Timing := ⟨true, true, false, false, 0, false, false, 1, 1920, 88, 44, 148, 1080, 4, 4, 4, 5, 36, 0, 0⟩
def hd0 : Head :=
  { ({} : Head) with pan := some 0, shadow := { ({} : Bank) with timing := some tm60, place := some (0, 0) },
                     force := { ({} : Bank) with timing := some tm60 },
                     link := { ({} : Link) with mapped := true, width := 4, maxRate := 3 } }
def headState : State := readyState.setHead 0 hd0
def geomA : WinGeom := ⟨2, none, 100, 100, 640, 360⟩
def winA : WinDef := ⟨geomA, layerDefault, policyDefault, 1⟩
def winState : State := setWin headState 7 winA
theorem wit_window_define : ∃ s, Runs img 0x0401 s [] s ∧ (if 0xFFFF = 0xFFFF then freeWindow s else some 0xFFFF) = some 0 ∧
    geomOk geomA = true ∧ winAwaiting s 0 = false ∧ skimNamesWindow s 0 = false ∧
    windowFault s (setWin s 0 (redefine s 0 geomA)) 0 (redefine s 0 geomA) = none :=
  ⟨readyState, runs_img _, by decide, by decide, by decide, by decide, by decide⟩
theorem wit_window_delete : ∃ s, Runs img 0x0401 s [] s ∧ thas s.wins 7 = true ∧ skimNamesWindow s 7 = false :=
  ⟨winState, runs_img _, by decide, by decide⟩
theorem wit_place : ∃ s, Runs img 0x0401 s [] s ∧ (s.head 0).pan ≠ none ∧ s.wins = [] ∧
    demandOk s (s.setHead 0 { s.head 0 with shadow := { (s.head 0).shadow with place := some (5, 6) } }) = true :=
  ⟨readyState.setHead 0 { ({} : Head) with pan := some 0 }, runs_img _, by decide, rfl, by decide⟩

theorem wit_layer_set : ∃ s, Runs img 0x0402 s [] s ∧ tfind s.wins 7 = some winA ∧ layerFields winA layerDefault = true ∧
    skimNamesWindow s 7 = false ∧ demandOk s (setWin s 7 { winA with l := layerDefault }) = true :=
  ⟨setWin readyState 7 winA, runs_img _, rfl, by decide, by decide, by decide⟩
theorem wit_palette : ∃ (s : State) (d : WinDef) (x : Ctx), Runs img 0x0402 s [] s ∧ tfind s.wins 7 = some d ∧ 8 ≤ d.g.layer ∧
    d.g.context = some 4 ∧ openCtx s 4 = some x ∧ x.p.format = 0x13 ∧ skimNamesWindow s 7 = false :=
  ⟨setWin (readyState.setCtx 4 { ({} : Ctx) with state := .opened, p := { noParams with format := 0x13 } }) 7
    { winA with g := { geomA with layer := 9, context := some 4 } }, _, _, runs_img _, rfl, by decide, rfl, rfl, rfl, by decide⟩
theorem wit_zorder : ∃ s, Runs img 0x0404 s [] s ∧ levelsOk [0, 1, 2, 3, 4, 5, 6, 7, 8, 9, 10, 11] = true ∧
    (∀ h ∈ withTwin s 31, skimNamesHead s h = false) := ⟨readyState, runs_img _, by decide, by decide⟩

theorem wit_policy : ∃ s, Runs img 0x0405 s [] s ∧ policyFields policyDefault = true ∧ criticalOk s policyDefault = true ∧
    tfind s.wins 7 = some winA ∧ 2 ≤ callerRole s img ∧ detectorShort s { winA with pol := policyDefault } = false ∧
    skimNamesWindow s 7 = false := ⟨winState, runs_img _, by decide, by decide, rfl, by decide, by decide, by decide⟩
theorem wit_colours : ∃ s, Runs img 0x0405 s [] s ∧ coloursFields colourSet0 = true ∧ criticalUses s 3 = false :=
  ⟨winState, runs_img _, by decide, by decide⟩
theorem wit_verdict_query : ∃ s, Runs img 0x0406 s [] s ∧ thas s.wins 7 = true := ⟨winState, runs_img _, by decide⟩

theorem wit_commit : ∃ s, Runs img 0x0302 s [] s ∧ (1 : Nat) ≠ 0 ∧ commitFault s (namedHeads s 1) = none :=
  ⟨headState, runs_img _, by decide, by decide⟩
theorem wit_twin : ∃ s, Runs img 0x0303 s [] s ∧ (s.head 0).pan ≠ none ∧ (s.head 1).pan = (s.head 0).pan ∧
    (s.head 0).st = .disabled ∧ (s.head 1).st = .disabled :=
  ⟨headState.setHead 1 hd0, runs_img _, by decide, by decide, by decide, by decide⟩
theorem wit_enable : ∃ s, Runs img 0x0305 s [] s ∧ (∀ h ∈ withTwin s 0, headUsable s h = true) ∧
    (∀ h ∈ withTwin s 0, (s.head h).force.timing ≠ none ∧ (s.head h).st = .disabled) ∧ (s.head 0).twin = false :=
  ⟨headState, runs_img _, by decide, by decide, by decide⟩
def hostCtx : Ctx := { ({} : Ctx) with state := .opened, p := { noParams with type := 0, method := 4, format := 0x10, ring := 3 } }
theorem wit_layer_address : ∃ s, Runs img 0x0403 s [] s ∧ openCtx s 4 = some hostCtx ∧ isHost hostCtx.p = true ∧
    2 < hostCtx.p.ring ∧ hostCtx.isolated = false ∧
    (hostCtx.latest = none → demandOk (s.setCtx 4 { hostCtx with state := .free }) s = true) :=
  ⟨readyState.setCtx 4 hostCtx, runs_img _, rfl, by decide, by decide, rfl, by decide⟩
theorem wit_set_timing : ∃ s, Runs img 0x0301 s [] s ∧ (∀ h ∈ withTwin s 0, headUsable s h = true) ∧
    timingFields tm60 s.tide.num s.tide.den = true ∧
    (∀ h ∈ withTwin s 0, carries tm60 s.tide.num s.tide.den (mappedLanes (s.head h).link) (s.head h).link.maxRate = true) ∧
    (∀ h ∈ withTwin s 0, panRate (modHeads s [0] (fun _ h => { h with shadow := { h.shadow with timing := some tm60 } }))
      ((s.head h).pan.getD 0) ≤ 4800000000 * s.tide.den) ∧
    (∀ h ∈ withTwin s 0, headDemand (modHeads s [0] (fun _ h => { h with shadow := { h.shadow with timing := some tm60 } }))
      ((modHeads s [0] (fun _ h => { h with shadow := { h.shadow with timing := some tm60 } })).head h).shadow ≤
      classSupply (modHeads s [0] (fun _ h => { h with shadow := { h.shadow with timing := some tm60 } })) h) ∧ timingBreaksTap s (withTwin s 0) tm60 = false :=
  ⟨headState, runs_img _, by decide, by decide, by decide, by decide,
    by intro h hh; rw [show withTwin headState 0 = [0] from rfl, List.mem_singleton] at hh; subst hh;
       exact Nat.le_trans (by decide : _ ≤ 0) (Nat.zero_le _), by decide⟩

theorem wit_head_query : ∃ s, Runs img 0x0304 s [] s ∧ (s.head 0).force.timing = some tm60 ∧
    timingFields tm60 s.tide.num s.tide.den = true ∧ tm60.vactive < 65536 ∧ tm60.phaseLines < 65536 :=
  ⟨headState, runs_img _, rfl, by decide, by decide, by decide⟩

theorem wit_timing_block : ∃ t : Timing, t.matrix < 4 ∧ t.mult < 8 ∧ t.vfpMax = 65535 ∧ t.waitMask = 4095 :=
  ⟨{ tm60 with vfpMax := 65535, waitMask := 4095, mult := 7, matrix := 3 }, by decide, by decide, rfl, rfl⟩

def armedA : Armed := ⟨5, 0, { ({} : Bank) with timing := some tm60 }⟩
def runHd (ph : Phase) : Head := { hd0 with st := .running, phase := ph, gen := some tm60, vrrOn := true, porchVrr := true }
def runState (ph : Phase) (t : Ticks) : State := (later readyState t).setHead 0 (runHd ph)
def armedState : State := (later readyState 400000000).setHead 0 { runHd .active with armed := [armedA] }
theorem wit_latch : ∃ (s : State) (e : Rat), latchAt s (s.head (leadOf s 0)) = some e ∧ isDue s e = true ∧
    (∀ i ∈ withTwin s 0, (s.head i).disableSched = false) ∧ (ripe s (s.head 0)).getLast? = some armedA :=
  ⟨armedState, _, rfl, by decide +kernel, by decide, by decide⟩
theorem wit_latch_stop : ∃ (s : State) (e : Rat), latchAt s (s.head (leadOf s 0)) = some e ∧ isDue s e = true ∧
    (∃ i ∈ withTwin s 0, (s.head i).disableSched = true) :=
  ⟨(later readyState 400000000).setHead 0 { runHd .active with disableSched := true }, _, rfl, by decide +kernel, 0, by decide, rfl⟩
def porchState : State := (later readyState 400000000).setHead 0 { runHd .porch with fixed := some ⟨0, false⟩ }
theorem wit_porch_end : ∃ (s : State) (n : NextFlip), blankingEnd s 0 = some n ∧ (s.head (leadOf s 0)).gen = some tm60 ∧
    isDue s (porchEndAt s tm60 n) = true := by
  have h : (blankingEnd porchState 0).elim false (fun n => isDue porchState (porchEndAt porchState tm60 n)) = true := by
    decide +kernel
  cases e : blankingEnd porchState 0 with
  | none => simp [e] at h
  | some n => exact ⟨porchState, n, e, rfl, by simpa [e] using h⟩
/-- An open porch of which `p` holds. -/
theorem open_porch {s : State} {p : Timing × Nat × Ticks → Bool} (h : (openPorch s 0).elim false p = true) :
    ∃ t k b, openPorch s 0 = some (t, k, b) ∧ p (t, k, b) = true := by
  cases e : openPorch s 0 with
  | none => simp [e] at h
  | some x => exact ⟨x.1, x.2.1, x.2.2, rfl, by simpa [e] using h⟩
theorem wit_vrr_boundary : ∃ t k b, openPorch (runState .porch 400000000) 0 = some (t, k, b) ∧
    (decide (t.vfpMax ≤ k) && (withTwin (runState .porch 400000000) 0).all (waitReady (runState .porch 400000000) b)) = true :=
  open_porch (p := fun x => decide (x.1.vfpMax ≤ x.2.1) &&
    (withTwin (runState .porch 400000000) 0).all (waitReady (runState .porch 400000000) x.2.2)) (by decide +kernel)
def waitSlot : Slot := ⟨7, { winA with g := { geomA with context := some 4 } }, some 0, none⟩
def waitState : State := ((later readyState 400000000).setCtx 4 { ({} : Ctx) with state := .opened }).setHead 0
  { runHd .porch with gen := some { tm60 with waitMask := 4 }, force := { ({} : Bank) with slots := [waitSlot] } }
theorem wit_wait_timeout : ∃ t k b, openPorch waitState 0 = some (t, k, b) ∧
    (decide (t.vfpMax ≤ k) && (withTwin waitState 0).any (fun i => !waitReady waitState b i)) = true :=
  open_porch (p := fun x => decide (x.1.vfpMax ≤ x.2.1) && (withTwin waitState 0).any (fun i => !waitReady waitState x.2.2 i))
    (by decide +kernel)

def flipN : NextFlip := ⟨390000000, 390000000, 1, 0, 4, false⟩
theorem wit_take : ∃ s : State, (s.head (leadOf s 0)).next = some flipN ∧ (s.head (leadOf s 0)).gen = some tm60 ∧
    (s.head (leadOf s 0)).took = false ∧ isDue s (flipN.at_ - 2 * lineRat s tm60) = true :=
  ⟨(later readyState 400000000).setHead 0 { runHd .sync with next := some flipN }, rfl, rfl, rfl, by decide +kernel⟩
theorem wit_flip : ∃ s : State, (s.head (leadOf s 0)).next = some flipN ∧ (s.head (leadOf s 0)).gen = some tm60 ∧
    (s.head (leadOf s 0)).took = true ∧ isDue s flipN.at_ = true :=
  ⟨(later readyState 400000000).setHead 0 { runHd .sync with next := some flipN, took := true }, rfl, rfl, rfl, by decide +kernel⟩

def spanBank : Bank := { ({} : Bank) with timing := some tm60, place := some (0, 0), slots := [⟨7, winA, none, none⟩] }
def spanHd : Head := { runHd .active with flipT := 0, frameCount := 1, force := spanBank }
def spanState : State := (later readyState 400000000).setHead 0 spanHd
def composeState : State := (later readyState 400000000).setHead 0 { spanHd with flipT := 399999900 }
theorem wit_compose : ∃ (s : State) (k : NextGroup), let u := (panHeads s 0).foldl pump s
    mostUrgent u 0 = some k ∧ (u.pan 0).composedAt ≠ some (u.now / panT) := by
  have h : (let u := (panHeads composeState 0).foldl pump composeState
      (mostUrgent u 0).isSome && (u.pan 0).composedAt.isNone) = true := by decide +kernel
  obtain ⟨e, n⟩ := Bool.and_eq_true_iff.mp h
  obtain ⟨k, e⟩ := Option.isSome_iff_exists.mp e
  exact ⟨composeState, k, e, by rw [Option.isNone_iff_eq_none.mp n]; nofun⟩
theorem wit_span : ∃ (s : State) (k : Slot), (s.head 0).gen = some tm60 ∧
    (s.head 0).force.slots.find? (fun k => k.d.g.layer == 2) = some k ∧ spanStart (s.head 0).force k 150 = some 100 ∧
    (s.head 0).phase = .active ∧ blackFrame (s.head 0) = false ∧ tfind (s.head 0).words 2 = none ∧
    evalTime s tm60 (s.head 0).flipT 150 100 ≤ s.now :=
  ⟨spanState, ⟨7, winA, none, none⟩, rfl, rfl, by decide, rfl, by decide, rfl, by decide +kernel⟩

theorem wit_no_majority : (voteWords 5 [(0, 0), (1, 1)]).majority = false ∧ (voteWords 5 [(0, 80), (2, 80)]).majority = true := by
  decide

theorem wit_outvoted : (511 : Nat) < 512 ∧
    (3 : Nat) ≠ packWord (channelWord ⟨none, false, true, false, false, policyDefault, 0, false⟩ 511) := by decide

theorem wit_copy : ∃ (s : State) (c : StateCopy), ((s.pan 2).chan 1).copying = some c ∧ c.start < s.now :=
  ⟨(later readyState 100).setPan 2 { ({} : Pan) with b := { ({} : Gauge) with copying := some ⟨7, 0⟩ } }, _, rfl, by decide⟩
theorem wit_reload : ∃ s : State, (s.pan 2).reload = true ∧ s.start.warden = .ready :=
  ⟨readyState.setPan 2 { ({} : Pan) with reload := true }, rfl, rfl⟩
def passState (h : Head) : State := ((later readyState 5000).setPan 3 { ({} : Pan) with salDue := some 40 }).setHead 24 h
theorem wit_pass : ∃ s : State, (s.pan 3).salDue = some 40 ∧ (earliestHead s 3).isSome = true ∧ 40 + 64 * panT ≤ s.now :=
  ⟨passState { runHd .active with pan := some 3 }, rfl, by decide +kernel, by decide⟩
theorem wit_no_pass : ∃ s : State, (s.pan 3).salDue = some 40 ∧ earliestHead s 3 = none :=
  ⟨passState {}, rfl, by decide +kernel⟩
theorem wit_check_stats : ∃ (s : State) (k l : Check), Runs img 0x0903 s [] s ∧ tfind s.checks 9 = some k ∧ k.use = 0 ∧
    tfind s.checks 10 = some l ∧ l.use = 2 :=
  ⟨(readyState.setCheck 9 { use := 0, object := 4 }).setCheck 10 { use := 2, object := 4 }, _, _, runs_img _, rfl, rfl, rfl, rfl⟩

theorem wit_check_bind : ∃ s, Runs img 0x0901 s [] s ∧ (if 0xFFFF = 0xFFFF then tfree s.checks 256 else some 0xFFFF) = some 0 ∧
    sourceBinding s 4 = none ∧ bindable s 4 = true :=
  ⟨readyState.setCtx 4 { ({} : Ctx) with state := .opened, p := { noParams with type := 2, method := 3, ring := 3 } }, runs_img _, by decide, by decide, by decide⟩
theorem wit_check_unbind : ∃ (s : State) (k : Check), Runs img 0x0901 s [] s ∧ tfind s.checks 9 = some k ∧ k.use = 0 :=
  ⟨readyState.setCheck 9 { use := 0, object := 4 }, _, runs_img _, rfl, rfl⟩
theorem wit_seal_define : ∃ s, Runs img 0x0902 s [] s ∧ 2 ≤ callerRole s img ∧
    sealChannel s 0 7 = some 0 ∧
    sealInside (s.head 0).shadow ⟨0, 7, 0, 3, 1919, 1079, 1, 1⟩ = true := ⟨headState, runs_img _, by decide, by decide, by decide⟩
def sealA : Seal := ⟨0, 0, 4, 1, 1, 9⟩
theorem wit_seal_change : ∃ s, Runs img 0x0902 s [] s ∧ 2 ≤ callerRole s img ∧ tfind (s.head 0).shadow.seals 7 = some sealA :=
  ⟨setSeals headState 0 [(7, sealA)], runs_img _, by decide, rfl⟩
def sealState : State :=
  (later readyState 400000000).setHead 0 { runHd .active with flipT := 399999500, force := { ({} : Bank) with seals := [(7, sealA)] } }
theorem wit_seal_compare : ∃ s : State, let u := pump s 0
    (u.head 0).gen = some tm60 ∧ tfind (u.head 0).force.seals 7 = some sealA ∧
    (u.head 0).phase = .active ∧ sealRuns (u.head 0) = true ∧ (u.head 0).sealDone.testBit 7 = false ∧
    panCycle ((u.head 0).flipT + natRat ((sealA.y + sealA.h - 1) * htotal tm60 + (sealA.x + sealA.w - 1)) *
      pixelRat u tm60) - 6 * panT ≤ u.now := ⟨sealState, by decide +kernel⟩

theorem wit_sw_fence : hostUp readyState = true := by decide
theorem wit_ball : readyState.fences.ballLow = false ∧
    ({ readyState with fences := { readyState.fences with ballLow := true } } : State).fences.ballLow = true := by decide
theorem wit_fence_crosses : ∃ (s : State) (r : FenceRun), s.fenceRuns = [r] ∧ (r.at_ : Int) ≤ s.now ∧ r.p.set = 1 :=
  ⟨{ later readyState 100 with fenceRuns := [⟨sessionCaller, ⟨1, 0, false, 0⟩, 40⟩] }, _, rfl, by decide, rfl⟩
theorem wit_fence : ∃ s, Runs img 0x0F03 s [] s ∧ 2 ≤ callerRole s img ∧ (0xF0 : Nat) &&& 0x0F = 0 :=
  ⟨readyState, runs_img _, by decide, by decide⟩

theorem wit_reduce : (4095 : Nat) < 4096 ∧ reduceComp { tm60 with depth := true } ⟨4095, 6, 5⟩ = (1023, 2, 1) := by decide

def sinkA : Sink := ⟨3, 4, false, true, true, 40, 75⟩
def linkHd (st : HeadState) (l : Link) : State := (later readyState (200 * msT)).setHead 31 { hd0 with st := st, link := l }
theorem wit_hpd : ((linkHd .unplugged {}).head 31).link.sink = none ∧ ((linkHd .disabled {}).head 31).st ≠ .unplugged ∧
    ((linkHd .running { ({} : Link) with sink := some sinkA }).head 31).link.sink ≠ none ∧
    ((linkHd .linkFailed { ({} : Link) with sink := some sinkA }).head 31).st = .linkFailed := by decide
theorem wit_training : ∃ s : State, (s.head 31).link.link = 1 ∧ (s.head 31).link.auxRetries < 7 ∧
    (s.head 31).link.cands = [(4, 3), (2, 3)] ∧ (s.head 31).link.trainStart = some 5 ∧ 5 + 100 * msT ≤ s.now :=
  ⟨linkHd .training { ({} : Link) with link := 1, cands := [(4, 3), (2, 3)], trainStart := some 5 }, by decide, by decide,
    by decide, by decide, by decide⟩
theorem wit_training_last : ∃ s : State, (s.head 31).link.link = 1 ∧ 7 ≤ (s.head 31).link.auxRetries ∧
    (s.head 31).link.cands = [(4, 3)] :=
  ⟨linkHd .training { ({} : Link) with link := 1, auxRetries := 7, cands := [(4, 3)] }, by decide, by decide, by decide⟩
def trainHd (width rate : Nat) : State := linkHd .running
  { ({} : Link) with mapped := true, width := width, maxRate := rate, sink := some sinkA }
theorem wit_retrain (w r : Nat) : ((trainHd w r).head 31).link.sink = some sinkA ∧ displayRests (trainHd w r) = false :=
  ⟨rfl, rfl⟩
theorem wit_candidates : candidates (trainHd 2 3) ((trainHd 2 3).head 31).link sinkA tm60 ≠ [] ∧
    candidates (trainHd 0 0) ((trainHd 0 0).head 31).link sinkA tm60 = [] := by decide +kernel
theorem wit_retrain_active : ∃ s : State, (s.head 31).gen = some tm60 ∧ (s.head 31).phase ≠ .stopped ∧
    (s.head 31).link.sink = some sinkA ∧ displayRests s = false :=
  ⟨(trainHd 2 3).setHead 31 { (trainHd 2 3).head 31 with gen := some tm60, phase := .active }, rfl, by decide, rfl, rfl⟩
theorem wit_lock_loss : ((linkHd .running { ({} : Link) with link := 2 }).head 31).link.link = 2 ∧
    ((linkHd .running { ({} : Link) with link := 2 }).head 31).st = .running := by decide

def hostParams : CtxParams := { noParams with
  type := 0, method := 4, format := 0x10, width := 64, height := 32, ring := 3, extId := 0, clockRate := 90000, timeoutUs := 1000,
  base := 0, pitch := 16384, stride0 := 256 }
def hostWritable : State := { readyState with mem := { readyState.mem with dyke := { readyState.mem.dyke with
  force := [(40, ⟨false, 0, 64, 0xFFFFF, 0xFFFFF⟩)], staged := [(40, ⟨false, 0, 64, 0xFFFFF, 0xFFFFF⟩)] } } }
theorem wit_context_open : ∃ s, Runs img 0x0501 s [] s ∧ ctxTarget s 0xFFFF = some 0 ∧ (s.ctx 0).state = .free ∧
    methodOk hostParams = true ∧ sizeOk hostParams = true ∧ within 2 8 hostParams.ring = true ∧ extOk hostParams = true ∧
    within 100 1000000 hostParams.timeoutUs = true ∧ ringOk hostParams = true ∧
    writable s (writersOf hostParams) hostParams.base (ringBytesOf hostParams) = true :=
  ⟨hostWritable, runs_img _, by decide, by decide, by decide, by decide, by decide, by decide, by decide, by decide, by decide⟩
theorem wit_context_commands : ∃ (s : State) (x : Ctx), Runs img 0x0504 s [] s ∧ Runs img 0x0502 s [] s ∧ Runs img 0x0505 s [] s ∧
    openCtx s 4 = some x ∧ x.isolated = false ∧ skimBindsContext s 4 = false :=
  ⟨readyState.setCtx 4 hostCtx, hostCtx, runs_img _, runs_img _, runs_img _, rfl, rfl, by decide⟩

def portState : State := (readyState.setPort 3 { ({} : Port) with exists_ := true, link := true }).setCtx 4
  { ({} : Ctx) with state := .opened, p := { noParams with type := 2, ring := 3 } }
def ruleB : FlowRule := ⟨0, false, false, false, true, 3, 4, 0, ⟨false, 0x0A000001⟩, ⟨false, 0x0A000002⟩, 0, 5000⟩
theorem wit_flow_bind : ∃ s, Runs img 0x0503 s [] s ∧ flowTarget s 0xFFFF = some 0 ∧ s.flows = [] ∧ thas s.flows 0 = false ∧ ruleB.join = false ∧
    flowContext s ruleB.context = true ∧ flowFields ruleB = true ∧ ruleB.path = 0 ∧ (s.port ruleB.port).exists_ = true :=
  ⟨portState, runs_img _, by decide, rfl, rfl, rfl, by decide, by decide, rfl, rfl⟩
theorem wit_flow_unbind : ∃ s, Runs img 0x0503 s [] s ∧ thas s.flows 1023 = true :=
  ⟨{ portState with flows := [(1023, ruleB)] }, runs_img _, by decide⟩
theorem wit_sluice_set : ∃ s, Runs img 0x0506 s [] s ∧ (s.port 3).exists_ = true ∧ within 1 65535 65535 = true ∧
    within 1000 100000 1000 = true ∧ viaPort img ≠ some 3 := ⟨portState, runs_img _, rfl, by decide, by decide, by decide⟩
theorem wit_link_change : released portState = true ∧ (portState.port 3).exists_ = true := by decide

def strayFrame : EthFrame := ⟨100, false, 0, 0, .other⟩
theorem wit_frame : portUp portState 3 = true ∧ classify portState 3 strayFrame = .stray ∧
    classify portState 3 { strayFrame with kind := .arp } = .mgmt := by decide
def mediaA : MediaFrame := ⟨3, 4, 0, 0, ⟨false, 1⟩, 100, 0, zeros 20⟩
def mediaState : State := { portState with media := [(0, [mediaA])] }
theorem wit_media : mediaOf mediaState 0 = [mediaA] ∧ (mediaState.ctx 4).state = .opened ∧ (mediaState.ctx 4).opening = 0 ∧
    (mediaState.ctx 4).isolated = false ∧ memoryRests (popMedia mediaState 0) = false := by decide
def frameA : Frame := ⟨0, 0, 0, [], false, none, none, 0, 0, none, false, [], [], [], 0, [], false, false, 0⟩
theorem wit_frame_timeout : ∃ (s : State) (f : Frame), (s.ctx 4).frame = some f ∧ f.done = false ∧ f.abandoned = false ∧
    f.lastAt + (s.ctx 4).p.timeoutUs * usT ≤ s.ref :=
  ⟨(later readyState 100).setCtx 4 { ({} : Ctx) with frame := some frameA }, frameA, rfl, rfl, rfl, by decide⟩

def closingA : Closing :=
  ⟨2, none, 0, 1, none, 0, 0, 0, 0, [], [], none, none, false, false, none, false, false, none, none, []⟩
def closingState (k : Closing) : State := (later readyState 1000).setCtx 4 { ({} : Ctx) with state := .opened, closing := [k] }
theorem wit_copies : ((closingState { closingA with gaps := [(0, 0, 8)] }).ctx 4).closing.find? needsCopy =
    some { closingA with gaps := [(0, 0, 8)] } ∧ copyRoom (closingState { closingA with gaps := [(0, 0, 8)] }) 4 = true := by decide
theorem wit_compare_end : ∃ (s : State) (k : Closing), (s.ctx 4).closing = [k] ∧ k.comparing = some (5, 6) ∧
    k.checkAt + 24 * coreT ≤ s.ref := ⟨closingState { closingA with comparing := some (5, 6) }, _, rfl, rfl, by decide⟩
def auA : AccessUnit := ⟨1, 100, 0, 0, 0, 0, 0, 0, 0, 0, [0x6500], 0, false, some (5, 6), 0, 0, 1⟩
theorem wit_au_compare : ∃ s : State, (s.ctx 4).closing = [] ∧ openAus s 4 = [auA] ∧ auA.checkAt + 24 * coreT ≤ s.ref :=
  ⟨(later readyState 1000).setCtx 4 { ({} : Ctx) with state := .opened, aus := [auA] }, rfl, rfl, by decide⟩
def watchedState (k : Closing) : State := (closingState k).setCheck 9 { use := 1, object := 4 }
theorem wit_detector : ((watchedState closingA).ctx 4).closing.find? (detectorTurn (watchedState closingA) 4) = some closingA ∧
    ((watchedState { closingA with reading := true }).ctx 4).closing.find?
      (detectorTurn (watchedState { closingA with reading := true }) 4) = some { closingA with reading := true } ∧
    outstanding (watchedState { closingA with reading := true }) (fun p => p == .detector 4) = false := by decide
theorem wit_complete : ((closingState closingA).ctx 4).closing.find? (readyToComplete (closingState closingA) 4) = some closingA ∧
    ((closingState closingA).ctx 4).state = .opened := by decide
def tileA : Tile := ⟨9, 1, 0, 0, [(0, [])], false, false, 0⟩
def tileState : State := { (later readyState 1000).setCtx 4
  { ({} : Ctx) with frame := some frameA, dgs := { ({} : DgsSt) with tiles := [tileA] } } with lanes := [(1, { ({} : Lane) with use := 0 })] }
theorem wit_tile : (tileState.ctx 4).frame = some frameA ∧ (tileState.ctx 4).dgs.tiles.find? (fun t => t.tile == 9) = some tileA ∧
    (laneEnd tileState 0 0 (decodeBlock false 64 16384 (tileData tileA)).2).any (fun e => decide (e.1 ≤ tileState.ref)) = true := by decide +kernel

theorem wit_future : (63 : Nat) < 64 ∧ (0 : Nat) < 64 := by decide

def codedParams : CtxParams :=
  { noParams with type := 1, format := 1, width := 64, height := 64, pitch := 8192, plane1 := 4096, stride0 := 64, stride1 := 64 }
def attachA : Attach := ⟨1, 1, false, 3, 1000, 4096, 5, 5005, 0x10000, 8192, 0, 0⟩
def codedCtx : Ctx := { ({} : Ctx) with
  state := .opened, p := codedParams, attach := some attachA, aus := [{ auA with comparing := none }],
  dec := { ({} : DecSt) with seeking := false } }
def codedState : State := (later readyState 1000).setCtx 4 codedCtx
def setA : StreamSet := ⟨77, 41, 8, 8, 1, 64, 64, (0, 0, 0, 0), some 1, some 0, 0, false, false, 1, 4, true, false, false, false⟩
def headA : PictureHead := ⟨setA, 0, true, false, false, [], 0, false, none, [], [], []⟩
def pictureA : Picture := { buffer := 3, au := { auA with comparing := none }, causes := 0, poc := 0, endAt := 0 }
def startState : State := codedState.setDec 0 { ({} : DecEngine) with work := some pictureA, ctx := 9 }
theorem wit_decode_start : ∃ (x : Candidate) (u : AccessUnit), (∀ i, i < 1 → (startState.dec i).work ≠ none) ∧
    (startState.dec 1).work = none ∧
    bestOf ((prepareDecode startState).ctxs.filterMap (fun y => candidate (prepareDecode startState) y.1)) = some x ∧
    x.ctx = 4 ∧ wantsPicture (prepareDecode startState) 4 = some u ∧ ((prepareDecode startState).ctx 4).attach = some attachA ∧
    poolBuffer (prepareDecode startState) 4 = some 0 ∧ firstSlice attachA.codec u ≠ none ∧
    setOk ((prepareDecode startState).ctx 4).p attachA headA.set = true ∧
    setOk ((prepareDecode startState).ctx 4).p attachA { setA with groups := true } = false ∧
    (isRasl attachA.codec u && ((prepareDecode startState).ctx 4).dec.dropRasl) = false :=
  ⟨_, _, by decide, by decide, rfl, by decide, rfl, rfl, by decide, by decide, by decide, by decide, by decide⟩
theorem wit_decode_end : ∃ s : State, (s.dec 7).work = some pictureA ∧ (s.dec 7).head = some headA ∧ (s.dec 7).abandon = false ∧
    (s.dec 7).startAt + (if (s.dec 7).switched then 1024 else 0) * coreT ≤ s.ref ∧
    outstanding s (fun q => q == .decoder 7) = false :=
  ⟨codedState.setDec 7 { ({} : DecEngine) with work := some pictureA, head := some headA }, rfl, rfl, rfl, by decide, by decide⟩
theorem wit_decode_abandon : ∃ (s : State) (p : Picture), (s.dec 7).work = some p ∧ (s.dec 7).abandon = true :=
  ⟨codedState.setDec 7 { ({} : DecEngine) with work := some pictureA, abandon := true }, _, rfl, rfl⟩
theorem wit_picture_output : ∃ (s : State) (p : Picture), nextOut (s.ctx 4).dec.waiting = some p ∧
    (s.ctx 4).state = .opened ∧ p.au.comparing = none ∧ pictureTurn s 4 p = false ∧ pictureDue p ≤ s.ref :=
  ⟨(later readyState 1000).setCtx 4 { codedCtx with dec := { codedCtx.dec with
    waiting := [{ pictureA with decided := some 0 }] } }, _, rfl, rfl, rfl, by decide, by decide⟩
theorem wit_lag : ∃ s : State, (s.ctx 4).attach = some attachA ∧ (s.ctx 4).state = .opened ∧
    lagging s (s.ctx 4) attachA = true := ⟨later codedState (10 * 24000000), rfl, rfl, by decide⟩
theorem wit_decode_priority : ∃ s, Runs img 0x0602 s [] s ∧ openCtx s 4 = some codedCtx ∧ codedCtx.attach = some attachA ∧
    decodeFits s ((codedCtx.p, { attachA with cls := 0, lagMs := 65535 }) ::
      ((attachedCtxs s).filter (fun y => y.1 != 4)).map (·.2)) = true := ⟨codedState, runs_img _, rfl, rfl, by decide⟩
theorem wit_decode_stats : ∃ s, Runs img 0x0603 s [] s ∧ openCtx s 4 = some codedCtx ∧ codedCtx.attach ≠ none :=
  ⟨codedState, runs_img _, rfl, by decide⟩
def attachState : State := { hostWritable with ctxs := [(4, { codedCtx with attach := none })] }
theorem wit_attach : ∃ s, Runs img 0x0601 s [] s ∧ attachFault s 4 attachA = none := ⟨attachState, runs_img _, by decide⟩

def eyeA : EyeScanP := ⟨2, 15, -127, 127, -63, 63, 15, 40, 0⟩
def laneState : State := { hostWritable with lineRx := [(15, { ({} : LaneRx) with bit := true })] }
theorem wit_lane_queries : Runs img 0x0B01 laneState [] laneState ∧ laneState.power.state = 0 ∧ Runs img 0x0B03 laneState [] laneState ∧
    (portState.port 3).exists_ = true := ⟨runs_img _, by decide, runs_img _, by decide⟩
theorem wit_eye_scan : ∃ s, Runs img 0x0B02 s [] s ∧ (s.rxLane (laneEntry 2 15)).scan = none ∧ eyeFields eyeA = true ∧
    laneLocked s 2 15 = true ∧ writable s [idWarden] 0 (4 * eyePoints eyeA) = true :=
  ⟨laneState, runs_img _, rfl, by decide, by decide, by decide⟩
theorem wit_eye_done : ∃ s : State, (s.rxLane (laneEntry 2 15)).scan = some eyeA :=
  ⟨laneState.setRxLane 31 { ({} : RxLane) with scan := some eyeA }, rfl⟩

def encA : EncParams :=
  ⟨0, true, false, false, 0, 0, 4, 0, 0, 1, 1, 1, 0, 0, 64, 64, 64, 64, 0, 0, 0, 0, 0x20000, 4096, 0, ⟨false, 0⟩, 0, 0, 0, 0, 0, 0, 0⟩
def encState : State := codedState.setEnc 5 { ({ p := encA } : Enc) with lastDue := 7 }
theorem wit_encode_rate : ∃ (s : State) (e : Enc), Runs img 0x0702 s [] s ∧ tfind s.encs 5 = some e ∧ 1 ≤ callerRole s img ∧
    rateOk s e ⟨51, 0xFFFFFFFF, 0xFFFFFFFF⟩ = true :=
  ⟨encState, _, runs_img _, rfl, by decide, by decide⟩
theorem wit_encode_close : ∃ s, Runs img 0x0703 s [] s ∧ thas s.encs 5 = true := ⟨encState, runs_img _, by decide⟩

theorem wit_frame_due : ∃ (s : State) (x : Enc), tfind s.encs 5 = some x ∧ x.lastDue ≠ encKeyNow s x.p ∧ x.p.tapContext = true ∧
    s.tide.count % max 1 x.p.frameDiv = 0 := ⟨encState, _, rfl, by decide, rfl, by decide⟩
theorem wit_head_due : ∃ (s : State) (x : Enc), tfind s.encs 5 = some x ∧ x.lastDue ≠ encKeyNow s x.p ∧ x.p.tapContext = false ∧
    (s.head x.p.source).st ≠ .disabled ∧
    (s.head x.p.source).frameCount % max 1 x.p.frameDiv = 0 :=
  ⟨spanState.setEnc 5 { ({ p := { encA with tapContext := false, source := 0 } } : Enc) with lastDue := 7 }, _, rfl,
    by decide +kernel, rfl, by decide, by decide⟩
def encF : EncFrame := ⟨5, 0, 1, 0, 5⟩
def lineState : State := codedState.setEnc 5 { ({ p := encA } : Enc) with capture := some ⟨encF, some 0, 0, [], 0, []⟩ }
theorem wit_line : ∃ (x : Enc) (k : EncCapture), tfind (pumpTap lineState 5).encs 5 = some x ∧ x.capture = some k ∧
    x.p.tapContext = true ∧ tapSize (pumpTap lineState 5) x.p none = some (64, 64) := ⟨_, _, rfl, rfl, rfl, by decide⟩
theorem wit_frame_start : ∃ (s : State) (n : Nat) (x : Enc) (f : EncFrame), (s.encEngine 0).work = none ∧
    readyFrame s 0 = some (n, x, f) := by
  have h : (readyFrame (codedState.setEnc 5 { ({ p := encA } : Enc) with waiting := some encF }) 0).isSome = true := by decide
  obtain ⟨⟨n, x, f⟩, e⟩ := Option.isSome_iff_exists.mp h
  exact ⟨_, n, x, f, rfl, e⟩
def encW : EncWork := ⟨5, encF, false, 100000, 0, 0, 0, 0, 64, false, false, 0, 0, 0⟩
def codeA : SliceCode := ⟨[0, 0, 0, 1, 2, 1, 0xD0, 0xFB, 0x80], [[⟨2, 1, []⟩]]⟩
def encFormState : State := codedState.setEnc 5 { ({ p := encA } : Enc) with
  lastDue := 7, form := some ⟨0, 4, some 1, false, false, false, false, false⟩ }
theorem wit_slice : ∃ (s : State) (x : Enc), (s.encEngine 0).work = some encW ∧ tfind s.encs encW.enc = some x ∧
    (s.encEngine 0).abandon = false ∧ sliceReady s x encW = true ∧ codeOk s x encW codeA = true :=
  ⟨(later encFormState 10000000).setEncEngine 0 { ({} : EncEngine) with work := some encW }, _, rfl, rfl, rfl, by decide, by decide⟩
theorem wit_enc_abandon : ∃ s : State, (s.encEngine 1).work = some encW ∧ (s.encEngine 1).abandon = true :=
  ⟨encState.setEncEngine 1 { ({} : EncEngine) with work := some encW, abandon := true }, rfl, rfl⟩
theorem wit_rtp : ∃ (s : State) (x : Enc), tfind s.encs 5 = some x ∧ x.p.outKind = 2 ∧ x.pacedAt ≤ s.ref ∧
    (let r := settleSent s 5 x; r.1.consumer ≠ r.1.producer ∧ portUp r.2 r.1.p.port = true ∧ x.sending = some 32) :=
  ⟨portState.setEnc 5 { ({ p := { encA with outKind := 2, port := 3 } } : Enc) with producer := 64, sending := some 32 }, _, rfl, rfl, by decide, by decide +kernel⟩
theorem wit_encode_open : ∃ s, Runs img 0x0701 s [] s ∧ encTarget s 0xFF = some 0 := ⟨readyState, runs_img _, by decide⟩

def crysA : CrysParams := ⟨false, false, false, 4, 0, 0, 1024, 4096, 0x10000, 0x20000, 0, 0⟩
def jobA (st : JobState) : Job := { p := crysA, st := st, outBytes := 4096, outBase := 0x10000 }
def crysState (st : JobState) : State := { hostWritable.setJob 63 (jobA st) with lanes := [(2, { ({} : Lane) with use := 2 })], jobQueue := [63] }
theorem wit_crys_job : ∃ s, Runs img 0x0801 s [] s ∧ crysTarget s 0xFF = some 0 ∧ crysFault s 0 crysA = none :=
  ⟨crysState .queued, runs_img _, by decide, by decide⟩
theorem wit_crys_resume : ∃ s, Runs img 0x0802 s [] s ∧ tfind s.jobs 63 = some (jobA .stopped) ∧
    dykePermits s idCrys 0x10000 4096 true = true := ⟨crysState .stopped, runs_img _, rfl, by decide⟩
theorem wit_crys_flush : ∃ s, Runs img 0x0803 s [] s ∧ tfind s.jobs 63 = some (jobA .queued) ∧
    flushFault ((tfind (readPosition s 63 (jobA .queued)).2.jobs 63).getD (jobA .queued))
      (readPosition s 63 (jobA .queued)).1 1023 = none := ⟨crysState .queued, runs_img _, rfl, by decide⟩
theorem wit_crys_start : ∃ s : State, s.jobQueue = [63] ∧ tfind s.jobs 63 = some (jobA .queued) ∧
    (List.range 16).find? (fun l => (s.lane l).use == 2 && (s.lane l).job.isNone && decide ((s.lane l).freeAt ≤ s.ref)) = some 2 :=
  ⟨crysState .queued, rfl, rfl, by decide⟩
def jobB : Job := { jobA .running with p := { crysA with inBytes := 1 } }
theorem wit_crys_done : ∃ s : State, (s.lane 2).job = some 63 ∧ tfind s.jobs 63 = some jobB ∧
    jobB.startAt + (runJob jobB (peekBytes s jobB.p.inBase jobB.p.inBytes) 4).cycles * coreT ≤ s.ref :=
  ⟨{ later (crysState .queued) 100000 with jobs := [(63, jobB)], lanes := [(2, { ({} : Lane) with use := 2, job := some 63 })] }, rfl, rfl, by decide⟩

theorem wit_tide_busy : ∃ s, Runs img 0x0A04 s [] s ∧ tideRateOk 50 1 = true ∧ (50 ≠ s.tide.num ∨ 1 ≠ s.tide.den) ∧
    (∃ e ∈ s.heads, e.2.st ≠ .disabled) := ⟨runState .active 5, runs_img _, by decide, by decide, _, List.mem_cons_self, by decide⟩
theorem wit_tide_set : ∃ s, Runs img 0x0A04 s [] s ∧ tideRateOk 240 1 = true ∧ (240 ≠ s.tide.num ∨ 1 ≠ s.tide.den) ∧
    (∀ e ∈ s.heads, e.2.st = .disabled) := ⟨headState, runs_img _, by decide, by decide, by decide⟩

def profB : Profile := { profileReset with source := 1, ports := 8, slaveOnly := false }
def timeState : State := { portState with servo := { portState.servo with prof := profB, slavePort := 3, ptp := [(3, { ({} : PtpPort) with state := 6 })] } }
theorem wit_profile : ∃ s, Runs img 0x0A01 s [] s ∧ profileOk s profB = true := ⟨timeState, runs_img _, by decide⟩
def pulseB : Pulse := ⟨2, false, 0, 2, 1, 1000, 10, 0, 1⟩
theorem wit_pulse_set : ∃ s, Runs img 0x0A02 s [] s ∧ pulseOk s pulseB = true ∧ captureOk ⟨3, false, 0, 0, 0, 0, 0, 0, 0⟩ = true :=
  ⟨timeState, runs_img _, by decide, by decide⟩
theorem wit_time_query : ∃ s, Runs img 0x0A03 s [] s := ⟨timeState, runs_img _⟩
def masterState : State := { later timeState 1000000000000 with servo := { timeState.servo with prof := { profB with source := 0 } } }
theorem wit_ptp : ptpPort timeState 3 = true ∧ masterPort masterState 3 = true ∧ masterPort (decidePtp masterState) 3 = true ∧
    intervalDue masterState masterState.servo.prof.logSync (masterState.ptpOf 3).syncAt = true ∧
    (let d := decidePtp masterState; intervalDue d d.servo.prof.logAnnounce (d.ptpOf 3).announceAt = true) := by
  decide
def syncIn : PtpMsg := ⟨profB.transport, profB.domain, 1, 1, 1, 0, .sync false 0⟩
theorem wit_ptp_in : ∃ s : State, (s.port 3).timeIn = [(80, 5)] ∧
    ptpPort (s.setPort 3 { s.port 3 with timeIn := [] }) 3 = true ∧ syncIn.transport = s.servo.prof.transport ∧
    syncIn.domain = s.servo.prof.domain :=
  ⟨timeState.setPort 3 { timeState.port 3 with timeIn := [(80, 5)] }, rfl, by decide, by decide, by decide⟩
def foreignA : Foreign := ⟨⟨1, 6, 33, 0, 1, Config.clockIdentity + 1, 0⟩, 77, 1, masterState.ref, some masterState.ref⟩
def slaveState : State := { masterState with servo := { masterState.servo with
  prof := { profB with source := 0, slaveOnly := true }, ptp := [(3, { ({} : PtpPort) with foreign := [foreignA] })] } }
theorem wit_slave : ptpPort slaveState 3 = true ∧ Machine.portState slaveState 3 = 9 ∧
    intervalDue slaveState slaveState.servo.prof.logDelayReq (slaveState.ptpOf 3).delayAt = true := by
  have p : ptpPort slaveState 3 = true := by decide
  have q : qualified slaveState foreignA = true := by
    have a : foreignA.before = some slaveState.ref := rfl
    have b : foreignA.at_ = slaveState.ref := rfl
    have c : foreignA.d.steps < 255 := by decide
    have d : foreignA.d.gm ≠ Config.clockIdentity := Nat.succ_ne_self _
    have e : 0 < slaveState.servo.prof.announceTimeout * announceT slaveState.servo.prof := by decide
    simp only [qualified, a, b, Option.elim_some, Bool.and_eq_true, decide_eq_true_eq, bne_iff_ne]
    exact ⟨⟨⟨Nat.le_add_right _ _, Nat.lt_add_of_pos_right e⟩, c⟩, d⟩
  have h : ∀ n, n < 16 → n ≠ 3 → portBest slaveState n = none := by decide
  have b : portBest slaveState 3 = some foreignA := by
    simp [portBest, p, show (slaveState.ptpOf 3).foreign = [foreignA] from rfl, q, bestClock]
  have c : clockBest slaveState = some (3, foreignA) := by
    simp [clockBest, List.range_succ, b, h]
  refine ⟨p, ?_, by decide⟩
  simp only [Machine.portState, c, p]
  decide
theorem wit_pps : timeState.servo.prof.source = 1 ∧ true ≠ timeState.servo.prof.ppsEdge := by decide
theorem wit_source : sourceGone { later timeState 100000000000 with servo := { timeState.servo with st := .locked } } = true := by decide
theorem wit_pulse_edge : ∃ s : State, (s.pulse 7).next = some 5 ∧ 5 ≤ tbStamp s :=
  ⟨(later timeState 100).setPulse 7 { ({} : PulseSt) with next := some 5 }, rfl, by decide⟩
theorem wit_evt_in : ((timeState.setCapture 1 { ({} : Capture) with mode := 2 }).capture 1).mode.testBit 1 = true := by decide

def welState (st : WelState) (since : Ticks) : State := (later readyState (2000 * msT)).setWel 1
  { ({} : Wel) with st := st, enable := true, sensing := 0xF0, since := since, exchange := some 0, bitAt := some 0, rate := 2 }
theorem wit_detect : canSense (welState .detect 0) 1 = true ∧ ((welState .detect 0).wel 1).sensedAt = none ∧
    ((welState .detect 0).wel 1).st = .detect ∧ 0x80 &&& ((welState .detect 0).wel 1).fitted ≠ 0 := by decide
theorem wit_lock : ((welState .lock 0).wel 1).st = .lock ∧ ((welState .lock 0).wel 1).sensing.testBit 7 = true := by decide
theorem wit_attempt : ((welState .train 0).wel 1).st = .train ∧ ((welState .train 0).wel 1).since + 20 * msT ≤ (welState .train 0).ref ∧
    ((welState .exchange 0).wel 1).exchange = some 0 ∧ wireOf (welState .exchange 0) ((welState .exchange 0).wel 1) = .blocks ∧ 0 + 10 * msT ≤ (welState .exchange 0).ref := by decide
theorem wit_retry : released (welState .foreign 0) = true ∧ ((welState .foreign 0).wel 1).enable = true ∧
    ((welState .foreign 0).wel 1).since + 1000 * msT ≤ (welState .foreign 0).ref ∧ ((welState .absent 0).wel 1).st = .absent := by
  decide
def capB (s : State) : Capability := ⟨1, 2, 2, 0, true, 0xFF, 0xF0, 1, 0, wallId s, 0, 0, 0⟩
def capBlocks : List (Bool × List Byte) := packetBlocks 3 0 2 (capabilityBytes (capB (welState .exchange 0)))
theorem wit_capability : ((welState .exchange 0).wel 1).st = .exchange ∧ ((welState .exchange 0).wel 1).capAt = none ∧
    (packetIn (welState .exchange 0) 1 3 capBlocks).1 = some (capabilityBytes (capB (welState .exchange 0))) ∧
    (capabilityOf (capabilityBytes (capB (welState .exchange 0)))).elim false (fun m => m.ver == 1 && m.ack &&
      (let w := { (welState .exchange 0).wel 1 with
        partner := m.device % 4, partnerValid := true, partnerFitted := m.fitted, txLocked := m.rxLocked }
       foreignReason ((welState .exchange 0).setWel 1 w) w m == 0)) = true := by decide +kernel
/-- A lane in bit lock at code 3 whose partner sends the pair of R350 four times. -/
def pairBits : List Bool := (sendChars {} (List.replicate 4 pairChars).flatten).1
theorem wit_lane_locks : let s := (welState .lock 0).setWel 1 { (welState .lock 0).wel 1 with rateCode := 3 }
    (s.wel 1).st = .lock ∧ (s.wel 1).sensing.testBit 7 = true ∧ (s.wel 1).rxLocked.testBit 7 = false ∧
    laneReady ((lineIn { s with lineRx := [(15, { ({} : LaneRx) with bit := true })] } 1 7 pairBits).2.laneRx 1 7) = true := by
  decide +kernel

def activeState : State := (later readyState (2000 * msT)).setWel 1
  { ({} : Wel) with st := .active, enable := true, rxLocked := 0x7F, txLocked := 0xFF, txWidth := 8, rxWidth := 4,
                    narrowAt := some 5, rate := 2, partnerFitted := 0xFF }
def openBlocks : List (Bool × List Byte) := packetBlocks 3 0 2 (zeros 40)
theorem wit_tide_message : (packetIn activeState 1 3 openBlocks).1 = some (zeros 40) ∧ (rxLanes (activeState.wel 1)).length = 4 ∧
    2 ∈ rxLanes (activeState.wel 1) ∧ 3 ∈ rxLanes (activeState.wel 1) ∧ (activeState.laneRx 1 3).held = [] := by decide +kernel
theorem wit_active : (activeState.wel 1).st = .active ∧ (activeState.wel 1).rxLocked.testBit 0 = true ∧
    (activeState.wel 1).rxLocked.testBit 7 = false ∧ (activeState.wel 1).fitted.testBit 7 = true ∧
    retrainDue activeState (activeState.wel 1) 7 = true ∧
    tryBegan (activeState.wel 1) 7 + 20 * msT ≤ activeState.ref ∧ (activeState.wel 1).narrowAt = some 5 ∧ 5 + 2 * usT ≤ activeState.ref ∧
    (activeState.wel 1).fenceAt + slotsT (activeState.wel 1).rateCode 1024 ≤ activeState.welT := by decide
/-- The bits that the partner's line encoder makes of a block after the pairs that lock lane 0 at code 3. -/
def blockRun (b : List Byte) : List Bool := (sendAll 3 {} [(true, b)]).1
def lockedRx : LaneRx := { ({} : LaneRx) with bit := true, lock := { ({} : BlockLock) with locked := true } }
def lineLockedState : State := { activeState.setWel 1 { activeState.wel 1 with rateCode := 3 } with lineRx := [(8, lockedRx)] }
theorem wit_blocks : controlGood (widthBlock 0xFF 8 3) = true ∧ leAt (widthBlock 0xFF 8 3) 0 1 = 3 ∧
    (lineIn lineLockedState 1 0 (blockRun (widthBlock 0xFF 8 3))).1 = [(true, widthBlock 0xFF 8 3)] ∧
    controlGood (fenceBlock 0x81 2 0 9) = true ∧ leAt (fenceBlock 0x81 2 0 9) 0 1 = 2 ∧ leAt (fenceBlock 0x81 2 0 9) 2 1 < 16 ∧
    (lineIn lineLockedState 1 0 (blockRun (fenceBlock 0x81 2 0 9))).1 = [(true, fenceBlock 0x81 2 0 9)] ∧
    laneReady ((lineIn lineLockedState 1 0 (blockRun (widthBlock 0xFF 8 3))).2.laneRx 1 0) = true := by decide +kernel
theorem wit_lane_loss : receiving (lineLockedState.wel 1) = true ∧ (lineLockedState.wel 1).rxLocked.testBit 0 = true ∧
    laneReady ((lineIn lineLockedState 1 0 (List.replicate 200 false)).2.laneRx 1 0) = false := by decide +kernel

def mirrorA : Mirror := ⟨2, 9, 0, false, 0, 100, true, some 1, false⟩
def mirrorState : State := (activeState.setWel 1 { activeState.wel 1 with mirrors := [mirrorA] })
theorem wit_mirror_send : ∃ s : State, (s.wel 1).st = .active ∧ mirrorA.waiting = some 1 ∧
    (s.wel 1).mirrors.find? (fun m => m.context == 9 && m.originDevice == s.ring.device && m.waiting.isSome) = some mirrorA :=
  ⟨mirrorState, rfl, rfl, by decide⟩
def mirrorBlocks (dest : Nat) : List (Bool × List Byte) := packetBlocks 0 dest 1 (zeros 16)
theorem wit_mirror_packets : (mirrorState.wel 1).st = .active ∧
    (packetIn mirrorState 1 0 (mirrorBlocks 0)).1 = some (zeros 16) ∧ (packetIn mirrorState 1 0 []).1 = none ∧
    (packetIn mirrorState 1 0 (mirrorBlocks 3)).1 = some (zeros 16) ∧
    (let r := heard (packetIn mirrorState 1 0 (mirrorBlocks 3)).2 1
     sopDest (mirrorBlocks 3) ≠ r.ring.device ∧ sopDest (mirrorBlocks 0) = r.ring.device) ∧
    (let r := heard (packetIn mirrorState 1 3 openBlocks).2 1
     (packetIn mirrorState 1 3 openBlocks).1 = some (zeros 40) ∧ 0 = r.ring.device ∧ 2 ≠ r.ring.device ∧
       (3 : Nat) ≠ r.ring.device) := by decide +kernel

def deskA (st : DeskState) : Desk := { ({} : Desk) with
  cfg := { deskReset with drive := 8, sense := 8 }, st := st, frames := 64, report := true }
def contactA : Contact := ⟨700, 800, 3, 2, 1, 0, false, false, none, 0xFFFF, none, none, .open_, false⟩
def deskState (k : Desk) : State := (later readyState (2000 * secT)).setDesk 3 k
theorem wit_touch_frame : ((deskState (deskA .full)).desk 3).st = .full ∧
    framesDue (deskState (deskA .full)) ((deskState (deskA .full)).desk 3).frameIx 1 = true ∧
    readingsOk (nodeCount ((deskState (deskA .full)).desk 3)) (List.replicate 64 ⟨31, 15⟩) = true ∧
    (List.replicate 4 (List.replicate 8 (0 : Int))).all (fun e => e.length == ((deskState (deskA .full)).desk 3).cfg.sense) = true :=
  ⟨rfl, by decide, by decide, by decide⟩
theorem wit_slow_frame : ((deskState (deskA .slow)).desk 3).st = .slow ∧
    framesDue (deskState (deskA .slow)) ((deskState (deskA .slow)).desk 3).frameIx 30 = true ∧
    readingsOk (superCount ((deskState (deskA .slow)).desk 3)) (List.replicate 8 ⟨31, 15⟩) = true :=
  ⟨rfl, by decide, by decide⟩
def nodeA : Node := { ({} : Node) with value := 9, negRun := List.replicate 60 9, satRun := 240 }
theorem wit_nodes : ∃ s : State, tfind (s.desk 3).nodes 63 = some nodeA ∧ (s.desk 3).st = .full ∧ negSteady (s.desk 3) nodeA = true ∧
    nodeA.satRaised = false ∧ 240 ≤ nodeA.satRun :=
  ⟨deskState { deskA .full with nodes := [(63, nodeA)], noiseRms := 3 }, rfl, rfl, by decide +kernel, rfl, by decide⟩
theorem wit_threshold : thresholdDue ((deskState (deskA .full)).desk 3) = true := by decide
theorem wit_noise_entry : ((deskState { deskA .full with noisyRun := 3 }).desk 3).st = .full ∧
    noiseBegins ((deskState { deskA .full with noisyRun := 3 }).desk 3) = true := by decide
theorem wit_noise_exit : ((deskState { deskA .baselining with cn := true, quietRun := 480 }).desk 3).st = .baselining ∧
    noiseEnds ((deskState { deskA .baselining with cn := true, quietRun := 480 }).desk 3) = true := by decide
theorem wit_slow_entry : ((deskState (deskA .full)).desk 3).cfg.slowEn = true ∧ ((deskState (deskA .full)).desk 3).cfg.slowAfterS ≠ 0 ∧
    ((deskState (deskA .full)).desk 3).contacts = [] ∧ ((deskState (deskA .full)).desk 3).lastContact +
      ((deskState (deskA .full)).desk 3).cfg.slowAfterS * secT ≤ (deskState (deskA .full)).aon := by decide
theorem wit_stuck : ∃ s : State, tfind (s.desk 3).contacts 9 = some contactA ∧ contactA.stuck = false ∧
    contactA.since + (s.desk 3).cfg.stuckS * secT < s.aon :=
  ⟨deskState { deskA .full with contacts := [(9, contactA)] }, rfl, rfl, by decide⟩
theorem wit_report : released (deskState { deskA .full with frameIx := 10000000 }) = true ∧
    ((deskState { deskA .full with frameIx := 10000000 }).desk 3).report = true ∧
    reportsReady (deskState { deskA .full with frameIx := 10000000 }) = true := by decide
def welsUp : State := (readyState.setWel 0 { ({} : Wel) with st := .active }).setWel 1 { ({} : Wel) with st := .active }
theorem wit_packet_on : (welsUp.wel 1).st = .active ∧ (welsUp.wel (1 - 1)).st = .active ∧ (7 : Nat) ≠ welsUp.ring.device := by decide
def returnState : State := welsUp.setCtx 4 { ({} : Ctx) with state := .opened, p := { noParams with type := 2, returnPort := 9 } }
def touchA : List Byte := touchPayload 4 2 0 [⟨9, 1, 3, 700, 800, 7⟩]
def touchBlocks (dest : Nat) : List (Bool × List Byte) := packetBlocks 2 dest 1 touchA
theorem wit_touch_packet : (packetIn welsUp 1 2 (touchBlocks 3)).1 = some touchA ∧ (packetIn welsUp 1 2 []).1 = none ∧
    (let u := (packetIn welsUp 1 2 (touchBlocks 3)).2; sopDest (touchBlocks 3) ≠ u.ring.device ∧ (u.wel (1 - 1)).st = .active) := by
  decide +kernel
theorem wit_packet_here : (returnState.wel 0).st = .active ∧ (packetIn returnState 0 2 (touchBlocks 0)).1 = some touchA ∧
    sopDest (touchBlocks 0) = (packetIn returnState 0 2 (touchBlocks 0)).2.ring.device ∧
    ∃ p, touchPacketOf 0 touchA = some p ∧ returns ((packetIn returnState 0 2 (touchBlocks 0)).2.ctx p.context) = true := by
  refine ⟨by decide, by decide +kernel, by decide +kernel, ⟨0, 4, 2, 0, 0, [⟨9, 1, 3, 700, 800, 7⟩]⟩, by decide +kernel, by decide +kernel⟩

def deskOn (b : Bool) : State := deskState { deskA .full with cfg := { deskReset with enable := b } }
theorem wit_touch_config : Runs img 0x0D01 (deskOn true) [] (deskOn true) ∧ deskConfigOk deskReset = true ∧
    ((deskOn true).desk 3).cfg.enable = true ∧ geometryDiffers ((deskOn true).desk 3).cfg { deskReset with sense := 8 } = true ∧
    deskConfigOk { deskReset with sense := 8 } = true ∧ geometryDiffers ((deskOn true).desk 3).cfg deskReset = false :=
  ⟨runs_img _, by decide, by decide, by decide, by decide, by decide⟩
theorem wit_touch_enable : Runs img 0x0D01 (deskOn false) [] (deskOn false) ∧ ((deskOn false).desk 3).cfg.enable = false ∧
    Runs img 0x0D02 (deskOn false) [] (deskOn false) := ⟨runs_img _, by decide, runs_img _⟩
def routeA : Route := ⟨false, true, 0, 0, 0, 12288, 8192, 0, 0, 640, 480⟩
def routeState : State := (headState.setHead 0 { hd0 with force := { hd0.force with place := some (0, 0) } }).setDesk 3 { ({} : Desk) with routes := [(7, routeA)] }
theorem wit_route : Runs img 0x0D03 routeState [] routeState ∧ routeBad routeState (routeState.desk 3) 7 routeA = false ∧
    thas (routeState.desk 3).routes 7 = true ∧ thas (routeState.desk 3).routes 0 = false :=
  ⟨runs_img _, by decide, by decide, by decide⟩

theorem wit_trim_run : Runs img 0x0E01 readyState [] readyState ∧ readyState.trim.run = none ∧ readyState.clk.refclk = true ∧
    Runs img 0x0E02 readyState [] readyState ∧ Runs img 0x0E04 readyState [] readyState ∧ Runs img 0x0E03 readyState [] readyState :=
  ⟨runs_img _, rfl, rfl, runs_img _, runs_img _, runs_img _⟩
def trimRunA (left : List (Nat × Nat)) : TrimRun :=
  ⟨0, 8, none, false, left, [(769, [(1, 700000)])], [], ⟨[], [], [], 0, 0⟩⟩
def trimState (left : List (Nat × Nat)) : State := { later readyState (2 * secT) with
  trim := { readyState.trim with run := some (trimRunA left), tempAt := some secT, stepAt := some 0,
                                 sets := [(769, ⟨3, 1, 0, 5, 0, 0⟩)], write := some ⟨0, [], 0, none⟩ } }
theorem wit_trim_point : trimPointOk 3 1 = true ∧ (trimState [(3, 1)]).trim.run = some (trimRunA [(3, 1)]) ∧
    mayMeasure (trimState [(3, 1)]) (trimRunA [(3, 1)]) 3 1 4 = true ∧ stepDue (trimState []) = true ∧
    mayMeasure (trimState [(2, 15)]) (trimRunA [(2, 15)]) 2 15 0 = true ∧ trimPointOk 2 15 = true ∧
    (trimRunA []).left = [] ∧ (trimState []).trim.write = some ⟨0, [], 0, none⟩ := by decide
theorem wit_trim_swap : let s := trimState []
    let old := (tfind s.trim.deferred (trimKey 3 1)).getD (setInForce s 3 1)
    (tfind (tget [] (trimRunA []).got (trimKey 3 1)) 1).elim false (elementSound 3) = true ∧ old.select.testBit 1 = false ∧
    old.select.testBit 2 = true ∧ waits s 3 1 = false := by decide
theorem wit_temperature : released (trimState []) = true ∧
    (∀ t, (trimState []).trim.tempAt = some t → t + secT ≤ (trimState []).aon) :=
  ⟨by decide, fun t h => by cases h; decide⟩
def powerState (p : Power) : State := { later readyState (4000 * secT) with power := p }
theorem wit_avs : (∀ t, (powerState { ({} : Power) with sampledAt := some 0 }).power.sampledAt = some t →
    t + 10 * usT ≤ (powerState { ({} : Power) with sampledAt := some 0 }).ref) ∧ released (powerState {}) = true :=
  ⟨fun t h => by cases h; decide, by decide⟩
theorem wit_vout : (powerState { ({} : Power) with voutAt := some 5 }).power.voutAt = some 5 ∧
    5 + 40 * usT ≤ (powerState { ({} : Power) with voutAt := some 5 }).ref := by decide
theorem wit_wake : (powerState { ({} : Power) with state := 2 }).power.state ≠ 0 ∧
    (powerState { ({} : Power) with state := 2 }).power.waking = false ∧
    exitDone (powerState { ({} : Power) with state := 1, waking := true }) = true := by decide
theorem wit_rest_deep : restReady (powerState { ({} : Power) with budgets := ⟨3600, 3600, 3600, 3600, 10⟩ }) = true ∧
    powerTarget (powerState { ({} : Power) with budgets := ⟨3600, 3600, 3600, 3600, 10⟩ }).power.budgets = 3 := by decide
theorem wit_rest_dark : restReady (powerState { ({} : Power) with budgets := ⟨120, 0, 0, 0, 10⟩ }) = true ∧
    powerTarget (powerState { ({} : Power) with budgets := ⟨120, 0, 0, 0, 10⟩ }).power.budgets = 1 := by decide

theorem wit_host : hostUp readyState = true ∧ (∀ i, readyState.irq.mask.getLsbD i = true → (0xFFFFFFFF#32).getLsbD i = true) ∧
    (1#32).getLsbD 0 = true ∧ readyState.evr.enable = false ∧ (readyState.mailbox 7).state = 0 ∧ readyState.evr.fullLost = 0 :=
  ⟨by decide, fun i h => by simp [readyState, State.reset] at h ⊢, by decide, by decide, by decide, by decide⟩
theorem wit_ack : ∃ s : State, hostUp s = true ∧ (s.mailbox 7).state = 2 ∧ (2#32).getLsbD 1 = true :=
  ⟨readyState.setMailbox 7 { ({} : Mailbox) with state := 2 }, by decide, by decide, by decide⟩
theorem wit_evr_cons : (63#32).toNat % 65536 < evrSize readyState.evr := by decide
theorem wit_sluice : ∃ s : State, portUp s 15 = true ∧ (s.port 15).sluiceEn = true ∧
    tokens 64 ≤ (fillBuckets (s.port 15) s.net).sluiceTokens :=
  ⟨readyState.setPort 15 { ({} : Port) with exists_ := true, link := true, sluiceEn := true, sluiceTokens := tokens 65536 },
    by decide, by decide, by decide⟩

/-- Table entries and bytes of sections laid one after the other from `off`. -/
def layout : Nat → List (Nat × List Byte) → List Byte × List Byte
  | _, [] => ([], [])
  | off, (t, l) :: r =>
    let x := layout (off + l.length) r
    (leBytes 4 t ++ leBytes 4 off ++ leBytes 4 l.length ++ leBytes 4 (crc 1 l) ++ x.1, l ++ x.2)
/-- An image of R443 to R445 with the given sections, whose sizes are multiples of 8. -/
def imageOf (kind bedCrc : Nat) (secs : List (Nat × List Byte)) : List Byte :=
  let x := layout (64 + 16 * secs.length) secs
  let n := 64 + 16 * secs.length + x.2.length + 32
  let l := leBytes 4 (if kind = 0 then 0x59424544 else 0x594D4B53) ++ leBytes 2 1 ++ [byte kind, 0#8] ++ leBytes 4 n ++
    leBytes 2 secs.length ++ leBytes 2 0x0302 ++ leBytes 4 0 ++ leBytes 4 1 ++ leBytes 4 bedCrc ++ zeros 36 ++ x.1 ++ x.2 ++ zeros 28
  l ++ leBytes 4 (crc 1 l)
theorem wit_bed_load : ∃ s, Runs img 0x0201 s [] s ∧ s.start.failedChans = [] ∧ dykePermits s idWarden 0 4208 false = true :=
  ⟨hostWritable, runs_img _, rfl, by decide⟩
def skimImage : List Byte := imageOf 1 0 [(0x10, [])]
def skimStoreState : State := (devWrite { hostWritable with cfg := { hostWritable.cfg with
  bed := some { bedOf [] with crc := 0 } } } idWarden 0x10000 skimImage).2
theorem wit_skim_image : skimFault (devRead skimStoreState idWarden 0x10000 112).2.2
    (devRead skimStoreState idWarden 0x10000 112).1 112 = none := by decide +kernel
theorem wit_skim_store : ∃ s, Runs img 0x0202 s [] s ∧ skimTarget s 0xFF = some 0 ∧ slotLive s 0 = false ∧
    dykePermits s idWarden 0x10000 112 false = true ∧
    skimFault (devRead s idWarden 0x10000 112).2.2 (devRead s idWarden 0x10000 112).1 112 = none :=
  ⟨skimStoreState, runs_img _, by decide +kernel, by decide +kernel, by decide +kernel, wit_skim_image⟩
def skimA : Skim := ⟨112, 0, 0, 0, false, 3, []⟩
def skimState : State := { readyState with cfg := { readyState.cfg with
  skims := [(31, skimA)], bed := some { (bedOf []) with crc := 0 }, applies := [⟨31, 9, true, true⟩] } }
theorem wit_skim_apply : ∃ s, Runs img 0x0203 s [] s ∧ applyFault s 31 2 = none ∧
    peersFault (answersOf ⟨31, false, true, 2, []⟩ s) = none ∧ tfind s.cfg.skims 31 = some skimA ∧
    s.cfg.applies.any (fun x => x.tide == 2) = false ∧ s.cfg.applies.length < 8 ∧ 2 ≤ callerRole s img :=
  ⟨skimState, runs_img _, by decide, by decide, rfl, by decide, by decide, by decide⟩
def dualState : State := { skimState with cfg := { skimState.cfg with skims := [(31, { skimA with dual := true })] } }
theorem wit_dual_apply : ∃ s, Runs img 0x0203 s [] s ∧ applyFault s 31 2 = none ∧
    tfind s.cfg.skims 31 = some { skimA with dual := true } ∧ s.approvals.any (fun x => x.skim == 31) = false ∧
    s.approvals.length < 4 := ⟨dualState, runs_img _, by decide, rfl, by decide, by decide⟩
def approvalState : State := { skimState with approvals := [⟨31, 9, 1, 1, 0⟩] }
theorem wit_approve : ∃ s x, Runs img 0x0204 s [] s ∧ s.approvals.find? (fun x => x.skim == 31) = some x ∧
    (openSession s img).map (·.keySlot) ≠ some x.keySlot ∧ x.tide = 9 ∧ s.ref < x.at_ + 30 * secT ∧ s.tide.count + 2 ≤ x.tide :=
  ⟨approvalState, _, runs_img _, rfl, by decide, by decide, by decide, by decide⟩
theorem wit_config_query : Runs img 0x0205 skimState [] skimState ∧ tfind skimState.cfg.skims 31 = some skimA := ⟨runs_img _, rfl⟩
def skimBlocks (dest : Nat) : List (Bool × List Byte) := packetBlocks 1 dest 1 (zeros 24)
theorem wit_skim_message : (welsUp.wel 1).st = .active ∧ (packetIn welsUp 1 1 (skimBlocks 0)).1 = some (zeros 24) ∧
    (packetIn welsUp 1 1 (skimBlocks 3)).1 = some (zeros 24) ∧
    (let u := (packetIn welsUp 1 1 (skimBlocks 0)).2; sopDest (skimBlocks 0) = u.ring.device ∧ u.start.warden = .ready) ∧
    (let u := (packetIn welsUp 1 1 (skimBlocks 3)).2; sopDest (skimBlocks 3) ≠ u.ring.device ∧ (u.wel (1 - 1)).st = .active) := by
  decide +kernel

def errA (cls : Nat) : ErrRec := ⟨0x0070, cls, 65535, 1, 0, 0, 0, 0, 0⟩
theorem wit_err_read : Runs img 0x0F01 { readyState with errs := [errA 0] } [] { readyState with errs := [errA 0] } ∧
    Runs img 0x0F02 { readyState with errs := [errA 0] } [] { readyState with errs := [errA 0] } ∧
    ([errA 0].any (fun r => r.id == 65535)) = true ∧ (∀ r ∈ [errA 0], r.cls < 2) := ⟨runs_img _, runs_img _, by decide, by decide⟩
theorem wit_err_ack_safe : ∃ s, Runs img 0x0F02 s [] s ∧ s.start.safe = true ∧ 2 ≤ callerRole s img ∧
    s.errs.any (fun r => r.id == 65535) = true ∧ ∃ r ∈ s.errs, r.cls = 3 :=
  ⟨{ readyState with start := { readyState.start with safe := true }, errs := [errA 3] }, runs_img _, rfl, by decide, by decide,
    _, List.mem_cons_self, rfl⟩
theorem wit_references : readyState.start.boot ≠ .porst ∧ readyState.clk.refclk = true ∧ readyState.trim.run = none ∧
    released readyState = true ∧ readyState.clk.lrefA = true ∧ readyState.clk.lrefB = true ∧ hostUp readyState = true ∧
    readyState.start.warden = .ready ∧ readyState.start.alertArmed = true := by decide
def calmState : State := { readyState with start := { readyState.start with alertArmed := false } }
def zeroedSensors (s : State) : State :=
  { s with trim := { s.trim with sets := (List.range 20).map (fun i => (trimKey 2 i, ⟨2, i, 1, 0, 0, 0⟩)) } }
def readings20 (x : Int) : List Int := List.replicate 19 0 ++ [x]
theorem wit_thermal : readyState.start.checkedAt = none ∧ (zeroedSensors readyState).start.alertArmed = true ∧
    (zeroedSensors calmState).start.alertArmed = false ∧ (zeroedSensors calmState).start.boot ≠ .porst ∧
    hottest (zeroedSensors readyState) (readings20 1759) = (1759, 19) ∧
    hottest (zeroedSensors readyState) (readings20 1760) = (1760, 19) ∧
    hottest (zeroedSensors readyState) (readings20 1840) = (1840, 19) ∧
    hottest (zeroedSensors calmState) (readings20 1999) = (1999, 19) ∧
    hottest (zeroedSensors calmState) (readings20 2000) = (2000, 19) := by decide +kernel
theorem wit_refclk_return : ∃ s : State, s.clk.refclk = false ∧ s.clk.aonRing = true :=
  ⟨{ readyState with clk := { readyState.clk with refclk := false, aonRing := true } }, rfl, rfl⟩
theorem wit_refclk_run : ∃ s : State, s.start.boot ≠ .porst ∧ s.clk.refclk = true ∧ s.trim.run.bind (·.caller) = some img :=
  ⟨{ readyState with trim := { readyState.trim with run := some { trimRunA [] with caller := some img } } }, by decide, rfl, rfl⟩
theorem wit_lref_links : (portState.port 3).link = true ∧ released portState = true ∧
    ((raiseErr { welsUp with clk := { welsUp.clk with lrefB := false } } 0x0002 1 0 0).wel 1).st ≠ .disabled ∧
    released welsUp = true := by decide +kernel

def bootState (b : Boot) : State := { State.reset with start := { State.reset.start with boot := b } }
theorem wit_boot : (bootState .porst).start.boot = .porst ∧ (bootState .dieUp).start.boot = .dieUp ∧
    (bootState .running).start.boot = .running ∧ (bootState .running).start.trained = false ∧
    (bootState .memory).start.warden = .booting ∧ (bootState .warm).start.boot = .warm ∧
    (bootState .warm).start.warmCause ≠ 2 := by decide
theorem wit_restart_boot : ∃ s : State, s.start.warden = .restarting ∧ released s = true ∧ s.start.restartImage = false ∧
    s.start.boot ≠ .halted :=
  ⟨{ readyState with start := { readyState.start with warden := .restarting } }, rfl, by decide, rfl, by decide⟩
def restartState : State := { later readyState (1200 * msT) with start := { readyState.start with
  warden := .restarting, restartImage := true, trained := true } }
theorem wit_restart : restartState.start.warden = .restarting ∧ restartState.start.restartImage = true ∧
    restartState.start.boot = .up ∧ restartLate restartState = true ∧ (31 : Nat) < 32 := by decide
theorem wit_retrain_memory : ∃ s : State, s.start.boot = .running ∧ s.start.trained = true :=
  ⟨{ State.reset with start := { State.reset.start with boot := .running, trained := true } }, rfl, rfl⟩
theorem wit_deep : ∃ s : State, s.start.boot ≠ .porst ∧ leavingDeep s = true :=
  ⟨{ bootState .warm with power := { State.reset.power with state := 3, waking := true } }, by decide, by decide⟩

theorem wit_tide_due : tideDue (later readyState (2 * secT)) = true ∧ 0 < readyState.tide.num := by decide

theorem wit_fatal : errClass 0x0109 = 3 ∧ ∃ s : State, s.start.handling.isSome = true ∧ s.start.warden = .ready :=
  ⟨by decide, { readyState with start := { readyState.start with handling := some 0 } }, rfl, by decide⟩
theorem wit_fatal_booting : (bootState .dieUp).start.warden ≠ .ready := by decide

end Sys2Proof.Tests
end

section
/-! PROOFS. TIDE_SET against the tide rate in force and the heads that are enabled (R25, R334, R547). -/

namespace Sys2Proof.Proofs

open Sys2Proof Sys2Proof.Machine Sys2Proof.Safety Sys2Proof.Laws

/-- A TIDE_SET that runs completes with the reply of its effect on the state that it runs on. -/
theorem exec_tideSet_runs {c : Caller} {p : TideSetP} {s a : State} {key : List Byte} (h : Runs c 0x0A04 s key a) :
    exec (.tideSet c p) s = .next (done c 0x0A04 key (cmdTideSet p a)) :=
  congrArg Host.Outcome.next (command_runs h)

@[simp] theorem headEnabled_iff {h : Head} : headEnabled h = true ↔ h.st ≠ .disabled := by
  simp [headEnabled]

/-- The test of TIDE_SET on the head table finds an enabled head exactly when there is one (R25). -/
theorem any_headEnabled_iff {heads : Tab Head} :
    heads.any (fun e => headEnabled e.2) = true ↔ ∃ e ∈ heads, e.2.st ≠ .disabled := by
  simp only [List.any_eq_true, headEnabled_iff]

section
variable {p : TideSetP} {a : State} (hr : tideRateOk p.num p.den = true)
include hr

/-- The rate in force again is accepted, whatever the heads do. -/
theorem cmdTideSet_rate_in_force (hn : p.num = a.tide.num) (hd : p.den = a.tide.den) :
    cmdTideSet p a = ok a (leBytes 4 (1200000000 * p.den / p.num)) := by
  rw [cmdTideSet, if_neg (by simp [hr]), if_pos ⟨hn, hd⟩]

/-- A valid new rate: the heads decide between BUSY and a rate that pends for the next tide (R25, R547). -/
theorem cmdTideSet_new_rate (hne : p.num ≠ a.tide.num ∨ p.den ≠ a.tide.den) :
    cmdTideSet p a =
      if a.heads.any (fun e => headEnabled e.2) then refuse a stBusy
      else ok { a with tide := { a.tide with pendRate := some (p.num, p.den) } } (leBytes 4 (1200000000 * p.den / p.num)) := by
  rw [cmdTideSet, if_neg (by simp [hr]), if_neg (not_and_or.mpr hne)]

theorem cmdTideSet_busy_of_enabled_head (hne : p.num ≠ a.tide.num ∨ p.den ≠ a.tide.den)
    (hen : ∃ e ∈ a.heads, e.2.st ≠ .disabled) : cmdTideSet p a = refuse a stBusy := by
  rw [cmdTideSet_new_rate hr hne, if_pos (any_headEnabled_iff.mpr hen)]

theorem cmdTideSet_pends_of_disabled_heads (hne : p.num ≠ a.tide.num ∨ p.den ≠ a.tide.den)
    (hdis : ∀ e ∈ a.heads, e.2.st = .disabled) :
    cmdTideSet p a = ok { a with tide := { a.tide with pendRate := some (p.num, p.den) } }
      (leBytes 4 (1200000000 * p.den / p.num)) := by
  have hnone : ¬ ∃ e ∈ a.heads, e.2.st ≠ .disabled := fun ⟨e, he, hen⟩ => hen (hdis e he)
  rw [cmdTideSet_new_rate hr hne, if_neg (mt any_headEnabled_iff.mp hnone)]

end

/-- Settles O47: a valid rate meets one of three cases of TIDE_SET, a new rate with an enabled head, a new rate with none, and
the rate in force (R25, R334, R547). -/
theorem tideSetIsBusyWhileAHeadIsEnabled : Obligations.TideSetIsBusyWhileAHeadIsEnabled := by
  unfold Obligations.TideSetIsBusyWhileAHeadIsEnabled
  refine ⟨?busy, ?refusal, ?pends, ?inForce⟩
  case busy =>
    intro c p s a key hrun hr hne hen
    rw [exec_tideSet_runs hrun, cmdTideSet_busy_of_enabled_head hr hne hen]
  case refusal => exact fun _ => ⟨rfl, rfl⟩
  case pends =>
    intro c p s a key hrun hr hne hdis
    rw [exec_tideSet_runs hrun, cmdTideSet_pends_of_disabled_heads hr hne hdis]
  case inForce =>
    intro c p s a key hrun hr hn hd
    rw [exec_tideSet_runs hrun, cmdTideSet_rate_in_force hr hn hd]

end Sys2Proof.Proofs
end

section
/-! PROOFS. The FUTURE cause of the record that a buffer bears at its completion (R46). -/

namespace Sys2Proof.Proofs

open Sys2Proof Sys2Proof.Machine Sys2Proof.Safety Sys2Proof.Laws

/-- The causes that a completion keeps and adds: those the writer gives, CHECK_BAD by its comparison and FUTURE (R46, R51). -/
theorem makeRecord_causes (s : State) (n : Nat) (d : Done) (content : Option Nat) :
    (makeRecord s n d content).1.causes =
      d.causes ||| (if d.good = some false then 32 else 0) ||| (if isFuture d.capS d.capNs s.tb then 64 else 0) :=
  rfl

/-- CHECK_BAD added to causes below bit 6 stays below bit 6. -/
theorem causes_or_checkBad_lt {causes : Nat} (h : causes < 64) (good : Option Bool) :
    causes ||| (if good = some false then 32 else 0) < 2 ^ 6 :=
  Nat.or_lt_two_pow h (by split <;> decide)

/-- FUTURE added to causes below bit 6 is what bit 6 says. -/
theorem testBit_six_or_future {causes : Nat} (h : causes < 2 ^ 6) (future : Bool) :
    (causes ||| (if future then 64 else 0)).testBit 6 = future := by
  rw [Nat.testBit_or, Nat.testBit_lt_two_pow h, Bool.false_or]
  cases future
  case false => exact Nat.zero_testBit 6
  case true => exact Nat.testBit_two_pow_self (n := 6)

/-- Settles O41: of the three parts of the causes only FUTURE reaches bit 6, and `isFuture` compares the capture time with the
time base (R46). -/
theorem futureCauseMarksCaptureTimesAhead : Obligations.FutureCauseMarksCaptureTimesAhead := by
  unfold Obligations.FutureCauseMarksCaptureTimesAhead
  intro s n d x h
  rw [makeRecord_causes, testBit_six_or_future (causes_or_checkBad_lt h d.good), isFuture]

end Sys2Proof.Proofs
end

section
/-! PROOFS. What the channels and the voter can put into a span word (R79, R80, R82). -/

namespace Sys2Proof.Proofs

open Sys2Proof Sys2Proof.Machine Sys2Proof.Safety Sys2Proof.Laws

@[simp] theorem testBit_causeIf (c : Bool) (bit n : Nat) : (causeIf c bit).testBit n = (c && decide (bit = n)) := by
  cases c
  case false => simp [causeIf]
  case true => simp [causeIf, Nat.one_shiftLeft, Nat.testBit_two_pow]

/-- The causes that a completion gave reach bits 0 to 6 only (R79). -/
theorem testBit_noMajority_recordCauses (i : SpanInput) (r : FreshRecord) : (recordCauses i r).testBit 14 = false := by
  have hborne : (r.causes % 128).testBit 14 = false := Nat.testBit_mod_two_pow r.causes 7 14
  simpa [recordCauses] using hborne

theorem testBit_noMajority_spanCauses (i : SpanInput) : (spanCauses i).testBit 14 = false := by
  cases hrec : i.record with
  | none => simp [spanCauses, hrec]
  | some r => simp [spanCauses, hrec, testBit_noMajority_recordCauses i r]

/-- A bound of every number of a list bounds the greatest. -/
theorem maxNat_le {l : List Nat} {b : Nat} (h : ∀ x ∈ l, x ≤ b) : maxNat l ≤ b :=
  List.foldlRecOn l max (motive := (· ≤ b)) (Nat.zero_le b) fun _ hm x hx => max_le hm (h x hx)

/-- No cause bit gives a reserved verdict (R63, R64). -/
theorem causeVerdict_le_five : ∀ bit < 16, nth 0 causeVerdicts bit ≤ 5 := by decide

theorem verdictOf_le_five (causes : Nat) : verdictOf causes ≤ 5 := by
  refine maxNat_le fun x hx => ?_
  obtain ⟨bit, hbit, rfl⟩ := List.mem_map.mp hx
  split
  · exact causeVerdict_le_five bit (List.mem_range.mp hbit)
  · exact Nat.zero_le 5

theorem testBit_noMajority_noMajorityWord (w : Nat) (l : List Nat) : (noMajorityWord w l).causes.testBit 14 = true := by
  rw [noMajorityWord, Nat.testBit_or, Nat.one_shiftLeft, Nat.testBit_two_pow_self, Bool.or_true]

/-- What a vote can give: the word of a channel with a majority, or the word used without one (R82). -/
theorem voteWords_cases (w : Nat) (l : List (Nat × Nat)) :
    ((voteWords w l).majority = true ∧ ∃ e ∈ l, (voteWords w l).word = unpackWord e.2) ∨
      ((voteWords w l).majority = false ∧ (voteWords w l).word = noMajorityWord w (l.map (·.2))) := by
  fun_cases voteWords w l
  case case1 | case2 | case5 => exact .inl ⟨rfl, _, .head _, rfl⟩
  case case3 => exact .inl ⟨rfl, _, .tail _ (.head _), rfl⟩
  case case4 | case6 | case7 => exact .inr ⟨rfl, rfl⟩

/-- Settles O30: of the conditions of R79 none sets bit 14 and none gives a reserved verdict, and a vote gives the word of a
channel or the word used without a majority, which carries bit 14 (R80, R82). -/
theorem channelsNeverSetNoMajority : Obligations.ChannelsNeverSetNoMajority := by
  unfold Obligations.ChannelsNeverSetNoMajority
  refine ⟨?channel, ?without, ?majority⟩
  case channel => exact fun i _ => ⟨testBit_noMajority_spanCauses i, verdictOf_le_five (spanCauses i)⟩
  case without =>
    intro w l hno
    obtain ⟨hyes, -⟩ | ⟨-, hword⟩ := voteWords_cases w l
    · rw [hno] at hyes
      contradiction
    · rw [hword, testBit_noMajority_noMajorityWord]
  case majority =>
    intro w l hyes
    obtain ⟨-, hword⟩ | ⟨hno, -⟩ := voteWords_cases w l
    · exact hword
    · rw [hyes] at hno
      contradiction

end Sys2Proof.Proofs
end

section
/-! PROOFS. The reduction of a component to a head's output depth (R131). -/

namespace Sys2Proof.Proofs

open Sys2Proof Sys2Proof.Machine Sys2Proof.Safety Sys2Proof.Laws

/-- The quotients of `reduceDepth` are the shifts of R131: 4 is 2 ^ 2. -/
theorem reduceDepth_ten (x : Nat) : reduceDepth true x = min 1023 ((x + 2) >>> 2) := by
  rw [reduceDepth, if_pos rfl, Int.toNat_natCast, Nat.shiftRight_eq_div_pow]

/-- The 8-bit depth, where 16 is 2 ^ 4. -/
theorem reduceDepth_eight (x : Nat) : reduceDepth false x = min 255 ((x + 8) >>> 4) := by
  rw [reduceDepth, if_neg Bool.false_ne_true, Int.toNat_natCast, Nat.shiftRight_eq_div_pow]

/-- Settles O35: `reduceComp` reduces each component by itself, and at either depth `reduceDepth` is the shift of R131. -/
theorem crustReducesComponents : Obligations.CrustReducesComponents := by
  unfold Obligations.CrustReducesComponents
  intro t a b c _ _ _
  rw [reduceComp]
  cases t.depth
  case true => simp only [reduceDepth_ten, if_true]
  case false => simp only [reduceDepth_eight, Bool.false_eq_true, if_false]

end Sys2Proof.Proofs
end

section
/-! PROOFS. Reading back a parameter block that is written field by field in little-endian bytes (R3). -/

namespace Sys2Proof.Proofs

open Sys2Proof Sys2Proof.Machine

@[simp] theorem length_leBytes (k n : Nat) : (leBytes k n).length = k := by
  induction k generalizing n with
  | zero => rfl
  | succ k ih => rw [leBytes, List.length_cons, ih]

@[simp] theorem length_zeros (n : Nat) : (zeros n).length = n :=
  List.length_replicate

theorem leNat_cons_mod (b : Byte) (l : List Byte) : leNat (b :: l) % 256 = b.toNat := by
  rw [leNat, Nat.add_mul_mod_self_left, Nat.mod_eq_of_lt b.isLt]

theorem leNat_cons_div (b : Byte) (l : List Byte) : leNat (b :: l) / 256 = leNat l := by
  rw [leNat, Nat.add_mul_div_left _ _ (by decide), Nat.div_eq_of_lt b.isLt, Nat.zero_add]

/-- Leaving out the first bytes leaves out the low digits of the number. -/
theorem leNat_drop (l : List Byte) (o : Nat) : leNat (l.drop o) = leNat l / 256 ^ o := by
  induction o generalizing l with
  | zero => rw [List.drop_zero, pow_zero, Nat.div_one]
  | succ o ih =>
    cases l with
    | nil => rw [List.drop_nil, leNat, Nat.zero_div]
    | cons b l => rw [List.drop_succ_cons, ih, pow_succ', ← Nat.div_div_eq_div_mul, leNat_cons_div]

/-- The first bytes spell the low digits of the number. -/
theorem leNat_take (l : List Byte) (k : Nat) : leNat (l.take k) = leNat l % 256 ^ k := by
  induction k generalizing l with
  | zero => rw [List.take_zero, leNat, pow_zero, Nat.mod_one]
  | succ k ih =>
    cases l with
    | nil => rw [List.take_nil, leNat, Nat.zero_mod]
    | cons b l => rw [List.take_succ_cons, leNat, ih, pow_succ', Nat.mod_mul, leNat_cons_mod, leNat_cons_div]

theorem leNat_leBytes (k n : Nat) : leNat (leBytes k n) = n % 256 ^ k := by
  induction k generalizing n with
  | zero => rw [leBytes, leNat, pow_zero, Nat.mod_one]
  | succ k ih => rw [leBytes, leNat, ih, pow_succ', Nat.mod_mul, byte, BitVec.toNat_ofNat]

/-- Only the bits below the end of a field count. -/
theorem field_eq_mod_div (n lo w : Nat) : field n lo w = n % 2 ^ (lo + w) / 2 ^ lo := by
  rw [field, pow_add, Nat.mod_mul_right_div_self]

theorem field_congr {n m lo w bits : Nat} (h : n % 2 ^ bits = m % 2 ^ bits) (hw : lo + w ≤ bits) :
    field n lo w = field m lo w := by
  have hdvd : 2 ^ (lo + w) ∣ 2 ^ bits := Nat.pow_dvd_pow 2 hw
  rw [field_eq_mod_div, field_eq_mod_div, ← Nat.mod_mod_of_dvd n hdvd, h, Nat.mod_mod_of_dvd m hdvd]

theorem field_zero_of_lt {v w : Nat} (hv : v < 2 ^ w) : field v 0 w = v := by
  rw [field, pow_zero, Nat.div_one, Nat.mod_eq_of_lt hv]

theorem two_pow_eight_mul (k : Nat) : 2 ^ (8 * k) = 256 ^ k :=
  pow_mul 2 8 k

theorem fld_eq_field_div (n o b w : Nat) : fld n o b w = field (n / 256 ^ o) b w := by
  rw [fld, field, field, pow_add, two_pow_eight_mul, ← Nat.div_div_eq_div_mul]

/-- A single bit of a block is a field of width 1. -/
theorem bit1_eq_of_fld {n o b : Nat} {flag : Bool} (h : fld n o b 1 = b2n flag) : bit1 n o b = flag := by
  have hbit : n / 2 ^ (8 * o + b) % 2 = b2n flag := h
  rw [bit1, Nat.testBit_eq_decide_div_mod_eq, hbit]
  cases flag <;> rfl

section
variable {l : List Byte} {o k v : Nat} (hpart : (l.drop o).take k = leBytes k v)
include hpart

/-- A field of a block lies where its part of the block is written. -/
theorem fld_of_part {b w : Nat} (hw : b + w ≤ 8 * k) : fld (leNat l) o b w = field v b w := by
  have hmod : leNat l / 256 ^ o % 2 ^ (8 * k) = v % 2 ^ (8 * k) := by
    rw [two_pow_eight_mul, ← leNat_drop, ← leNat_take, hpart, leNat_leBytes]
  rw [fld_eq_field_div, field_congr hmod hw]

/-- A number that fits its field is read back. -/
theorem fld_of_part_of_lt {w : Nat} (hw : w ≤ 8 * k) (hv : v < 2 ^ w) : fld (leNat l) o 0 w = v := by
  rw [fld_of_part hpart (by rwa [Nat.zero_add]), field_zero_of_lt hv]

end

/-- Words written one after the other each lie at their number times their size. -/
theorem part_of_words {ws : List Nat} {j k v : Nat} (hv : ws[j]? = some v) (post : List Byte) :
    ((ws.flatMap (leBytes k) ++ post).drop (k * j)).take k = leBytes k v := by
  induction ws generalizing j with
  | nil => cases hv
  | cons w ws ih =>
    rw [List.flatMap_cons, List.append_assoc]
    cases j with
    | zero =>
      obtain rfl : w = v := Option.some.inj hv
      rw [Nat.mul_zero, List.drop_zero, List.take_left' (length_leBytes k w)]
    | succ j =>
      rw [Nat.mul_succ, Nat.add_comm, ← List.drop_drop, List.drop_left' (length_leBytes k w), ih hv]

theorem slice_append_left {l m : List Byte} {n : Nat} (hl : l.length = n) : slice (l ++ m) 0 n = l := by
  simp [slice, zeros, ← hl]

theorem slice_append_right {l m : List Byte} {o n : Nat} (hl : l.length = o) (hm : m.length = n) :
    slice (l ++ m) o n = m := by
  simp [slice, zeros, ← hl, ← hm]

end Sys2Proof.Proofs
end

section
/-! PROOFS. HEAD_STATE_QUERY: the block of the timing in force, and the status after it (R143, R166, R170). -/

namespace Sys2Proof.Proofs

open Sys2Proof Sys2Proof.Machine Sys2Proof.Safety Sys2Proof.Laws

/-- Every field of a timing fits its width in R143. -/
structure TimingFits (t : Timing) : Prop where
  matrix : t.matrix < 2 ^ 2
  mult : t.mult < 2 ^ 3
  hactive : t.hactive < 2 ^ 16
  hfp : t.hfp < 2 ^ 16
  hsync : t.hsync < 2 ^ 16
  hbp : t.hbp < 2 ^ 16
  vactive : t.vactive < 2 ^ 16
  vfpMin : t.vfpMin < 2 ^ 16
  vfpNom : t.vfpNom < 2 ^ 16
  vfpMax : t.vfpMax < 2 ^ 16
  vsync : t.vsync < 2 ^ 16
  vbp : t.vbp < 2 ^ 16
  phaseLines : t.phaseLines < 2 ^ 16
  waitMask : t.waitMask < 2 ^ 12

/-- The checks of HEAD_SET_TIMING on the timing alone bound the fields with limits of their own, and VFP_MIN and VFP_NOM by
VFP_MAX; the other line counts they bound only against each other (R144). -/
theorem timingFits_of_timingFields {t : Timing} {num den : Nat} (h : timingFields t num den = true)
    (hvfpMax : t.vfpMax < 2 ^ 16) (hvsync : t.vsync < 2 ^ 16) (hvbp : t.vbp < 2 ^ 16)
    (hphaseLines : t.phaseLines < 2 ^ 16) : TimingFits t := by
  simp only [timingFields, Bool.and_eq_true, decide_eq_true_eq, and_assoc] at h
  obtain ⟨-, hmult, hmatrix, -, hhactive, -, hvactive, -, -, -, -, -, -, hmin, hnom, -, -, -, -, -,
    hwaitMask, -, hhfp, hhsync, hhbp⟩ := h
  have hvfpNom := hnom.trans_lt hvfpMax
  exact {
    matrix := hmatrix.trans_lt (by decide)
    mult := hmult.trans_lt (by decide)
    hactive := hhactive.trans_lt (by decide)
    hfp := hhfp, hsync := hhsync, hbp := hhbp
    vactive := hvactive.trans_lt (by decide)
    vfpMin := hmin.trans_lt hvfpNom
    vfpNom := hvfpNom, vfpMax := hvfpMax
    vsync := hvsync, vbp := hvbp, phaseLines := hphaseLines, waitMask := hwaitMask }

/-- The number that byte 1 of the timing block holds (R143). -/
def timingFlags (t : Timing) : Nat :=
  b2n t.hpol + 2 * b2n t.vpol + 4 * b2n t.colour + 8 * b2n t.depth + 16 * t.matrix + 64 * b2n t.range + 128 * b2n t.vrrEn

/-- The 16-bit words of the timing block from byte 4 on (R143). -/
def timingWords (t : Timing) : List Nat :=
  [t.hactive, t.hfp, t.hsync, t.hbp, t.vactive, t.vfpMin, t.vfpNom, t.vfpMax, t.vsync, t.vbp, t.phaseLines, t.waitMask]

theorem timingBytes_eq (i : Nat) (t : Timing) : timingBytes i t =
    [byte i, byte (timingFlags t), byte t.mult, 0#8] ++ ((timingWords t).flatMap (leBytes 2) ++ zeros 4) := by
  simp [timingBytes, timingFlags, timingWords]

theorem b2n_lt_two (b : Bool) : b2n b < 2 := by
  cases b <;> decide

/-- The places of the fields in the flags: no field carries into the next. -/
theorem field_timingFlags {t : Timing} (hm : t.matrix < 2 ^ 2) :
    field (timingFlags t) 0 1 = b2n t.hpol ∧ field (timingFlags t) 1 1 = b2n t.vpol ∧
    field (timingFlags t) 2 1 = b2n t.colour ∧ field (timingFlags t) 3 1 = b2n t.depth ∧
    field (timingFlags t) 4 2 = t.matrix ∧ field (timingFlags t) 6 1 = b2n t.range ∧
    field (timingFlags t) 7 1 = b2n t.vrrEn := by
  have hhpol := b2n_lt_two t.hpol
  have hvpol := b2n_lt_two t.vpol
  have hcolour := b2n_lt_two t.colour
  have hdepth := b2n_lt_two t.depth
  have hrange := b2n_lt_two t.range
  have hvrrEn := b2n_lt_two t.vrrEn
  simp only [field, timingFlags]
  omega

@[simp] theorem length_timingBytes (i : Nat) (t : Timing) : (timingBytes i t).length = 32 := by
  simp [timingBytes]

theorem fld_head_timingBytes {i : Nat} (t : Timing) (hi : i < 2 ^ 8) : fld (leNat (timingBytes i t)) 0 0 8 = i := by
  rw [timingBytes_eq]
  exact fld_of_part_of_lt (k := 1) rfl le_rfl hi

theorem fld_flags_timingBytes (i : Nat) (t : Timing) {b w : Nat} (hw : b + w ≤ 8) :
    fld (leNat (timingBytes i t)) 1 b w = field (timingFlags t) b w := by
  rw [timingBytes_eq]
  exact fld_of_part (k := 1) rfl hw

theorem bit1_flags_timingBytes {i b : Nat} {t : Timing} {flag : Bool} (hb : b < 8)
    (hflag : field (timingFlags t) b 1 = b2n flag) : bit1 (leNat (timingBytes i t)) 1 b = flag :=
  bit1_eq_of_fld ((fld_flags_timingBytes i t hb).trans hflag)

theorem fld_mult_timingBytes (i : Nat) {t : Timing} (hmult : t.mult < 2 ^ 3) :
    fld (leNat (timingBytes i t)) 2 0 3 = t.mult := by
  rw [timingBytes_eq]
  exact fld_of_part_of_lt (k := 1) rfl (by decide) hmult

/-- A word of the timing block is read back. -/
theorem fld_word_timingBytes {i j v w : Nat} {t : Timing} (hv : (timingWords t)[j]? = some v) (hw : w ≤ 16)
    (hlt : v < 2 ^ w) : fld (leNat (timingBytes i t)) (4 + 2 * j) 0 w = v := by
  rw [timingBytes_eq]
  refine fld_of_part_of_lt (k := 2) ?_ hw hlt
  rw [← List.drop_drop]
  exact part_of_words hv (zeros 4)

/-- The timing block reads back as the timing it was written from (R143). -/
theorem readTiming_timingBytes {t : Timing} (i : Nat) (fits : TimingFits t) :
    readTiming (leNat (timingBytes i t)) = t := by
  obtain ⟨hhpol, hvpol, hcolour, hdepth, hmatrix, hrange, hvrrEn⟩ := field_timingFlags fits.matrix
  rw [readTiming, bit1_flags_timingBytes (by decide) hhpol, bit1_flags_timingBytes (by decide) hvpol,
    bit1_flags_timingBytes (by decide) hcolour, bit1_flags_timingBytes (by decide) hdepth,
    fld_flags_timingBytes i t (by decide), hmatrix, bit1_flags_timingBytes (by decide) hrange,
    bit1_flags_timingBytes (by decide) hvrrEn, fld_mult_timingBytes i fits.mult,
    fld_word_timingBytes (j := 0) rfl le_rfl fits.hactive,
    fld_word_timingBytes (j := 1) rfl le_rfl fits.hfp,
    fld_word_timingBytes (j := 2) rfl le_rfl fits.hsync,
    fld_word_timingBytes (j := 3) rfl le_rfl fits.hbp,
    fld_word_timingBytes (j := 4) rfl le_rfl fits.vactive,
    fld_word_timingBytes (j := 5) rfl le_rfl fits.vfpMin,
    fld_word_timingBytes (j := 6) rfl le_rfl fits.vfpNom,
    fld_word_timingBytes (j := 7) rfl le_rfl fits.vfpMax,
    fld_word_timingBytes (j := 8) rfl le_rfl fits.vsync,
    fld_word_timingBytes (j := 9) rfl le_rfl fits.vbp,
    fld_word_timingBytes (j := 10) rfl le_rfl fits.phaseLines,
    fld_word_timingBytes (j := 11) rfl (by decide) fits.waitMask]

@[simp] theorem length_headStatus (s : State) (i : Nat) : (headStatus s i).length = 64 := by
  simp [headStatus]

/-- A HEAD_STATE_QUERY that runs completes with the reply of its effect on the state that it runs on. -/
theorem exec_headStateQuery_runs {c : Caller} {i : Nat} {s a : State} {key : List Byte} (h : Runs c 0x0304 s key a) :
    exec (.headStateQuery c i) s = .next (done c 0x0304 key (cmdHeadStateQuery i a)) :=
  congrArg Host.Outcome.next (command_runs h)

/-- A head with a timing in force answers its block and its status. -/
theorem cmdHeadStateQuery_of_timing {i : Nat} {a : State} {t : Timing} (hi : i ≤ 31)
    (ht : (a.head i).force.timing = some t) : cmdHeadStateQuery i a = ok a (timingBytes i t ++ headStatus a i) := by
  rw [cmdHeadStateQuery, if_neg (Nat.not_lt.mpr hi), ht]

theorem cmdHeadStateQuery_of_head_above {i : Nat} {a : State} (hi : 31 < i) :
    cmdHeadStateQuery i a = refuse a stBadParam :=
  if_pos hi

/-- Settles O25: the answer is the timing block and the status one after the other, and the block reads back field by field
because a timing that HEAD_SET_TIMING takes fits the widths of R143 (R143, R166, R170). -/
theorem headStateQueryAnswers : Obligations.HeadStateQueryAnswers := by
  unfold Obligations.HeadStateQueryAnswers
  refine ⟨?answer, ?refusal, ?form⟩
  case answer =>
    intro c s a key i t hrun hi ht hfields _ hvfpMax hvsync hvbp hphaseLines
    have hfits : TimingFits t := timingFits_of_timingFields hfields hvfpMax hvsync hvbp hphaseLines
    have hblock : slice (timingBytes i t ++ headStatus a i) 0 32 = timingBytes i t :=
      slice_append_left (length_timingBytes i t)
    refine ⟨timingBytes i t ++ headStatus a i, ?reply, ?length, ?head, ?timing, ?status⟩
    case reply => rw [exec_headStateQuery_runs hrun, cmdHeadStateQuery_of_timing hi ht]
    case length => rw [List.length_append, length_timingBytes, length_headStatus]
    case head => rw [hblock, fld_head_timingBytes t (hi.trans_lt (by decide))]
    case timing => rw [hblock, readTiming_timingBytes i hfits]
    case status => exact slice_append_right (length_timingBytes i t) (length_headStatus a i)
  case refusal =>
    intro c s a key i hrun hi
    rw [exec_headStateQuery_runs hrun, cmdHeadStateQuery_of_head_above hi]
  case form => exact fun _ => rfl

end Sys2Proof.Proofs
end

section
/-! PROOFS. What a line reads as and what its check symbols differ by, after it is stored (R374, R377, R384, R386). -/

namespace Sys2Proof.Proofs

open Sys2Proof Sys2Proof.Machine Sys2Proof.Laws

@[simp] theorem length_readMem (s : State) (a n : Nat) : (s.readMem a n).length = n := by
  simp [State.readMem, readCells]

theorem readCells_succ (m : List Host.Cell) (a n : Nat) :
    readCells m a (n + 1) = readCell m a :: readCells m (a + 1) n := by
  simp [readCells, List.range_succ_eq_map, Nat.add_comm, Nat.add_left_comm]

/-- Bytes written from an address upwards leave every lower address as it reads. -/
theorem readCell_writeCells_below {l : List Byte} {m : List Host.Cell} {a x : Nat} (h : x < a) :
    readCell (writeCells m a l) x = readCell m x := by
  induction l generalizing m a with
  | nil => rfl
  | cons v r ih => rw [writeCells, ih (h.trans a.lt_succ_self), readCell_writeCell_other h.ne]

/-- Bytes just written read back. -/
theorem readCells_writeCells_same {l : List Byte} {m : List Host.Cell} {a n : Nat} (h : Memory.wf m = true)
    (hlen : l.length = n) : readCells (writeCells m a l) a n = l := by
  subst hlen
  induction l generalizing m a with
  | nil => rfl
  | cons v r ih =>
    have hm : Memory.wf (writeCell m a v) = true := wf_writeCells (l := [v]) h
    rw [writeCells, List.length_cons, readCells_succ, ih hm, readCell_writeCells_below a.lt_succ_self,
      readCell_writeCell_same h]

@[simp] theorem readMem_dropWriteBack (s : State) (line a n : Nat) :
    (dropWriteBack s line).readMem a n = s.readMem a n := rfl

@[simp] theorem lineUpset_dropWriteBack (s : State) (line k : Nat) :
    lineUpset (dropWriteBack s line) k = lineUpset s k := rfl

/-- A line stored whole reads as the bytes stored, whatever its check symbols (R377). -/
theorem readMem_storeLine {s : State} {line : Nat} {data : List Byte} {d : List Nat}
    (h : Memory.wf s.mem.cells = true) (hlen : data.length = 64) :
    (storeLine s line data d).readMem (64 * line) 64 = data :=
  readCells_writeCells_same h hlen

/-- Check symbols that do not agree are recorded by what they differ by. -/
theorem lineUpset_storeLine {s : State} {line : Nat} {data : List Byte} {d : List Nat} (h : d ≠ [0, 0, 0, 0]) :
    lineUpset (storeLine s line data d) line = d := by
  simp [storeLine, setLineUpset, lineUpset, h, tget_tset_same]

/-- R374: stored poison keeps the data bytes of its line. -/
theorem readMem_poisonLine {s : State} {line : Nat} (h : Memory.wf s.mem.cells = true) :
    (poisonLine s line).readMem (64 * line) 64 = s.readMem (64 * line) 64 := by
  rw [poisonLine, readMem_dropWriteBack, readMem_storeLine h (length_readMem ..)]

/-- R374: stored poison differs from a codeword by the poison pattern. -/
theorem lineUpset_poisonLine (s : State) (line : Nat) : lineUpset (poisonLine s line) line = poisonPattern := by
  rw [poisonLine, lineUpset_dropWriteBack, lineUpset_storeLine (by decide)]

end Sys2Proof.Proofs
end

section
/-! PROOFS. Maps on field elements that respect addition. In GF(2^8) the sum is XOR (R372), so multiplication by a constant is
such a map, and a map of this kind is known from its values at the eight powers of two. -/

namespace Sys2Proof.Proofs

open Sys2Proof Sys2Proof.Machine

/-- A map that takes bytes to bytes and the sum of two bytes to the sum of their images. -/
structure ByteLinear (F : Nat → Nat) : Prop where
  lt : ∀ {a}, a < 256 → F a < 256
  xor : ∀ {a b}, a < 256 → b < 256 → F (a ^^^ b) = F a ^^^ F b

theorem xor_lt_256 {a b : Nat} (ha : a < 256) (hb : b < 256) : a ^^^ b < 256 :=
  Nat.xor_lt_two_pow (n := 8) ha hb

namespace ByteLinear

variable {F G : Nat → Nat}

theorem zero : ByteLinear fun _ => 0 :=
  ⟨fun _ => by decide, fun _ _ => rfl⟩

theorem id : ByteLinear fun a => a :=
  ⟨fun h => h, fun _ _ => rfl⟩

theorem comp (hF : ByteLinear F) (hG : ByteLinear G) : ByteLinear fun a => F (G a) :=
  ⟨fun h => hF.lt (hG.lt h), fun ha hb => by rw [hG.xor ha hb, hF.xor (hG.lt ha) (hG.lt hb)]⟩

theorem add (hF : ByteLinear F) (hG : ByteLinear G) : ByteLinear fun a => F a ^^^ G a :=
  ⟨fun h => xor_lt_256 (hF.lt h) (hG.lt h), fun ha hb => by rw [hF.xor ha hb, hG.xor ha hb]; ac_rfl⟩

theorem map_zero (hF : ByteLinear F) : F 0 = 0 := by
  have h := hF.xor (a := 0) (b := 0) (by decide) (by decide)
  rwa [Nat.xor_self, Nat.xor_self] at h

/-- A number from `2 ^ n` up to `2 ^ (n + 1)` is the sum of `2 ^ n` and a lower number. -/
theorem eq_zero_below_two_pow (hF : ByteLinear F) (h : ∀ k < 8, F (2 ^ k) = 0) {n a : Nat} (hn : n ≤ 8)
    (ha : a < 2 ^ n) : F a = 0 := by
  induction n generalizing a with
  | zero => rw [Nat.lt_one_iff.mp ha, hF.map_zero]
  | succ n ih =>
    have hrest : ∀ b < 2 ^ n, F b = 0 := fun b hb => ih (Nat.le_of_succ_le hn) hb
    by_cases hlow : a < 2 ^ n
    · exact hrest a hlow
    · have hpos : 0 < 2 ^ n := Nat.two_pow_pos n
      have hpow : 2 ^ n < 256 := Nat.pow_lt_pow_right (m := n) (n := 8) (by decide) hn
      have htop : a / 2 ^ n = 1 := by
        rw [Nat.div_eq_iff hpos]
        omega
      have hlt : a ^^^ 2 ^ n < 2 ^ n := by
        rw [← Nat.div_eq_zero_iff_lt hpos, Nat.xor_div_two_pow, htop, Nat.div_self hpos, Nat.xor_self]
      rw [← Nat.xor_xor_cancel_right a (2 ^ n), hF.xor (hlt.trans hpow) hpow, hrest _ hlt, h n hn, Nat.xor_self]

/-- The powers of two are a basis of the bytes. -/
theorem eq_zero_of_basis (hF : ByteLinear F) (h : ∀ k < 8, F (2 ^ k) = 0) {a : Nat} (ha : a < 256) : F a = 0 :=
  hF.eq_zero_below_two_pow h (n := 8) le_rfl ha

end ByteLinear

/-- Doubling shifts, and takes the field polynomial off when the bit of weight 128 leaves the byte. -/
theorem gfDouble_eq {a : Nat} (ha : a < 256) : gfDouble a = a <<< 1 ^^^ if a.testBit 7 then 0x11D else 0 := by
  have hbit : a.testBit 7 = decide (128 ≤ a) := by
    rw [Nat.testBit_eq_decide_div_mod_eq, decide_eq_decide]
    omega
  rw [gfDouble, hbit, Nat.shiftLeft_eq, Nat.mul_comm]
  by_cases h : a < 128
  · simp [h, Nat.not_le_of_lt h]
  · simp [h, Nat.le_of_not_lt h]

theorem gfDouble_lt {a : Nat} (ha : a < 256) : gfDouble a < 256 := by
  rw [gfDouble]
  by_cases h : a < 128
  · rw [if_pos h]
    omega
  · have hcarry : 2 * a / 2 ^ 8 = 1 := by omega
    have hdiv : (2 * a ^^^ 0x11D) / 2 ^ 8 = 0 := by
      rw [Nat.xor_div_two_pow, hcarry]
      decide
    rw [if_neg h]
    exact (Nat.div_eq_zero_iff_lt (by decide)).mp hdiv

theorem gfDouble_byteLinear : ByteLinear gfDouble where
  lt := gfDouble_lt
  xor {a b} ha hb := by
    rw [gfDouble_eq (xor_lt_256 ha hb), gfDouble_eq ha, gfDouble_eq hb, Nat.shiftLeft_xor_distrib, Nat.testBit_xor]
    cases a.testBit 7 <;> cases b.testBit 7 <;> simp [Nat.xor_assoc, Nat.xor_comm, Nat.xor_left_comm]

theorem gfMulBits_byteLinear (fuel b : Nat) : ByteLinear fun a => gfMulBits fuel a b := by
  induction fuel generalizing b with
  | zero => exact .zero
  | succ f ih =>
    have hterm : ByteLinear fun a => if b % 2 = 1 then a else 0 := by
      by_cases h : b % 2 = 1
      · simpa only [h, if_true] using ByteLinear.id
      · simpa only [h, if_false] using ByteLinear.zero
    exact hterm.add ((ih (b / 2)).comp gfDouble_byteLinear)

/-- Multiplication by a constant respects addition. -/
theorem gfMul_byteLinear (x : Nat) : ByteLinear fun a => gfMul a x :=
  gfMulBits_byteLinear 8 x

@[simp] theorem gfMul_zero_left (x : Nat) : gfMul 0 x = 0 :=
  (gfMul_byteLinear x).map_zero

end Sys2Proof.Proofs
end

section
/-! PROOFS. Every line of data bytes and their check symbols has the roots α^0 to α^3, and its value at any point is that of its
data and that of its check symbols added (R372, R374). -/

namespace Sys2Proof.Proofs

open Sys2Proof Sys2Proof.Machine

/-- Horner's rule from a value `r`: `r` and the symbols of `l` are the coefficients, highest power first. -/
def hornerFrom (x r : Nat) (l : List Nat) : Nat := l.foldl (fun r b => gfMul r x ^^^ b) r

@[simp] theorem hornerFrom_nil (x r : Nat) : hornerFrom x r [] = r := rfl

@[simp] theorem hornerFrom_cons (x r b : Nat) (l : List Nat) :
    hornerFrom x r (b :: l) = hornerFrom x (gfMul r x ^^^ b) l := rfl

theorem hornerFrom_append (x r : Nat) (l m : List Nat) :
    hornerFrom x r (l ++ m) = hornerFrom x (hornerFrom x r l) m :=
  List.foldl_append

/-- The value at a point respects addition, symbol by symbol. -/
theorem hornerFrom_zipWith_xor {x r q : Nat} {l m : List Nat} (hlen : l.length = m.length) (hr : r < 256) (hq : q < 256)
    (hl : ∀ b ∈ l, b < 256) (hm : ∀ b ∈ m, b < 256) :
    hornerFrom x (r ^^^ q) (List.zipWith (· ^^^ ·) l m) = hornerFrom x r l ^^^ hornerFrom x q m := by
  induction l generalizing r q m with
  | nil => rw [List.eq_nil_of_length_eq_zero hlen.symm]; rfl
  | cons b l ih =>
    cases m with
    | nil => cases hlen
    | cons c m =>
      obtain ⟨hb, hl⟩ := List.forall_mem_cons.mp hl
      obtain ⟨hc, hm⟩ := List.forall_mem_cons.mp hm
      have hmul : ByteLinear fun a => gfMul a x := gfMul_byteLinear x
      have hstep : gfMul (r ^^^ q) x ^^^ (b ^^^ c) = (gfMul r x ^^^ b) ^^^ (gfMul q x ^^^ c) := by
        rw [hmul.xor hr hq]
        ac_rfl
      rw [List.zipWith_cons_cons, hornerFrom_cons, hstep]
      exact ih (Nat.succ.inj hlen) (xor_lt_256 (hmul.lt hr) hb) (xor_lt_256 (hmul.lt hq) hc) hl hm

/-- The coefficients of `f` times the generator polynomial of R372, highest power first. -/
def generatorMultiple (f : Nat) : List Nat := [f, gfMul f 0x0F, gfMul f 0x36, gfMul f 0x78, gfMul f 0x40]

theorem generatorMultiple_lt {f : Nat} (hf : f < 256) : ∀ e ∈ generatorMultiple f, e < 256 := by
  simp [generatorMultiple, hf, (gfMul_byteLinear _).lt hf]

theorem hornerFrom_generatorMultiple_byteLinear (x : Nat) :
    ByteLinear fun f => hornerFrom x 0 (generatorMultiple f) := by
  have times : ByteLinear fun a => gfMul a x := gfMul_byteLinear x
  have cubic := (times.comp .id).add (gfMul_byteLinear 0x0F)
  have quadratic := (times.comp cubic).add (gfMul_byteLinear 0x36)
  have linear := (times.comp quadratic).add (gfMul_byteLinear 0x78)
  simpa [generatorMultiple] using (times.comp linear).add (gfMul_byteLinear 0x40)

/-- α^0 to α^3 are roots of the generator polynomial, so also of its multiples (R372). -/
theorem hornerFrom_generatorMultiple {j f : Nat} (hj : j < 4) (hf : f < 256) :
    hornerFrom (gfExp j) 0 (generatorMultiple f) = 0 :=
  (hornerFrom_generatorMultiple_byteLinear _).eq_zero_of_basis
    ((by decide : ∀ j < 4, ∀ k < 8, hornerFrom (gfExp j) 0 (generatorMultiple (2 ^ k)) = 0) j hj) hf

/-- The symbols of a remainder of the division by the generator polynomial. -/
def remainderSymbols (c : Nat × Nat × Nat × Nat) : List Nat := [c.1, c.2.1, c.2.2.1, c.2.2.2]

theorem rsChecks_eq (d : List Nat) : rsChecks d = remainderSymbols (d.foldl rsStep (0, 0, 0, 0)) := rfl

theorem rsStep_lt {c : Nat × Nat × Nat × Nat} {b : Nat} (hc : ∀ e ∈ remainderSymbols c, e < 256) (hb : b < 256) :
    ∀ e ∈ remainderSymbols (rsStep c b), e < 256 := by
  simp only [remainderSymbols, List.forall_mem_cons] at hc ⊢
  obtain ⟨h0, h1, h2, h3, hnil⟩ := hc
  have hf : b ^^^ c.1 < 256 := xor_lt_256 hb h0
  exact ⟨xor_lt_256 h1 ((gfMul_byteLinear _).lt hf), xor_lt_256 h2 ((gfMul_byteLinear _).lt hf),
    xor_lt_256 h3 ((gfMul_byteLinear _).lt hf), (gfMul_byteLinear _).lt hf, hnil⟩

/-- One step of the division subtracts a multiple of the generator polynomial whose highest coefficient is that of the line. -/
theorem cons_rsStep_eq (c : Nat × Nat × Nat × Nat) (b : Nat) :
    b :: remainderSymbols (rsStep c b) =
      List.zipWith (· ^^^ ·) (remainderSymbols c ++ [0]) (generatorMultiple (b ^^^ c.1)) := by
  simp [remainderSymbols, rsStep, generatorMultiple, Nat.xor_comm b]

/-- The line after one more byte is the line before it, moved up one power, and a multiple of the generator polynomial. -/
theorem hornerFrom_rsStep {j r b : Nat} {c : Nat × Nat × Nat × Nat} (hj : j < 4) (hr : r < 256) (hb : b < 256)
    (hc : ∀ e ∈ remainderSymbols c, e < 256) (hroot : hornerFrom (gfExp j) r (remainderSymbols c) = 0) :
    hornerFrom (gfExp j) (gfMul r (gfExp j) ^^^ b) (remainderSymbols (rsStep c b)) = 0 := by
  have hf : b ^^^ c.1 < 256 := xor_lt_256 hb (hc c.1 (by simp [remainderSymbols]))
  have hup : hornerFrom (gfExp j) r (remainderSymbols c ++ [0]) = 0 := by
    rw [hornerFrom_append, hroot, hornerFrom_cons, gfMul_zero_left, hornerFrom_nil, Nat.xor_self]
  have hupBytes : ∀ e ∈ remainderSymbols c ++ [0], e < 256 := List.forall_mem_append.mpr ⟨hc, by decide⟩
  calc hornerFrom (gfExp j) (gfMul r (gfExp j) ^^^ b) (remainderSymbols (rsStep c b))
      = hornerFrom (gfExp j) (r ^^^ 0)
          (List.zipWith (· ^^^ ·) (remainderSymbols c ++ [0]) (generatorMultiple (b ^^^ c.1))) := by
        rw [← cons_rsStep_eq, hornerFrom_cons, Nat.xor_zero]
    _ = hornerFrom (gfExp j) r (remainderSymbols c ++ [0]) ^^^
          hornerFrom (gfExp j) 0 (generatorMultiple (b ^^^ c.1)) :=
        hornerFrom_zipWith_xor rfl hr (by decide) hupBytes (generatorMultiple_lt hf)
    _ = 0 := by rw [hup, hornerFrom_generatorMultiple hj hf, Nat.xor_self]

theorem foldl_rsStep_lt {c : Nat × Nat × Nat × Nat} {d : List Nat} (hd : ∀ b ∈ d, b < 256)
    (hc : ∀ e ∈ remainderSymbols c, e < 256) : ∀ e ∈ remainderSymbols (d.foldl rsStep c), e < 256 := by
  induction d generalizing c with
  | nil => exact hc
  | cons b d ih =>
    obtain ⟨hb, hd⟩ := List.forall_mem_cons.mp hd
    exact ih hd (rsStep_lt hc hb)

/-- `r` stands for the value of the bytes already divided and `c` for their remainder: a root stays a root as the division takes
further bytes. -/
theorem codeword_root_from {j r : Nat} {c : Nat × Nat × Nat × Nat} {d : List Nat} (hj : j < 4) (hd : ∀ b ∈ d, b < 256)
    (hr : r < 256) (hc : ∀ e ∈ remainderSymbols c, e < 256) (hroot : hornerFrom (gfExp j) r (remainderSymbols c) = 0) :
    hornerFrom (gfExp j) r (d ++ remainderSymbols (d.foldl rsStep c)) = 0 := by
  induction d generalizing r c with
  | nil => exact hroot
  | cons b d ih =>
    obtain ⟨hb, hd⟩ := List.forall_mem_cons.mp hd
    exact ih hd (xor_lt_256 ((gfMul_byteLinear _).lt hr) hb) (rsStep_lt hc hb) (hornerFrom_rsStep hj hr hb hc hroot)

theorem rsChecks_lt {d : List Nat} (hd : ∀ b ∈ d, b < 256) : ∀ e ∈ rsChecks d, e < 256 := by
  rw [rsChecks_eq]
  exact foldl_rsStep_lt hd (by simp [remainderSymbols])

/-- A codeword has syndrome 0 at each root of the generator polynomial (R372, R374). -/
theorem codeword_root {j : Nat} {d : List Nat} (hj : j < 4) (hd : ∀ b ∈ d, b < 256) :
    hornerFrom (gfExp j) 0 (d ++ rsChecks d) = 0 := by
  rw [rsChecks_eq]
  exact codeword_root_from hj hd (by decide) (by simp [remainderSymbols]) (by simp [remainderSymbols])

end Sys2Proof.Proofs
end

section
/-! PROOFS. Stored poison: the data stays, and the syndromes are those of the pattern (R374). -/

namespace Sys2Proof.Proofs

open Sys2Proof Sys2Proof.Machine

theorem zipWith_xor_zeros (l : List Nat) : List.zipWith (· ^^^ ·) l (List.replicate l.length 0) = l := by
  rw [← List.map_const', List.zipWith_map_right, List.zipWith_self]
  simp

/-- A codeword whose check symbols are changed by a pattern is the sum of the codeword and the pattern alone. -/
theorem append_xorChecks_eq (d : List Nat) (p0 p1 p2 p3 : Nat) :
    d ++ xorChecks (rsChecks d) [p0, p1, p2, p3] =
      List.zipWith (· ^^^ ·) (d ++ rsChecks d) (List.replicate d.length 0 ++ [p0, p1, p2, p3]) := by
  rw [List.zipWith_append (by simp), zipWith_xor_zeros]
  rfl

/-- R374: at a root of the generator polynomial only the pattern counts, whatever the data. -/
theorem hornerFrom_xorChecks {j p0 p1 p2 p3 : Nat} {d : List Nat} (hj : j < 4) (hd : ∀ b ∈ d, b < 256)
    (hp : ∀ e ∈ [p0, p1, p2, p3], e < 256) :
    hornerFrom (gfExp j) 0 (d ++ xorChecks (rsChecks d) [p0, p1, p2, p3]) =
      hornerFrom (gfExp j) 0 (List.replicate d.length 0 ++ [p0, p1, p2, p3]) := by
  have hline : ∀ e ∈ d ++ rsChecks d, e < 256 := List.forall_mem_append.mpr ⟨hd, rsChecks_lt hd⟩
  have hpattern : ∀ e ∈ List.replicate d.length 0 ++ [p0, p1, p2, p3], e < 256 :=
    List.forall_mem_append.mpr ⟨fun e he => List.eq_of_mem_replicate he ▸ by decide, hp⟩
  have hlen : (d ++ rsChecks d).length = (List.replicate d.length 0 ++ [p0, p1, p2, p3]).length := by simp [rsChecks]
  have hsum := hornerFrom_zipWith_xor (x := gfExp j) (r := 0) (q := 0) hlen (by decide) (by decide) hline hpattern
  rwa [Nat.xor_self, codeword_root hj hd, Nat.zero_xor, ← append_xorChecks_eq] at hsum

/-- Settles O19: storing poison writes the line's own bytes back with the pattern as its difference, and the syndromes are sums,
to which the codeword, with the roots α^0 to α^3, adds nothing (R374). -/
theorem storedPoisonHasThePoisonSyndromes : Obligations.StoredPoisonHasThePoisonSyndromes := by
  unfold Obligations.StoredPoisonHasThePoisonSyndromes
  refine ⟨?stored, ?syndromes⟩
  case stored => exact fun s line h => ⟨readMem_poisonLine h, lineUpset_poisonLine s line⟩
  case syndromes =>
    intro d j hd hj sym evalAt
    have hbytes : ∀ b ∈ sym, b < 256 := List.forall_mem_map.mpr fun b _ => b.isLt
    have hlen : sym.length = 64 := by rw [List.length_map, hd]
    have hpoison := hornerFrom_xorChecks (p0 := 0xA5) (p1 := 0x5A) (p2 := 0xC3) (p3 := 0x3C) hj hbytes (by decide)
    rwa [hlen] at hpoison

end Sys2Proof.Proofs
end

section
/-! PROOFS. Events, queued errors and the ends of sessions keep the start-up status of the device: none of them ends SAFE state,
nor the handling of a FATAL record, nor changes what HB_STATUS shows (R400, R421, R514). -/

namespace Sys2Proof.Proofs

open Sys2Proof Sys2Proof.Machine Sys2Proof.Laws

/-- A fold keeps the start-up status when each of its steps does. -/
theorem foldl_start {A : Type} {f : State → A → State} (hf : ∀ s a, (f s a).start = s.start) (l : List A) (s : State) :
    (l.foldl f s).start = s.start :=
  List.foldlRecOn l f (motive := fun t => t.start = s.start) rfl fun t ht a _ => (hf t a).trans ht

variable (s : State)

/-! ### Vectors and events -/

@[simp] theorem sendMsix_start (v : Nat) : (sendMsix s v).start = s.start := rfl

@[simp] theorem msixDue_start (v : Nat) : (msixDue s v).start = s.start := by
  unfold msixDue
  split
  · rfl
  · exact sendMsix_start s v

@[simp] theorem signalVector_start (v : Nat) : (signalVector s v).start = s.start := by
  unfold signalVector
  split
  · rfl
  · exact msixDue_start _ v

@[simp] theorem writeRecord_start (type vector : Nat) (time : Ticks) (payload : List Byte) :
    (writeRecord s type vector time payload).start = s.start :=
  signalVector_start _ vector

/-- R421: an event is lost, lost to a full ring, or written. -/
@[simp] theorem putEvent_start (type vector : Nat) (time : Ticks) (payload : List Byte) :
    (putEvent s type vector time payload).start = s.start := by
  unfold putEvent
  dsimp only
  split
  · rfl
  · split
    · rfl
    · exact writeRecord_start s type vector time payload

/-- R400: firmware posts an event or holds it. -/
@[simp] theorem postFw_start (type vector : Nat) (time : Option Ticks) (payload : List Byte) :
    (postFw s type vector time payload).start = s.start := by
  unfold postFw
  split
  · exact putEvent_start s type vector _ payload
  · rfl

@[simp] theorem postFence_start (t : Ticks) (source groups sealed head origin : Nat) :
    (postFence s t source groups sealed head origin).start = s.start :=
  putEvent_start s _ _ _ _

@[simp] theorem postSession_start (slot key what transport : Nat) :
    (postSession s slot key what transport).start = s.start :=
  postFw_start s _ _ _ _

@[simp] theorem postApproval_start (skim state requester approver tide : Nat) :
    (postApproval s skim state requester approver tide).start = s.start :=
  postFw_start s _ _ _ _

@[simp] theorem postPower_start (old new : Nat) : (postPower s old new).start = s.start :=
  postFw_start s _ _ _ _

@[simp] theorem setFences_start (f : Fences) (t : Ticks) : (setFences s f t).start = s.start := rfl

@[simp] theorem forceActive_start : (forceActive s).start = s.start := by
  unfold forceActive
  split
  · rfl
  · exact postPower_start _ _ 0

/-! ### The error queue -/

/-- R514: an error is coalesced, lost, or queued with its event. -/
@[simp] theorem queueErr_start (code cls obj a b : Nat) (k : ErrKey) :
    (queueErr s code cls obj a b k).start = s.start := by
  unfold queueErr
  split
  · rfl
  · split
    · rfl
    · exact postFw_start _ _ _ _ _

/-! ### Approvals, sessions and commands in progress -/

@[simp] theorem sendSkimTo_start (dest : Nat) (args : List Nat) : (sendSkimTo s dest args).start = s.start := by
  unfold sendSkimTo
  split <;> rfl

@[simp] theorem sendSkim_start (args : List Nat) : (sendSkim s args).start = s.start := by
  refine foldl_start (fun t d => ?_) _ s
  split
  · rfl
  · exact sendSkimTo_start t d args

@[simp] theorem settleMotion_start : (settleMotion s).start = s.start := rfl

@[simp] theorem dropApprovals_start (p : Approval → Bool) (state : Nat) :
    (dropApprovals s p state).start = s.start := by
  unfold dropApprovals
  rw [foldl_start fun t g => postApproval_start t .., foldl_start fun t a => sendSkim_start t _]
  exact settleMotion_start _

@[simp] theorem endDebug_start (obj : Nat) : (endDebug s obj).start = s.start := by
  unfold endDebug
  split
  · rfl
  · rfl
  · exact queueErr_start _ _ _ _ _ _ _

@[simp] theorem endSession_start (slot what : Nat) : (endSession s slot what).start = s.start := by
  unfold endSession
  split
  case h_1 => rfl
  case h_2 =>
    dsimp only
    split_ifs <;> simp

@[simp] theorem endSessions_start (p : Session → Bool) (what : Nat) : (endSessions s p what).start = s.start :=
  foldl_start (fun t n => endSession_start t n what) _ s

@[simp] theorem mailboxDone_start (n status : Nat) (record : List Byte) :
    (mailboxDone s n status record).start = s.start := by
  unfold mailboxDone
  dsimp only
  split
  · exact signalVector_start _ 0
  · rfl

@[simp] theorem abortCommands_start : (abortCommands s).start = s.start := by
  unfold abortCommands
  dsimp only
  rw [foldl_start, foldl_start]
  case hf =>
    intro t r
    split
    · split <;> simp
    · rfl
  case hf =>
    intro t e
    split <;> simp

end Sys2Proof.Proofs
end

section
/-! PROOFS. Entry to SAFE state, and the FATAL errors that bring it about (R518, R519). -/

namespace Sys2Proof.Proofs

open Sys2Proof Sys2Proof.Machine Sys2Proof.Laws

/-- A warden restart keeps SAFE state (R400, R519). -/
@[simp] theorem restartWarden_safe (s : State) : (restartWarden s).start.safe = s.start.safe := by
  simp [restartWarden]

/-- On entry SAFE state is set (R519), and it stays set through the power event, the FENCE event and the warden restart. -/
@[simp] theorem enterSafe_safe (s : State) : (enterSafe s).start.safe = true := by
  unfold enterSafe
  split
  · assumption
  · simp

/-- R519: in SAFE state a FATAL error is queued and nothing else happens. -/
theorem raiseClass_fatal_of_safe {s : State} (hsafe : s.start.safe = true) (code obj a b : Nat) (k : ErrKey) :
    raiseClass s code 3 obj a b k = queueErr s code 3 obj a b k :=
  if_pos (.inr hsafe)

/-- R518: outside SAFE state a FATAL error during the handling of another, or while HB_STATUS does not show READY, is queued and
SAFE state is entered. -/
theorem raiseClass_fatal_enters_safe {s : State} (hsafe : s.start.safe ≠ true)
    (hwhen : s.start.handling.isSome = true ∨ s.start.warden ≠ .ready) (code obj a b : Nat) (k : ErrKey) :
    raiseClass s code 3 obj a b k = enterSafe (queueErr s code 3 obj a b k) := by
  have hskip : ¬ ((3 : Nat) ≠ 3 ∨ s.start.safe = true) := by simp [hsafe]
  have henter : (errSafe code || s.start.handling.isSome || decide (s.start.warden ≠ .ready)) = true := by
    rcases hwhen with h | h <;> simp [h]
  rw [raiseClass, if_neg hskip, if_pos henter]

/-- Settles O60: in SAFE state the error is queued and SAFE state stays; outside it the condition makes the error enter SAFE
state (R518). -/
theorem fatalErrorsDuringHandlingEnterSafe : Obligations.FatalErrorsDuringHandlingEnterSafe := by
  unfold Obligations.FatalErrorsDuringHandlingEnterSafe
  intro s code obj a b k hfatal hwhen
  rw [raiseErr, hfatal]
  by_cases hsafe : s.start.safe = true
  · rw [raiseClass_fatal_of_safe hsafe, queueErr_start]
    exact hsafe
  · rw [raiseClass_fatal_enters_safe hsafe hwhen]
    exact enterSafe_safe _

end Sys2Proof.Proofs
end

section
/-! PROOFS. What every step keeps: the queue and the clock, the outputs, canonical memory, programmed keys, and locked regions
with their rules. -/

namespace Sys2Proof.Proofs

open Sys2Proof Sys2Proof.Machine Sys2Proof.Laws

/-- What holds of a state before a step. -/
def ghost (s : State) : Ghost :=
  ⟨Memory.wf s.mem.cells = true, s.pending, fun n r => n ∈ s.mem.dyke.locked ∧ tfind s.mem.dyke.force n = some r,
    fun k x => (s.keySlot k).key = some x, s.out, s.clk.now⟩

theorem good_ghost (s : State) : Good (ghost s) s := good_refl s

/-- PORST_N_ASSERT keeps what any other command keeps, but for the locks (R506). -/
theorem exec_keeps_all_but_locks {c : Instr} {s t : State} (h : exec c s = .next t) :
    Good { ghost s with locked := fun _ _ => False } t := by
  by_cases hc : c = .porstNAssert
  · subst hc
    exact execPorstNAssert_good (good_ghost s) t h
  · obtain ⟨hqueue, hcells, -, hkeys, hout, hnow⟩ := exec_good hc (good_ghost s) t h
    exact ⟨hqueue, hcells, fun _ _ hno => hno.elim, hkeys, hout, hnow⟩

/-- Every step keeps canonical memory and the programmed keys. -/
theorem step_keeps_cells_and_keys {s t : State} (h : step s = .next t) :
    (Memory.wf s.mem.cells = true → Memory.wf t.mem.cells = true) ∧
      ∀ k x, (s.keySlot k).key = some x → (t.keySlot k).key = some x := by
  cases hq : s.pending with
  | nil =>
    have ht : idleStep s = t := Host.Outcome.next.inj ((step_idle hq).symm.trans h)
    obtain ⟨-, hcells, -, hkeys, -, -⟩ := idleStep_good (good_ghost s)
    rw [ht] at hcells hkeys
    exact ⟨hcells, hkeys⟩
  | cons c rest =>
    rw [step_front hq] at h
    obtain ⟨-, hcells, -, hkeys, -, -⟩ := exec_keeps_all_but_locks h
    exact ⟨hcells, hkeys⟩

/-- Settles O1: the front of the queue is what `step` matches on. -/
theorem stepRunsFrontCommand : Obligations.StepRunsFrontCommand := by
  unfold Obligations.StepRunsFrontCommand
  exact fun c rest s => step_front rfl

/-- Settles O2: the idle step moves the clock by one PAN cycle and keeps the queue. -/
theorem emptyQueueLetsOnePanCyclePass : Obligations.EmptyQueueLetsOnePanCyclePass := by
  unfold Obligations.EmptyQueueLetsOnePanCyclePass
  intro s hq
  obtain ⟨hqueue, -, -, -, -, hnow⟩ := idleStep_good (good_ghost s)
  exact ⟨idleStep s, step_idle hq, hnow, hqueue.trans hq⟩

/-- Settles O3: nothing is written and nothing waits at reset. -/
theorem resetMemoryIsCanonical : Obligations.ResetMemoryIsCanonical := by
  unfold Obligations.ResetMemoryIsCanonical
  exact ⟨rfl, rfl⟩

/-- Settles O4: by `exec_good`, PORST_N_ASSERT and the idle step. -/
theorem everyStepKeepsMemoryCanonical : Obligations.EveryStepKeepsMemoryCanonical := by
  unfold Obligations.EveryStepKeepsMemoryCanonical
  exact fun s t hwf h => (step_keeps_cells_and_keys h).1 hwf

/-- Settles O5: every command keeps the queue, the clock and the outputs given. -/
theorem commandsKeepQueueTimeAndOutputs : Obligations.CommandsKeepQueueTimeAndOutputs := by
  unfold Obligations.CommandsKeepQueueTimeAndOutputs
  intro c s t _ h
  obtain ⟨hqueue, -, -, -, hout, hnow⟩ := exec_keeps_all_but_locks h
  exact ⟨hqueue, hnow, hout⟩

/-- Settles O6: no command and no PAN cycle writes a key slot that holds a key. -/
theorem programmedKeysNeverChange : Obligations.ProgrammedKeysNeverChange := by
  unfold Obligations.ProgrammedKeysNeverChange
  exact fun s t k x _ h hkey => (step_keeps_cells_and_keys h).2 k x hkey

/-- Settles O7: of the commands only PORST_N_ASSERT releases a lock. -/
theorem lockedRegionsStayLocked : Obligations.LockedRegionsStayLocked := by
  unfold Obligations.LockedRegionsStayLocked
  intro c s t n r hc _ h hlocked hrule
  obtain ⟨-, -, hkept, -, -, -⟩ := exec_good hc (good_ghost s) t h
  exact hkept n r ⟨hlocked, hrule⟩

end Sys2Proof.Proofs
end

section
/-! PROOFS. One byte written and read back. -/

namespace Sys2Proof.Proofs

open Sys2Proof Sys2Proof.Machine Sys2Proof.Laws

/-- Settles O8: by the two laws of `writeCell`. -/
theorem oneByteWriteReadsBack : Obligations.OneByteWriteReadsBack := by
  unfold Obligations.OneByteWriteReadsBack
  exact fun m a b v hwf => ⟨readCell_writeCell_same hwf, readCell_writeCell_other⟩

end Sys2Proof.Proofs
end

section
/-! PROOFS. The timing block: its reserved bits are 0, and it reads back (R143). -/

namespace Sys2Proof.Proofs

open Sys2Proof Sys2Proof.Machine

/-- A word of the timing block holds its value's bits in place. -/
theorem fld_bits_of_word_timingBytes {i j v b w : Nat} {t : Timing} (hv : (timingWords t)[j]? = some v) (hw : b + w ≤ 16) :
    fld (leNat (timingBytes i t)) (4 + 2 * j) b w = field v b w := by
  rw [timingBytes_eq]
  refine fld_of_part (k := 2) ?_ hw
  rw [← List.drop_drop]
  exact part_of_words hv (zeros 4)

/-- The bits above a number that fits its field are 0. -/
theorem field_above_eq_zero {v b w : Nat} (hv : v < 2 ^ b) : field v b w = 0 := by
  rw [field, Nat.div_eq_of_lt hv, Nat.zero_mod]

/-- The reserved bits of the timing block are 0 (R143). -/
theorem zeroFields_timingBytes {i : Nat} {t : Timing} (fits : TimingFits t) :
    zeroFields (formTiming (leNat (timingBytes i t))) (timingBytes i t) = true := by
  have hmult : fld (leNat (timingBytes i t)) 2 3 5 = 0 := by
    have hpart : fld (leNat (timingBytes i t)) 2 3 5 = field t.mult 3 5 := by
      rw [timingBytes_eq]
      exact fld_of_part (k := 1) rfl (by decide)
    rw [hpart, field_above_eq_zero fits.mult]
  have hbyte3 : fld (leNat (timingBytes i t)) 3 0 8 = 0 := by
    rw [timingBytes_eq]
    exact fld_of_part_of_lt (k := 1) (v := 0) rfl le_rfl (by decide)
  have hmask : fld (leNat (timingBytes i t)) 0x1A 12 4 = 0 := by
    rw [fld_bits_of_word_timingBytes (j := 11) rfl le_rfl, field_above_eq_zero fits.waitMask]
  have htail : fld (leNat (timingBytes i t)) 0x1C 0 32 = 0 := by
    rw [timingBytes_eq]
    exact fld_of_part_of_lt (k := 4) (v := 0) (by simp [timingWords, leBytes, zeros, byte]) le_rfl (by decide)
  simp [zeroFields, formTiming, hmult, hbyte3, hmask, htail]

/-- Settles O26: the block holds each field at its place, and 0 at every reserved one (R143). -/
theorem timingBlocksRoundTrip : Obligations.TimingBlocksRoundTrip := by
  unfold Obligations.TimingBlocksRoundTrip
  intro i t hi hmatrix hmult hhactive hhfp hhsync hhbp hvactive hvfpMin hvfpNom hvfpMax hvsync hvbp hphaseLines hwaitMask
  have fits : TimingFits t :=
    ⟨hmatrix, hmult, hhactive, hhfp, hhsync, hhbp, hvactive, hvfpMin, hvfpNom, hvfpMax, hvsync, hvbp, hphaseLines, hwaitMask⟩
  exact ⟨length_timingBytes i t, zeroFields_timingBytes fits, fld_head_timingBytes t hi, readTiming_timingBytes i fits⟩

end Sys2Proof.Proofs
end

section
/-! PROOFS. The vote over three channels of which two give the word of a sound one, and over two that disagree (R81, R82). -/

namespace Sys2Proof.Proofs

open Sys2Proof Sys2Proof.Machine

theorem causeIf_lt (c : Bool) {bit : Nat} (h : bit < 16) : causeIf c bit < 2 ^ 16 := by
  cases c with
  | false => exact Nat.two_pow_pos 16
  | true =>
    rw [causeIf, if_pos rfl, Nat.one_shiftLeft]
    exact Nat.pow_lt_pow_right (by decide) h

theorem recordCauses_lt (i : SpanInput) (r : FreshRecord) : recordCauses i r < 2 ^ 16 := by
  have hborne : r.causes % 128 < 2 ^ 16 := (Nat.mod_lt _ (by decide)).trans (by decide)
  have hor {a : Nat} (ha : a < 2 ^ 16) (c : Bool) {bit : Nat} (hbit : bit < 16) : a ||| causeIf c bit < 2 ^ 16 :=
    Nat.or_lt_two_pow ha (causeIf_lt c hbit)
  exact hor (hor (hor (hor (hor hborne _ (by decide)) _ (by decide)) _ (by decide)) _ (by decide)) _ (by decide)

/-- The causes fill 16 bits of the span word (R79, R81). -/
theorem spanCauses_lt (i : SpanInput) : spanCauses i < 2 ^ 16 := by
  have hor {a : Nat} (ha : a < 2 ^ 16) (c : Bool) {bit : Nat} (hbit : bit < 16) : a ||| causeIf c bit < 2 ^ 16 :=
    Nat.or_lt_two_pow ha (causeIf_lt c hbit)
  refine hor (hor (hor (hor ?_ _ (by decide)) _ (by decide)) _ (by decide)) _ (by decide)
  cases i.record with
  | none => exact Nat.two_pow_pos 16
  | some r => exact recordCauses_lt i r

/-- A span word whose fields fit is read back (R81). -/
theorem unpackWord_packWord {w : SpanWord} (hc : w.causes < 2 ^ 16) (hw : w.window < 2 ^ 9) (hv : w.verdict < 2 ^ 3) :
    unpackWord (packWord w) = w := by
  obtain ⟨causes, window, verdict⟩ := w
  simp only [unpackWord, packWord, field, SpanWord.mk.injEq] at *
  omega

theorem unpackWord_channelWord (i : SpanInput) {win : Nat} (hwin : win < 512) :
    unpackWord (packWord (channelWord i win)) = channelWord i win :=
  unpackWord_packWord (spanCauses_lt i) hwin ((verdictOf_le_five _).trans_lt (by decide))

/-- A word of a sound channel agrees with itself: its verdict is not a reserved one. -/
theorem wordsAgree_channelWord (i : SpanInput) {win : Nat} (hwin : win < 512) :
    wordsAgree (packWord (channelWord i win)) (packWord (channelWord i win)) = true := by
  have hverdict : (channelWord i win).verdict ≤ 5 := verdictOf_le_five _
  rw [wordsAgree, unpackWord_channelWord i hwin, beq_self_eq_true, Bool.true_and]
  exact decide_eq_true hverdict

section
variable (win bad w : Nat)

/-- The first channel alone differs. -/
theorem voteWords_first_wrong (h : wordsAgree w w = true) :
    (voteWords win [(0, bad), (1, w), (2, w)]).word = unpackWord w ∧
      (bad ≠ w → (voteWords win [(0, bad), (1, w), (2, w)]).minority = [0]) := by
  by_cases hb : bad = w
  · simp [voteWords, hb, h]
  · have hno : wordsAgree bad w = false := by simp [wordsAgree, hb]
    simp [voteWords, hno, h]

/-- The second channel alone differs. -/
theorem voteWords_second_wrong (h : wordsAgree w w = true) :
    (voteWords win [(0, w), (1, bad), (2, w)]).word = unpackWord w ∧
      (bad ≠ w → (voteWords win [(0, w), (1, bad), (2, w)]).minority = [1]) := by
  by_cases hb : bad = w
  · simp [voteWords, hb, h]
  · have hno : wordsAgree w bad = false := by simp [wordsAgree, Ne.symm hb]
    simp [voteWords, hno, h]

/-- The third channel alone differs. -/
theorem voteWords_third_wrong (h : wordsAgree w w = true) :
    (voteWords win [(0, w), (1, w), (2, bad)]).word = unpackWord w ∧
      (bad ≠ w → (voteWords win [(0, w), (1, w), (2, bad)]).minority = [2]) := by
  simp only [voteWords, h, if_true, true_and]
  exact fun hb => if_neg (Ne.symm hb)

end

/-- Two channels that disagree have no majority (R82). -/
theorem voteWords_two_disagree {win a b : Nat} (h : a ≠ b) :
    (voteWords win [(0, a), (1, b)]).word = noMajorityWord win [a, b] := by
  have hno : wordsAgree a b = false := by simp [wordsAgree, h]
  simp [voteWords, hno]

/-- Settles O31: a wrong channel agrees with neither of the two that give the same sound word, which then wins; without a majority
the word carries bit 14 and a verdict from 3 to 5 (R82). -/
theorem oneWrongChannelIsOutvoted : Obligations.OneWrongChannelIsOutvoted := by
  unfold Obligations.OneWrongChannelIsOutvoted
  refine ⟨?three, ?two⟩
  case three =>
    intro i win bad hwin w
    have hw : wordsAgree w w = true := wordsAgree_channelWord i hwin
    have hword : unpackWord w = channelWord i win := unpackWord_channelWord i hwin
    obtain ⟨hword0, hmin0⟩ := voteWords_first_wrong win bad w hw
    obtain ⟨hword1, hmin1⟩ := voteWords_second_wrong win bad w hw
    obtain ⟨hword2, hmin2⟩ := voteWords_third_wrong win bad w hw
    exact ⟨hword0.trans hword, hword1.trans hword, hword2.trans hword, fun hb => ⟨hmin0 hb, hmin1 hb, hmin2 hb⟩⟩
  case two =>
    intro win a b hab
    rw [voteWords_two_disagree hab]
    refine ⟨testBit_noMajority_noMajorityWord win [a, b], ?_, min_le_left _ _⟩
    exact le_min (by decide) (le_max_left _ _)

end Sys2Proof.Proofs
end

section
/-! PROOFS. A due tide, and the spacing of the tides (R18 to R21). -/

namespace Sys2Proof.Proofs

open Sys2Proof Sys2Proof.Machine

theorem execTide_of_due {s : State} (h : tideDue s = true) :
    exec .tide s = .next (tideEffects (pruneWords (slewWord (advanceTide s))) s.tide.lastRef) :=
  if_pos h

/-- Without a re-base armed the next tide is the next instant and counts one more (R21). -/
theorem advanceTide_without_rebase {s : State} (h : s.tide.rebaseArmed = false) :
    (advanceTide s).tide.count = s.tide.count + 1 ∧ (advanceTide s).tide.index = s.tide.index + 1 ∧
      (advanceTide s).tide.rebaseArmed = false ∧ (advanceTide s).mem = s.mem := by
  simp [advanceTide, nextIndex, h]

/-- Rounding up to a tick and then to a PAN cycle rounds up to a PAN cycle. -/
theorem panUp_ceil (a : ℚ) : panUp ⌈a⌉ = panT * ⌈a / panT⌉ := by
  rw [panUp, ← Int.floor_neg, ← Int.floor_div_natCast, neg_div, Int.floor_neg, neg_neg, mul_comm]

theorem ceilDiv_eq_ceil (a : Nat) {b : Nat} (hb : 0 < b) : (ceilDiv a b : Int) = ⌈(a : ℚ) / b⌉ := by
  have hbQ : (0 : ℚ) < b := Nat.cast_pos.mpr hb
  symm
  rw [Int.ceil_eq_iff, lt_div_iff₀ hbQ, div_le_iff₀ hbQ]
  have hmod := Nat.div_add_mod (a + b - 1) b
  have hlt := Nat.mod_lt (a + b - 1) hb
  have hup : a ≤ ceilDiv a b * b := by
    rw [ceilDiv, mul_comm]
    omega
  have hlow : ceilDiv a b * b < a + b := by
    rw [ceilDiv, mul_comm]
    omega
  refine ⟨?_, by exact_mod_cast hup⟩
  have hlowQ : (ceilDiv a b * b : ℚ) < a + b := by exact_mod_cast hlow
  push_cast
  linarith

/-- The instant of tide `n` on the PAN clock, in PAN cycles from the present (R18, R19). -/
def tideCycles (s : State) (n : Nat) : ℚ := ((n * s.tide.den * secT : Nat) / (s.tide.num : ℚ) - s.pt) / panT

/-- A tide to come falls on the first PAN cycle at or after its instant (R19). -/
theorem tideNow_of_to_come {s : State} {n : Nat} (hnum : 0 < s.tide.num)
    (h : (s.pt : Int) < tideInst s.tide.num s.tide.den n) : tideNow s n = s.now + panT * ⌈tideCycles s n⌉ := by
  have hinst : (tideInst s.tide.num s.tide.den n : Int) - s.pt = ⌈(n * s.tide.den * secT : Nat) / (s.tide.num : ℚ) - s.pt⌉ := by
    rw [Int.ceil_sub_natCast, tideInst, ceilDiv_eq_ceil _ hnum]
  rw [tideNow, if_neg (by omega), hinst, panUp_ceil, tideCycles]

theorem tideInst_mono {num den n m : Nat} (h : n ≤ m) : tideInst num den n ≤ tideInst num den m := by
  unfold tideInst ceilDiv
  gcongr

theorem tideCycles_succ (s : State) (n : Nat) :
    tideCycles s (n + 1) = tideCycles s n + (1200000000 * s.tide.den : Nat) / (s.tide.num : ℚ) := by
  simp only [tideCycles, secT, panT]
  push_cast
  ring

/-- Rounding up moves a distance by less than 1. -/
theorem ceil_add_sub_ceil (y r : ℚ) : ⌈y + r⌉ - ⌈y⌉ = ⌊r⌋ ∨ ⌈y + r⌉ - ⌈y⌉ = ⌈r⌉ := by
  have hlow : ⌊r⌋ ≤ ⌈y + r⌉ - ⌈y⌉ := by
    rw [le_sub_iff_add_le, add_comm, ← Int.ceil_add_intCast]
    gcongr
    exact Int.floor_le r
  have hup := Int.ceil_add_le y r
  have hgap := Int.ceil_le_floor_add_one r
  omega

/-- Settles O59: a tide to come falls on the first PAN cycle at or after its instant, and the instants lie 1.2 × 10^9 × DEN/NUM PAN
cycles apart (R18 to R21). -/
theorem tidesTakeEffectOnTheirGrid : Obligations.TidesTakeEffectOnTheirGrid := by
  unfold Obligations.TidesTakeEffectOnTheirGrid
  refine ⟨fun s => execTide_of_due, fun s => advanceTide_without_rebase, ?spacing⟩
  case spacing =>
    intro s n hnum hcome
    have hnext : (s.pt : Int) < tideInst s.tide.num s.tide.den (n + 1) :=
      hcome.trans_le (Int.ofNat_le.mpr (tideInst_mono n.le_succ))
    have hgap : tideNow s (n + 1) - tideNow s n = panT * (⌈tideCycles s (n + 1)⌉ - ⌈tideCycles s n⌉) := by
      rw [tideNow_of_to_come hnum hcome, tideNow_of_to_come hnum hnext]
      ring
    rw [hgap, tideCycles_succ, Int.natCast_mul, Int.natCast_mul, ceilDiv_eq_ceil _ hnum, Int.natCast_div,
      ← Rat.floor_natCast_div_natCast]
    exact (ceil_add_sub_ceil _ _).imp (congrArg _) (congrArg _)

end Sys2Proof.Proofs
end

section
/-! PROOFS. What the reports of firmware and hardware change: an event goes to the event ring and its vector, an error that is not
FATAL to the error queue as well, and nothing else is touched (R420 to R423, R514). -/

namespace Sys2Proof.Proofs

open Sys2Proof Sys2Proof.Machine

/-- `t` differs from `s` in what reports change alone: the event ring, the interrupt state, the outputs and the error queue. -/
def Reports (s t : State) : Prop :=
  t = { s with evr := t.evr, irq := t.irq, out := t.out, errs := t.errs, errNext := t.errNext, errOverflow := t.errOverflow }

theorem Reports.rfl {s : State} : Reports s s := Eq.refl s

theorem Reports.trans {s t u : State} (h : Reports s t) (k : Reports t u) : Reports s u := by
  unfold Reports at h
  rw [h] at k
  exact k

theorem Reports.mem {s t : State} (h : Reports s t) : t.mem = s.mem := by
  unfold Reports at h
  have hmem := congrArg State.mem h
  exact hmem

theorem Reports.clk {s t : State} (h : Reports s t) : t.clk = s.clk := by
  unfold Reports at h
  have hclk := congrArg State.clk h
  exact hclk

theorem Reports.hwbIdent {s t : State} (h : Reports s t) : t.hwbIdent = s.hwbIdent := by
  unfold Reports at h
  have hident := congrArg State.hwbIdent h
  exact hident

theorem Reports.debug {s t : State} (h : Reports s t) : t.debug = s.debug := by
  unfold Reports at h
  have hdebug := congrArg State.debug h
  exact hdebug

theorem Reports.foldl {A : Type} {f : State → A → State} (hf : ∀ s a, Reports s (f s a)) (l : List A) (s : State) :
    Reports s (l.foldl f s) :=
  List.foldlRecOn l f (motive := Reports s) .rfl fun _ ht a _ => ht.trans (hf _ a)

variable (s : State)

theorem reports_emit (o : Output) : Reports s (s.emit o) := rfl

theorem reports_sendMsix (v : Nat) : Reports s (sendMsix s v) := reports_emit s _

theorem reports_msixDue (v : Nat) : Reports s (msixDue s v) := by
  unfold msixDue
  split
  · rfl
  · exact reports_sendMsix s v

theorem reports_signalVector (v : Nat) : Reports s (signalVector s v) := by
  unfold signalVector
  split
  · rfl
  · exact .trans (by rfl) (reports_msixDue _ v)

theorem reports_putEvent (type vector : Nat) (time : Ticks) (payload : List Byte) :
    Reports s (putEvent s type vector time payload) := by
  unfold putEvent
  dsimp only
  split
  · rfl
  · split
    · rfl
    · exact .trans (by rfl) (reports_signalVector _ vector)

theorem reports_postFw (type vector : Nat) (time : Option Ticks) (payload : List Byte) :
    Reports s (postFw s type vector time payload) := by
  unfold postFw
  split
  · exact reports_putEvent s type vector _ payload
  · rfl

theorem reports_queueErr (code cls obj a b : Nat) (k : ErrKey) : Reports s (queueErr s code cls obj a b k) := by
  unfold queueErr
  split
  · rfl
  · split
    · rfl
    · exact .trans (by rfl) (reports_postFw _ _ _ _ _)

/-- An error below FATAL is queued and nothing else happens (R514). -/
theorem raiseErr_of_not_fatal {code : Nat} (h : errClass code ≠ 3) (obj a b : Nat) (k : ErrKey) :
    raiseErr s code obj a b k = queueErr s code (errClass code) obj a b k :=
  if_pos (.inl h)

theorem reports_raiseErr {code : Nat} (h : errClass code ≠ 3) (obj a b : Nat) (k : ErrKey) :
    Reports s (raiseErr s code obj a b k) := by
  rw [raiseErr_of_not_fatal s h]
  exact reports_queueErr s _ _ _ _ _ _

end Sys2Proof.Proofs
end

section
/-! PROOFS. What transfers change: memory, the requests at the slot engine, random draws, and what reports change (R27, R377, R389). -/

namespace Sys2Proof.Proofs

open Sys2Proof Sys2Proof.Machine

/-- `t` differs from `s` in what reads and writes of memory change alone. -/
def Transfers (s t : State) : Prop :=
  t = { s with mem := t.mem, slots := t.slots, fresh := t.fresh, evr := t.evr, irq := t.irq, out := t.out, errs := t.errs,
               errNext := t.errNext, errOverflow := t.errOverflow }

section
variable {s t u : State}

theorem Transfers.rfl : Transfers s s := Eq.refl s

theorem Transfers.trans (h : Transfers s t) (k : Transfers t u) : Transfers s u := by
  unfold Transfers at h
  rw [h] at k
  exact k

/-- What is neither memory, a request, a draw nor a report is as before. -/
theorem Transfers.field {α : Type} (h : Transfers s t) (f : State → α) (hf : ∀ m r n e i o l x y, f { s with
    mem := m, slots := r, fresh := n, evr := e, irq := i, out := o, errs := l, errNext := x, errOverflow := y } = f s) : f t = f s := by
  unfold Transfers at h
  rw [h]
  exact hf _ _ _ _ _ _ _ _ _

theorem Transfers.clk (h : Transfers s t) : t.clk = s.clk := h.field State.clk (by intros; rfl)

theorem Transfers.heads (h : Transfers s t) : t.heads = s.heads := h.field State.heads (by intros; rfl)

theorem Reports.transfers (h : Reports s t) : Transfers s t := by
  unfold Reports at h
  rw [h]
  rfl

theorem Transfers.foldl {A : Type} {f : State → A → State} (hf : ∀ s a, Transfers s (f s a)) (l : List A) (s : State) :
    Transfers s (l.foldl f s) :=
  List.foldlRecOn l f (motive := Transfers s) .rfl fun _ ht a _ => ht.trans (hf _ a)

end

variable (s : State)

theorem transfers_setMemChan (n : Nat) (c : MemChan) : Transfers s (s.setMemChan n c) := rfl

theorem transfers_noteOutcome (line : Nat) (control : Bool) (o : ReadOutcome) : Transfers s (noteOutcome s line control o) := by
  cases o with
  | good => exact .rfl
  | poison => exact transfers_setMemChan s _ _
  | corrected errors => exact .trans (transfers_setMemChan s _ _) (reports_raiseErr _ (by decide) _ _ _ _).transfers
  | uncorrectable synd =>
    have hnote (c : MemChan) (a b : Nat) : Transfers s { s.setMemChan (lineChan line) c with
        mem := { (s.setMemChan (lineChan line) c).mem with lastAddr := a, lastSynd := b } } := rfl
    cases control with
    | true => exact (hnote _ _ _).trans (reports_raiseErr _ (code := 0x0072) (by decide) _ _ _ _).transfers
    | false => exact (hnote _ _ _).trans (reports_raiseErr _ (code := 0x0071) (by decide) _ _ _ _).transfers

theorem transfers_queueWriteBack (line : Nat) (data : List Byte) : Transfers s (queueWriteBack s line data) := by
  unfold queueWriteBack
  dsimp only
  split_ifs
  · exact .rfl
  · exact transfers_setMemChan s _ _
  · exact transfers_setMemChan s _ _

theorem transfers_readLine (line : Nat) (wide control : Bool) : Transfers s (readLine s line wide control).2 := by
  unfold readLine
  dsimp only
  split
  case h_3 => exact (transfers_noteOutcome s line control _).trans (transfers_queueWriteBack _ _ _)
  all_goals exact transfers_noteOutcome s line control _

theorem transfers_readParts (t : Tab Region) (parts : List Part) (control : Bool) : Transfers s (readParts s t parts control).2 := by
  refine List.foldlRecOn parts _ (motive := fun r : List Piece × State => Transfers s r.2) .rfl fun r hr p _ => ?_
  refine List.foldlRecOn (linesOf p.addr p.len) _ (motive := fun r : List Piece × State => Transfers s r.2) hr fun r hr l _ => ?_
  dsimp only
  split
  · exact hr.trans (transfers_readLine _ _ _ _)
  · exact hr

theorem transfers_dykeFault (ident : Nat) (write : Bool) (region first denied : Nat) :
    Transfers s (dykeFault s ident write region first denied) := by
  have hlog (l : List DykeFaultRec) : Transfers s { s with mem := { s.mem with dyke := { s.mem.dyke with log := l } } } := rfl
  exact (hlog _).trans (reports_raiseErr _ (by decide) _ _ _ _).transfers

theorem transfers_dykeCheck (ident addr n : Nat) (write : Bool) : Transfers s (dykeCheck s ident addr n write).2.2 := by
  have hrules : Transfers s (dykeRules s).2 := by
    unfold dykeRules
    split
    · exact .rfl
    · rfl
  unfold dykeCheck
  dsimp only
  split
  · exact hrules
  · exact hrules.trans (transfers_dykeFault _ _ _ _ _ _)

theorem transfers_postParts (t : Tab Region) (parts : List Part) (cls ident : Nat) (write : Bool) (p : Purpose) (i : Issue) :
    Transfers s (postParts s t parts cls ident write p i) := rfl

theorem transfers_forget (f : Purpose → Bool) : Transfers s (forget s f) := rfl

theorem transfers_readPieces (ident addr n : Nat) (control : Bool) : Transfers s (readPieces s ident addr n control).2 :=
  (transfers_dykeCheck s ident addr n false).trans (transfers_readParts _ _ _ _)

theorem transfers_devRead (ident addr n : Nat) (control : Bool) : Transfers s (devRead s ident addr n control).2.2 :=
  transfers_readPieces s ident addr n control

theorem transfers_classRead (cls ident addr n : Nat) (p : Purpose) (control : Bool) :
    Transfers s (classRead s cls ident addr n p control).2.2 :=
  (transfers_dykeCheck s ident addr n false).trans (.trans (transfers_postParts _ _ _ _ _ _ _ _) (transfers_readParts _ _ _ _))

theorem transfers_storeLine (line : Nat) (data : List Byte) (d : List Nat) : Transfers s (storeLine s line data d) := rfl

theorem transfers_dropWriteBack (line : Nat) : Transfers s (dropWriteBack s line) := rfl

theorem transfers_writeLine (line off : Nat) (data : List Byte) (wide : Bool) : Transfers s (writeLine s line off data wide).2 := by
  have hread := (transfers_readLine s line wide false).trans (transfers_dropWriteBack _ line)
  unfold writeLine
  dsimp only
  split
  · exact (transfers_storeLine s line _ _).trans (transfers_dropWriteBack _ line)
  · split
    · exact hread.trans (.trans (transfers_storeLine _ line _ _) (reports_raiseErr _ (code := 0x0073) (by decide) _ _ _ _).transfers)
    · exact hread.trans (transfers_storeLine _ line _ _)

theorem transfers_storeParts (t : Tab Region) (addr : Nat) (data : List Byte) (parts : List Part) :
    Transfers s (storeParts s t addr data parts).2.2 := by
  refine List.foldlRecOn parts _ (motive := fun r : Bool × Bool × State => Transfers s r.2.2) .rfl fun r hr p _ => ?_
  dsimp only
  split
  · refine List.foldlRecOn (linesOf p.addr p.len) _ (motive := fun r : Bool × Bool × State => Transfers s r.2.2) hr fun r hr l _ => ?_
    exact hr.trans (transfers_writeLine _ _ _ _ _)
  · exact hr

theorem transfers_devWrite (ident addr : Nat) (data : List Byte) : Transfers s (devWrite s ident addr data).2 :=
  (transfers_dykeCheck s ident addr data.length true).trans (transfers_storeParts _ _ _ _ _)

theorem transfers_classWrite (cls ident addr : Nat) (data : List Byte) (p : Purpose) (i : Issue) :
    Transfers s (classWrite s cls ident addr data p i).2 :=
  (transfers_dykeCheck s ident addr data.length true).trans
    (.trans (transfers_postParts _ _ _ _ _ _ _ _) (transfers_storeParts _ _ _ _ _))

end Sys2Proof.Proofs
end

section
/-! PROOFS. Bytes, lines and slices: element by element. -/

namespace Sys2Proof.Proofs

open Sys2Proof Sys2Proof.Machine Sys2Proof.Laws

theorem nth_eq_getElem? {α : Type} (d : α) (l : List α) (i : Nat) : nth d l i = l[i]?.getD d := by
  induction l generalizing i with
  | nil => rfl
  | cons a l ih =>
    cases i with
    | zero => rfl
    | succ i => exact ih i

theorem nth_append_left {α : Type} {d : α} {l m : List α} {i : Nat} (h : i < l.length) : nth d (l ++ m) i = nth d l i := by
  simp only [nth_eq_getElem?, List.getElem?_append_left h]

theorem nth_append_right {α : Type} {d : α} {l m : List α} {i : Nat} (h : l.length ≤ i) :
    nth d (l ++ m) i = nth d m (i - l.length) := by
  simp only [nth_eq_getElem?, List.getElem?_append_right h]

theorem nth_take {α : Type} {d : α} {l : List α} {n i : Nat} (h : i < n) : nth d (l.take n) i = nth d l i := by
  simp only [nth_eq_getElem?, List.getElem?_take_of_lt h]

theorem nth_drop {α : Type} (d : α) (l : List α) (n i : Nat) : nth d (l.drop n) i = nth d l (n + i) := by
  simp only [nth_eq_getElem?, List.getElem?_drop]

theorem nth_readMem (s : State) {a n i : Nat} (h : i < n) : nth 0#8 (s.readMem a n) i = readCell s.mem.cells (a + i) := by
  simp [nth_eq_getElem?, State.readMem, readCells, h]

@[simp] theorem length_slice (l : List Byte) (o n : Nat) : (slice l o n).length = n := by
  simp [slice, zeros]

/-- A byte of a slice is that of the list it is cut from, 0 past its end. -/
theorem nth_slice {l : List Byte} {o n i : Nat} (h : i < n) : nth 0#8 (slice l o n) i = nth 0#8 l (o + i) := by
  rw [slice]
  by_cases hi : i < ((l.drop o).take n).length
  · rw [nth_append_left hi, nth_take h, nth_drop]
  · rw [nth_append_right (not_lt.mp hi)]
    simp only [List.length_take, List.length_drop] at hi
    have hpast : l.length ≤ o + i := by omega
    rw [nth_eq_getElem?, nth_eq_getElem?, List.getElem?_eq_none hpast, zeros, List.getElem?_replicate]
    split <;> rfl

/-- Bytes written read back one by one, and every other byte reads as before. -/
theorem readCell_writeCells {l : List Byte} {m : List Host.Cell} {a x : Nat} (h : Memory.wf m = true) :
    readCell (writeCells m a l) x = if a ≤ x ∧ x < a + l.length then nth 0#8 l (x - a) else readCell m x := by
  induction l generalizing m a with
  | nil => rw [writeCells, List.length_nil, if_neg (by omega)]
  | cons v r ih =>
    have hm : Memory.wf (writeCell m a v) = true := wf_writeCells (l := [v]) h
    rw [writeCells, ih hm, List.length_cons]
    rcases Nat.lt_trichotomy x a with hx | rfl | hx
    · rw [if_neg (by omega), if_neg (by omega), readCell_writeCell_other hx.ne]
    · rw [if_neg (by omega), if_pos (by omega), readCell_writeCell_same h, Nat.sub_self, nth]
    · rw [readCell_writeCell_other hx.ne']
      refine if_congr (by omega) ?_ rfl
      rw [show x - a = x - (a + 1) + 1 by omega, nth]

end Sys2Proof.Proofs
end

section
/-! PROOFS. Writes by line and by page: each byte of an allowed part takes its data, and no other byte changes (R377, R389). -/

namespace Sys2Proof.Proofs

open Sys2Proof Sys2Proof.Machine Sys2Proof.Laws

/-- Memory bytes in canonical form, and no line with damage or stored poison. -/
structure SoundMem (s : State) : Prop where
  wf : Memory.wf s.mem.cells = true
  upset : s.mem.upset = []

/-- `t` has sound memory that differs from that of `s` at the addresses of `P` alone, where it holds the bytes `d` of a write at
`base`. -/
structure Stored (base : Nat) (d : List Byte) (P : Nat → Prop) (s t : State) : Prop where
  sound : SoundMem t
  inside : ∀ x, P x → readCell t.mem.cells x = nth 0#8 d (x - base)
  outside : ∀ x, ¬ P x → readCell t.mem.cells x = readCell s.mem.cells x

section
variable {base : Nat} {d : List Byte} {P Q : Nat → Prop} {s t u : State}

theorem Stored.nothing (h : SoundMem s) (hP : ∀ x, ¬ P x) : Stored base d P s s :=
  ⟨h, fun x hx => absurd hx (hP x), fun _ _ => rfl⟩

/-- One write after another. -/
theorem Stored.trans (h : Stored base d P s t) (k : Stored base d Q t u) : Stored base d (fun x => P x ∨ Q x) s u where
  sound := k.sound
  inside x hx := by
    by_cases hq : Q x
    · exact k.inside x hq
    · rw [k.outside x hq, h.inside x (hx.resolve_right hq)]
  outside x hx := by
    rw [not_or] at hx
    rw [k.outside x hx.2, h.outside x hx.1]

theorem Stored.congr (h : Stored base d P s t) (hPQ : ∀ x, P x ↔ Q x) : Stored base d Q s t :=
  funext (fun x => propext (hPQ x)) ▸ h

end

theorem decodeLine_sound (wide : Bool) : decodeLine [0, 0, 0, 0] wide = .good := by
  cases wide <;> rfl

theorem lineUpset_of_soundMem {s : State} (h : SoundMem s) (line : Nat) : lineUpset s line = [0, 0, 0, 0] := by
  simp [lineUpset, tget, tfind, h.upset]

/-- A read of a sound line gives its bytes and changes nothing. -/
theorem readLine_of_sound {s : State} {line : Nat} (h : lineUpset s line = [0, 0, 0, 0]) (wide control : Bool) :
    readLine s line wide control = (⟨s.readMem (64 * line) 64, false, false⟩, s) := by
  simp only [readLine, h, decodeLine_sound, noteOutcome]

/-- A line of 64 bytes with `data` in place of those from `off` on. -/
def mergedLine (raw : List Byte) (off : Nat) (data : List Byte) : List Byte :=
  raw.take off ++ data ++ raw.drop (off + data.length)

section
variable {raw data : List Byte} {off : Nat} (hraw : raw.length = 64) (hfit : off + data.length ≤ 64)
include hraw hfit

theorem length_mergedLine : (mergedLine raw off data).length = 64 := by
  simp only [mergedLine, List.length_append, List.length_take, List.length_drop]
  omega

theorem nth_mergedLine (i : Nat) : nth 0#8 (mergedLine raw off data) i =
    if off ≤ i ∧ i < off + data.length then nth 0#8 data (i - off) else nth 0#8 raw i := by
  have htake : (raw.take off).length = off := by
    rw [List.length_take]
    omega
  have hfront : (raw.take off ++ data).length = off + data.length := by rw [List.length_append, htake]
  by_cases hlow : i < off
  · rw [if_neg (by omega), mergedLine, nth_append_left (by omega), nth_append_left (by omega), nth_take hlow]
  · by_cases hhigh : i < off + data.length
    · rw [if_pos (by omega), mergedLine, nth_append_left (by omega), nth_append_right (by omega), htake]
    · rw [if_neg (by omega), mergedLine, nth_append_right (by omega), nth_drop, hfront, Nat.add_sub_cancel' (by omega)]

end

/-- A write to a line of sound memory stores the line with its bytes in place; a whole line is no other case. -/
theorem writeLine_of_sound {s : State} {line off : Nat} {data : List Byte} (h : SoundMem s) (hfit : off + data.length ≤ 64)
    (wide : Bool) : (writeLine s line off data wide).2 =
      dropWriteBack (storeLine s line (mergedLine (s.readMem (64 * line) 64) off data) [0, 0, 0, 0]) line := by
  by_cases hwhole : data.length = 64
  · obtain rfl : off = 0 := by omega
    have hmerged : mergedLine (s.readMem (64 * line) 64) 0 data = data := by
      rw [mergedLine, List.take_zero, List.nil_append, List.drop_eq_nil_of_le (by simp [hwhole]), List.append_nil]
    rw [writeLine, if_pos hwhole, hmerged]
  · rw [writeLine, if_neg hwhole, readLine_of_sound (lineUpset_of_soundMem h line)]
    rfl

/-- A write within a line of sound memory. -/
theorem stored_writeLine {s : State} {line off base : Nat} {d data : List Byte} (h : SoundMem s)
    (hfit : off + data.length ≤ 64)
    (hdata : ∀ i < data.length, nth 0#8 data i = nth 0#8 d (64 * line + off + i - base)) (wide : Bool) :
    Stored base d (fun x => 64 * line + off ≤ x ∧ x < 64 * line + off + data.length) s
      (writeLine s line off data wide).2 := by
  have hlen := length_mergedLine (length_readMem s (64 * line) 64) hfit
  have hread (x : Nat) : readCell (writeLine s line off data wide).2.mem.cells x =
      if 64 * line + off ≤ x ∧ x < 64 * line + off + data.length then nth 0#8 data (x - (64 * line + off))
      else readCell s.mem.cells x := by
    rw [writeLine_of_sound h hfit]
    refine (readCell_writeCells h.wf).trans ?_
    rw [hlen]
    by_cases hline : 64 * line ≤ x ∧ x < 64 * line + 64
    · rw [if_pos hline, nth_mergedLine (length_readMem ..) hfit, nth_readMem s (by omega), Nat.add_sub_cancel' hline.1,
        Nat.sub_sub]
      exact if_congr (by omega) rfl rfl
    · rw [if_neg hline, if_neg (by omega)]
  refine ⟨⟨?wf, ?upset⟩, fun x hx => ?inside, fun x hx => ?outside⟩
  case wf =>
    rw [writeLine_of_sound h hfit]
    exact wf_writeCells h.wf
  case upset =>
    rw [writeLine_of_sound h hfit]
    simp [dropWriteBack, storeLine, setLineUpset, State.setMemChan, State.writeMem, tdel, h.upset]
  case inside =>
    rw [hread, if_pos hx, hdata _ (by omega), Nat.add_sub_cancel' hx.1]
  case outside => rw [hread, if_neg hx]

/-! ### The lines of a part, and the parts of a transaction -/

/-- What `storeParts` does with a line of an allowed part. -/
def storeLineOf (t : Tab Region) (base : Nat) (d : List Byte) (acc : Bool × Bool × State) (l : Nat × Nat × Nat) :
    Bool × Bool × State :=
  (acc.1, acc.2.1 || (writeLine acc.2.2 l.1 l.2.1 (slice d (64 * l.1 + l.2.1 - base) l.2.2) (wideIn t (64 * l.1))).1,
    (writeLine acc.2.2 l.1 l.2.1 (slice d (64 * l.1 + l.2.1 - base) l.2.2) (wideIn t (64 * l.1))).2)

/-- What `storeParts` does with a part. -/
def storePart (t : Tab Region) (base : Nat) (d : List Byte) (acc : Bool × Bool × State) (p : Part) : Bool × Bool × State :=
  if p.ok then (linesOf p.addr p.len).foldl (storeLineOf t base d) acc else (true, acc.2)

theorem storeParts_eq (s : State) (t : Tab Region) (base : Nat) (d : List Byte) (parts : List Part) :
    storeParts s t base d parts = parts.foldl (storePart t base d) (false, false, s) := rfl

section
variable {t : Tab Region} {base : Nat} {d : List Byte}

/-- The lines of a range, with fuel for each, take the range's bytes. -/
theorem stored_splitLines {fuel a n : Nat} {acc : Bool × Bool × State} (h : SoundMem acc.2.2) (hfuel : n = 0 ∨ n + a % 64 ≤ 64 * fuel)
    (hbase : base ≤ a) : Stored base d (fun x => a ≤ x ∧ x < a + n) acc.2.2
      ((splitLines fuel a n).foldl (storeLineOf t base d) acc).2.2 := by
  induction fuel generalizing a n acc with
  | zero => exact .nothing h (by omega)
  | succ f ih =>
    cases n with
    | zero => exact .nothing h (by omega)
    | succ n =>
      rw [splitLines, List.foldl_cons]
      have haddr : 64 * (a / 64) + a % 64 = a := Nat.div_add_mod a 64
      have hline : Stored base d (fun x => a ≤ x ∧ x < a + min (n + 1) (64 - a % 64)) acc.2.2
          (storeLineOf t base d acc (a / 64, a % 64, min (n + 1) (64 - a % 64))).2.2 := by
        have hslice := stored_writeLine (line := a / 64) (off := a % 64) (base := base) (d := d)
          (data := slice d (64 * (a / 64) + a % 64 - base) (min (n + 1) (64 - a % 64))) h
          (by rw [length_slice]; omega)
          (fun i hi => by
            rw [length_slice] at hi
            rw [nth_slice hi]
            congr 1
            omega)
          (wideIn t (64 * (a / 64)))
        rw [length_slice] at hslice
        rw [haddr] at hslice
        rwa [storeLineOf, haddr]
      have hrest := ih (a := a + min (n + 1) (64 - a % 64)) (n := n + 1 - min (n + 1) (64 - a % 64)) hline.sound
        (by omega) (by omega)
      exact (hline.trans hrest).congr (fun x => by omega)

theorem stored_linesOf {a n : Nat} {acc : Bool × Bool × State} (h : SoundMem acc.2.2) (hbase : base ≤ a) :
    Stored base d (fun x => a ≤ x ∧ x < a + n) acc.2.2 ((linesOf a n).foldl (storeLineOf t base d) acc).2.2 :=
  stored_splitLines h (by omega) hbase

/-- The parts of a transaction, with fuel for each: those of allowed pages take the data (R389). -/
theorem stored_splitParts {ok : Nat → Bool} {fuel a n : Nat} {acc : Bool × Bool × State} (h : SoundMem acc.2.2)
    (hfuel : n = 0 ∨ n + a % 4096 ≤ 4096 * fuel) (hbase : base ≤ a) :
    Stored base d (fun x => (a ≤ x ∧ x < a + n) ∧ ok (x / 4096) = true) acc.2.2
      ((splitParts ok fuel a n).foldl (storePart t base d) acc).2.2 := by
  induction fuel generalizing a n acc with
  | zero => exact .nothing h (by omega)
  | succ f ih =>
    cases n with
    | zero => exact .nothing h (by omega)
    | succ n =>
      rw [splitParts, List.foldl_cons]
      have hpage {x : Nat} (hx : a ≤ x ∧ x < a + min (n + 1) (4096 - a % 4096)) : x / 4096 = a / 4096 := by omega
      have hpart : Stored base d (fun x => (a ≤ x ∧ x < a + min (n + 1) (4096 - a % 4096)) ∧ ok (x / 4096) = true) acc.2.2
          (storePart t base d acc ⟨a, min (n + 1) (4096 - a % 4096), ok (a / 4096)⟩).2.2 := by
        cases hok : ok (a / 4096) with
        | true => exact (stored_linesOf h hbase).congr fun x => ⟨fun hx => ⟨hx, by rw [hpage hx, hok]⟩, And.left⟩
        | false => exact .nothing h fun x hx => by rw [hpage hx.1, hok] at hx; exact absurd hx.2 (by decide)
      have hrest := ih (a := a + min (n + 1) (4096 - a % 4096)) (n := n + 1 - min (n + 1) (4096 - a % 4096)) hpart.sound
        (by omega) (by omega)
      refine (hpart.trans hrest).congr fun x => ?_
      rw [← or_and_right]
      exact and_congr_left fun _ => by omega

end

/-! ### A write by a master -/

theorem dykeRules_of_synced {s : State} (h : s.mem.dyke.staged = s.mem.dyke.force) :
    dykeRules s = (s.mem.dyke.force, s) :=
  if_pos h

/-- A denied access is logged and reported, and memory keeps its bytes (R394). -/
theorem dykeFault_keeps_lines (s : State) (ident : Nat) (write : Bool) (region first denied : Nat) :
    (dykeFault s ident write region first denied).mem.cells = s.mem.cells ∧
      (dykeFault s ident write region first denied).mem.upset = s.mem.upset := by
  unfold dykeFault
  dsimp only
  rw [(reports_raiseErr _ (code := 0x0074) (by decide) _ _ _ _).mem]
  exact ⟨rfl, rfl⟩

/-- While no staged rule waits, a check splits the transaction by the rules in force, and memory keeps its bytes (R389, R391). -/
theorem dykeCheck_of_synced {s : State} (h : s.mem.dyke.staged = s.mem.dyke.force) (ident addr n : Nat) (write : Bool) :
    ∃ u, dykeCheck s ident addr n write =
        (s.mem.dyke.force, splitParts (judgePage s s.mem.dyke.force ident write) (n / 4096 + 2) addr n, u) ∧
      u.mem.cells = s.mem.cells ∧ u.mem.upset = s.mem.upset := by
  unfold dykeCheck
  rw [dykeRules_of_synced h]
  dsimp only
  split
  · exact ⟨s, rfl, rfl, rfl⟩
  · exact ⟨_, rfl, dykeFault_keeps_lines _ _ _ _ _ _⟩

/-- A write by a master of granted pages alone changes the granted bytes of its range (R387 to R389). -/
theorem stored_classWrite {s : State} (h : SoundMem s) (hrules : s.mem.dyke.staged = s.mem.dyke.force)
    (cls ident addr : Nat) (d : List Byte) (p : Purpose) (i : Issue) :
    Stored addr d (fun x => (addr ≤ x ∧ x < addr + d.length) ∧ judgePage s s.mem.dyke.force ident true (x / 4096) = true) s
      (classWrite s cls ident addr d p i).2 := by
  obtain ⟨u, hcheck, hcells, hupset⟩ := dykeCheck_of_synced hrules ident addr d.length true
  have hu : SoundMem (postParts u s.mem.dyke.force
      (splitParts (judgePage s s.mem.dyke.force ident true) (d.length / 4096 + 2) addr d.length) cls ident true p i) :=
    ⟨hcells ▸ h.wf, hupset.trans h.upset⟩
  have hstored := stored_splitParts (t := s.mem.dyke.force) (base := addr) (d := d)
    (ok := judgePage s s.mem.dyke.force ident true) (fuel := d.length / 4096 + 2) (a := addr) (n := d.length)
    (acc := (false, false, _)) hu (by omega) le_rfl
  rw [classWrite, classStore, hcheck]
  exact ⟨hstored.sound, hstored.inside, fun x hx => (hstored.outside x hx).trans (congrArg (readCell · x) hcells)⟩

/-- Settles O17: a write stores the parts of the granted pages, line by line, and nothing else (R377, R387 to R389). -/
theorem writesStayWithinTheDyke : Obligations.WritesStayWithinTheDyke := by
  unfold Obligations.WritesStayWithinTheDyke
  intro s cls ident addr d p i x hwf hupset hrules t
  have hstored := stored_classWrite ⟨hwf, hupset⟩ hrules cls ident addr d p i
  refine ⟨fun hout => hstored.outside x ?_, fun hlow hhigh hok => hstored.inside x ⟨⟨hlow, hhigh⟩, hok⟩⟩
  rintro ⟨⟨hlow, hhigh⟩, hok⟩
  rcases hout with hx | hx | hx
  · omega
  · omega
  · rw [hok] at hx
    contradiction

end Sys2Proof.Proofs
end

section
/-! PROOFS. A whole line written (R377, R384). -/

namespace Sys2Proof.Proofs

open Sys2Proof Sys2Proof.Machine Sys2Proof.Laws

theorem tfind_tdel_same {α : Type} (t : Tab α) (n : Nat) : tfind (tdel t n) n = none := by
  induction t with
  | nil => rfl
  | cons e r ih =>
    obtain ⟨m, a⟩ := e
    by_cases hm : m = n
    · subst hm
      simpa [tdel] using ih
    · simpa [tdel, hm, tfind] using ih

theorem lineUpset_setLineUpset (s : State) (line : Nat) (d : List Nat) : lineUpset (setLineUpset s line d) line = d := by
  unfold setLineUpset lineUpset
  by_cases hd : d = [0, 0, 0, 0]
  · subst hd
    simp [tget, tfind_tdel_same]
  · simp [hd, tget_tset_same]

/-- Settles O20: a whole line is stored with the check symbols of its data, and its queued write-back is dropped (R377, R384). -/
theorem lineWriteReadsBack : Obligations.LineWriteReadsBack := by
  unfold Obligations.LineWriteReadsBack
  intro s line d wide control x hwf hd t
  have ht : t = dropWriteBack (storeLine s line d [0, 0, 0, 0]) line := by
    simp only [t, writeLine, if_pos hd]
  have hsound : lineUpset t line = [0, 0, 0, 0] := by
    rw [ht, lineUpset_dropWriteBack, storeLine, lineUpset_setLineUpset]
  have hdata : t.readMem (64 * line) 64 = d := by rw [ht, readMem_dropWriteBack, readMem_storeLine hwf hd]
  refine ⟨?read, ?queue, ?outside⟩
  case read => rw [readLine_of_sound hsound, hdata]
  case queue =>
    rw [ht, dropWriteBack, State.memChan, State.setMemChan, tget_tset_same]
    intro e he
    simpa using (List.mem_filter.mp he).2
  case outside =>
    intro hx
    rw [ht]
    exact (readCell_writeCells hwf).trans (if_neg (by omega))

end Sys2Proof.Proofs
end

section
/-! PROOFS. Multiplication by powers of α is repeated doubling, and no power of α below 68 fixes a byte (R372). -/

namespace Sys2Proof.Proofs

open Sys2Proof Sys2Proof.Machine

theorem gfDouble_gfMulBits {f a b : Nat} (ha : a < 256) : gfDouble (gfMulBits f a b) = gfMulBits f (gfDouble a) b := by
  induction f generalizing a b with
  | zero => rfl
  | succ f ih =>
    have hterm : (if b % 2 = 1 then a else 0) < 256 := by split <;> omega
    rw [gfMulBits, gfMulBits, gfDouble_byteLinear.xor hterm ((gfMulBits_byteLinear f (b / 2)).lt (gfDouble_lt ha)),
      ih (gfDouble_lt ha)]
    congr 1
    split
    · rfl
    · exact gfDouble_byteLinear.map_zero

theorem gfMulBits_zero_right (f a : Nat) : gfMulBits f a 0 = 0 := by
  induction f generalizing a with
  | zero => rfl
  | succ f ih => simp [gfMulBits, ih]

/-- The bits of a sum of factors add up. -/
theorem gfMulBits_xor_right (f a b c : Nat) : gfMulBits f a (b ^^^ c) = gfMulBits f a b ^^^ gfMulBits f a c := by
  induction f generalizing a b c with
  | zero => exact (Nat.xor_self 0).symm
  | succ f ih =>
    have hdiv : (b ^^^ c) / 2 = b / 2 ^^^ c / 2 := Nat.xor_div_two_pow (n := 1)
    have hmod : (b ^^^ c) % 2 = b % 2 ^^^ c % 2 := Nat.xor_mod_two_pow (n := 1)
    rw [gfMulBits, gfMulBits, gfMulBits, hdiv, ih, hmod]
    rcases Nat.mod_two_eq_zero_or_one b with hb | hb <;> rcases Nat.mod_two_eq_zero_or_one c with hc | hc <;>
      simp [hb, hc, Nat.xor_assoc, Nat.xor_left_comm]

/-- Multiplication of a constant respects addition too. -/
theorem gfMul_byteLinear_right {a : Nat} (ha : a < 256) : ByteLinear fun x => gfMul a x :=
  ⟨fun _ => (gfMul_byteLinear _).lt ha, fun _ _ => gfMulBits_xor_right 8 a _ _⟩

theorem gfMul_gfDouble_left {a : Nat} (ha : a < 256) (b : Nat) : gfMul (gfDouble a) b = gfDouble (gfMul a b) :=
  (gfDouble_gfMulBits ha).symm

/-- A map with the values of another at the powers of two is that map. -/
theorem ByteLinear.ext_of_basis {F G : Nat → Nat} (hF : ByteLinear F) (hG : ByteLinear G) (h : ∀ k < 8, F (2 ^ k) = G (2 ^ k))
    {a : Nat} (ha : a < 256) : F a = G a := by
  have hzero : F a ^^^ G a = 0 :=
    (hF.add hG).eq_zero_of_basis (fun k hk => by rw [h k hk, Nat.xor_self]) ha
  exact Nat.xor_eq_zero_iff.mp hzero

theorem gfMul_one {a : Nat} (ha : a < 256) : gfMul a 1 = a :=
  (gfMul_byteLinear 1).ext_of_basis .id (by decide) ha

/-- A doubling may stand at either factor. -/
theorem gfMul_gfDouble_right {a b : Nat} (ha : a < 256) (hb : b < 256) : gfMul a (gfDouble b) = gfDouble (gfMul a b) := by
  have hpow (k : Nat) (hk : k < 8) : 2 ^ k < 256 := Nat.pow_lt_pow_right (m := k) (n := 8) (by decide) hk
  refine ((gfMul_byteLinear_right ha).comp gfDouble_byteLinear).ext_of_basis
    (gfDouble_byteLinear.comp (gfMul_byteLinear_right ha)) (fun k hk => ?_) hb
  exact (gfMul_byteLinear (gfDouble (2 ^ k))).ext_of_basis (gfDouble_byteLinear.comp (gfMul_byteLinear (2 ^ k)))
    ((by decide : ∀ k < 8, ∀ j < 8, gfMul (2 ^ j) (gfDouble (2 ^ k)) = gfDouble (gfMul (2 ^ j) (2 ^ k))) k hk) ha

theorem gfExp_lt (k : Nat) : gfExp k < 256 := by
  induction k with
  | zero => decide
  | succ k ih => exact gfDouble_lt ih

theorem iterate_gfDouble_lt {a : Nat} (ha : a < 256) (k : Nat) : gfDouble^[k] a < 256 := by
  induction k with
  | zero => exact ha
  | succ k ih =>
    rw [Function.iterate_succ_apply']
    exact gfDouble_lt ih

/-- Multiplication by α^k doubles k times. -/
theorem gfMul_gfExp {a : Nat} (ha : a < 256) (k : Nat) : gfMul a (gfExp k) = gfDouble^[k] a := by
  induction k with
  | zero => exact gfMul_one ha
  | succ k ih => rw [gfExp, gfMul_gfDouble_right ha (gfExp_lt k), ih, Function.iterate_succ_apply']

theorem gfDouble_eq_zero_iff {a : Nat} : gfDouble a = 0 ↔ a = 0 := by
  refine ⟨fun h => ?_, fun h => by rw [h]; rfl⟩
  rw [gfDouble] at h
  by_cases hlow : a < 128
  · rw [if_pos hlow] at h
    omega
  · rw [if_neg hlow, Nat.xor_eq_zero_iff] at h
    omega

theorem iterate_gfDouble_eq_zero_iff {a : Nat} (k : Nat) : gfDouble^[k] a = 0 ↔ a = 0 := by
  induction k with
  | zero => rfl
  | succ k ih => rw [Function.iterate_succ_apply', gfDouble_eq_zero_iff, ih]

/-- α has order 255 (R372). -/
theorem isPeriodicPt_gfDouble_255 {a : Nat} (ha : a < 256) : Function.IsPeriodicPt gfDouble 255 a := by
  have hone : gfExp 255 = 1 := by decide +kernel
  rw [Function.IsPeriodicPt, Function.IsFixedPt, ← gfMul_gfExp ha, hone, gfMul_one ha]

/-- Where α^m + 1 is a power of α, no byte but 0 is fixed by α^m. -/
theorem eq_zero_of_isPeriodicPt {m t a : Nat} (ha : a < 256) (ht : gfExp m ^^^ 1 = gfExp t)
    (h : Function.IsPeriodicPt gfDouble m a) : a = 0 := by
  have hzero : gfMul a (gfExp t) = 0 := by
    rw [← ht, (gfMul_byteLinear_right ha).xor (gfExp_lt m) (by decide), gfMul_gfExp ha, h.eq, gfMul_one ha, Nat.xor_self]
  rwa [gfMul_gfExp ha, iterate_gfDouble_eq_zero_iff] at hzero

/-- The powers of α below 68 that are left apart by the order 255 = 3 × 5 × 17. -/
theorem gcd_order_dvd : ∀ m < 68, 0 < m → m.gcd 255 ∣ 15 ∨ m.gcd 255 ∣ 51 ∨ m.gcd 255 ∣ 85 := by decide

/-- No power of α below 68 fixes a byte but 0: the places of a line's 68 symbols are told apart (R375). -/
theorem eq_zero_of_fixed_below_68 {m a : Nat} (ha : a < 256) (hpos : 0 < m) (hm : m < 68) (h : gfDouble^[m] a = a) : a = 0 := by
  have hgcd : Function.IsPeriodicPt gfDouble (m.gcd 255) a :=
    Function.IsPeriodicPt.gcd h (isPeriodicPt_gfDouble_255 ha)
  rcases gcd_order_dvd m hm hpos with hdvd | hdvd | hdvd
  · exact eq_zero_of_isPeriodicPt (m := 15) (t := 33) ha (by decide +kernel) (hgcd.trans_dvd hdvd)
  · exact eq_zero_of_isPeriodicPt (m := 51) (t := 238) ha (by decide +kernel) (hgcd.trans_dvd hdvd)
  · exact eq_zero_of_isPeriodicPt (m := 85) (t := 170) ha (by decide +kernel) (hgcd.trans_dvd hdvd)

/-- Two powers of α below 68 that take a byte but 0 to the same byte are the same. -/
theorem iterate_gfDouble_inj {a j k : Nat} (ha : a < 256) (hne : a ≠ 0) (hj : j < 68) (hk : k < 68)
    (h : gfDouble^[j] a = gfDouble^[k] a) : j = k := by
  wlog hle : j ≤ k generalizing j k
  · exact (this hk hj h.symm (Nat.le_of_not_le hle)).symm
  by_contra hjk
  have hfixed : gfDouble^[k - j] (gfDouble^[j] a) = gfDouble^[j] a := by
    rw [← Function.iterate_add_apply, Nat.sub_add_cancel hle, h]
  exact hne ((iterate_gfDouble_eq_zero_iff j).mp
    (eq_zero_of_fixed_below_68 (iterate_gfDouble_lt ha j) (by omega) (by omega) hfixed))

end Sys2Proof.Proofs
end

section
/-! PROOFS. One damaged symbol of a line: its syndromes, its decode and its correction (R374, R375). -/

namespace Sys2Proof.Proofs

open Sys2Proof Sys2Proof.Machine Sys2Proof.Laws

/-! ### The syndromes -/

/-- `n` symbols that are 0 but for symbol `i`. -/
def oneSymbol (n i v : Nat) : List Nat := (List.range n).map (fun k => if k = i then v else 0)

theorem iterate_gfDouble_byteLinear (k : Nat) : ByteLinear fun a => gfDouble^[k] a := by
  induction k with
  | zero => exact .id
  | succ k ih =>
    simp only [Function.iterate_succ_apply']
    exact gfDouble_byteLinear.comp ih

@[simp] theorem iterate_gfDouble_zero (k : Nat) : gfDouble^[k] 0 = 0 :=
  (iterate_gfDouble_eq_zero_iff k).mpr rfl

theorem oneSymbol_succ (n i v : Nat) : oneSymbol (n + 1) i v = oneSymbol n i v ++ [if n = i then v else 0] := by
  rw [oneSymbol, List.range_succ, List.map_append]
  rfl

/-- Symbols that are all 0 but symbol `i` have the value of that symbol alone: `v` times the power of its place. -/
theorem hornerFrom_oneSymbol (j n i : Nat) {v : Nat} (hv : v < 256) :
    hornerFrom (gfExp j) 0 (oneSymbol n i v) = if i < n then gfDouble^[j * (n - 1 - i)] v else 0 := by
  induction n with
  | zero => rfl
  | succ n ih =>
    rw [oneSymbol_succ, hornerFrom_append, ih, hornerFrom_cons, hornerFrom_nil]
    rcases Nat.lt_trichotomy i n with hi | rfl | hi
    · rw [if_pos hi, if_neg hi.ne', if_pos (by omega), gfMul_gfExp (iterate_gfDouble_lt hv _), Nat.xor_zero,
        ← Function.iterate_add_apply, show n + 1 - 1 - i = (n - 1 - i) + 1 by omega, Nat.mul_succ, Nat.add_comm]
    · simp
    · rw [if_neg (by omega), if_neg hi.ne, if_neg (by omega), gfMul_zero_left, Nat.xor_self]

/-- The first 64 symbols are the data bytes. -/
theorem oneSymbol_68 (i v : Nat) :
    oneSymbol 68 i v = oneSymbol 64 i v ++ (List.range 4).map (fun k => if 64 + k = i then v else 0) := by
  rw [oneSymbol, show 68 = 64 + 4 from rfl, List.range_add, List.map_append, List.map_map]
  rfl

theorem oneSymbol_of_le {n i : Nat} (h : n ≤ i) (v : Nat) : oneSymbol n i v = List.replicate n 0 := by
  rw [oneSymbol, List.map_eq_replicate_iff.mpr fun k hk => if_neg (by have := List.mem_range.mp hk; omega), List.length_range]

/-- A syndrome is the value of the check-symbol difference at its root. -/
theorem syndrome_eq_hornerFrom {p0 p1 p2 p3 : Nat} (j : Nat) (hp : ∀ e ∈ [p0, p1, p2, p3], e < 256) :
    syndrome [p0, p1, p2, p3] j = hornerFrom (gfExp j) 0 [p0, p1, p2, p3] := by
  simp only [List.forall_mem_cons] at hp
  obtain ⟨h0, h1, h2, h3, -⟩ := hp
  have lin (k : Nat) := iterate_gfDouble_byteLinear k
  have h01 := xor_lt_256 (iterate_gfDouble_lt h0 j) h1
  have h012 := xor_lt_256 (iterate_gfDouble_lt h01 j) h2
  simp only [syndrome, List.range_succ, List.range_zero, List.nil_append, List.cons_append, List.foldl_cons, List.foldl_nil,
    nth, hornerFrom_cons, hornerFrom_nil, gfMul_zero_left, Nat.zero_xor, gfMul_gfExp h0, gfMul_gfExp h1, gfMul_gfExp h2,
    gfMul_gfExp h3, gfMul_gfExp h01, gfMul_gfExp h012]
  rw [(lin j).xor (iterate_gfDouble_lt h01 j) h2, (lin j).xor (iterate_gfDouble_lt h0 j) h1,
    (lin j).xor (iterate_gfDouble_lt (iterate_gfDouble_lt h0 j) j) (iterate_gfDouble_lt h1 j)]
  simp only [← Function.iterate_add_apply]
  ring_nf
  rfl

theorem oneSymbol_lt (n i : Nat) {v : Nat} (hv : v < 256) : ∀ e ∈ oneSymbol n i v, e < 256 := by
  intro e he
  obtain ⟨k, -, rfl⟩ := List.mem_map.mp he
  split
  · exact hv
  · decide

/-- What the check symbols of a damaged line differ by are four bytes. -/
theorem upsetOf_eq (i : Nat) {v : Nat} (hv : v < 256) :
    ∃ p0 p1 p2 p3, upsetOf i v = [p0, p1, p2, p3] ∧ ∀ e ∈ [p0, p1, p2, p3], e < 256 := by
  unfold upsetOf
  split
  · exact ⟨_, _, _, _, rsChecks_eq _, rsChecks_lt (oneSymbol_lt 64 i hv)⟩
  · refine ⟨_, _, _, _, rfl, ?_⟩
    simp only [List.forall_mem_cons, List.not_mem_nil, false_implies, implies_true, and_true]
    refine ⟨?_, ?_, ?_, ?_⟩ <;> split <;> omega

/-- The check-symbol difference of a damaged line has the value of the damaged symbol alone (R374). -/
theorem hornerFrom_upsetOf {i j v : Nat} (hi : i < 68) (hj : j < 4) (hv : v < 256) :
    hornerFrom (gfExp j) 0 (List.replicate 64 0 ++ upsetOf i v) = gfDouble^[j * (67 - i)] v := by
  have hall : hornerFrom (gfExp j) 0 (oneSymbol 68 i v) = gfDouble^[j * (67 - i)] v := by
    rw [hornerFrom_oneSymbol j 68 i hv, if_pos hi]
  rw [← hall, oneSymbol_68, upsetOf]
  split
  case isTrue hdata =>
    obtain ⟨p0, p1, p2, p3, hp, hlt⟩ := upsetOf_eq i hv
    have hchecks : rsChecks (oneSymbol 64 i v) = [p0, p1, p2, p3] := by rw [← hp, upsetOf, if_pos hdata, oneSymbol]
    have hzero : (List.range 4).map (fun k => if 64 + k = i then v else 0) = xorChecks [p0, p1, p2, p3] [p0, p1, p2, p3] := by
      simp [xorChecks, List.range_succ]
      omega
    have hsum := hornerFrom_xorChecks (j := j) (p0 := p0) (p1 := p1) (p2 := p2) (p3 := p3) hj (oneSymbol_lt 64 i hv) hlt
    rw [hchecks] at hsum
    rw [hzero, hsum, ← hchecks, oneSymbol, List.length_map, List.length_range]
  case isFalse hcheck =>
    rw [oneSymbol_of_le (Nat.le_of_not_lt hcheck)]
    simp only [Nat.add_comm]

/-- Syndrome S_j of a line with one damaged symbol is its value times α^(j (67 - i)) (R374). -/
theorem syndrome_upsetOf {i j v : Nat} (hi : i < 68) (hj : j < 4) (hv : v < 256) :
    syndrome (upsetOf i v) j = gfDouble^[j * (67 - i)] v := by
  obtain ⟨p0, p1, p2, p3, hp, hlt⟩ := upsetOf_eq i hv
  have hfront : hornerFrom (gfExp j) 0 (List.replicate 64 0) = 0 := by
    rw [← oneSymbol_of_le (Nat.le_refl 64) v, hornerFrom_oneSymbol j 64 64 hv, if_neg (by decide)]
  rw [← hornerFrom_upsetOf hi hj hv, hornerFrom_append, hfront, hp, syndrome_eq_hornerFrom j hlt]

/-! ### The decode -/

/-- The syndromes of an error `v` at the place of x^k. -/
def placeSyndromes (k v : Nat) : List Nat := [v, gfDouble^[k] v, gfDouble^[2 * k] v, gfDouble^[3 * k] v]

theorem syndromes_upsetOf {i v : Nat} (hi : i < 68) (hv : v < 256) : syndromes (upsetOf i v) = placeSyndromes (67 - i) v := by
  simp only [syndromes, List.range_succ, List.range_zero, List.nil_append, List.cons_append, List.map_cons, List.map_nil,
    syndrome_upsetOf hi (j := 0) (by decide) hv, syndrome_upsetOf hi (j := 1) (by decide) hv,
    syndrome_upsetOf hi (j := 2) (by decide) hv, syndrome_upsetOf hi (j := 3) (by decide) hv, placeSyndromes,
    Nat.zero_mul, Nat.one_mul, Function.iterate_zero, id_eq]

/-- No error in one symbol has the syndromes of stored poison (R374). -/
theorem placeSyndromes_ne_poison : ∀ k < 68, placeSyndromes k (nth 0 (syndromes poisonPattern) 0) ≠ syndromes poisonPattern := by
  decide +kernel

theorem find?_eq_some_of_unique {α : Type} {p : α → Bool} {l : List α} {a : α} (ha : a ∈ l)
    (h : ∀ e ∈ l, p e = true ↔ e = a) : l.find? p = some a := by
  cases hf : l.find? p with
  | none => exact absurd ((h a ha).mpr rfl) (List.find?_eq_none.mp hf a ha)
  | some b => rw [(h b (List.mem_of_find?_eq_some hf)).mp (List.find?_some hf)]

/-- The place of an error in one symbol is found, and no other one (R375). -/
theorem oneError_placeSyndromes {k v : Nat} (hk : k < 68) (hv : v < 256) (hne : v ≠ 0) :
    oneError (placeSyndromes k v) = some (67 - k, v) := by
  have hfind : (List.range 68).find? (fun e =>
      gfMul v (gfExp e) == gfDouble^[k] v && gfMul (gfDouble^[k] v) (gfExp e) == gfDouble^[2 * k] v &&
        gfMul (gfDouble^[2 * k] v) (gfExp e) == gfDouble^[3 * k] v) = some k := by
    refine find?_eq_some_of_unique (List.mem_range.mpr hk) fun e he => ?_
    simp only [Bool.and_eq_true, beq_iff_eq, gfMul_gfExp hv, gfMul_gfExp (iterate_gfDouble_lt hv _),
      ← Function.iterate_add_apply]
    refine ⟨fun h => iterate_gfDouble_inj hv hne (List.mem_range.mp he) hk h.1.1, fun h => ?_⟩
    subst h
    exact ⟨⟨rfl, by rw [Nat.two_mul]⟩, by rw [Nat.add_comm, ← Nat.succ_mul]⟩
  simp only [oneError, placeSyndromes, nth, if_neg hne, hfind, Option.map_some]

/-- A line with one damaged symbol decodes to the correction of that symbol, in both modes (R375). -/
theorem decodeLine_upsetOf {i v : Nat} (hi : i < 68) (hv : v < 256) (hne : v ≠ 0) (wide : Bool) :
    decodeLine (upsetOf i v) wide = .corrected [(i, v)] := by
  have hk : 67 - i < 68 := by omega
  have hgood : (placeSyndromes (67 - i) v == [0, 0, 0, 0]) = false := by simp [placeSyndromes, hne]
  have hpoison : (placeSyndromes (67 - i) v == syndromes poisonPattern) = false := by
    refine beq_eq_false_iff_ne.mpr fun h => placeSyndromes_ne_poison (67 - i) hk ?_
    have hvalue : nth 0 (syndromes poisonPattern) 0 = v := by rw [← h]; rfl
    rwa [hvalue]
  simp only [decodeLine, syndromes_upsetOf hi hv, hgood, hpoison, oneError_placeSyndromes hk hv hne, Bool.false_eq_true, if_false]
  rw [show 67 - (67 - i) = i by omega]

/-! ### The correction -/

theorem setNth_eq_set {α : Type} (l : List α) (i : Nat) (a : α) : setNth l i a = l.set i a := by
  induction l generalizing i with
  | nil => rfl
  | cons b l ih =>
    cases i with
    | zero => rfl
    | succ i => exact congrArg (b :: ·) (ih i)

theorem length_fixBytes (data : List Byte) (i v : Nat) : (fixBytes data [(i, v)]).length = data.length := by
  simp only [fixBytes, List.foldl_cons, List.foldl_nil]
  split
  · rw [setNth_eq_set, List.length_set]
  · rfl

theorem nth_fixBytes {data : List Byte} {i : Nat} (hdata : data.length = 64) (v k : Nat) :
    nth 0#8 (fixBytes data [(i, v)]) k = if k = i ∧ i < 64 then nth 0#8 data i ^^^ byte v else nth 0#8 data k := by
  simp only [fixBytes, List.foldl_cons, List.foldl_nil]
  by_cases hi : i < 64
  · rw [if_pos hi, setNth_eq_set, nth_eq_getElem?, List.getElem?_set]
    by_cases hk : i = k
    · subst hk
      simp [hi, hdata]
    · simp [hk, Ne.symm hk, nth_eq_getElem?]
  · simp [hi]

/-- The damage reaches the check symbols' difference, and the byte of a data symbol. -/
theorem lineUpset_damageSymbol {s : State} {line i : Nat} {v : Byte} (h : lineUpset s line = [0, 0, 0, 0]) :
    lineUpset (damageSymbol s line i v) line = upsetOf i v.toNat := by
  obtain ⟨p0, p1, p2, p3, hp, -⟩ := upsetOf_eq i v.isLt
  have hsum : xorChecks (lineUpset s line) (upsetOf i v.toNat) = upsetOf i v.toNat := by
    simp [h, hp, xorChecks, List.range_succ, nth]
  unfold damageSymbol
  dsimp only
  split
  · exact (lineUpset_setLineUpset s line _).trans hsum
  · exact (lineUpset_setLineUpset s line _).trans hsum

theorem readCell_damageSymbol {s : State} (h : Memory.wf s.mem.cells = true) (line i : Nat) (v : Byte) (x : Nat) :
    readCell (damageSymbol s line i v).mem.cells x =
      if i < 64 ∧ x = 64 * line + i then readCell s.mem.cells x ^^^ v else readCell s.mem.cells x := by
  unfold damageSymbol
  dsimp only
  by_cases hi : i < 64
  · rw [if_pos hi]
    refine (readCell_writeCells (l := [_]) h).trans ?_
    rw [List.length_singleton]
    by_cases hx : x = 64 * line + i
    · subst hx
      simp only [le_refl, Nat.lt_succ_self, and_self, hi, if_true, Nat.sub_self, nth]
      rfl
    · rw [if_neg (by omega), if_neg (by tauto)]
  · rw [if_neg hi, if_neg (by tauto)]
    rfl

theorem eq_of_nth_eq {α : Type} {d : α} {l m : List α} (hlen : l.length = m.length)
    (h : ∀ k < l.length, nth d l k = nth d m k) : l = m := by
  refine List.ext_getElem hlen fun k hl hm => ?_
  simpa [nth_eq_getElem?, hl, hm] using h k hl

/-- The corrected line has the bytes it had before the damage. -/
theorem fixBytes_damageSymbol {s : State} (h : Memory.wf s.mem.cells = true) (line i : Nat) (v : Byte) :
    fixBytes ((damageSymbol s line i v).readMem (64 * line) 64) [(i, v.toNat)] = s.readMem (64 * line) 64 := by
  refine eq_of_nth_eq (d := 0#8) (by rw [length_fixBytes, length_readMem, length_readMem]) fun k hk => ?_
  rw [length_fixBytes, length_readMem] at hk
  rw [nth_fixBytes (length_readMem ..), nth_readMem s hk, nth_readMem _ hk, readCell_damageSymbol h]
  by_cases hki : k = i ∧ i < 64
  · obtain ⟨rfl, hi⟩ := hki
    have hbyte : byte v.toNat = v := BitVec.ofNat_toNat 8 v
    rw [if_pos ⟨rfl, hi⟩, nth_readMem _ hi, readCell_damageSymbol h, if_pos ⟨hi, rfl⟩, hbyte, BitVec.xor_assoc,
      BitVec.xor_self, BitVec.xor_zero]
  · rw [if_neg hki, if_neg (by omega)]

/-- Settles O18: the syndromes of one damaged symbol tell its value and its place, and the correction takes the damage back
(R374, R375). -/
theorem oneDamagedSymbolIsCorrected : Obligations.OneDamagedSymbolIsCorrected := by
  unfold Obligations.OneDamagedSymbolIsCorrected
  intro s line i v wide control hwf hsound hi hv
  have hne : v.toNat ≠ 0 := fun h => hv (BitVec.eq_of_toNat_eq h)
  simp only [readLine, lineUpset_damageSymbol hsound, decodeLine_upsetOf hi v.isLt hne, fixBytes_damageSymbol hwf]

end Sys2Proof.Proofs
end

section
/-! PROOFS. Sessions: HELLO, PROVE, CLOSE, ROLE_QUERY and the expiries (R408 to R418). -/

namespace Sys2Proof.Proofs

open Sys2Proof Sys2Proof.Machine Sys2Proof.Safety Sys2Proof.Laws

/-- A command that runs completes with the reply of its effect on the state that it runs on. -/
theorem next_command_of_runs {c : Caller} {code : Nat} {s a : State} {key : List Byte} {run : State → Reply} {r : Reply}
    (h : Runs c code s key a) (hr : run a = r) :
    (Host.Outcome.next (command c code run s) : Host.Outcome State Fault Refusal) = .next (done c code key r) := by
  rw [command_runs h, hr]

/-- HELLO and PROVE, when they reach the warden, are answered without a tag (R426, R430). -/
theorem openCommand_received {c : Caller} {code : Nat} {s : State} {run : State → Reply} {r : Reply} (h : Received c s)
    (hroom : isMailbox c.via = false → s.running.length < 16) (hr : run (arrived c s) = r) :
    openCommand c code run s = complete c code none r := by
  have harrive : arrive c code s (fun s => complete c code none (run s)) = complete c code none r := by
    rw [arrive_received h, hr]
  cases hvia : c.via with
  | image _ =>
    rw [Received, hvia] at h
    exact h.elim
  | mailbox n => simpa only [openCommand, hvia] using harrive
  | sluice p src u =>
    have hfew : ¬ 16 ≤ s.running.length := Nat.not_le.mpr (hroom (by rw [hvia]; rfl))
    simpa only [openCommand, hvia, hfew, decide_false, Bool.and_false, Bool.false_eq_true, if_false] using harrive

/-- HELLO with a free slot and a key slot that is programmed and does not back off (R412). -/
theorem cmdHello_opens {c : Caller} {p : HelloP} {a : State} {b : Binding} {n : Nat} (hb : bindingOf c.via = some b)
    (hbound : isMailbox c.via = true → boundTo a b = false) (hfree : tfree a.sessions (slotLimit a c.via) = some n)
    (hslot : p.keySlot ≤ 7) (hwait : (a.keySlot p.keySlot).until_ ≤ a.ref) (hkey : (a.keySlot p.keySlot).key ≠ none) :
    cmdHello c p a = ok
      ((a.drawBytes 16).2.setSession n { isOpen := false, keySlot := p.keySlot, binding := b, nc := slice p.nc 0 16,
                                         nd := (a.drawBytes 16).1, at_ := a.ref })
      ([byte n, 0#8, 0#8, 0#8] ++ (a.drawBytes 16).1) := by
  have hone : (isMailbox c.via && boundTo a b) = false := by
    cases hm : isMailbox c.via with
    | false => rfl
    | true => exact hbound hm
  simp only [cmdHello, hb, hone, hfree, if_neg (Nat.not_lt.mpr hslot), if_neg (Nat.not_lt.mpr hwait), if_neg hkey,
    Bool.false_eq_true, if_false]
  rfl

/-- PROVE of a half-open slot in time, with the client's proof and HW-B to claim (R413). -/
theorem cmdProve_opens {c : Caller} {p : ProveP} {a : State} {x : Session} {k : List Byte} (hx : tfind a.sessions c.slot = some x)
    (hhalf : x.isOpen = false) (hbind : some x.binding = bindingOf c.via) (htime : a.ref < x.at_ + secT)
    (hkey : (a.keySlot x.keySlot).key = some k) (hproof : p.proof = proofOf k x.nc x.nd c.slot x.keySlot)
    (hclaim : p.claimHwb = true → isMailbox c.via = true ∧ a.hwbIdent = 0) :
    cmdProve c p a = ok (openSlot a c.slot x k p.claimHwb) (proveResponse a c.slot x k) := by
  have hlate : decide (x.at_ + 1 * secT ≤ a.ref) = false := by
    rw [decide_eq_false_iff_not, Nat.one_mul]
    exact Nat.not_le.mpr htime
  have hheld : (p.claimHwb && (!isMailbox c.via || a.hwbIdent != 0)) = false := by
    cases hc : p.claimHwb with
    | false => rfl
    | true => simp [hclaim hc]
  simp only [cmdProve, hx, hhalf, hbind, bne_self_eq_false, hlate, Bool.or_self, Bool.false_eq_true, if_false, hkey,
    Option.getD_some, hproof, ne_eq, not_true_eq_false, hheld]

theorem openSlot_hwbIdent (a : State) (slot : Nat) (x : Session) (k : List Byte) (claim : Bool) :
    (openSlot a slot x k claim).hwbIdent = if claim then 1 + slot else a.hwbIdent := by
  unfold openSlot postSession
  rw [(reports_postFw _ _ _ _ _).hwbIdent]
  cases claim <;> rfl

/-- Settles O9: both commands reach the warden and pass their checks one by one (R412, R413, R426). -/
theorem sessionsOpenWithHelloAndProve : Obligations.SessionsOpenWithHelloAndProve := by
  unfold Obligations.SessionsOpenWithHelloAndProve
  refine ⟨?hello, ?prove⟩
  case hello =>
    intro c p s b n hrec a nd hb hbound hroom hfree hslot hwait hkey
    exact congrArg Host.Outcome.next
      (openCommand_received hrec hroom (cmdHello_opens hb hbound hfree hslot hwait hkey))
  case prove =>
    intro c p s x k hrec a hx hhalf hbind htime hkey hproof hclaim hroom
    exact ⟨congrArg Host.Outcome.next
      (openCommand_received hrec hroom (cmdProve_opens hx hhalf hbind htime hkey hproof hclaim)), openSlot_hwbIdent ..⟩

theorem cmdRoleQuery_of_session {c : Caller} {a : State} {x : Session} (hx : tfind a.sessions c.slot = some x) :
    cmdRoleQuery c a = ok a
      ([byte (c.slot % 8 + 8 * (x.keySlot % 8) + 64 * (roleOfKey a x.keySlot % 4)), byte (transportOf x.binding),
        byte (openMask a), 0#8] ++ leBytes 4 x.lastSeq ++ leBytes 2 (idleLeft a x) ++ zeros 2) := by
  rw [cmdRoleQuery, hx]

theorem execHalfOpenExpiry_of_due {n : Fin 8} {s : State} {x : Session} (hx : tfind s.sessions n.val = some x)
    (hhalf : x.isOpen = false) (hdue : x.at_ + secT ≤ s.ref) : execHalfOpenExpiry n s = .next (endSession s n.val 1) := by
  simp [execHalfOpenExpiry, hx, hhalf, hdue]

theorem execSessionIdleTimeout_of_due {n : Fin 8} {s : State} {x : Session} (hx : tfind s.sessions n.val = some x)
    (hopen : x.isOpen = true) (hdue : x.at_ + s.cfg.idleS * secT ≤ s.ref) :
    execSessionIdleTimeout n s = .next (endSession s n.val 2) := by
  simp [execSessionIdleTimeout, hx, hopen, hdue]

/-- Settles O10: CLOSE and ROLE_QUERY by their effects, the expiries by their times (R412, R416 to R418). -/
theorem sessionsEndAndAnswer : Obligations.SessionsEndAndAnswer := by
  unfold Obligations.SessionsEndAndAnswer
  refine ⟨?close, ?role, ?half, ?idle, ?approvals⟩
  case close => exact fun c s a key hrun => next_command_of_runs hrun rfl
  case role => exact fun c s a key x hrun hx => next_command_of_runs hrun (cmdRoleQuery_of_session hx)
  case half => exact fun n s x => execHalfOpenExpiry_of_due
  case idle => exact fun n s x => execSessionIdleTimeout_of_due
  case approvals => exact fun skim s => rfl

end Sys2Proof.Proofs
end

section
/-! PROOFS. The debug port (R393, R411, R441, R442). -/

namespace Sys2Proof.Proofs

open Sys2Proof Sys2Proof.Machine Sys2Proof.Safety Sys2Proof.Laws

section
variable {c : Caller} {p : DebugUnlockP} {a : State} {k : List Byte} (hm : isMailbox c.via = true)
  (hkey : (a.keySlot 0).key = some k)
include hm hkey

theorem cmdDebugUnlock_draws_token (hopen : p.open_ = true) (hclosed : a.debug = .closed) (hlow : 60 ≤ p.durationS)
    (hhigh : p.durationS ≤ 86400) : cmdDebugUnlock c p a = ok
      { (a.drawBytes 16).2 with debug := .awaiting (leNat (a.drawBytes 16).1) c.slot p.durationS a.ref }
      (a.drawBytes 16).1 := by
  have hduration : ¬ (p.durationS < 60 ∨ 86400 < p.durationS) := by omega
  simp only [cmdDebugUnlock, hm, hkey, hopen, debugBusy, hclosed, if_neg hduration, Bool.not_true, Bool.false_eq_true, if_false,
    reduceCtorEq, if_true, bne_self_eq_false]
  rfl

theorem cmdDebugUnlock_ends_session {o d : Nat} {u : Ticks} (hclose : p.open_ = false) (hzero : p.durationS = 0)
    (hopened : a.debug = .opened o d u) : cmdDebugUnlock c p a = ok (endDebug a c.slot) := by
  simp [cmdDebugUnlock, hm, hkey, hclose, hzero, hopened]

end

theorem execDebugProbeToken_opens {token : BitVec 128} {s : State} {o d : Nat} {u : Ticks}
    (hawait : s.debug = .awaiting token.toNat o d u) (htime : s.ref < u + 60 * secT) :
    execDebugProbeToken token s = .next (raiseErr { s with debug := .opened o d s.ref } 0x0082 o 1 d) := by
  simp [execDebugProbeToken, hawait, htime]

theorem execDebugTokenExpiry_of_due {s : State} {t o d : Nat} {u : Ticks} (hawait : s.debug = .awaiting t o d u)
    (hdue : u + 60 * secT ≤ s.ref) : execDebugTokenExpiry s = .next { s with debug := .closed } := by
  simp [execDebugTokenExpiry, hawait, hdue]

theorem execDebugSessionExpiry_of_due {s : State} {o d : Nat} {u : Ticks} (hopened : s.debug = .opened o d u)
    (hdue : u + d * secT ≤ s.ref) : execDebugSessionExpiry s = .next (endDebug s 0xFF) := by
  simp [execDebugSessionExpiry, hopened, hdue]

/-- The end of a debug session closes the port, and is reported (R441). -/
theorem endDebug_debug (s : State) (obj : Nat) : (endDebug s obj).debug = .closed := by
  unfold endDebug
  split
  case h_1 hclosed => exact hclosed
  case h_2 => rfl
  case h_3 => exact (reports_queueErr _ _ _ _ _ _ _).debug

theorem execDebugAccess_of_released {s : State} (h : released s = true) (addr : Nat) (op : MemOp) :
    execDebugAccess addr op s = match op with
      | .read n => .next ((classPieces s 0x3F 16 addr n).1.foldl (fun t p =>
          t.emit (if p.denied then .denied 16 p.addr p.data else .burst 16 p.addr p.data p.poison))
          (classPieces s 0x3F 16 addr n).2)
      | .write l => .next (if (classStore s 0x3F 16 addr l .plain {}).1 then (classStore s 0x3F 16 addr l .plain {}).2.2
          else (classStore s 0x3F 16 addr l .plain {}).2.2.emit (.acked 16 addr (classStore s 0x3F 16 addr l .plain {}).2.1)) := by
  unfold execDebugAccess
  refine (if_neg (by simp [h])).trans ?_
  cases op <;> rfl

theorem execKeyProgram_of_open {s : State} {n : Fin 8} (key : List Byte) (hopen : debugOpen s = true)
    (hfree : (s.keySlot n.val).key = none) :
    execKeyProgram n key s = .next (s.setKeySlot n.val { s.keySlot n.val with key := some (slice key 0 32) }) := by
  simp [execKeyProgram, hopen, hfree]

/-- Settles O11: each row of the debug port under its condition (R393, R411, R441, R442). -/
theorem debugPortOpensAndCloses : Obligations.DebugPortOpensAndCloses := by
  unfold Obligations.DebugPortOpensAndCloses
  refine ⟨?unlock, ?lock, ?probe, ?token, ?session, ?write, ?read, ?program⟩
  case unlock =>
    exact fun c p s a key k hrun hm hkey hopen hclosed hlow hhigh =>
      next_command_of_runs hrun (cmdDebugUnlock_draws_token hm hkey hopen hclosed hlow hhigh)
  case lock =>
    exact fun c p s a key k o d u hrun hm hkey hclose hzero hopened =>
      next_command_of_runs hrun (cmdDebugUnlock_ends_session hm hkey hclose hzero hopened)
  case probe => exact fun token s o d u => execDebugProbeToken_opens
  case token => exact fun s t o d u => execDebugTokenExpiry_of_due
  case session => exact fun s o d u hopened hdue => ⟨execDebugSessionExpiry_of_due hopened hdue, endDebug_debug s 0xFF⟩
  case write => exact fun s addr l h => execDebugAccess_of_released h addr (.write l)
  case read => exact fun s addr n h => execDebugAccess_of_released h addr (.read n)
  case program => exact fun n key s hopen hfree => execKeyProgram_of_open key hopen hfree

end Sys2Proof.Proofs
end

section
/-! PROOFS. The dyke's commands: staging, syncs and locks (R391, R392, R395, R396). -/

namespace Sys2Proof.Proofs

open Sys2Proof Sys2Proof.Machine Sys2Proof.Safety Sys2Proof.Laws

section
variable {p : DykeRuleP} {a : State} {n : Nat} (htarget : dykeTarget a p.region = some n) (hn : n ≤ 255)
  (hheld : holdsRule a n = false)
include htarget hn hheld

theorem cmdDykeRule_defines (hdelete : p.delete = false) (hfields : regionFields p.r = true)
    (hmeet : ∀ e ∈ a.mem.dyke.staged, e.1 ≠ n → pagesMeet e.2 p.r = false) :
    cmdDykeRule p a = ok (stageRules a (tset a.mem.dyke.staged n p.r)) (leBytes 2 n) := by
  have hclear : a.mem.dyke.staged.any (fun e => e.1 != n && pagesMeet e.2 p.r) = false := by
    rw [List.any_eq_false]
    intro e he hboth
    simp only [Bool.and_eq_true, bne_iff_ne] at hboth
    rw [hmeet e he hboth.1] at hboth
    exact absurd hboth.2 Bool.false_ne_true
  simp [cmdDykeRule, htarget, hheld, Nat.not_lt.mpr hn, hdelete, hfields, hclear]

theorem cmdDykeRule_deletes (hdelete : p.delete = true) (hdefined : thas a.mem.dyke.staged n = true) :
    cmdDykeRule p a = ok (stageRules a (tdel a.mem.dyke.staged n)) (leBytes 2 n) := by
  simp [cmdDykeRule, htarget, hheld, Nat.not_lt.mpr hn, hdelete, hdefined]

end

theorem cmdDykeRule_of_locked {p : DykeRuleP} {a : State} (hregion : p.region ≠ 0xFFFF) (hlocked : p.region ∈ a.mem.dyke.locked) :
    cmdDykeRule p a = refuseFull a stLocked 11 := by
  simp [cmdDykeRule, dykeTarget, hregion, holdsRule, hlocked]

theorem cmdDykeLock_starts_sync {c : Caller} {n : Nat} {a : State} (hfree : n ∉ a.mem.dyke.locked)
    (hdefined : thas a.mem.dyke.staged n = true) : cmdDykeLock c n a = ⟨startSync a (some c) (some n), stPending, []⟩ := by
  simp [cmdDykeLock, hfree, hdefined]

theorem cmdDykeLock_of_undefined {c : Caller} {n : Nat} {a : State} (hfree : n ∉ a.mem.dyke.locked)
    (hundefined : thas a.mem.dyke.staged n = false) : cmdDykeLock c n a = refuse a stBadParam := by
  simp [cmdDykeLock, hfree, hundefined]

theorem cmdDykeLock_of_locked {c : Caller} {n : Nat} {a : State} (hlocked : n ∈ a.mem.dyke.locked) :
    cmdDykeLock c n a = ok a := by
  simp [cmdDykeLock, hlocked]

theorem completeSync_of_caller {s : State} {j : SyncJob} {rest : List SyncJob} {c : Caller} (h : s.mem.dyke.syncs = j :: rest)
    (hc : j.caller = some c) : completeSync s =
      if overdue s c (syncCode j) then faultRunning (dropSync s j) c (syncCode j)
      else finishRunning (applySync s j) c (syncCode j) stOk
        (if j.lock.isSome then [] else leBytes 4 (min 2048 (ceilDiv (s.ref - j.at_) coreT))) := by
  simp only [completeSync, h, hc]

theorem completeSync_of_bed {s : State} {j : SyncJob} {rest : List SyncJob} (h : s.mem.dyke.syncs = j :: rest)
    (hc : j.caller = none) : completeSync s = applySync s j := by
  simp only [completeSync, h, hc]

/-! ### What a sync that takes effect leaves (R391, R392) -/

/-- The rules of regions that are not locked are those of the sync. -/
theorem tfind_foldl_tset_of_not_mem {f : Tab Region} {l : List Nat} {m : Nat} (h : m ∉ l) (t : Tab Region) :
    tfind (l.foldl (fun t n => (tfind f n).elim t (tset t n)) t) m = tfind t m := by
  induction l generalizing t with
  | nil => rfl
  | cons n l ih =>
    rw [List.mem_cons, not_or] at h
    rw [List.foldl_cons, ih h.2]
    cases tfind f n with
    | none => rfl
    | some r => exact tfind_tset_other h.1

theorem tfind_keepLocked {d : Dyke} {m : Nat} (h : m ∉ d.locked) (t : Tab Region) : tfind (keepLocked d t) m = tfind t m :=
  tfind_foldl_tset_of_not_mem h t

theorem lockRegion_of_unlocked {d : Dyke} {n : Nat} (h : n ∉ d.locked) :
    n ∈ (lockRegion d n).locked ∧
      ∀ m, tfind (lockRegion d n).force m = (tfind d.force m).map (fun r => if m = n then clearDebug r else r) := by
  have hno : d.locked.contains n = false := by simpa using h
  simp only [lockRegion, hno, Bool.false_eq_true, if_false]
  exact ⟨mem_insertAsc.mpr (.inl rfl), fun m => tfind_tmap⟩

theorem tfind_force_lockRegion_other {d : Dyke} {n m : Nat} (h : m ≠ n) : tfind (lockRegion d n).force m = tfind d.force m := by
  by_cases hn : n ∈ d.locked
  · simp [lockRegion, hn]
  · rw [(lockRegion_of_unlocked hn).2 m]
    simp [h]

/-- The table in force of a sync, before its own lock. -/
def syncedDyke (s : State) (j : SyncJob) : Dyke :=
  { s.mem.dyke with force := keepLocked s.mem.dyke j.rules, syncs := laterSyncs s j }

theorem applySync_of_no_lock {s : State} {j : SyncJob} (h : j.lock = none) : (applySync s j).mem.dyke = syncedDyke s j := by
  simp only [applySync, h]
  rfl

theorem applySync_of_lock {s : State} {j : SyncJob} {n : Nat} (h : j.lock = some n) :
    (applySync s j).mem.dyke = lockRegion (syncedDyke s j) n := by
  simp only [applySync, h]
  rfl

theorem tfind_force_applySync {s : State} {j : SyncJob} {m : Nat} (hm : m ∉ s.mem.dyke.locked) (hlock : j.lock ≠ some m) :
    tfind (applySync s j).mem.dyke.force m = tfind j.rules m := by
  have hsynced : tfind (syncedDyke s j).force m = tfind j.rules m := tfind_keepLocked hm j.rules
  cases hj : j.lock with
  | none => rw [applySync_of_no_lock hj, hsynced]
  | some n =>
    have hmn : m ≠ n := fun h => hlock (h ▸ hj)
    rw [applySync_of_lock hj, tfind_force_lockRegion_other hmn, hsynced]

theorem applySync_locks {s : State} {j : SyncJob} {n : Nat} {r : Region} (hlock : j.lock = some n) (hn : n ∉ s.mem.dyke.locked)
    (hr : tfind j.rules n = some r) :
    n ∈ (applySync s j).mem.dyke.locked ∧ tfind (applySync s j).mem.dyke.force n = some (clearDebug r) := by
  obtain ⟨hlocked, hforce⟩ := lockRegion_of_unlocked (d := syncedDyke s j) hn
  have hrule : tfind (syncedDyke s j).force n = some r := (tfind_keepLocked hn j.rules).trans hr
  rw [applySync_of_lock hlock, hforce, hrule]
  exact ⟨hlocked, by simp⟩

/-- Settles O12: staging, the start of a sync, its completion, and the table that it leaves (R391, R392, R395, R396). -/
theorem dykeRulesAreStagedSyncedAndLocked : Obligations.DykeRulesAreStagedSyncedAndLocked := by
  unfold Obligations.DykeRulesAreStagedSyncedAndLocked
  refine ⟨?define, ?delete, ?staging, ?sync, ?lock, ?complete, ?bed, ?effect⟩
  case define =>
    exact fun c p s a key n hrun htarget hn hheld hdelete hfields hmeet =>
      next_command_of_runs hrun (cmdDykeRule_defines htarget hn hheld hdelete hfields hmeet)
  case delete =>
    exact fun c p s a key n hrun htarget hn hheld hdelete hdefined =>
      next_command_of_runs hrun (cmdDykeRule_deletes htarget hn hheld hdelete hdefined)
  case staging => exact fun s t => ⟨rfl, rfl, rfl, rfl⟩
  case sync => exact fun c s a key hrun => next_command_of_runs hrun rfl
  case lock =>
    exact fun c s a key n hrun hfree hdefined => next_command_of_runs hrun (cmdDykeLock_starts_sync hfree hdefined)
  case complete => exact fun s j rest c h hc => congrArg Host.Outcome.next (completeSync_of_caller h hc)
  case bed => exact fun s j rest h hc => congrArg Host.Outcome.next (completeSync_of_bed h hc)
  case effect =>
    exact fun s j => ⟨fun hlock => by rw [applySync_of_no_lock hlock]; rfl, fun m => tfind_force_applySync,
      fun n r => applySync_locks⟩

/-- Settles O13: the refusals of DYKE_LOCK and DYKE_RULE, none of which changes the dyke (R392, R395, R396). -/
theorem dykeLockRefusals : Obligations.DykeLockRefusals := by
  unfold Obligations.DykeLockRefusals
  refine ⟨?undefined, ?locked, ?rule, ?unchanged⟩
  case undefined =>
    exact fun c s a key n hrun hfree hundefined => next_command_of_runs hrun (cmdDykeLock_of_undefined hfree hundefined)
  case locked => exact fun c s a key n hrun hlocked => next_command_of_runs hrun (cmdDykeLock_of_locked hlocked)
  case rule =>
    exact fun c p s a key hrun hregion hlocked => next_command_of_runs hrun (cmdDykeRule_of_locked hregion hlocked)
  case unchanged => exact fun s n => ⟨rfl, rfl⟩

end Sys2Proof.Proofs
end

section
/-! PROOFS. SCRUB_SET, MEM_ERR_QUERY, the slot engine and host window B (spec/01 R27 to R36, R382 to R385, R397, R404). -/

namespace Sys2Proof.Proofs

open Sys2Proof Sys2Proof.Machine Sys2Proof.Safety Sys2Proof.Laws

/-- What SCRUB_SET makes of the scrub state (R382, R385). -/
def scrubSetting (p : ScrubSetP) (a : State) : Scrub :=
  { a.mem.scrub with
    enable := p.enable, periodH := p.periodH,
    lastFrame := if p.enable && !a.mem.scrub.enable then a.slotFrame else a.mem.scrub.lastFrame,
    dueFloor := if !(p.enable && !a.mem.scrub.enable) && decide (a.mem.scrub.lastFrame + scrubP p.periodH < a.slotFrame)
      then a.slotFrame + 1 else 0 }

theorem cmdScrubSet_of_period {p : ScrubSetP} {a : State} (hlow : 1 ≤ p.periodH) (hhigh : p.periodH ≤ 168)
    (hpos : p.enable = true → ownedPositions (scheduleNow a) 0x32 ≠ 0) :
    cmdScrubSet p a = ok { a with mem := { a.mem with scrub := scrubSetting p a } }
      (leBytes 2 (scrubP p.periodH) ++ zeros 2 ++ leBytes 4 a.mem.scrub.passPos ++ leBytes 4 a.mem.scrub.passes) := by
  have hperiod : ¬ (p.periodH < 1 ∨ 168 < p.periodH) := by omega
  have hbudget : ¬ (p.enable && ownedPositions (scheduleNow a) 0x32 == 0) = true := by
    simpa using hpos
  rw [cmdScrubSet, if_neg hperiod, if_neg hbudget]
  rfl

theorem cmdMemErrQuery_of_channel {a : State} (n : Fin 32) : cmdMemErrQuery ⟨0, n.val⟩ a =
    ok a (chanBlock [a.memChan n.val] (a.memChan n.val).lastAddr (a.memChan n.val).lastSynd) := by
  rw [cmdMemErrQuery, if_pos rfl, if_pos n.isLt]

theorem cmdMemErrQuery_of_sum {a : State} : cmdMemErrQuery ⟨0, 0xFF⟩ a =
    ok a (chanBlock ((List.range 32).map a.memChan) a.mem.lastAddr a.mem.lastSynd) := rfl

theorem cmdMemErrQuery_of_record {a : State} (n : Fin 16) :
    cmdMemErrQuery ⟨1, n.val⟩ a = ok a (faultBlock a.mem.dyke.log[n.val]?) := by
  rw [cmdMemErrQuery, if_neg (show ¬ (1 : Nat) = 0 by decide), if_pos ⟨rfl, n.isLt⟩]

/-- Settles O14: the new scrub state and the three blocks of MEM_ERR_QUERY (R382, R385, R397). -/
theorem scrubAndMemoryQueries : Obligations.ScrubAndMemoryQueries := by
  unfold Obligations.ScrubAndMemoryQueries
  refine ⟨?scrub, ?channel, ?sum, ?record⟩
  case scrub =>
    intro c p s a key hrun hlow hhigh hpos
    exact ⟨{ a with mem := { a.mem with scrub := scrubSetting p a } },
      next_command_of_runs hrun (cmdScrubSet_of_period hlow hhigh hpos), rfl, rfl, rfl, rfl, rfl⟩
  case channel => exact fun c s a key n hrun => next_command_of_runs hrun (cmdMemErrQuery_of_channel n)
  case sum => exact fun c s a key hrun => next_command_of_runs hrun cmdMemErrQuery_of_sum
  case record => exact fun c s a key n hrun => next_command_of_runs hrun (cmdMemErrQuery_of_record n)

/-! ### The slot engine -/

theorem execMemoryRequest_accepts {r : MemRequest} {s : State} (hup : memoryUp s = true) (hcls : classDefined r.cls = true)
    (hrefresh : r.cls ≠ 0x3E) (hident : r.identity < 20) : execMemoryRequest r s = .next (requestMemory s r) := by
  simp [execMemoryRequest, hup, hcls, hrefresh, hident]

/-- A request that a channel serves leaves the queue for the accesses in flight; no position starts by it. -/
def serveRequest (t : Tab Nat) (cls ch : Nat) (s : State) : State :=
  match pickRequest t cls ch (2 * posNow s) s.slots.queue with
  | none => s
  | some r => { touchSymbols s r.line r.writes with
      slots := { s.slots with queue := s.slots.queue.erase r, flight := s.slots.flight ++ [⟨r, 2 * posNow s + 94⟩] } }

theorem serveRequest_started (t : Tab Nat) (cls ch : Nat) (s : State) :
    (serveRequest t cls ch s).slots.started = s.slots.started := by
  unfold serveRequest
  split <;> rfl

theorem serveChannel_eq (t : Tab Nat) (cls : Nat) (s : State) (ch : Nat) :
    serveChannel t cls s ch = if cls = 0x32 then (writeBackOne s ch).getD (serveRequest t cls ch s) else serveRequest t cls ch s := by
  unfold serveChannel
  cases writeBackOne s ch <;> rfl

theorem writeBackOne_started {s u : State} {ch : Nat} (h : writeBackOne s ch = some u) : u.slots.started = s.slots.started := by
  unfold writeBackOne at h
  dsimp only at h
  split at h <;> cases h <;> rfl

/-- Serving a channel starts no position. -/
theorem serveChannel_started (t : Tab Nat) (cls : Nat) (s : State) (ch : Nat) :
    (serveChannel t cls s ch).slots.started = s.slots.started := by
  rw [serveChannel_eq]
  split
  · cases hback : writeBackOne s ch with
    | none => exact serveRequest_started t cls ch s
    | some u => exact writeBackOne_started hback
  · exact serveRequest_started t cls ch s

theorem foldl_serveChannel_started (t : Tab Nat) (cls : Nat) (l : List Nat) (s : State) :
    (l.foldl (serveChannel t cls) s).slots.started = s.slots.started :=
  List.foldlRecOn l _ (motive := fun u => u.slots.started = s.slots.started) rfl
    fun u hu ch _ => (serveChannel_started t cls u ch).trans hu

/-- The schedule of a slot frame comes into force at its first position (R36). -/
def scheduled (s : State) : State :=
  { s with slots := { s.slots with
      sched := scheduleNow s, nextSched := s.slots.nextSched.filter (fun n => decide (s.slotFrame < n.2)) } }

/-- The present position has started. -/
def startedNow (s : State) : State := { s with slots := { s.slots with started := posNow s + 1 } }

section
variable {s : State} (hup : memoryUp s = true) (hnew : s.slots.started ≤ posNow s)
include hup hnew

theorem execSlotPosition_of_new : execSlotPosition s =
    if classAt (scheduleNow s) (posNow s % 2048) = 0x32 ∧ scrubDue (scheduled s) = true then .next (scheduled s)
    else if classAt (scheduleNow s) (posNow s % 2048) = 0x3E then .next (startedNow (scheduled s))
    else .next ((List.range 32).foldl (serveChannel (scheduleNow s) (classAt (scheduleNow s) (posNow s % 2048)))
      (startedNow (scheduled s))) := by
  have hgo : ¬ (!memoryUp s || decide (posNow s < s.slots.started)) = true := by simpa [hup] using hnew
  unfold execSlotPosition
  rw [if_neg hgo]
  rfl

theorem execSlotPosition_starts (hscrub : ¬ (classAt (scheduleNow s) (posNow s % 2048) = 0x32 ∧ scrubDue s = true)) :
    execSlotPosition s = if classAt (scheduleNow s) (posNow s % 2048) = 0x3E then .next (startedNow (scheduled s))
      else .next ((List.range 32).foldl (serveChannel (scheduleNow s) (classAt (scheduleNow s) (posNow s % 2048)))
        (startedNow (scheduled s))) :=
  (execSlotPosition_of_new hup hnew).trans (if_neg hscrub)

end

theorem execMemoryAccessComplete_of_done {s : State} {f : InFlight} {rest : List InFlight} (errs : List (Nat × Byte))
    (parity : Bool) (h : s.slots.flight = f :: rest) (hdone : f.doneAt ≤ s.memCycle) :
    execMemoryAccessComplete errs parity s =
      let a : State := { s with slots := { s.slots with flight := rest } }
      let c := a.memChan (lineChan f.req.line)
      let b := if parity then a.setMemChan (lineChan f.req.line) { c with parity := sat32 c.parity } else a
      .next (match f.req.op with
        | .read _ => finishRequest (errs.foldl (fun t e => damageSymbol t f.req.line e.1 e.2) b) f.req
        | _ => errs.foldl (fun t e => damageSymbol t f.req.line e.1 e.2) (finishRequest b f.req)) := by
  unfold execMemoryAccessComplete
  rw [h]
  exact if_neg (Nat.not_lt.mpr hdone)

theorem execScrubPacingRead_of_due {s : State} (errs : List (Nat × Nat × Byte)) (hup : memoryUp s = true)
    (hdue : scrubDue s = true) (hcls : classAt (scheduleNow s) (posNow s % 2048) = 0x32) (hnew : s.slots.started ≤ posNow s) :
    execScrubPacingRead errs s = .next (scrubRead s errs) := by
  simp [execScrubPacingRead, hup, hdue, hcls, hnew]

/-! ### Scrub keeps the clocks -/

theorem damageSymbol_clk (s : State) (line i : Nat) (v : Byte) : (damageSymbol s line i v).clk = s.clk := by
  unfold damageSymbol
  dsimp only
  split <;> rfl

/-- A fold keeps the clocks when each of its steps does. -/
theorem foldl_clk {A : Type} {f : State → A → State} (hf : ∀ s a, (f s a).clk = s.clk) (l : List A) (s : State) :
    (l.foldl f s).clk = s.clk :=
  List.foldlRecOn l f (motive := fun t => t.clk = s.clk) rfl fun t ht a _ => (hf t a).trans ht

theorem posNow_congr {s t : State} (h : s.clk = t.clk) : posNow s = posNow t := by
  simp only [posNow, State.memCycle, h]

/-- A pacing read starts its position (R383). -/
theorem scrubRead_started (s : State) (errs : List (Nat × Nat × Byte)) : (scrubRead s errs).slots.started = posNow s + 1 := by
  unfold scrubRead
  refine congrArg (· + 1) (posNow_congr (foldl_clk (fun t ch => ?_) _ _))
  dsimp only
  split
  · refine (transfers_readLine _ _ _ _).clk.trans (foldl_clk (fun u e => damageSymbol_clk u _ _ _) _ _)
  · refine (transfers_readLine _ _ _ _).clk.trans (foldl_clk (fun u e => damageSymbol_clk u _ _ _) _ _)

/-- Settles O15: requests, positions and completions of the slot engine under their conditions (R30, R32, R36, R382, R383). -/
theorem slotEngineServesRequests : Obligations.SlotEngineServesRequests := by
  unfold Obligations.SlotEngineServesRequests
  refine ⟨?request, ?position, ?left, ?complete, ?pacing⟩
  case request => exact fun r s => execMemoryRequest_accepts
  case position =>
    intro s hup hnew hscrub
    have hexec := execSlotPosition_starts hup hnew hscrub
    by_cases hrefresh : classAt (scheduleNow s) (posNow s % 2048) = 0x3E
    · exact ⟨startedNow (scheduled s), hexec.trans (if_pos hrefresh), rfl, fun _ => ⟨rfl, rfl⟩, fun hne => absurd hrefresh hne⟩
    · exact ⟨_, hexec.trans (if_neg hrefresh), foldl_serveChannel_started _ _ _ _, fun he => absurd he hrefresh,
        fun _ => ⟨_, rfl, rfl⟩⟩
  case left =>
    intro s hup hnew hcls hdue
    exact ⟨scheduled s, (execSlotPosition_of_new hup hnew).trans (if_pos ⟨hcls, hdue⟩), rfl, rfl, rfl, rfl⟩
  case complete => exact fun s f rest errs parity => execMemoryAccessComplete_of_done errs parity
  case pacing =>
    exact fun s errs hup hdue hcls hnew => ⟨execScrubPacingRead_of_due errs hup hdue hcls hnew, scrubRead_started s errs⟩

/-! ### Host window B -/

theorem execHwbBaseWrite_moves {v : BitVec 64} {s : State} (hup : hostUp s = true)
    (hfit : v.toNat / 2 ^ 21 * 2 ^ 21 + 2 ^ 30 ≤ memTop) :
    execHwbBaseWrite v s = .next { s with hwbBase := v.toNat / 2 ^ 21 * 2 ^ 21 } :=
  if_pos (by rw [hup, Bool.true_and, decide_eq_true hfit])

theorem execHwbBaseWrite_ignores {v : BitVec 64} {s : State} (hpast : memTop < v.toNat / 2 ^ 21 * 2 ^ 21 + 2 ^ 30) :
    execHwbBaseWrite v s = .next s :=
  if_neg (by rw [decide_eq_false (Nat.not_le.mpr hpast), Bool.and_false]; exact Bool.false_ne_true)

theorem execHwbAccess_of_inside {off : Nat} {op : MemOp} {s : State} (hup : hostUp s = true)
    (hfit : off + (match op with | .read n => n | .write d => d.length) ≤ 2 ^ 30) :
    execHwbAccess off op s = .next (hwbAccess s off op) :=
  if_pos (by rw [hup, Bool.true_and]; exact decide_eq_true hfit)

/-- Settles O16: an access inside the aperture is one at base + offset, and a base past the last address is ignored (R404). -/
theorem hostWindowBAccesses : Obligations.HostWindowBAccesses := by
  unfold Obligations.HostWindowBAccesses
  refine ⟨?move, ?ignore, ?write, ?read⟩
  case move => exact fun v s => execHwbBaseWrite_moves
  case ignore => exact fun v s => execHwbBaseWrite_ignores
  case write => exact fun off d s hup hfit => execHwbAccess_of_inside (op := .write d) hup hfit
  case read => exact fun off n s hup hfit => execHwbAccess_of_inside (op := .read n) hup hfit

end Sys2Proof.Proofs
end

section
/-! PROOFS. Windows, layers and freshness policies: the commands that write the shadow (R59 to R62, R76, R92, R132, R135 to R139). -/

namespace Sys2Proof.Proofs

open Sys2Proof Sys2Proof.Machine Sys2Proof.Safety Sys2Proof.Laws

/-- A window that passes every check of WINDOW_DEFINE (R139). -/
theorem defineWindow_accepts {n w : Nat} {g : WinGeom} {a : State}
    (hw : (if n = 0xFFFF then freeWindow a else some n) = some w) (hle : w ≤ 383) (hgeom : geomOk g = true)
    (hawait : winAwaiting a w = false) (hskim : skimNamesWindow a w = false)
    (hfault : windowFault a (setWin a w (redefine a w g)) w (redefine a w g) = none) :
    defineWindow n g a = ok (settleDetectors (setWin a w (redefine a w g)) (redefine a w g)) (leBytes 2 w) := by
  have hfields : ¬ (383 < w ∨ geomOk g = false) := by simp [hgeom, hle]
  simp only [defineWindow, hw, if_neg hfields, hawait, hskim, Bool.or_self, Bool.false_eq_true, if_false, hfault]

theorem deleteWindow_accepts {w : Nat} {a : State} (hw : thas a.wins w = true) (hskim : skimNamesWindow a w = false) :
    deleteWindow w a = ok (releaseChannels { a with wins := tdel a.wins w }) := by
  simp [deleteWindow, hw, hskim]

/-- A head with its place in the shadow, or none (R135). -/
def placed (a : State) (h x y : Nat) : State :=
  a.setHead h { a.head h with shadow := { (a.head h).shadow with
    place := if x = 0xFFFF ∧ y = 0xFFFF then none else some (x, y) } }

/-- The windows that the head's shadow meets. -/
def brought (b : State) (h : Nat) : Tab WinDef := b.wins.filter (fun e => winMeets (b.head h).shadow e.2.g)

/-- A place where the windows that the head meets stand on few enough heads and on layers of their own (R139). -/
theorem placeHead_accepts {h x y : Nat} {a : State} (hh : h ≤ 31) (hx : x ≤ 65535) (hy : y ≤ 65535) (hpan : (a.head h).pan ≠ none)
    (hfew : ∀ e ∈ brought (placed a h x y) h, (metHeads (placed a h x y) e.2.g).length ≤ 16)
    (hlayers : ∀ e ∈ brought (placed a h x y) h, ∀ f ∈ brought (placed a h x y) h, e.1 ≠ f.1 → e.2.g.layer ≠ f.2.g.layer)
    (hdemand : demandOk a (placed a h x y) = true) : placeHead h x y a = ok (placed a h x y) := by
  have hfields : ¬ (31 < h ∨ 65535 < x ∨ 65535 < y ∨ (a.head h).pan = none) := by
    simp only [not_or, Nat.not_lt]
    exact ⟨hh, hx, hy, hpan⟩
  have hmany : ¬ (brought (placed a h x y) h).any (fun e => decide (16 < (metHeads (placed a h x y) e.2.g).length)) = true := by
    simpa using hfew
  have hclash : ¬ (brought (placed a h x y) h).any (fun e => (brought (placed a h x y) h).any
      (fun f => e.1 != f.1 && e.2.g.layer == f.2.g.layer)) = true := by
    simp only [List.any_eq_true, Bool.and_eq_true, bne_iff_ne, beq_iff_eq, not_exists, not_and]
    exact hlayers
  unfold placeHead
  rw [if_neg hfields]
  exact (if_neg hmany).trans ((if_neg hclash).trans (if_pos hdemand))

/-- Settles O21: each form of WINDOW_DEFINE under its checks (R135, R136, R139). -/
theorem windowsAreDefinedDeletedAndPlaced : Obligations.WindowsAreDefinedDeletedAndPlaced := by
  unfold Obligations.WindowsAreDefinedDeletedAndPlaced
  refine ⟨?define, ?delete, ?place⟩
  case define =>
    exact fun c s a key n w g hrun hw hle hgeom hawait hskim hfault =>
      next_command_of_runs hrun (defineWindow_accepts hw hle hgeom hawait hskim hfault)
  case delete => exact fun c s a key w hrun hw hskim => next_command_of_runs hrun (deleteWindow_accepts hw hskim)
  case place =>
    intro c s a key h x y hrun b l hx hy hpan hfew hlayers hdemand
    exact next_command_of_runs hrun
      (placeHead_accepts (Nat.le_of_lt_succ h.isLt) hx hy hpan hfew hlayers hdemand)

/-! ### LAYER_SET and ZORDER_SET -/

theorem setLayer_accepts {w : Nat} {d : WinDef} {l : LayerSettings} {a : State} (hw : tfind a.wins w = some d)
    (hfields : layerFields d l = true) (hskim : skimNamesWindow a w = false)
    (hdemand : demandOk a (setWin a w { d with l := l }) = true) : setLayer w l a = ok (setWin a w { d with l := l }) := by
  simp [setLayer, hw, hfields, hskim, hdemand]

/-- The palette form needs a graphic layer whose open context has indexed colours (R138). -/
theorem setPalette_accepts {w first n : Nat} {l : List Nat} {d : WinDef} {x : Ctx} {a : State} (hw : tfind a.wins w = some d)
    (hgraphic : 8 ≤ d.g.layer) (hctx : d.g.context = some n) (hopen : openCtx a n = some x) (hindexed : x.p.format = 0x13)
    (hne : l ≠ []) (hlen : l.length ≤ 64) (hlast : first + l.length ≤ 256) (hwords : ∀ e ∈ l, e < 2 ^ 32)
    (hskim : skimNamesWindow a w = false) : setPalette w first l a =
      ok (modHeads a (metHeads a d.g) (fun _ h => { h with shadow := writePalette h.shadow d.g.layer first l })) := by
  have hwide : l.any (fun e => decide (2 ^ 32 ≤ e)) = false := by
    rw [List.any_eq_false]
    exact fun e he => by simpa using hwords e he
  have hfields : ¬ (d.g.layer < 8 ∨ (x.p.format == 0x13) = false ∨ l = [] ∨ 64 < l.length ∨ 256 < first + l.length ∨
      l.any (fun e => decide (2 ^ 32 ≤ e)) = true) := by
    rw [hwide, hindexed]
    simp only [not_or, Nat.not_lt]
    exact ⟨hgraphic, by decide, hne, hlen, hlast, Bool.false_ne_true⟩
  simp only [setPalette, hw, hctx, Option.bind_some, hopen, if_neg hfields, hskim, Bool.false_eq_true, if_false]

theorem cmdZorderSet_accepts {p : ZOrderSetP} {a : State} (hhead : p.head ≤ 31) (hback : p.z.background < 2 ^ 30)
    (hlevels : p.z.mode = true → levelsOk p.z.level = true) (hskim : ∀ h ∈ withTwin a p.head, skimNamesHead a h = false) :
    cmdZorderSet p a = ok (modHeads a (withTwin a p.head) (fun _ h => { h with shadow := { h.shadow with z := p.z } })) := by
  have hfields : ¬ (31 < p.head ∨ 2 ^ 30 ≤ p.z.background ∨ (p.z.mode && !levelsOk p.z.level) = true) := by
    simp only [not_or, Nat.not_lt, Nat.not_le]
    exact ⟨hhead, hback, by simpa using hlevels⟩
  have hfree : (withTwin a p.head).any (skimNamesHead a) = false := by
    rw [List.any_eq_false]
    exact fun h hh => by simpa using hskim h hh
  rw [cmdZorderSet, if_neg hfields, hfree]
  rfl

/-- Settles O22: the settings, the palette and the z-order under their checks (R132, R137, R138). -/
theorem layersTakeSettingsAndPalettes : Obligations.LayersTakeSettingsAndPalettes := by
  unfold Obligations.LayersTakeSettingsAndPalettes
  refine ⟨?settings, ?palette, ?zorder⟩
  case settings =>
    exact fun c s a key w d l hrun hw hfields hskim hdemand =>
      next_command_of_runs hrun (setLayer_accepts hw hfields hskim hdemand)
  case palette =>
    exact fun c s a key w first n l d x hrun hw hgraphic hctx hopen hindexed hne hlen hlast hwords hskim =>
      next_command_of_runs hrun (setPalette_accepts hw hgraphic hctx hopen hindexed hne hlen hlast hwords hskim)
  case zorder =>
    exact fun c p s a key hrun hhead hback hlevels hskim =>
      next_command_of_runs hrun (cmdZorderSet_accepts hhead hback hlevels hskim)

/-! ### FRESHNESS_SET and VERDICT_QUERY -/

/-- A policy in range, for a caller of the role that a critical window asks (R58 to R60, R66). -/
theorem setPolicy_accepts {c : Caller} {w : Nat} {d : WinDef} {p : Policy} {a : State} (hfields : policyFields p = true)
    (hcritical : criticalOk a p = true) (hw : tfind a.wins w = some d)
    (hrole : (d.pol.critical = true ∧ p.critical = false) ∨ (p.critical = true ∧ d.groups = 0) → 2 ≤ callerRole a c)
    (hshort : detectorShort a { d with pol := p } = false) (hskim : skimNamesWindow a w = false) :
    setPolicy c w p a = ok (settleDetectors (setWin a w { d with pol := p }) { d with pol := p }) := by
  have hdrop : ¬ ((d.pol.critical && !p.critical) = true ∧ callerRole a c < 2) := by
    simp only [Bool.and_eq_true, Bool.not_eq_true', not_and, Nat.not_lt]
    exact fun h => hrole (.inl h)
  have hgroup : ¬ ((p.critical && d.groups == 0) = true ∧ callerRole a c < 2) := by
    simp only [Bool.and_eq_true, beq_iff_eq, not_and, Nat.not_lt]
    exact fun h => hrole (.inr h)
  simp only [setPolicy, hfields, hcritical, hw, if_neg hdrop, if_neg hgroup, hshort, hskim, Bool.not_true, Bool.or_self,
    Bool.false_eq_true, if_false]

theorem setColours_accepts {n : Nat} {x : ColourSet} {a : State} (hlow : 1 ≤ n) (hhigh : n ≤ 7)
    (hfields : coloursFields x = true) (hcontrast : criticalUses a n = true → contrastOk x = true) :
    setColours n x a = ok { a with nextColours := tset a.nextColours n x } := by
  refine if_neg ?_
  simp only [not_or, Nat.not_lt]
  exact ⟨by omega, hhigh, by simp [hfields], by simpa using hcontrast⟩

theorem setMembership_accepts {c : Caller} {w g : Nat} {d : WinDef} {a : State} (hw : tfind a.wins w = some d) (hg : g ≤ 255)
    (hrole : d.pol.critical = true → g = 0 → 2 ≤ callerRole a c) (hskim : skimNamesWindow a w = false) :
    setMembership c w g a = ok (setWin a w { d with groups := g }) := by
  have hgroup : ¬ ((d.pol.critical && g == 0) = true ∧ callerRole a c < 2) := by
    simp only [Bool.and_eq_true, beq_iff_eq, not_and, Nat.not_lt, and_imp]
    exact hrole
  simp only [setMembership, hw, if_neg (Nat.not_lt.mpr hg), if_neg hgroup, hskim, Bool.false_eq_true, if_false]

theorem cmdVerdictQuery_of_window {w : Nat} {a : State} (hw : thas a.wins w = true ∨ winAwaiting a w = true) :
    cmdVerdictQuery w a = ok a (leBytes 2 w ++ [byte ((showingHeads a w).take 16).length, 0#8] ++
      ((showingHeads a w).take 16).flatMap (verdictEntry a w)) := by
  refine if_neg ?_
  rcases hw with h | h <;> simp [h]

/-- Settles O23: the three forms of FRESHNESS_SET under their checks, and the answer of VERDICT_QUERY (R58 to R62, R76, R92). -/
theorem freshnessPoliciesAndVerdictsAnswer : Obligations.FreshnessPoliciesAndVerdictsAnswer := by
  unfold Obligations.FreshnessPoliciesAndVerdictsAnswer
  refine ⟨?policy, ?colours, ?membership, ?verdict⟩
  case policy =>
    exact fun c s a key w d p hrun hfields hcritical hw hrole hshort hskim =>
      next_command_of_runs hrun (setPolicy_accepts hfields hcritical hw hrole hshort hskim)
  case colours =>
    exact fun c s a key n x hrun hlow hhigh hfields hcontrast =>
      next_command_of_runs hrun (setColours_accepts hlow hhigh hfields hcontrast)
  case membership =>
    exact fun c s a key w g d hrun hw hg hrole hskim => next_command_of_runs hrun (setMembership_accepts hw hg hrole hskim)
  case verdict => exact fun c s a key w hrun hw => next_command_of_runs hrun (cmdVerdictQuery_of_window hw)

end Sys2Proof.Proofs
end

section
/-! PROOFS. What the parts of a head's frame keep: reports, reads and events leave every head as it is, and fetching, composing and
link training leave the frame cycle of every head as it is (R108 to R112, R141, R180). -/

namespace Sys2Proof.Proofs

open Sys2Proof Sys2Proof.Machine Sys2Proof.Safety Sys2Proof.Laws

/-- `t` has the clocks of `s`, and what `v` takes of each head. -/
structure Steady {α : Type} (v : Head → α) (s t : State) : Prop where
  clk : t.clk = s.clk
  view : ∀ k, v (t.head k) = v (s.head k)

section
variable {α : Type} {v : Head → α} {s t u : State}

theorem Steady.refl (v : Head → α) (s : State) : Steady v s s := ⟨rfl, fun _ => rfl⟩

theorem Steady.trans (h : Steady v s t) (k : Steady v t u) : Steady v s u :=
  ⟨k.clk.trans h.clk, fun i => (k.view i).trans (h.view i)⟩

theorem Steady.foldl {A : Type} {f : State → A → State} (hf : ∀ s a, Steady v s (f s a)) (l : List A) (s : State) :
    Steady v s (l.foldl f s) :=
  List.foldlRecOn l f (motive := Steady v s) (.refl v s) fun _ ht a _ => ht.trans (hf _ a)

theorem Steady.of_heads (hclk : t.clk = s.clk) (hheads : t.heads = s.heads) : Steady v s t :=
  ⟨hclk, fun k => by simp only [State.head, hheads]⟩

theorem Transfers.steady (h : Transfers s t) : Steady v s t := .of_heads h.clk h.heads

theorem Reports.steady (h : Reports s t) : Steady v s t := h.transfers.steady

/-- What is taken of what `v` takes is steady as well. -/
theorem Steady.mono {β : Type} {w : Head → β} (h : Steady v s t) (f : α → β) (hw : ∀ x, w x = f (v x)) : Steady w s t :=
  ⟨h.clk, fun k => (hw _).trans ((congrArg f (h.view k)).trans (hw _).symm)⟩

theorem steady_raiseErr {code : Nat} (s : State) (h : errClass code ≠ 3) (obj a b : Nat) (k : ErrKey) :
    Steady v s (raiseErr s code obj a b k) :=
  (reports_raiseErr s h obj a b k).steady

/-- A write of a head changes what `v` takes of that head alone. -/
theorem steady_setHead {i : Nat} {x : Head} (h : v x = v (s.head i)) : Steady v s (s.setHead i x) where
  clk := rfl
  view k := by
    by_cases hk : k = i
    · rw [hk, setHead_head, h]
    · rw [setHead_head_other s i x hk]

theorem Steady.after_setHead {i : Nat} {x : Head} (k : Steady v (s.setHead i x) u) (h : v x = v (s.head i)) : Steady v s u :=
  (steady_setHead h).trans k

/-- A change of the heads of a list that `v` does not see. -/
theorem steady_modHeads (l : List Nat) {f : Nat → Head → Head} (h : ∀ i x, v (f i x) = v x) (s : State) :
    Steady v s (modHeads s l f) :=
  .foldl (fun _ i => steady_setHead (h i _)) l s

/-! ### Folds over the heads of a group -/

/-- Where each step of a fold changes its own head as `Q` says and of the others nothing that `v` takes, so does the fold. -/
theorem foldl_heads {f : State → Nat → State} {Q : Nat → α → α → Prop} {c : Clocks} (hclk : ∀ s i, (f s i).clk = s.clk)
    (hother : ∀ s i k, k ≠ i → v ((f s i).head k) = v (s.head k))
    (hown : ∀ s i, s.clk = c → Q i (v (s.head i)) (v ((f s i).head i))) {l : List Nat} (hl : l.Nodup) (hs : s.clk = c) :
    (l.foldl f s).clk = c ∧ (∀ k ∉ l, v ((l.foldl f s).head k) = v (s.head k)) ∧
      ∀ i ∈ l, Q i (v (s.head i)) (v ((l.foldl f s).head i)) := by
  induction l generalizing s with
  | nil => exact ⟨hs, fun _ _ => rfl, fun _ hi => nomatch hi⟩
  | cons a l ih =>
    obtain ⟨ha, hl⟩ := List.nodup_cons.mp hl
    obtain ⟨hend, hout, hin⟩ := ih hl (s := f s a) ((hclk s a).trans hs)
    refine ⟨hend, fun k hk => ?_, fun i hi => ?_⟩
    · obtain ⟨hka, hkl⟩ := not_or.mp (List.mem_cons.not.mp hk)
      exact (hout k hkl).trans (hother s a k hka)
    · by_cases hia : i = a
      · rw [hia, List.foldl_cons, hout a ha]
        exact hown s a hs
      · rw [← hother s a i hia]
        exact hin i ((List.mem_cons.mp hi).resolve_left hia)

theorem nodup_withTwin (s : State) (h : Nat) : (withTwin s h).Nodup := by
  unfold withTwin
  split
  · split <;> simp only [List.nodup_cons, List.mem_singleton, List.not_mem_nil, not_false_eq_true, List.nodup_nil, and_true] <;> omega
  · exact List.nodup_singleton h

/-- What `modHeads` makes of the heads that it names. -/
theorem modHeads_head {l : List Nat} (hl : l.Nodup) (f : Nat → Head → Head) (s : State) :
    ∀ i ∈ l, (modHeads s l f).head i = f i (s.head i) :=
  (foldl_heads (f := fun s i => s.setHead i (f i (s.head i))) (v := id) (Q := fun i a b => b = f i a) (c := s.clk) (fun _ _ => rfl)
    (fun s i _ hk => setHead_head_other s i _ hk) (fun s i _ => setHead_head s i _) hl rfl).2.2

theorem releaseContexts_heads (s : State) : (releaseContexts s).heads = s.heads := by
  refine List.foldlRecOn _ _ (motive := fun t : State => t.heads = s.heads) rfl fun t ht n _ => ?_
  unfold releaseContext
  dsimp only
  split
  · exact ht
  · exact ht

end

/-! ### Composing -/

/-- A head but for what fetching and composing change. -/
def uncomposed (h : Head) : Head :=
  { h with taps := [], fifo := [], nextLine := 0, nextX := 0, aheadX := 0, fetched := 0, lateLine := none, zeroed := [] }

section
variable (s : State) (i : Nat)

theorem steady_emitGroup (t : Timing) (line x : Nat) (l : List Rendered) : Steady uncomposed s (emitGroup s i t line x l) := by
  have htap : Steady uncomposed s (if blackFrame (s.head i) then s else tapSeals s i t line x l) := by
    split
    · exact .refl _ s
    · exact steady_setHead rfl
  have hgroup (s : State) (h : Head) (codes : List (Nat × Nat × Nat)) : Steady uncomposed s (tapGroup s i h line codes) :=
    .of_heads rfl rfl
  unfold emitGroup
  dsimp only
  split
  · exact htap.trans ((hgroup _ _ _).trans (reports_emit _ _).steady)
  · exact htap.trans (hgroup _ _ _)

theorem steady_drainHead (fuel : Nat) : Steady uncomposed s (drainHead i fuel s) := by
  induction fuel generalizing s with
  | zero => exact .refl _ s
  | succ f ih =>
    unfold drainHead
    dsimp only
    split
    · split
      · exact .after_setHead ((steady_emitGroup _ i _ _ _ _).trans (ih _)) rfl
      · exact .refl _ s
    · exact .refl _ s

theorem steady_drain : Steady uncomposed s (drain s i) := steady_drainHead s i _

theorem steady_poisonBuf (b : Taken) : Steady uncomposed s (poisonBuf s b) := by
  unfold poisonBuf
  dsimp only
  split
  · exact .of_heads rfl rfl
  · exact .refl _ s

theorem steady_fetchRange (b : Taken) (r : Nat × Nat) : Steady uncomposed s (fetchRange i b s r) := by
  have hread : Steady uncomposed s (readPieces s idPan r.1 r.2 false).2 := (transfers_readPieces s idPan r.1 r.2 false).steady
  unfold fetchRange
  dsimp only
  split
  · exact hread.trans (.after_setHead (steady_poisonBuf _ b) rfl)
  · exact hread.trans (steady_setHead rfl)

theorem steady_fetchStarts (line x n : Nat) : Steady uncomposed s (fetchStarts s i line x n) := by
  refine .foldl (fun s e => ?_) _ s
  exact .foldl (fun s r => steady_fetchRange s i e.2.2.1 r) e.2.2.2 s

theorem steady_lateBursts (line x n : Nat) (k : Slot) : Steady uncomposed s (lateBursts i line x n s k) := by
  unfold lateBursts
  dsimp only
  split
  · split
    · exact .refl _ s
    · have hforget (s : State) (f : SlotReq → Bool) : Steady uncomposed s (forgetReqs s f) := .of_heads rfl rfl
      exact .after_setHead ((hforget _ _).trans ((steady_poisonBuf _ _).trans (steady_raiseErr _ (by decide) _ _ _ _))) rfl
  · exact .refl _ s

theorem advanceGroup_uncomposed (h : Head) (t : Timing) (line x : Nat) : uncomposed (advanceGroup h t line x) = uncomposed h := by
  unfold advanceGroup
  split_ifs <;> rfl

theorem steady_pushGroup (t : Timing) (g : Group) : Steady uncomposed s (pushGroup s i t g) :=
  steady_setHead (advanceGroup_uncomposed _ _ _ _)

theorem steady_lateGroup (t : Timing) (line x : Nat) : Steady uncomposed s (lateGroup s i t line x) := by
  have hfetch : Steady uncomposed s ((groupSlots (s.head i) line x (min 4 (t.hactive - x))).foldl
      (lateBursts i line x (min 4 (t.hactive - x))) (fetchStarts s i line x (min 4 (t.hactive - x)))) :=
    (steady_fetchStarts s i line x _).trans (.foldl (fun s k => steady_lateBursts s i line x _ k) _ _)
  unfold lateGroup
  dsimp only
  refine hfetch.trans ?_
  split
  · exact .after_setHead (steady_pushGroup _ i t _) rfl
  · exact (steady_raiseErr _ (by decide) _ _ _ _).trans (.after_setHead (steady_pushGroup _ i t _) rfl)

theorem steady_missGroups (fuel : Nat) : Steady uncomposed s (missGroups i fuel s) := by
  induction fuel generalizing s with
  | zero => exact .refl _ s
  | succ f ih =>
    unfold missGroups
    dsimp only
    split
    · split
      · exact (steady_lateGroup s i _ _ _).trans (ih _)
      · exact .refl _ s
    · exact .refl _ s

theorem steady_startFetches (fuel : Nat) : Steady uncomposed s (startFetches i fuel s) := by
  induction fuel generalizing s with
  | zero => exact .refl _ s
  | succ f ih =>
    have hpost (s : State) (layer line : Nat) (r : Nat × Nat) :
        Steady uncomposed s (post s i idPan r.1 r.2 false (.pan i layer line)) := .of_heads rfl rfl
    unfold startFetches
    dsimp only
    split
    · split
      · have hposts (s : State) (n : Nat) (l : List (Nat × Nat × Taken × List (Nat × Nat))) : Steady uncomposed s
            (l.foldl (fun s e => e.2.2.2.foldl (fun s r => post s i idPan r.1 r.2 false (.pan i e.1 n)) s) s) :=
          .foldl (fun s e => .foldl (fun s r => hpost s _ _ r) _ s) l s
        exact .after_setHead ((hposts _ _ _).trans (ih _)) rfl
      · exact .refl _ s
    · exact .refl _ s

/-- The pan's part of a head fetches, composes and emits, and leaves every head else as it is. -/
theorem steady_pump : Steady uncomposed s (pump s i) := by
  unfold pump
  split
  · exact ((steady_startFetches s i _).trans (steady_missGroups _ i _)).trans (steady_drain _ i)
  · exact .refl _ s

end

/-! ### The frame cycle -/

/-- Where a head stands in its frame cycle, the commits that wait, and the bank in force. -/
structure FrameCycle where
  phase : Phase
  base : Rat
  disableSched : Bool
  armed : List Armed
  forceSeq : Nat
  force : Bank

def frameCycle (h : Head) : FrameCycle := ⟨h.phase, h.base, h.disableSched, h.armed, h.forceSeq, h.force⟩

section
variable (s : State) (i : Nat)

/-! ### Link training -/

theorem steady_closeClamps {α : Type} {v : Head → α} (hv : ∀ h, v { h with link := { h.link with clampMask := 0 } } = v h) :
    Steady v s (closeClamps s i) := by
  unfold closeClamps
  dsimp only
  split
  · exact .refl _ s
  · exact .after_setHead (steady_raiseErr _ (by decide) _ _ _ _) (hv _)

theorem steady_setState (st : HeadState) : Steady frameCycle s (setState s i st) := steady_setHead rfl

theorem steady_linkState (st : HeadState) : Steady frameCycle s (linkState s i st) := by
  unfold linkState
  dsimp only
  split
  · exact .refl _ s
  · exact (steady_setState s i st).trans (reports_postFw _ _ _ _ _).steady

theorem steady_driveLane (k : Nat) (uhbr : Bool) (v : Nat) : Steady frameCycle s (driveLane s i k uhbr v) :=
  .after_setHead (reports_emit _ _).steady rfl

theorem steady_startLevels : Steady frameCycle s (startLevels s i) := by
  unfold startLevels
  split
  · exact .refl _ s
  · exact .after_setHead (.foldl (fun s k => steady_driveLane s i k _ _) _ _) rfl

theorem steady_failLink (reason : Nat) : Steady frameCycle s (failLink s i reason) := by
  unfold failLink
  dsimp only
  exact (steady_closeClamps s i fun _ => rfl).trans
    (.after_setHead ((steady_raiseErr _ (by decide) _ _ _ _).trans (steady_linkState _ i _)) rfl)

theorem steady_startTrainingFor (timing : Option Timing) : Steady frameCycle s (startTrainingFor s i timing) := by
  unfold startTrainingFor
  dsimp only
  refine (steady_closeClamps s i fun _ => rfl).trans ?_
  split
  · split
    · exact .after_setHead (steady_failLink _ i 1) rfl
    · exact .after_setHead (steady_startLevels _ i) rfl
  · exact .refl _ _

theorem steady_startTraining : Steady frameCycle s (startTraining s i) := steady_startTrainingFor s i _

theorem steady_retrainFor : Steady frameCycle s (retrainFor s i) := by
  unfold retrainFor
  dsimp only
  split_ifs
  · exact (steady_linkState s i _).trans (steady_startTrainingFor _ i _)
  · exact steady_startTrainingFor s i _
  · exact (steady_linkState s i _).trans (steady_startTrainingFor _ i _)
  · exact .refl _ s

/-! ### A new timing in force -/

theorem steady_setIgnore : Steady frameCycle s (setIgnore s i) := by
  unfold setIgnore
  dsimp only
  split_ifs
  · exact .refl _ s
  · exact .after_setHead (reports_emit _ _).steady rfl
  · exact steady_setHead rfl

theorem steady_evalVrr : Steady frameCycle s (evalVrr s i) := .after_setHead (steady_setIgnore _ i) rfl

theorem steady_takeTiming : Steady frameCycle s (takeTiming s i) := .after_setHead (steady_evalVrr _ i) rfl

theorem steady_setFixed (f : Fixed) : Steady frameCycle s (setFixed s i f) := steady_setHead rfl

theorem steady_postMode (ended : Bool) : Steady frameCycle s (postMode s i ended) := (reports_postFw s _ _ _ _).steady

theorem steady_beginMode : Steady frameCycle s (beginMode s i) := by
  unfold beginMode
  dsimp only
  split
  · exact .after_setHead ((steady_setState _ i _).trans (steady_postMode _ i _)) rfl
  · exact .after_setHead (steady_retrainFor _ i) rfl

theorem steady_modeAtOnce : Steady frameCycle s (modeAtOnce s i) := by
  unfold modeAtOnce
  dsimp only
  refine (steady_takeTiming s i).trans ((steady_setFixed _ i ⟨0, false⟩).trans ?_)
  split
  · exact (steady_setState _ i _).trans ((steady_postMode _ i _).trans (.after_setHead (steady_startTraining _ i) rfl))
  · exact steady_retrainFor _ i

theorem steady_latchTiming (l : List Nat) (changes : List TimingChange) : Steady frameCycle s (latchTiming s l changes) := by
  unfold latchTiming
  dsimp only
  split_ifs
  · exact .foldl (fun s i => steady_beginMode s i) l s
  · exact .foldl (fun s i => steady_modeAtOnce s i) l s
  · refine .foldl (fun s i => ?_) l s
    exact (steady_takeTiming s i).trans (.after_setHead (steady_setFixed _ i _) rfl)
  · exact .foldl (fun s i => (steady_takeTiming s i).trans (steady_setFixed _ i _)) l s
  · refine .foldl (fun s i => ?_) l s
    split
    · exact .refl _ s
    · exact steady_takeTiming s i
  · exact .refl _ s

/-! ### The end of a frame -/

theorem steady_frameEnd {α : Type} {v : Head → α} (hv : ∀ h d l a b c, v { h with
    done := d, spans := l, sumVerdict := a, sumNotLive := b, sumCauses := c } = v h) : Steady v s (frameEnd s i) := by
  have hevent (h : Head) (t : Ticks) (s : State) (e : Nat × WinFrame) : Steady v s (verdictChange i h t s e) := by
    unfold verdictChange
    dsimp only
    split
    · exact .refl _ s
    · exact (reports_putEvent s _ _ _ _).steady
  unfold frameEnd
  dsimp only
  split
  · exact .refl _ s
  · split
    · exact steady_setHead (hv _ _ _ _ _ _)
    · exact .after_setHead (.foldl (fun s e => hevent _ _ s e) _ _) (hv _ _ _ _ _ _)

theorem steady_gaugeLatch {α : Type} {v : Head → α} : Steady v s (gaugeLatch s i) := by
  unfold gaugeLatch
  split
  · exact .refl _ s
  · exact .of_heads rfl rfl

theorem reports_sendBlanking : Reports s (sendBlanking s i) := by
  have hpacket (o : Output) (on : Bool) : Reports s (if on then (s.emit o).emit (.adaptiveSync i) else s.emit o) := by
    split
    · exact (reports_emit s _).trans (reports_emit _ _)
    · exact reports_emit s _
  unfold sendBlanking
  dsimp only
  split
  · split
    · exact hpacket _ _
    · exact .rfl
  · exact .rfl

end

end Sys2Proof.Proofs
end

section
/-! PROOFS. Heads: the commands that set them up, the events of their frame cycle, composing and judging (R81, R110, R113, R141,
R144, R149 to R165). -/

namespace Sys2Proof.Proofs

open Sys2Proof Sys2Proof.Machine Sys2Proof.Safety Sys2Proof.Laws

/-! ### The commands of a head -/

theorem cmdHeadSetTiming_accepts {p : HeadSetTimingP} {a b : State} {l : List Nat} (hl : l = withTwin a p.head)
    (hb : b = modHeads a l (fun _ h => { h with shadow := { h.shadow with timing := some p.t } }))
    (husable : ∀ h ∈ l, headUsable a h = true) (hfields : timingFields p.t a.tide.num a.tide.den = true)
    (hcarries : ∀ h ∈ l, carries p.t a.tide.num a.tide.den (mappedLanes (a.head h).link) (a.head h).link.maxRate = true)
    (hrate : ∀ h ∈ l, panRate b ((a.head h).pan.getD 0) ≤ 4800000000 * a.tide.den)
    (hdemand : ∀ h ∈ l, headDemand b (b.head h).shadow ≤ classSupply b h) (htap : timingBreaksTap a l p.t = false) :
    cmdHeadSetTiming p a = ok b (leBytes 8 (rateNum p.t a.tide.num * 1000 / a.tide.den)) := by
  have hover : ¬ l.any (fun h => decide (4800000000 * a.tide.den < panRate b ((a.head h).pan.getD 0))) = true := by
    simpa using hrate
  have hshort : ¬ l.any (fun h => decide (classSupply b h < headDemand b (b.head h).shadow)) = true := by
    simpa using hdemand
  have hall : l.all (headUsable a) = true := List.all_eq_true.mpr husable
  have hlanes : l.all (fun h => carries p.t a.tide.num a.tide.den (mappedLanes (a.head h).link) (a.head h).link.maxRate) = true :=
    List.all_eq_true.mpr hcarries
  subst hb hl
  simp only [cmdHeadSetTiming, hall, hfields, hlanes, if_neg hover, if_neg hshort, htap, Bool.not_true, Bool.or_self,
    Bool.false_eq_true, if_false]

theorem cmdHeadCommit_accepts {m : Nat} {a : State} (hm : m ≠ 0) (hfault : commitFault a (namedHeads a m) = none) :
    cmdHeadCommit m a = ok (armCommit a (namedHeads a m)).2
      (leBytes 4 (armCommit a (namedHeads a m)).1 ++ leBytes 4 (timeNs a.pt) ++ leBytes 6 (timeS a.pt) ++ zeros 2) := by
  simp only [cmdHeadCommit, if_neg hm, hfault]

theorem cmdHeadTwin_accepts {p : HeadTwinP} {a : State} (hpair : p.pair ≤ 15) (hpan : (a.head (2 * p.pair)).pan ≠ none)
    (hsame : (a.head (2 * p.pair + 1)).pan = (a.head (2 * p.pair)).pan) (hfirst : (a.head (2 * p.pair)).st = .disabled)
    (hsecond : (a.head (2 * p.pair + 1)).st = .disabled) :
    cmdHeadTwin p a = ok ((a.setHead (2 * p.pair) { a.head (2 * p.pair) with twin := p.twin }).setHead (2 * p.pair + 1)
      { a.head (2 * p.pair + 1) with twin := p.twin, shadow := { (a.head (2 * p.pair + 1)).shadow with
        timing := if p.twin then (a.head (2 * p.pair)).shadow.timing else (a.head (2 * p.pair + 1)).shadow.timing } }) := by
  have hnames : ¬ (15 < p.pair ∨ (a.head (2 * p.pair)).pan = none ∨ (a.head (2 * p.pair + 1)).pan = none) := by
    rw [hsame]
    simp only [not_or, Nat.not_lt]
    exact ⟨hpair, hpan, hpan⟩
  have hidle : ¬ ((a.head (2 * p.pair)).st ≠ .disabled ∨ (a.head (2 * p.pair + 1)).st ≠ .disabled) := by
    simp [hfirst, hsecond]
  have hpans : ¬ ((a.head (2 * p.pair)).pan ≠ (a.head (2 * p.pair + 1)).pan) := by simp [hsame]
  simp only [cmdHeadTwin, if_neg hnames, if_neg hidle, if_neg hpans]

section
variable {p : HeadEnableP} {a : State} (husable : ∀ h ∈ withTwin a p.head, headUsable a h = true)
include husable

theorem cmdHeadEnable_starts (hen : p.enable = true) (htiming : ∀ h ∈ withTwin a p.head, (a.head h).force.timing ≠ none) :
    cmdHeadEnable p a = ok (settle ((withTwin a p.head).foldl (fun t i => if (t.head i).st = .disabled then enableOne t i
        else t.setHead i { t.head i with disableSched := false })
      (modHeads a (withTwin a p.head) (fun _ h => { h with flipEvents := p.flipEvents }))) p.head) := by
  have hall : (withTwin a p.head).all (headUsable a) = true := List.all_eq_true.mpr husable
  have htimed : (withTwin a p.head).any (fun i => (a.head i).force.timing.isNone) = false := by
    simpa [List.any_eq_false, Option.ne_none_iff_isSome] using htiming
  simp only [cmdHeadEnable, hall, htimed, hen, Bool.not_true, Bool.and_false, Bool.false_eq_true, if_false, if_true]

theorem cmdHeadEnable_stops (hen : p.enable = false) :
    cmdHeadEnable p a = ok (releaseContexts (releaseChannels ((withTwin a p.head).foldl disableOne
      (modHeads a (withTwin a p.head) (fun _ h => { h with flipEvents := p.flipEvents }))))) := by
  have hall : (withTwin a p.head).all (headUsable a) = true := List.all_eq_true.mpr husable
  simp only [cmdHeadEnable, hall, hen, Bool.not_true, Bool.false_and, Bool.false_eq_true, if_false]

end

theorem transfers_contentValue (s : State) (n k : Nat) : Transfers s (contentValue s n k).2 := by
  unfold contentValue
  dsimp only
  refine List.foldlRecOn _ _ (motive := fun r : List Byte × Bool × State => Transfers s r.2.2) .rfl fun r hr a _ => ?_
  exact hr.trans (transfers_devRead _ _ _ _ _)

/-- The reads of a detector bind no other detector. -/
theorem detectorOf_sampled (a : State) (n k m : Nat) : detectorOf (if (detectorOf a n).isSome then
    contentValue (askSamples a n k) n k else (none, a)).2 m = detectorOf a m := by
  split
  · have hask : Transfers a (askSamples a n k) := transfers_postParts a _ _ _ _ _ _ _
    have hchecks := (hask.trans (transfers_contentValue _ n k)).field State.checks (by intros; rfl)
    simp only [detectorOf, hchecks]
  · rfl

/-- A HOST buffer that LAYER_ADDRESS may complete (R44, R154). -/
theorem cmdLayerAddress_accepts {p : LayerAddressP} {a : State} {x : Ctx} (hx : openCtx a p.context = some x)
    (hhost : isHost x.p = true) (hbuf : p.buffer < x.p.ring) (hcap : p.capGiven = true → p.capNs < 1000000000)
    (hiso : x.isolated = false) (hdemand : x.latest = none → demandOk (a.setCtx p.context { x with state := .free }) a = true) :
    let heads := (showingCtx a p.context).foldl (fun l h => (withTwin a h).foldl insertAsc l) []
    (p.autoCommit = true → commitFault a heads = none) →
    let v : Option Nat × State := if (detectorOf a p.context).isSome then
      contentValue (askSamples a p.context p.buffer) p.context p.buffer else (none, a)
    let cap := if p.capGiven then (p.capS, p.capNs) else (timeS v.2.tb, timeNs v.2.tb)
    let poison := if (detectorOf a p.context).isSome && v.1.isNone then 4 else 0
    let b := completeBuf (countSample v.2 p.context v.1) p.context p.buffer ⟨cap.1, cap.2, none, poison, none, x.binds⟩ v.1
    let d := b.setCtx p.context { b.ctx p.context with latest := some (p.buffer, ((b.ctx p.context).buf p.buffer).record) }
    cmdLayerAddress p a = if p.autoCommit = true ∧ heads ≠ []
      then ok (armCommit d heads).2 (leBytes 4 (armCommit d heads).1) else ok d (leBytes 4 0) := by
  intro heads hcommit
  have hfields : ¬ (isHost x.p = false ∨ x.p.ring ≤ p.buffer ∨ (p.capGiven = true ∧ 1000000000 ≤ p.capNs)) := by
    simp only [not_or, Nat.not_le, hhost, Bool.true_eq_false, not_false_eq_true, true_and, not_and]
    exact ⟨hbuf, hcap⟩
  have hfits : (x.latest.isNone && !demandOk (a.setCtx p.context { x with state := .free }) a) = false := by
    simpa using hdemand
  have hfault : (if p.autoCommit then commitFault a ((showingCtx a p.context).foldl
      (fun l h => (withTwin a h).foldl insertAsc l) []) else none) = none := by
    split
    case isTrue hauto => exact hcommit hauto
    case isFalse => rfl
  unfold cmdLayerAddress
  rw [hx]
  refine (if_neg hfields).trans ((if_neg (ne_true_of_eq_false hiso)).trans ((if_neg (ne_true_of_eq_false hfits)).trans ?_))
  simp only [hfault, detectorOf_sampled]
  rfl

/-- Settles O24: each command of a head under its checks (R44, R144, R149, R154, R161, R165). -/
theorem headCommandsComplete : Obligations.HeadCommandsComplete := by
  unfold Obligations.HeadCommandsComplete
  refine ⟨?timing, ?commit, ?twin, ?enable, ?address⟩
  case timing =>
    exact fun c p s a key hrun husable hfields hcarries hrate hdemand htap => next_command_of_runs hrun
      (cmdHeadSetTiming_accepts rfl rfl husable hfields hcarries hrate hdemand htap)
  case commit => exact fun c s a key m hrun hm hfault => next_command_of_runs hrun (cmdHeadCommit_accepts hm hfault)
  case twin =>
    exact fun c p s a key hrun hpair hpan hsame hfirst hsecond => next_command_of_runs hrun
      (cmdHeadTwin_accepts hpair hpan hsame hfirst hsecond)
  case enable =>
    intro c p s a key hrun husable
    exact ⟨fun hen htiming => next_command_of_runs hrun (cmdHeadEnable_starts husable hen htiming),
      fun hen => next_command_of_runs hrun (cmdHeadEnable_stops husable hen)⟩
  case address =>
    exact fun c p s a key x hrun hx hhost hbuf hcap hiso hdemand hcommit => next_command_of_runs hrun
      (cmdLayerAddress_accepts hx hhost hbuf hcap hiso hdemand hcommit)

/-! ### One head moves -/

/-- Of what `v` takes of the heads, `t` differs from `s` in head `i` alone, which has `b`. -/
structure Moves {α : Type} (v : Head → α) (i : Nat) (s t : State) (b : α) : Prop where
  clk : t.clk = s.clk
  other : ∀ k, k ≠ i → v (t.head k) = v (s.head k)
  own : v (t.head i) = b

section
variable {α : Type} {v : Head → α} {i : Nat} {s t u : State} {b c : α}

theorem moves_setHead (s : State) (i : Nat) (x : Head) : Moves v i s (s.setHead i x) (v x) :=
  ⟨rfl, fun _ hk => congrArg v (setHead_head_other s i x hk), congrArg v (setHead_head s i x)⟩

theorem Moves.trans (h : Moves v i s t b) (k : Moves v i t u c) : Moves v i s u c :=
  ⟨k.clk.trans h.clk, fun j hj => (k.other j hj).trans (h.other j hj), k.own⟩

theorem Moves.steady (h : Moves v i s t b) (k : Steady v t u) : Moves v i s u b :=
  ⟨k.clk.trans h.clk, fun j hj => (k.view j).trans (h.other j hj), (k.view i).trans h.own⟩

theorem Steady.moves (h : Steady v s t) (k : Moves v i t u b) : Moves v i s u b :=
  ⟨k.clk.trans h.clk, fun j hj => (k.other j hj).trans (h.view j), k.own⟩

theorem Moves.steady_self (h : Moves v i s t b) (hb : b = v (s.head i)) : Steady v s t where
  clk := h.clk
  view k := by
    by_cases hk : k = i
    · rw [hk, h.own, hb]
    · exact h.other k hk

theorem Steady.moves_self (h : Steady v s t) : Moves v i s t (v (s.head i)) := ⟨h.clk, fun j _ => h.view j, h.view i⟩

end

/-! ### The latch edge -/

section
variable {α : Type} {v : Head → α}

theorem steady_loadGauges (s : State) (i : Nat) (b : Bank) : Steady v s (loadGauges s i b) := by
  refine .foldl (fun s p => ?_) _ s
  exact .of_heads rfl rfl

theorem keepFences_eq (f : Fences) (h : Head) : ∃ x, keepFences f h = { h with fence := x } := by
  unfold keepFences
  split
  · exact ⟨_, rfl⟩
  · exact ⟨h.fence, rfl⟩

variable (hfence : ∀ h f n, v { h with fence := f, sealFlags := n } = v h)
include hfence

theorem steady_dropSeals (s : State) (i : Nat) (b : Bank) : Steady v s (dropSeals s i b) := by
  unfold dropSeals
  dsimp only
  split
  · exact .refl v s
  · obtain ⟨x, hx⟩ := keepFences_eq s.fences (s.head i)
    refine .after_setHead (reports_putEvent _ _ _ _ _).steady ?_
    rw [hx]
    exact hfence (s.head i) x _

/-- A head whose bank in force is `b`, which came with commit `seq` (R115, R150). -/
def banked (h : Head) (seq : Nat) (b : Bank) : Head :=
  let kept (e : Nat × Taken) : Bool := b.slots.any (fun x => x.d.g.layer == e.1 && x.win == e.2.win)
  { h with
    force := b, forceSeq := seq, taken := h.taken.filter kept, kept := h.kept.filter kept,
    before := if h.st = .disabled then none else some (if h.flippedForce then h.force else h.before.getD h.force),
    flippedForce := h.st = .disabled }

/-- A bank that comes into force changes its own head. -/
theorem moves_applyBank (s : State) (i seq : Nat) (b : Bank) : Moves v i s (applyBank s i seq b) (v (banked (s.head i) seq b)) :=
  (moves_setHead s i _).steady ((steady_loadGauges _ i b).trans (steady_dropSeals hfence _ i b))

theorem moves_applyDisabled (s : State) (i seq sup : Nat) (b : Bank) (t : Ticks) :
    Moves v i s (applyDisabled s i seq sup b t) (v (banked (s.head i) seq b)) :=
  (moves_applyBank hfence s i seq b).steady (reports_putEvent _ _ _ _ _).steady

end

/-- The commits of a head that may apply now (R150). -/
def ripeAt (c : Clocks) (l : List Armed) : List Armed := l.filter (fun a => decide (a.cycle + 64 * panT ≤ c.now))

/-- The frame cycle after the ripe commits have applied (R150, R151). -/
def latched (c : Clocks) (h : FrameCycle) : FrameCycle :=
  match (ripeAt c h.armed).getLast? with
  | none => h
  | some a => { h with armed := h.armed.drop (ripeAt c h.armed).length, forceSeq := a.seq, force := a.bank }

theorem latched_armed (c : Clocks) (h : FrameCycle) : (latched c h).armed = h.armed.drop (ripeAt c h.armed).length := by
  unfold latched
  split
  case h_1 hnone => rw [List.getLast?_eq_none_iff.mp hnone, List.length_nil, List.drop_zero]
  case h_2 => rfl

theorem latched_disableSched (c : Clocks) (h : FrameCycle) : (latched c h).disableSched = h.disableSched := by
  unfold latched
  split <;> rfl

theorem latched_bank {c : Clocks} {h : FrameCycle} {a : Armed} (ha : (ripeAt c h.armed).getLast? = some a) :
    (latched c h).forceSeq = a.seq ∧ (latched c h).force = a.bank := by
  simp [latched, ha]

theorem moves_applyRipe (s : State) (i : Nat) (t : Ticks) :
    Moves frameCycle i s (applyRipe s i t) (latched s.clk (frameCycle (s.head i))) := by
  unfold applyRipe
  dsimp only
  split
  case h_1 hnone =>
    have hripe : (ripeAt s.clk (frameCycle (s.head i)).armed).getLast? = none := hnone
    rw [latched, hripe]
    exact (Steady.refl _ s).moves_self
  case h_2 a hsome =>
    have hripe : (ripeAt s.clk (frameCycle (s.head i)).armed).getLast? = some a := hsome
    have hbank := moves_applyBank (v := frameCycle) (fun _ _ _ => rfl) (s.setHead i { s.head i with
      armed := (s.head i).armed.drop (ripe s (s.head i)).length }) i a.seq a.bank
    rw [setHead_head] at hbank
    rw [latched, hripe]
    exact ((moves_setHead s i _).trans hbank).steady (reports_putEvent _ _ _ _ _).steady

theorem moves_latchHead (s : State) (i : Nat) (t : Ticks) :
    Moves frameCycle i s (latchHead t s i) (latched s.clk (frameCycle (s.head i))) := by
  have hend : Steady frameCycle s (frameEnd (pump s i) i) := ((steady_pump s i).mono frameCycle fun _ => rfl).trans (steady_frameEnd _ i fun _ _ _ _ _ _ => rfl)
  have hripe := moves_applyRipe (frameEnd (pump s i) i) i t
  rw [hend.clk, hend.view i] at hripe
  exact (hend.moves hripe).steady (steady_gaugeLatch _ i)

/-- Whether a head runs. -/
def running (h : Head) : HeadState × Phase := (h.st, h.phase)

/-- A head that stops is DISABLED, and no other head stops (R165). -/
theorem moves_stopHead (s : State) (i : Nat) : Moves running i s (stopHead s i) (.disabled, .stopped) := by
  have hbank (s : State) (seq sup : Nat) (b : Bank) (t : Ticks) : Steady running s (applyDisabled s i seq sup b t) :=
    (moves_applyDisabled (fun _ _ _ => rfl) s i seq sup b t).steady_self rfl
  unfold stopHead
  dsimp only
  refine (steady_closeClamps s i fun _ => rfl).moves ?_
  split
  · exact moves_setHead _ i _
  · exact (moves_setHead _ i _).steady (hbank _ _ _ _ _)

/-- The heads of a group after each has passed its latch edge (R150). -/
def latchedHeads (s : State) (l : List Nat) (e : Rat) : State := l.foldl (latchHead (tbAt s (panCycle e))) s

theorem latchedHeads_head {l : List Nat} (hl : l.Nodup) (s : State) (e : Rat) :
    ∀ i ∈ l, frameCycle ((latchedHeads s l e).head i) = latched s.clk (frameCycle (s.head i)) :=
  (foldl_heads (Q := fun _ a b => b = latched s.clk a) (fun u i => (moves_latchHead u i _).clk)
    (fun u i => (moves_latchHead u i _).other) (fun u i hu => hu ▸ (moves_latchHead u i _).own) hl rfl).2.2

theorem any_disableSched_latchedHeads {l : List Nat} (hl : l.Nodup) (s : State) (e : Rat) :
    l.any (fun i => ((latchedHeads s l e).head i).disableSched) = l.any (fun i => (s.head i).disableSched) := by
  refine Bool.eq_iff_iff.mpr ?_
  simp only [List.any_eq_true]
  refine exists_congr fun i => and_congr_right fun hi => ?_
  have hsched := congrArg FrameCycle.disableSched (latchedHeads_head hl s e i hi)
  rw [latched_disableSched] at hsched
  exact iff_of_eq (congrArg (· = true) hsched)

/-- A group without a scheduled stop enters its front porch at the latch edge (R141). -/
theorem latchGroup_of_running {l : List Nat} (hl : l.Nodup) {s : State} {e : Rat} (hrun : l.any (fun i => (s.head i).disableSched) = false) :
    ∀ i ∈ l, frameCycle ((latchGroup s l e).head i) =
      { latched s.clk (frameCycle (s.head i)) with phase := .porch, base := e } := by
  intro i hi
  have hany : ¬ l.any (fun i => ((latchedHeads s l e).head i).disableSched) = true := by
    rw [any_disableSched_latchedHeads hl, hrun]
    exact Bool.false_ne_true
  have hporch := congrArg frameCycle (modHeads_head hl (fun _ h => { h with
    phase := .porch, base := e, porchLines := 0, porchEnded := false, next := none, took := false,
    fixed := h.realign.map (fun t => ⟨t, true⟩), realign := none }) (latchedHeads s l e) i hi)
  have hvrr (s : State) : Steady frameCycle s (modHeads s l fun i h => { h with porchVrr := groupVrr s i }) :=
    steady_modHeads l (by intros; rfl) s
  have hrest (s : State) (changes : List TimingChange) : Steady frameCycle s (l.foldl sendBlanking
      (modHeads (latchTiming s l changes) l fun i h => { h with porchVrr := groupVrr (latchTiming s l changes) i })) :=
    (steady_latchTiming s l changes).trans ((hvrr _).trans (.foldl (fun s i => (reports_sendBlanking s i).steady) l _))
  rw [← latchedHeads_head hl s e i hi]
  unfold latchGroup
  exact (congrArg (fun u : State => frameCycle (u.head i)) (if_neg hany)).trans (((hrest _ _).view i).trans hporch)

/-- A group with a scheduled stop stops at the latch edge (R165). -/
theorem latchGroup_of_stop {l : List Nat} (hl : l.Nodup) {s : State} {e : Rat} (hstop : l.any (fun i => (s.head i).disableSched) = true) :
    ∀ i ∈ l, running ((latchGroup s l e).head i) = (.disabled, .stopped) := by
  intro i hi
  have hany : l.any (fun i => ((latchedHeads s l e).head i).disableSched) = true := by
    rw [any_disableSched_latchedHeads hl, hstop]
  unfold latchGroup
  refine (congrArg (fun u : State => running (u.head i)) (if_pos hany)).trans ?_
  exact (foldl_heads (v := running) (Q := fun _ _ b => b = (.disabled, .stopped)) (fun u i => (moves_stopHead u i).clk)
    (fun u i => (moves_stopHead u i).other) (fun u i _ => (moves_stopHead u i).own) hl rfl).2.2 i hi

/-- The latch edge that HEAD_LATCH_EDGE runs, up to what it releases. -/
theorem execHeadLatchEdge_of_due {h : Fin 32} {s : State} {e : Rat} (hat : latchAt s (s.head (leadOf s h.val)) = some e)
    (hdue : isDue s e = true) : ∃ t, execHeadLatchEdge h s = .next t ∧ t.heads = (latchGroup s (withTwin s h.val) e).heads := by
  unfold execHeadLatchEdge
  rw [hat]
  exact ⟨_, if_pos hdue, releaseContexts_heads _⟩

/-! ### The front porch -/

theorem execFrontPorchEnd_of_due {h : Fin 32} {s : State} {n : NextFlip} {t : Timing} (hn : blankingEnd s h.val = some n)
    (ht : (s.head (leadOf s h.val)).gen = some t) (hdue : isDue s (porchEndAt s t n) = true) :
    execFrontPorchEnd h s = .next (modHeads s (withTwin s h.val) (fun _ h =>
      { h with phase := .sync, next := some n, took := false, porchEnded := true, porchLines := n.lines,
               timeout := h.timeout && h.porchEnded })) := by
  unfold execFrontPorchEnd
  rw [hn, ht]
  exact if_pos hdue

theorem execVrrLineBoundary_ends {h : Fin 32} {s : State} {t : Timing} {k : Nat} {b : Ticks} (ho : openPorch s h.val = some (t, k, b))
    (hend : t.vfpMax ≤ k ∨ (t.vfpMin ≤ k ∧ ∃ a, ownAnchor s t (s.head (leadOf s h.val)) = some a ∧
      a.at_ ≤ natRat (panCycle ((s.head (leadOf s h.val)).base + natRat (k + backLines t) * lineRat s t))))
    (hready : ∀ i ∈ withTwin s h.val, waitReady s b i = true) :
    execVrrLineBoundary h s = .next (modHeads s (withTwin s h.val) (fun _ h =>
      { h with porchEnded := true, porchLines := k, timeout := false })) := by
  have hall : (withTwin s h.val).all (waitReady s b) = true := List.all_eq_true.mpr hready
  unfold execVrrLineBoundary
  rw [ho]
  refine if_pos ?_
  rw [hall, Bool.and_true, Bool.or_eq_true, Bool.and_eq_true]
  rcases hend with hmax | ⟨hmin, a, ha, hflip⟩
  · exact .inr (decide_eq_true hmax)
  · refine .inl ⟨decide_eq_true hmin, ?_⟩
    rw [ha]
    exact decide_eq_true hflip

theorem execWaitTimeout_ends {h : Fin 32} {s : State} {t : Timing} {k : Nat} {b : Ticks} (ho : openPorch s h.val = some (t, k, b))
    (hmax : t.vfpMax ≤ k) (hwait : ∃ i ∈ withTwin s h.val, waitReady s b i = false) :
    execWaitTimeout h s = .next (modHeads s (withTwin s h.val) (fun _ h =>
      { h with porchEnded := true, porchLines := k, timeout := true, waitTimeouts := sat32 h.waitTimeouts })) := by
  unfold execWaitTimeout
  rw [ho]
  exact if_pos ⟨hmax, List.all_eq_false.mpr (hwait.imp fun i hi => ⟨hi.1, ne_true_of_eq_false hi.2⟩)⟩

/-- Settles O27: the latch edge by what it does to the frame cycle of each head, the porch rows by their conditions (R141, R150,
R156 to R158, R165). -/
theorem headCycleEventsComplete : Obligations.HeadCycleEventsComplete := by
  unfold Obligations.HeadCycleEventsComplete
  refine ⟨?latch, ?stop, ?porch, ?boundary, ?timeout⟩
  case latch =>
    intro h s e hat hdue hrun
    have hnone : (withTwin s h.val).any (fun i => (s.head i).disableSched) = false := by
      rw [List.any_eq_false]
      exact fun i hi => ne_true_of_eq_false (hrun i hi)
    obtain ⟨t, hexec, hheads⟩ := execHeadLatchEdge_of_due hat hdue
    refine ⟨t, hexec, fun i hi => ?_⟩
    have hcycle := latchGroup_of_running (nodup_withTwin s h.val) (e := e) hnone i hi
    rw [State.head, ← hheads] at hcycle
    refine ⟨congrArg FrameCycle.phase hcycle, congrArg FrameCycle.base hcycle, ?_, fun a ha => ⟨?_, ?_⟩⟩
    · exact (congrArg FrameCycle.armed hcycle).trans (latched_armed s.clk (frameCycle (s.head i)))
    · exact (congrArg FrameCycle.forceSeq hcycle).trans (latched_bank (h := frameCycle (s.head i)) ha).1
    · exact (congrArg FrameCycle.force hcycle).trans (latched_bank (h := frameCycle (s.head i)) ha).2
  case stop =>
    intro h s e hat hdue hstop
    obtain ⟨t, hexec, hheads⟩ := execHeadLatchEdge_of_due hat hdue
    refine ⟨t, hexec, fun i hi => ?_⟩
    have hend := latchGroup_of_stop (nodup_withTwin s h.val) (e := e) (List.any_eq_true.mpr hstop) i hi
    rw [State.head, ← hheads] at hend
    exact ⟨congrArg Prod.fst hend, congrArg Prod.snd hend⟩
  case porch => exact fun h s n t hn ht hdue => execFrontPorchEnd_of_due hn ht hdue
  case boundary => exact fun h s t k b ho hend hready => execVrrLineBoundary_ends ho hend hready
  case timeout => exact fun h s t k b ho hmax hwait => execWaitTimeout_ends ho hmax hwait

/-! ### The take point and the flip -/

theorem execTakePoint_of_due {h : Fin 32} (bad : List RecordRead) {s : State} {n : NextFlip} {t : Timing}
    (hn : (s.head (leadOf s h.val)).next = some n) (ht : (s.head (leadOf s h.val)).gen = some t)
    (htook : (s.head (leadOf s h.val)).took = false) (hdue : isDue s (n.at_ - 2 * lineRat s t) = true) :
    execTakePoint h bad s = .next (releaseContexts ((withTwin s h.val).foldl (takeHead bad) s)) := by
  unfold execTakePoint
  dsimp only
  rw [hn, ht]
  exact if_pos ⟨htook, hdue⟩

theorem execHeadFlip_of_due {h : Fin 32} {s : State} {n : NextFlip} {t : Timing} (hn : (s.head (leadOf s h.val)).next = some n)
    (ht : (s.head (leadOf s h.val)).gen = some t) (htook : (s.head (leadOf s h.val)).took = true) (hdue : isDue s n.at_ = true) :
    execHeadFlip h s = .next ((withTwin s h.val).foldl (flipHead n (tbAt s (panCycle n.at_))) s) := by
  unfold execHeadFlip
  dsimp only
  rw [hn, ht]
  exact if_pos ⟨htook, hdue⟩

/-- The frame that a head shows, and the banks that the next one may take. -/
structure FrameShown where
  phase : Phase
  frameCount : Nat
  shown : Tab Taken
  taken : Tab Taken
  appliedSeq : Nat
  forceSeq : Nat
  flipT : Rat
  lastVfp : Nat
  late : Bool
  force : Bank
  shadow : Bank

def frameShown (h : Head) : FrameShown :=
  ⟨h.phase, h.frameCount, h.shown, h.taken, h.appliedSeq, h.forceSeq, h.flipT, h.lastVfp, h.late, h.force, h.shadow⟩

/-- The frame shown from the flip on (R141, R166). -/
def flipped (n : NextFlip) (h : FrameShown) : FrameShown :=
  { h with phase := .active, frameCount := (h.frameCount + 1) % 2 ^ 32, shown := h.taken, appliedSeq := h.forceSeq, flipT := n.at_,
           lastVfp := n.lines % 65536, late := decide (panCycle n.anchor < panCycle n.at_) }

theorem steady_flipProgress (n : NextFlip) (s : State) (i : Nat) : Steady frameShown s (flipProgress n s i) := by
  have hstate (s : State) (st : HeadState) : Steady frameShown s (setState s i st) := steady_setHead rfl
  have hmode (s : State) (ended : Bool) : Steady frameShown s (postMode s i ended) := (reports_postFw s _ _ _ _).steady
  have hlink (s : State) (st : HeadState) : Steady frameShown s (linkState s i st) := by
    unfold linkState
    dsimp only
    split
    · exact .refl _ s
    · exact (hstate s st).trans (reports_postFw _ _ _ _ _).steady
  unfold flipProgress
  dsimp only
  split
  · exact steady_setHead rfl
  · split
    · exact .after_setHead ((hstate _ _).trans (hmode _ _)) rfl
    · exact steady_setHead rfl
  · split
    · exact .after_setHead ((hlink _ _).trans (hmode _ _)) rfl
    · exact steady_setHead rfl
  · split
    · exact steady_setHead rfl
    · exact .refl _ s
  · split
    · exact .after_setHead (hlink _ _) rfl
    · exact .refl _ s

theorem moves_flipHead (n : NextFlip) (t : Ticks) (s : State) (i : Nat) :
    Moves frameShown i s (flipHead n t s i) (flipped n (frameShown (s.head i))) := by
  have hevent (s : State) (b : Bool) (type vector : Nat) (l : List Byte) :
      Steady frameShown s (if b then postHw s type vector t l else s) := by
    split
    · exact (reports_putEvent s _ _ _ _).steady
    · exact .refl _ s
  have hrealign (s : State) (b : Bool) (type vector : Nat) (l : List Byte) :
      Steady frameShown s (if b then postFw s type vector (some t) l else s) := by
    split
    · exact (reports_postFw s _ _ _ _).steady
    · exact .refl _ s
  unfold flipHead
  dsimp only
  exact (moves_setHead s i _).steady ((hevent _ _ _ _ _).trans ((hrealign _ _ _ _ _).trans (steady_flipProgress n _ i)))

/-- Settles O28: a flip moves each head of the group to the frame that its slots took (R113, R141, R160, R166). -/
theorem takePointAndFlipShowTheTakenBuffers : Obligations.TakePointAndFlipShowTheTakenBuffers := by
  unfold Obligations.TakePointAndFlipShowTheTakenBuffers
  refine ⟨fun h bad s n t hn ht htook hdue => execTakePoint_of_due bad hn ht htook hdue, ?flip⟩
  intro h s n t hn ht htook hdue
  refine ⟨_, execHeadFlip_of_due hn ht htook hdue, fun i hi => ?_⟩
  have hshown := (foldl_heads (s := s) (v := frameShown) (Q := fun _ a b => b = flipped n a)
    (fun u i => (moves_flipHead n (tbAt s (panCycle n.at_)) u i).clk) (fun u i => (moves_flipHead n _ u i).other)
    (fun u i _ => (moves_flipHead n _ u i).own) (nodup_withTwin s h.val) rfl).2.2 i hi
  exact ⟨congrArg FrameShown.phase hshown, congrArg FrameShown.frameCount hshown, congrArg FrameShown.shown hshown,
    congrArg FrameShown.appliedSeq hshown, congrArg FrameShown.flipT hshown, congrArg FrameShown.lastVfp hshown,
    congrArg FrameShown.late hshown, congrArg FrameShown.force hshown, congrArg FrameShown.shadow hshown⟩

/-! ### Composing and judging -/

theorem execGroupCompose_of_next {p : Fin 4} {s : State} {k : NextGroup} :
    let u := (panHeads s p.val).foldl pump s
    mostUrgent u p.val = some k → (u.pan p.val).composedAt ≠ some (u.now / panT) →
    execGroupCompose p s = .next (drain (composeGroup
      (u.setPan p.val { u.pan p.val with composedAt := some (u.now / panT) }) k) k.head) := by
  intro u hnext hfree
  have hnext' : mostUrgent ((panHeads s p.val).foldl pump s) p.val = some k := hnext
  unfold execGroupCompose
  dsimp only
  rw [hnext']
  exact if_neg hfree

/-- A span is judged once its line and the pipeline have reached it, and once a line (R81). -/
theorem execSpanEvaluate_of_due {h : Fin 32} {layer : Fin 12} {line : Nat} (a b c : Upset) {s : State} {t : Timing} {k : Slot} {x : Nat}
    (ht : (s.head h.val).gen = some t) (hk : (s.head h.val).force.slots.find? (fun k => k.d.g.layer == layer.val) = some k)
    (hx : spanStart (s.head h.val).force k line = some x) (hphase : (s.head h.val).phase = .active)
    (hblack : blackFrame (s.head h.val) = false) (hline : line < t.vactive) (hpixel : x < t.hactive)
    (hnew : ∀ w, tfind (s.head h.val).words layer.val = some w → w.win = k.win → w.line < line)
    (hdue : evalTime s t (s.head h.val).flipT line x ≤ s.now) :
    execSpanEvaluate h layer line a b c s = .next (evalSpan s h.val t k line x [a, b, c]) := by
  have hdone : (tfind (s.head h.val).words layer.val).elim false (fun w => w.win == k.win && decide (line ≤ w.line)) = false := by
    cases hw : tfind (s.head h.val).words layer.val with
    | none => rfl
    | some w => simpa using hnew w hw
  unfold execSpanEvaluate
  dsimp only
  rw [ht, hk]
  dsimp only
  rw [hx]
  exact if_pos ⟨hphase, hblack, hline, hpixel, hdone, hdue⟩

/-- Settles O29: the next group and the due span under their conditions (R81, R110). -/
theorem composingAndJudgingSpans : Obligations.ComposingAndJudgingSpans := by
  unfold Obligations.ComposingAndJudgingSpans
  exact ⟨fun p s k hnext hfree => execGroupCompose_of_next hnext hfree,
    fun h layer line a b c s t k x ht hk hx hphase hblack hline hpixel hnew hdue =>
      execSpanEvaluate_of_due a b c ht hk hx hphase hblack hline hpixel hnew hdue⟩

end Sys2Proof.Proofs
end

section
/-! PROOFS. Gauges and check channels: copies, reloads, the salinity pass, bindings and sealed regions (R85 to R90, R305, R313 to R320). -/

namespace Sys2Proof.Proofs

open Sys2Proof Sys2Proof.Machine Sys2Proof.Safety Sys2Proof.Laws

/-! ### Gauges -/

theorem execStateCopyComplete_of_due {p : Fin 4} {ch : Fin 3} {s : State} {c : StateCopy}
    (hc : ((s.pan p.val).chan ch.val).copying = some c) (hstart : c.start < s.now) :
    execStateCopyComplete p ch s = .next (s.setPan p.val ((s.pan p.val).setChan ch.val { (s.pan p.val).chan ch.val with
      table := ((s.pan p.val).chan c.src).table, copying := none, copied := some s.now })) := by
  unfold execStateCopyComplete
  dsimp only
  rw [hc]
  exact if_pos hstart

theorem execGaugeReload_of_ready {p : Fin 4} {s : State} (hreload : (s.pan p.val).reload = true) (hready : s.start.warden = .ready) :
    execGaugeReload p s = .next (s.setPan p.val
      { (s.pan p.val).mapChans (reloadChan (commitTable s p.val) s.now) with reload := false }) := by
  simp [execGaugeReload, hreload, hready]

theorem chan_mapChans (q : Pan) (f : Gauge → Gauge) (c : Nat) : (q.mapChans f).chan c = f (q.chan c) := by
  unfold Pan.chan
  split_ifs <;> rfl

theorem execSalinityPass_of_due {p : Fin 4} (faults : List PassFault) {s : State} {t : Ticks} (hdue : (s.pan p.val).salDue = some t)
    (hhead : (earliestHead s p.val).isSome = true) (hend : t + 64 * panT ≤ s.now) :
    execSalinityPass p faults s = .next (endPass s p.val t (chanFails faults 0) (chanFails faults 1)
      (chanFails faults 2) (voterFails faults)) := by
  obtain ⟨i, hi⟩ := Option.isSome_iff_exists.mp hhead
  unfold execSalinityPass
  rw [hdue, hi]
  exact if_pos hend

theorem execSalinityPass_without_head {p : Fin 4} (faults : List PassFault) {s : State} {t : Ticks}
    (hdue : (s.pan p.val).salDue = some t) (hhead : earliestHead s p.val = none) :
    execSalinityPass p faults s = .next (s.setPan p.val { s.pan p.val with salDue := none }) := by
  unfold execSalinityPass
  rw [hdue, hhead]
  rfl

/-- What CHECK_STATS answers of a channel, with the flags of its region and its polynomial (R320). -/
def checkStats (k : Check) (use : Nat) : List Byte :=
  [byte use, byte k.region] ++ leBytes 2 k.object ++ leBytes 4 k.compared ++ leBytes 4 k.mismatch ++ leBytes 4 k.voids ++
    leBytes 4 k.lastExpected ++ leBytes 4 k.lastComputed ++ leBytes 4 k.lastAt ++ zeros 4

theorem cmdCheckStats_of_source {n : Nat} {k : Check} {a : State} (hk : tfind a.checks n = some k) (huse : k.use ≠ 2) :
    cmdCheckStats n a = ok a (checkStats k (k.use + 8 * k.poly)) := by
  have hflag : (k.use == 2) = false := beq_eq_false_iff_ne.mpr huse
  simp only [cmdCheckStats, hk, hflag, if_neg huse, Bool.false_and, b2n, Nat.mul_zero, Nat.add_zero, checkStats, Bool.false_eq_true,
    if_false]

theorem cmdCheckStats_of_seal {n : Nat} {k : Check} {a : State} (hk : tfind a.checks n = some k) (huse : k.use = 2) :
    cmdCheckStats n a = ok a (checkStats k (2 + 4 * b2n ((a.head k.object).sealFlags.testBit k.region) +
      8 * ((tfind (a.head k.object).force.seals k.region).map (·.poly)).getD k.poly)) := by
  simp only [cmdCheckStats, hk, huse, beq_self_eq_true, Bool.true_and, if_true, checkStats]

/-- Settles O32: each row of the gauges under its condition, and the answers of CHECK_STATS (R85 to R90, R320). -/
theorem gaugesCopyReloadAndPass : Obligations.GaugesCopyReloadAndPass := by
  unfold Obligations.GaugesCopyReloadAndPass
  refine ⟨?copy, ?reload, ?pass, ?none, ?source, ?region⟩
  case copy => exact fun p ch s c hc hstart => execStateCopyComplete_of_due hc hstart
  case reload =>
    refine fun p s hreload hready => ⟨execGaugeReload_of_ready hreload hready, fun ch _ => ?_⟩
    rw [chan_mapChans]
    rfl
  case pass => exact fun p faults s t hdue hhead hend => execSalinityPass_of_due faults hdue hhead hend
  case none => exact fun p faults s t hdue hhead => execSalinityPass_without_head faults hdue hhead
  case source => exact fun c s a key n k hrun hk huse => next_command_of_runs hrun (cmdCheckStats_of_source hk huse)
  case region => exact fun c s a key n k hrun hk huse => next_command_of_runs hrun (cmdCheckStats_of_seal hk huse)

/-! ### Bindings and sealed regions -/

/-- The channel that a binding makes (R305, R318). -/
def boundCheck (p : CheckBindP) (a : State) : Check :=
  { use := 0, crcEn := p.crcEn, aliveEn := p.aliveEn, aliveW := p.aliveW, object := p.context,
    serial := (a.ctx p.context).binds + 1 }

/-- The context after a binding. -/
def boundCtx (p : CheckBindP) (a : State) : Ctx :=
  { a.ctx p.context with binds := (a.ctx p.context).binds + 1, aliveFirst := (a.ctx p.context).aliveFirst || p.aliveEn }

theorem cmdCheckBind_binds {p : CheckBindP} {a : State} {n : Nat} (hbind : p.unbind = false)
    (hn : (if p.channel = 0xFFFF then tfree a.checks 256 else some p.channel) = some n) (hle : n ≤ 255)
    (hfree : thas a.checks n = false) (hsource : sourceBinding a p.context = none) (hctx : bindable a p.context = true)
    (hen : p.crcEn = true ∨ p.aliveEn = true) :
    cmdCheckBind p a = ok ((a.setCheck n (boundCheck p a)).setCtx p.context (boundCtx p a)) (leBytes 2 n) := by
  have hbusy : ¬ (thas a.checks n || (sourceBinding a p.context).isSome) = true := by simp [hfree, hsource]
  have hfields : ¬ (255 < n ∨ bindable a p.context = false ∨ (p.crcEn || p.aliveEn) = false) := by
    simp only [not_or, Nat.not_lt, hctx, Bool.true_eq_false, not_false_eq_true, true_and, Bool.or_eq_false_iff, not_and_or,
      Bool.not_eq_false]
    exact ⟨hle, hen⟩
  simp only [cmdCheckBind, hbind, Bool.false_eq_true, if_false, bindCheck, hn, if_neg hbusy, if_neg hfields]
  rfl

theorem cmdCheckBind_unbinds {p : CheckBindP} {a : State} {k : Check} (hunbind : p.unbind = true)
    (hk : tfind a.checks p.channel = some k) (huse : k.use = 0) :
    cmdCheckBind p a = ok { a with checks := tdel a.checks p.channel } (leBytes 2 p.channel) := by
  simp only [cmdCheckBind, hunbind, unbindCheck, hk, huse, if_true]

section
variable {c : Caller} {p : SealRegionP} {a : State} (hhead : p.head ≤ 31) (hregion : p.region ≤ 7) (hpoly : p.poly ≤ 3)
include hhead hregion hpoly

theorem cmdSealRegion_defines {n : Nat} (hrole : 2 ≤ callerRole a c) (hop : p.op = 0) (hn : sealChannel a p.head p.region = some n)
    (hinside : sealInside (a.head p.head).shadow p = true) :
    let b := setSeals a p.head (tset (a.head p.head).shadow.seals p.region ⟨p.x, p.y, p.w, p.h, p.poly, n⟩)
    cmdSealRegion c p a = ok (if thas b.checks n then b
      else b.setCheck n { use := 2, object := p.head, region := p.region, poly := p.poly }) (leBytes 2 n) := by
  have hfields : ¬ (31 < p.head ∨ 7 < p.region ∨ 3 < p.poly ∨ sealInside (a.head p.head).shadow p = false) := by
    simp only [not_or, Nat.not_lt, hinside, Bool.true_eq_false, not_false_eq_true, and_true]
    exact ⟨hhead, hregion, hpoly⟩
  have hdenied : ¬ (p.op ≠ 2 ∧ callerRole a c < 2) := fun h => Nat.not_lt.mpr hrole h.2
  have hknown : ¬ 2 < p.op := by omega
  simp only [cmdSealRegion, if_neg hknown, if_neg hdenied, if_pos hop, hn, if_neg hfields]

theorem cmdSealRegion_of_defined {r : Seal} (hr : tfind (a.head p.head).shadow.seals p.region = some r) (hop : p.op = 1 ∨ p.op = 2)
    (hrole : p.op = 1 → 2 ≤ callerRole a c) : cmdSealRegion c p a =
      if p.op = 1 then ok (releaseChannels (setSeals a p.head (tdel (a.head p.head).shadow.seals p.region))) (leBytes 2 r.channel)
      else ok (rearmSeal a p.head p.region) (leBytes 2 r.channel) := by
  have hfields : ¬ (31 < p.head ∨ 7 < p.region ∨ 3 < p.poly) := by omega
  have hdenied : ¬ (p.op ≠ 2 ∧ callerRole a c < 2) := fun h => Nat.not_lt.mpr (hrole (hop.resolve_right h.1)) h.2
  have hknown : ¬ 2 < p.op := by omega
  have hold : ¬ p.op = 0 := by omega
  simp only [cmdSealRegion, if_neg hknown, if_neg hdenied, if_neg hold, if_neg hfields, hr]

end

/-- A region is compared once a frame, after its last pixel (R315, R317). -/
theorem execSealCompare_of_due {h : Fin 32} {r : Fin 8} (fault : BitVec 32) {s : State} {t : Timing} {g : Seal} :
    let u := pump s h.val
    let at_ := panCycle ((u.head h.val).flipT + natRat ((g.y + g.h - 1) * htotal t + (g.x + g.w - 1)) * pixelRat u t) - 6 * panT
    (u.head h.val).gen = some t → tfind (u.head h.val).force.seals r.val = some g → (u.head h.val).phase = .active →
    sealRuns (u.head h.val) = true → (u.head h.val).sealDone.testBit r.val = false → at_ ≤ u.now →
    execSealCompare h r fault s = .next (sealCompare u h.val r.val g at_ fault) := by
  intro u at_ ht hg hphase hruns hdone hat
  have ht' : ((pump s h.val).head h.val).gen = some t := ht
  have hg' : tfind ((pump s h.val).head h.val).force.seals r.val = some g := hg
  unfold execSealCompare
  dsimp only
  rw [ht', hg']
  exact if_pos ⟨hphase, hruns, hdone, hat⟩

theorem stampFences_sealDone (old new : Nat) (t : Ticks) (h : Head) : (stampFences old new t h).sealDone = h.sealDone := rfl

theorem steady_countCompare (s : State) (n expected computed at_ : Nat) :
    Steady Head.sealDone s (countCompare s n expected computed at_) := by
  unfold countCompare
  split
  · exact .refl _ s
  · exact .of_heads rfl rfl

theorem steady_sealMismatch (s : State) (i r : Nat) (x : Seal) (at_ : Ticks) (blend lane : Nat) :
    Steady Head.sealDone s (sealMismatch s i r x at_ blend lane) := by
  have hevent (s : State) (t : Ticks) (n use region object at_ e c : Nat) :
      Steady Head.sealDone s (postMismatch s t n use region object at_ e c) := (reports_putEvent s _ _ _ _).steady
  have hfence (s : State) (t : Ticks) (source groups flags head origin : Nat) :
      Steady Head.sealDone s (postFence s t source groups flags head origin) := (reports_putEvent s _ _ _ _).steady
  unfold sealMismatch
  dsimp only
  split
  · exact .after_setHead ((hevent _ _ _ _ _ _ _ _ _).trans (steady_raiseErr _ (by decide) _ _ _ _)) (stampFences_sealDone _ _ _ _)
  · exact .after_setHead ((hfence _ _ _ _ _ _ _).trans ((hevent _ _ _ _ _ _ _ _ _).trans (steady_raiseErr _ (by decide) _ _ _ _)))
      (stampFences_sealDone _ _ _ _)

/-- A comparison marks its region as compared in this frame. -/
theorem sealCompare_sealDone (s : State) (i r : Nat) (x : Seal) (at_ : Ticks) (fault : BitVec 32) :
    ((sealCompare s i r x at_ fault).head i).sealDone = (s.head i).sealDone ||| 2 ^ r := by
  have hmark : Moves Head.sealDone i s (s.setHead i { s.head i with sealDone := (s.head i).sealDone ||| 2 ^ r })
      ((s.head i).sealDone ||| 2 ^ r) := moves_setHead s i _
  refine Moves.own (s := s) ?_
  unfold sealCompare
  dsimp only
  split
  · split
    · exact hmark.steady (.of_heads rfl rfl)
    · exact hmark
  · have hcount (s : State) (b : Bool) (n e c at_ : Nat) : Steady Head.sealDone s (if b then countCompare s n e c at_ else s) := by
      split
      · exact steady_countCompare s _ _ _ _
      · exact .refl _ s
    split
    · exact hmark.steady (hcount _ _ _ _ _ _)
    · exact hmark.steady ((hcount _ _ _ _ _ _).trans (steady_sealMismatch _ i r x at_ _ _))

/-- Settles O33: each form of CHECK_BIND and SEAL_REGION under its checks, and the comparison of a region (R305, R313 to R319). -/
theorem checksAndSealsBind : Obligations.ChecksAndSealsBind := by
  unfold Obligations.ChecksAndSealsBind
  refine ⟨?bind, ?unbind, ?define, ?defined, ?compare⟩
  case bind =>
    intro c p s a key n hrun hbind hn hle hfree hsource hctx hen
    exact ⟨_, next_command_of_runs hrun (cmdCheckBind_binds hbind hn hle hfree hsource hctx hen), rfl, setCtx_ctx _ _ _⟩
  case unbind => exact fun c p s a key k hrun hunbind hk huse => next_command_of_runs hrun (cmdCheckBind_unbinds hunbind hk huse)
  case define =>
    exact fun c p s a key n hrun hrole hhead hregion hpoly hop hn hinside =>
      next_command_of_runs hrun (cmdSealRegion_defines hhead hregion hpoly hrole hop hn hinside)
  case defined =>
    intro c p s a key r hrun hhead hregion hpoly hr
    refine ⟨fun hop hrole => next_command_of_runs hrun ?_, fun hop => next_command_of_runs hrun ?_⟩
    · exact (cmdSealRegion_of_defined hhead hregion hpoly hr (.inl hop) fun _ => hrole).trans (if_pos hop)
    · exact (cmdSealRegion_of_defined hhead hregion hpoly hr (.inr hop) fun h => absurd (hop.symm.trans h) (by decide)).trans
        (if_neg fun h => absurd (hop.symm.trans h) (by decide))
  case compare =>
    intro h r fault s t g u at_ ht hg hphase hruns hdone hat
    refine ⟨execSealCompare_of_due fault ht hg hphase hruns hdone hat, ?_⟩
    rw [sealCompare_sealDone, Nat.testBit_or, Nat.testBit_two_pow_self, Bool.or_true]

end Sys2Proof.Proofs
end

section
/-! PROOFS. Display links: what happens to a link when a sink comes or goes, when lock is lost, and when training ends
(R178 to R186). -/

namespace Sys2Proof.Proofs

open Sys2Proof Sys2Proof.Machine Sys2Proof.Safety Sys2Proof.Laws

/-! ### Work on one head's link -/

/-- `t` differs from `s` in head `i` and in reports alone. -/
structure OnHead (i : Nat) (s t : State) : Prop where
  state : t = { s with heads := t.heads, evr := t.evr, irq := t.irq, out := t.out, errs := t.errs, errNext := t.errNext,
                       errOverflow := t.errOverflow }
  other : ∀ k, k ≠ i → t.head k = s.head k

section
variable {i : Nat} {s t u : State}

theorem OnHead.refl (i : Nat) (s : State) : OnHead i s s := ⟨rfl, fun _ _ => rfl⟩

theorem OnHead.trans (h : OnHead i s t) (k : OnHead i t u) : OnHead i s u where
  state := by
    have hu := k.state
    rw [h.state] at hu
    exact hu
  other j hj := (k.other j hj).trans (h.other j hj)

theorem OnHead.foldl {A : Type} {f : State → A → State} (hf : ∀ s a, OnHead i s (f s a)) (l : List A) (s : State) :
    OnHead i s (l.foldl f s) :=
  List.foldlRecOn l f (motive := OnHead i s) (.refl i s) fun _ ht a _ => ht.trans (hf _ a)

theorem OnHead.field {α : Type} (h : OnHead i s t) (f : State → α) (hf : ∀ m e i o l x y, f { s with
    heads := m, evr := e, irq := i, out := o, errs := l, errNext := x, errOverflow := y } = f s) : f t = f s := by
  rw [h.state]
  exact hf _ _ _ _ _ _ _

theorem onHead_setHead (s : State) (i : Nat) (x : Head) : OnHead i s (s.setHead i x) :=
  ⟨rfl, fun _ hk => setHead_head_other s i x hk⟩

theorem Reports.onHead (h : Reports s t) : OnHead i s t where
  state := by
    unfold Reports at h
    rw [h]
  other k _ := by simp only [State.head, h.transfers.heads]

end

section
variable (s : State) (i : Nat)

theorem onHead_closeClamps : OnHead i s (closeClamps s i) := by
  unfold closeClamps
  dsimp only
  split
  · exact .refl i s
  · exact (onHead_setHead s i _).trans (reports_raiseErr _ (by decide) _ _ _ _).onHead

theorem onHead_linkState (st : HeadState) : OnHead i s (linkState s i st) := by
  unfold linkState
  dsimp only
  split
  · exact .refl i s
  · exact (onHead_setHead s i _).trans (reports_postFw _ _ _ _ _).onHead

theorem onHead_failLink (reason : Nat) : OnHead i s (failLink s i reason) := by
  unfold failLink
  dsimp only
  exact (onHead_closeClamps s i).trans ((onHead_setHead _ i _).trans
    ((reports_raiseErr _ (by decide) _ _ _ _).onHead.trans (onHead_linkState _ i _)))

theorem onHead_startLevels : OnHead i s (startLevels s i) := by
  have hdrive (s : State) (k : Nat) (uhbr : Bool) (v : Nat) : OnHead i s (driveLane s i k uhbr v) :=
    (onHead_setHead s i _).trans (reports_emit _ _).onHead
  unfold startLevels
  split
  · exact .refl i s
  · exact (onHead_setHead s i _).trans (.foldl (fun s k => hdrive s k _ _) _ _)

theorem onHead_startTrainingFor (timing : Option Timing) : OnHead i s (startTrainingFor s i timing) := by
  unfold startTrainingFor
  dsimp only
  refine (onHead_closeClamps s i).trans ?_
  split
  · split
    · exact (onHead_setHead _ i _).trans (onHead_failLink _ i _)
    · exact (onHead_setHead _ i _).trans (onHead_startLevels _ i)
  · exact .refl i _

theorem onHead_retrainFor : OnHead i s (retrainFor s i) := by
  unfold retrainFor
  dsimp only
  split_ifs
  · exact (onHead_linkState s i _).trans (onHead_startTrainingFor _ i _)
  · exact onHead_startTrainingFor s i _
  · exact (onHead_linkState s i _).trans (onHead_startTrainingFor _ i _)
  · exact .refl i s

end

/-! ### Where a link stands -/

/-- The state of a head and of its link. -/
structure LinkStanding where
  st : HeadState
  link : Nat
  lanes : Nat
  rate : Nat
  reason : Nat
  cands : List (Nat × Nat)
  sink : Option Sink

def linkStanding (h : Head) : LinkStanding :=
  ⟨h.st, h.link.link, h.link.lanes, h.link.rate, h.link.reason, h.link.cands, h.link.sink⟩

/-- A failed attempt (R181). -/
def LinkStanding.failed (x : LinkStanding) (reason : Nat) : LinkStanding :=
  { x with st := .linkFailed, link := 3, reason := reason, rate := 7, lanes := 0, cands := [] }

section
variable (s : State) (i : Nat)

theorem steady_closeClamps_standing : Steady linkStanding s (closeClamps s i) := steady_closeClamps s i fun _ => rfl

/-- A change of state changes what a view takes of the state alone. -/
theorem linkState_head {α : Type} (v : Head → α) (st : HeadState) : v ((linkState s i st).head i) = v { s.head i with st := st } := by
  unfold linkState
  dsimp only
  split
  case isTrue heq => rw [← heq]
  case isFalse =>
    refine ((reports_postFw _ _ _ _ _).steady.view i).trans ?_
    exact congrArg v (setHead_head s i _)

theorem standing_failLink (reason : Nat) : linkStanding ((failLink s i reason).head i) = (linkStanding (s.head i)).failed reason := by
  have hraise (u : State) : linkStanding ((raiseErr u 0x0031 i reason 0).head i) = linkStanding (u.head i) :=
    (steady_raiseErr u (by decide) _ _ _ _).view i
  have hstate (u : State) (st : HeadState) : linkStanding ((linkState u i st).head i) = { linkStanding (u.head i) with st := st } :=
    linkState_head u i linkStanding st
  unfold failLink
  dsimp only
  rw [hstate, hraise, setHead_head, ← (steady_closeClamps_standing s i).view i]
  rfl

theorem steady_startLevels_standing : Steady linkStanding s (startLevels s i) := by
  have hdrive (s : State) (k : Nat) (uhbr : Bool) (v : Nat) : Steady linkStanding s (driveLane s i k uhbr v) :=
    .after_setHead (reports_emit _ _).steady rfl
  unfold startLevels
  split
  · exact .refl _ s
  · exact .after_setHead (.foldl (fun s k => hdrive s k _ _) _ _) rfl

theorem candidates_congr {s t : State} {l m : Link} (htide : t.tide = s.tide) (hlanes : mappedLanes m = mappedLanes l)
    (hmax : m.maxRate = l.maxRate) (k : Sink) (x : Timing) : candidates t m k x = candidates s l k x := by
  simp only [candidates, htide, hlanes, hmax]

theorem displayRests_congr {s t : State} (h : t.power = s.power) : displayRests t = displayRests s := by
  simp only [displayRests, h]

variable {s i}

/-- The link attempt that begins with a sink and a timing (R180). -/
theorem standing_startTrainingFor {k : Sink} {t : Timing} {l : List (Nat × Nat)} (hk : (s.head i).link.sink = some k)
    (hrests : displayRests s = false) (hl : candidates s (s.head i).link k t = l) :
    linkStanding ((startTrainingFor s i (some t)).head i) =
      if l = [] then ({ linkStanding (s.head i) with link := 1, lanes := 0, rate := 7, cands := [] } : LinkStanding).failed 1
      else { linkStanding (s.head i) with link := 1, lanes := 0, rate := 7, cands := l } := by
  have hclose := (steady_closeClamps_standing s i).view i
  have hsink : ((closeClamps s i).head i).link.sink = some k := (congrArg LinkStanding.sink hclose).trans hk
  have hlink := (steady_closeClamps (v := fun h => (mappedLanes h.link, h.link.maxRate)) s i fun _ => rfl).view i
  have hcands : candidates (closeClamps s i) ((closeClamps s i).head i).link k t = l :=
    (candidates_congr ((onHead_closeClamps s i).field State.tide (by intros; rfl)) (congrArg Prod.fst hlink)
      (congrArg Prod.snd hlink) k t).trans hl
  have hwake : displayRests (closeClamps s i) = false :=
    (displayRests_congr ((onHead_closeClamps s i).field State.power (by intros; rfl))).trans hrests
  have hmatch : (if displayRests (closeClamps s i) then none else ((closeClamps s i).head i).link.sink) = some k :=
    (if_neg (ne_true_of_eq_false hwake)).trans hsink
  unfold startTrainingFor
  dsimp only
  rw [hmatch]
  dsimp only
  rw [hcands]
  split
  case isTrue hnone =>
    rw [standing_failLink, setHead_head, ← hclose]
    rfl
  case isFalse =>
    rw [(steady_startLevels_standing _ i).view i, setHead_head, ← hclose]
    rfl

/-! ### The start of blanking -/

theorem mem_withTwin (s : State) (i : Nat) : i ∈ withTwin s i := by
  unfold withTwin
  split_ifs <;> simp

/-- A group whose generator runs needs no start of blanking. -/
theorem settle_of_running (h : (s.head i).phase ≠ .stopped) : settle s i = s := by
  refine if_neg fun hall => ?_
  have hi := List.all_eq_true.mp (Bool.and_eq_true_iff.mp hall).2 i (mem_withTwin s i)
  exact h (beq_iff_eq.mp (Bool.and_eq_true_iff.mp hi).1)

theorem steady_evalVrr_standing (s : State) (i : Nat) : Steady linkStanding s (evalVrr s i) := by
  have hignore (s : State) : Steady linkStanding s (setIgnore s i) := by
    unfold setIgnore
    dsimp only
    split_ifs
    · exact .refl _ s
    · exact .after_setHead (reports_emit _ _).steady rfl
    · exact steady_setHead rfl
  exact .after_setHead (hignore _) rfl

theorem steady_takeTiming_standing (s : State) (i : Nat) : Steady linkStanding s (takeTiming s i) :=
  .after_setHead (steady_evalVrr_standing _ i) rfl

theorem steady_latchHead_standing (t : Ticks) (s : State) (i : Nat) : Steady linkStanding s (latchHead t s i) := by
  have hripe (s : State) : Steady linkStanding s (applyRipe s i t) := by
    unfold applyRipe
    dsimp only
    split
    · exact .refl _ s
    · refine .after_setHead (.trans ((moves_applyBank (fun _ _ _ => rfl) _ i _ _).steady_self rfl)
        (reports_putEvent _ _ _ _ _).steady) rfl
  exact ((steady_pump s i).mono linkStanding fun _ => rfl).trans ((steady_frameEnd _ i fun _ _ _ _ _ _ => rfl).trans
    ((hripe _).trans (steady_gaugeLatch _ i)))

theorem retrainFor_of_down (h : (s.head i).st ≠ .linkFailed) (hlink : (s.head i).link.link = 0) : retrainFor s i = s := by
  simp [retrainFor, h, hlink]

/-- Where the link of a head that is down and does not fail stands, the start of a blanking leaves it. -/
theorem standing_startBlanking {l : List Nat} (h : (s.head i).st ≠ .linkFailed) (hlink : (s.head i).link.link = 0) :
    linkStanding ((startBlanking s l).head i) = linkStanding (s.head i) := by
  have hlatch (u : State) (x : Ticks) : Steady linkStanding u (l.foldl (latchHead x) u) :=
    .foldl (fun u k => steady_latchHead_standing x u k) l u
  have hmode (u : State) (k : Nat) (hu : linkStanding (u.head i) = linkStanding (s.head i)) :
      linkStanding ((retrainFor u k).head i) = linkStanding (s.head i) := by
    by_cases hk : k = i
    · have hst : (u.head i).st = (s.head i).st := congrArg LinkStanding.st hu
      rw [hk, retrainFor_of_down (hst ▸ h) ((congrArg LinkStanding.link hu).trans hlink), hu]
    · rw [(onHead_retrainFor u k).other i (Ne.symm hk), hu]
  unfold startBlanking
  dsimp only
  rw [State.head, releaseContexts_heads]
  refine ((Steady.foldl (v := linkStanding) (fun s k => ?blanking) l _).view i).trans ?_
  case blanking => exact (reports_sendBlanking s k).steady
  refine List.foldlRecOn _ _ (motive := fun u : State => linkStanding (u.head i) = linkStanding (s.head i)) ?start fun u hu e _ => ?step
  case start =>
    refine ((Steady.foldl (v := linkStanding) (fun u k => ?take) l _).view i).trans ((hlatch _ _).view i)
    exact (steady_takeTiming_standing u k).trans (steady_setHead rfl)
  case step =>
    split
    · exact hmode u _ hu
    · exact hu

theorem standing_settle (h : (s.head i).st ≠ .linkFailed) (hlink : (s.head i).link.link = 0) (j : Nat) :
    linkStanding ((settle s j).head i) = linkStanding (s.head i) := by
  unfold settle
  dsimp only
  split
  · exact standing_startBlanking h hlink
  · rfl

/-! ### Sinks that come and go -/

theorem noteHpd_head (s : State) (i : Nat) : (noteHpd s i).head i = { s.head i with link := { (s.head i).link with hpdAt := s.ref } } :=
  setHead_head s i _

/-- A sink that has gone leaves no link (R185, R189). -/
theorem standing_unplug (s : State) (i : Nat) : linkStanding ((unplug s i).head i) = { linkStanding (s.head i) with
    link := 0, lanes := 0, rate := 7, cands := [], sink := none,
    st := if (s.head i).st = .disabled then .disabled else .unplugged } := by
  have hclose := (steady_closeClamps_standing s i).view i
  have hst : ((closeClamps s i).head i).st = (s.head i).st := congrArg LinkStanding.st hclose
  have hgone (t : State) (st : HeadState) : linkStanding ((linkState t i st).head i) = { linkStanding (t.head i) with st := st } :=
    linkState_head t i linkStanding st
  unfold unplug
  dsimp only
  rw [hst, ← hclose]
  split
  case isTrue hdis =>
    rw [setHead_head, ← hdis, ← hst]
    rfl
  case isFalse =>
    rw [standing_settle, hgone, setHead_head]
    · rfl
    · exact ne_of_eq_of_ne (b := HeadState.unplugged) (linkState_head _ i Head.st _) (by decide)
    · refine (linkState_head _ i (fun h => h.link.link) _).trans ?_
      rw [setHead_head]
      rfl

section
variable {h : Fin 32} {n : Nat} {s : State} (hs : sampled s h.val n = true)
include hs

theorem execHpdPresent_of_absent (k : Sink) (hn : 200 ≤ n) :
    let x := (noteHpd s h.val).head h.val
    let u := (noteHpd s h.val).setHead h.val { x with link := { x.link with
      sink := some k, sinkRate := k.maxRate, sinkLanes := k.maxLanes, fmin := k.fmin, fmax := k.fmax } }
    x.link.sink = none → execHpdPresent h n k s = .next (if x.st = .unplugged then retrain u h.val else u) := by
  intro x u hsink
  have hgo : ¬ (n < 200 ∨ ((noteHpd s h.val).head h.val).link.sink.isSome = true) := by
    rw [show ((noteHpd s h.val).head h.val).link.sink = none from hsink]
    simpa using hn
  unfold execHpdPresent
  rw [if_neg (by simp [hs])]
  dsimp only
  rw [if_neg hgo, apply_ite Host.Outcome.next]

theorem execHpdUnplug_of_present (hn : 200 ≤ n) (hsink : ((noteHpd s h.val).head h.val).link.sink ≠ none) :
    execHpdUnplug h n s = .next (unplug (noteHpd s h.val) h.val) := by
  have hgo : ¬ (n < 200 ∨ ((noteHpd s h.val).head h.val).link.sink.isNone = true) := by
    simpa [Option.isNone_iff_eq_none, hsink] using hn
  unfold execHpdUnplug
  rw [if_neg (by simp [hs])]
  exact if_neg hgo

theorem execIrqHpd_of_pulse (b : Bool) (hlow : 25 ≤ n) (hhigh : n < 200) (hsink : ((noteHpd s h.val).head h.val).link.sink ≠ none) :
    execIrqHpd h n b s = .next (if ((noteHpd s h.val).head h.val).st = .linkFailed then retrain (noteHpd s h.val) h.val
      else if b then lockLoss (noteHpd s h.val) h.val else noteHpd s h.val) := by
  have hgo : ¬ (n < 25 ∨ 200 ≤ n ∨ ((noteHpd s h.val).head h.val).link.sink.isNone = true) := by
    simp [Option.isNone_iff_eq_none, hsink, hlow, hhigh]
  unfold execIrqHpd
  rw [if_neg (by simp [hs])]
  dsimp only
  rw [if_neg hgo, apply_ite Host.Outcome.next, apply_ite Host.Outcome.next]

/-- A level or pulse too short to count is noted and has no effect (R178). -/
theorem hpd_of_short (k : Sink) (b : Bool) :
    (n < 200 → execHpdPresent h n k s = .next (noteHpd s h.val) ∧ execHpdUnplug h n s = .next (noteHpd s h.val)) ∧
      (n < 25 → execIrqHpd h n b s = .next (noteHpd s h.val)) := by
  have hsampled : ¬ sampled s h.val n = false := by simp [hs]
  refine ⟨fun hn => ⟨?_, ?_⟩, fun hn => ?_⟩
  · exact (if_neg hsampled).trans (if_pos (.inl hn))
  · exact (if_neg hsampled).trans (if_pos (.inl hn))
  · exact (if_neg hsampled).trans (if_pos (.inl hn))

end

/-! ### Loss of lock, and the end of a training -/

theorem execAuxTimeout_of_sink {h : Fin 32} {n : Nat} {defer : Bool} {s : State} :
    let l := (s.head h.val).link
    let r := if l.auxTransaction = n then l.auxRetries else 0
    l.sink ≠ none → (defer = false → l.auxAt + 400 * usT ≤ s.ref) →
    let put (k : Nat) : State := s.setHead h.val { s.head h.val with link := { l with auxTransaction := n, auxRetries := k, auxAt := s.ref } }
    execAuxTimeout h n defer s = .next (if r < 7 then put (r + 1) else if l.link = 1 then trainingFails (put 0) h.val 3 else put 0) := by
  intro l r hsink hlate put
  have hgo : ¬ (l.sink.isNone = true ∨ (defer = false ∧ s.ref < l.auxAt + 400 * usT)) := by
    rw [not_or, Option.isNone_iff_eq_none]
    exact ⟨hsink, fun hd => Nat.not_lt.mpr (hlate hd.1) hd.2⟩
  rw [apply_ite Host.Outcome.next, apply_ite Host.Outcome.next]
  exact if_neg hgo

section
variable {h : Fin 32} {reqs : List (List EqRequest)} {s u : State} {n c : Nat} {rest : List (Nat × Nat)}
  (hlink : (s.head h.val).link.link = 1) (hcands : (s.head h.val).link.cands = (n, c) :: rest)
  (hu : u = reqs.foldl (fun s r => applyRequests s h.val (decide (4 ≤ c)) (r.take n)) s)
include hlink hcands hu

theorem execLinkTrainingDone_ok : execLinkTrainingDone h true reqs s = .next (trained u h.val n c) := by
  unfold execLinkTrainingDone
  dsimp only
  rw [if_neg (not_not.mpr hlink), hcands, hu]
  exact if_pos rfl

theorem execLinkTrainingDone_last (hrest : rest = []) : execLinkTrainingDone h false reqs s = .next (trainingFails u h.val 2) := by
  unfold execLinkTrainingDone
  dsimp only
  rw [if_neg (not_not.mpr hlink), hcands, hu]
  exact if_pos hrest

theorem execLinkTrainingDone_next (hrest : rest ≠ []) : execLinkTrainingDone h false reqs s =
    .next (startLevels (u.setHead h.val { u.head h.val with link := { (u.head h.val).link with cands := rest } }) h.val) := by
  unfold execLinkTrainingDone
  dsimp only
  rw [if_neg (not_not.mpr hlink), hcands, hu]
  exact if_neg hrest

end

theorem execTrainingTimeout_of_due {h : Fin 32} {s : State} {t : Ticks} (hlink : (s.head h.val).link.link = 1)
    (ht : (s.head h.val).link.trainStart = some t) (hdue : t + 100 * msT ≤ s.ref) :
    execTrainingTimeout h s = .next (trainingFails s h.val 4) := by
  simp only [execTrainingTimeout, hlink, ht, if_pos hdue]

theorem trainingFails_of_running {s : State} {i r : Nat} (h : (s.head i).phase ≠ .stopped) : trainingFails s i r = failLink s i r := by
  have hphase : ((failLink s i r).head i).phase = (s.head i).phase := congrArg FrameCycle.phase ((steady_failLink s i r).view i)
  exact settle_of_running (hphase ▸ h)

/-- Where the link of a running head with a sink stands once it retrains (R180, R185). -/
theorem standing_retrain {s : State} {i : Nat} {k : Sink} {t : Timing} (hk : (s.head i).link.sink = some k)
    (ht : (s.head i).gen = some t) (hphase : (s.head i).phase ≠ .stopped) (hrests : displayRests s = false)
    {l : List (Nat × Nat)} (hl : candidates s (s.head i).link k t = l) : linkStanding ((retrain s i).head i) =
      if l = [] then ({ linkStanding (s.head i) with st := .training, link := 1, lanes := 0, rate := 7, cands := [] } : LinkStanding).failed 1
      else { linkStanding (s.head i) with st := .training, link := 1, lanes := 0, rate := 7, cands := l } := by
  have hwork := onHead_linkState s i .training
  have hlink : ((linkState s i .training).head i).link = (s.head i).link := linkState_head s i Head.link _
  have hgen : ((linkState s i .training).head i).gen = some t := (linkState_head s i Head.gen _).trans ht
  have hstanding : linkStanding ((linkState s i .training).head i) = { linkStanding (s.head i) with st := .training } :=
    linkState_head s i linkStanding _
  have hcands : candidates (linkState s i .training) ((linkState s i .training).head i).link k t = l :=
    (candidates_congr (hwork.field State.tide (by intros; rfl)) (congrArg mappedLanes hlink) (congrArg Link.maxRate hlink) k t).trans hl
  have hwake : displayRests (linkState s i .training) = false :=
    (displayRests_congr (hwork.field State.power (by intros; rfl))).trans hrests
  have hend : ((startTraining (linkState s i .training) i).head i).phase = (s.head i).phase :=
    congrArg FrameCycle.phase (((steady_linkState s i _).trans (steady_startTraining _ i)).view i)
  have hstart : retrain s i = startTrainingFor (linkState s i .training) i (some t) := by
    unfold retrain
    rw [settle_of_running (ne_of_eq_of_ne hend hphase), startTraining, hgen]
  rw [hstart, standing_startTrainingFor ((congrArg Link.sink hlink).trans hk) hwake hcands, hstanding]

section
variable {s : State} {i : Nat} {k : Sink} {t : Timing} (hk : (s.head i).link.sink = some k) (ht : (s.head i).gen = some t)
  (hphase : (s.head i).phase ≠ .stopped) (hrests : displayRests s = false)
include hk ht hphase hrests

theorem retrain_with_candidates (hl : candidates s (s.head i).link k t ≠ []) : ((retrain s i).head i).st = .training ∧
    ((retrain s i).head i).link.link = 1 ∧ ((retrain s i).head i).link.cands = candidates s (s.head i).link k t := by
  have hend := (standing_retrain hk ht hphase hrests rfl).trans (if_neg hl)
  exact ⟨congrArg LinkStanding.st hend, congrArg LinkStanding.link hend, congrArg LinkStanding.cands hend⟩

theorem retrain_without_candidates (hl : candidates s (s.head i).link k t = []) : ((retrain s i).head i).st = .linkFailed ∧
    ((retrain s i).head i).link.link = 3 ∧ ((retrain s i).head i).link.reason = 1 := by
  have hend := (standing_retrain hk ht hphase hrests rfl).trans (if_pos hl)
  exact ⟨congrArg LinkStanding.st hend, congrArg LinkStanding.link hend, congrArg LinkStanding.reason hend⟩

end

/-- A head whose training has succeeded with `n` lanes at rate `c`. -/
def linked (h : Head) (n c : Nat) : Head :=
  { h with link := { h.link with
    link := 2, rate := c, lanes := n, trainCount := sat32 h.link.trainCount, cands := [], trainStart := none } }

/-- The link comes up, before the head goes on (R165). -/
def linkUp (s : State) (i n c : Nat) : State :=
  let s := closeClamps s i
  evalVrr (s.setHead i (linked (s.head i) n c)) i

theorem standing_linkUp (s : State) (i n c : Nat) : linkStanding ((linkUp s i n c).head i) =
    { linkStanding (s.head i) with link := 2, lanes := n, rate := c, cands := [] } := by
  unfold linkUp
  dsimp only
  rw [(steady_evalVrr_standing _ i).view i, setHead_head, ← (steady_closeClamps_standing s i).view i]
  rfl

theorem steady_linkUp (s : State) (i n c : Nat) : Steady frameCycle s (linkUp s i n c) :=
  (steady_closeClamps s i fun _ => rfl).trans (.after_setHead (steady_evalVrr _ i) rfl)

/-- Where the link of a running head stands after a training that succeeds (R165, R185). -/
theorem standing_trained {s : State} {i n c : Nat} (hphase : (s.head i).phase ≠ .stopped) :
    linkStanding ((trained s i n c).head i) = { linkStanding (s.head i) with
      link := 2, lanes := n, rate := c, cands := [], st := if (s.head i).st = .training then .starting else (s.head i).st } := by
  have hup := standing_linkUp s i n c
  have hst : ((linkUp s i n c).head i).st = (s.head i).st := congrArg LinkStanding.st hup
  have hphase' (u : State) (hu : Steady frameCycle (linkUp s i n c) u) : (u.head i).phase ≠ .stopped :=
    ne_of_eq_of_ne (congrArg FrameCycle.phase (((steady_linkUp s i n c).trans hu).view i)) hphase
  have hcontent (u : State) (f : Timing → Rat) (hu : (u.head i).phase ≠ .stopped) :
      linkStanding (State.head (if (u.head i).phase = .stopped then settle u i
        else u.setHead i { u.head i with contentFrom := (u.head i).gen.map f }) i) = linkStanding (u.head i) := by
    rw [if_neg hu, setHead_head]
    rfl
  have hstart (u : State) : linkStanding (State.head (if (u.head i).st = .training then linkState u i .starting else u) i) =
      { linkStanding (u.head i) with st := if (u.head i).st = .training then .starting else (u.head i).st } := by
    split
    · exact linkState_head u i linkStanding _
    · rfl
  refine (hcontent _ _ (hphase' _ ?_)).trans ((hstart (linkUp s i n c)).trans ?_)
  · split
    · exact steady_linkState _ i _
    · exact .refl _ _
  · rw [hup, hst]

theorem trained_of_running {s : State} {i n c : Nat} (hphase : (s.head i).phase ≠ .stopped) :
    ((trained s i n c).head i).link.link = 2 ∧ ((trained s i n c).head i).link.lanes = n ∧
      ((trained s i n c).head i).link.rate = c ∧ ((s.head i).st = .training → ((trained s i n c).head i).st = .starting) := by
  have hend := standing_trained (n := n) (c := c) hphase
  generalize (trained s i n c).head i = x at hend ⊢
  refine ⟨congrArg LinkStanding.link hend, congrArg LinkStanding.lanes hend, congrArg LinkStanding.rate hend, fun hst => ?_⟩
  exact (congrArg LinkStanding.st hend).trans (if_pos hst)

/-- Settles O36: the rows by their conditions, and what a failed, a restarted and a successful training leave by where the link
then stands (R178 to R186). -/
theorem displayLinkEventsComplete : Obligations.DisplayLinkEventsComplete := by
  unfold Obligations.DisplayLinkEventsComplete
  refine ⟨?present, ?unplug, ?irq, ?short, ?loss, ?noLoss, ?aux, ?done, ?timeout, ?fails, ?retrains, ?trained⟩
  case present => exact fun h n k s hs hn hsink => execHpdPresent_of_absent hs k hn hsink
  case unplug =>
    intro h n s hs hn hsink
    have hend := standing_unplug (noteHpd s h.val) h.val
    have hst : ((noteHpd s h.val).head h.val).st = (s.head h.val).st := by rw [noteHpd_head]
    refine ⟨_, execHpdUnplug_of_present hs hn hsink, congrArg LinkStanding.sink hend, congrArg LinkStanding.link hend,
      congrArg LinkStanding.lanes hend, ?_⟩
    rw [← hst]
    exact congrArg LinkStanding.st hend
  case irq => exact fun h n b s hs hlow hhigh hsink => execIrqHpd_of_pulse hs b hlow hhigh hsink
  case short => exact fun h n k b s hs => hpd_of_short hs k b
  case loss =>
    refine fun h s hlink hst => congrArg Host.Outcome.next (if_pos ⟨hlink, ?_⟩)
    exact hst
  case noLoss =>
    refine fun h s hno => congrArg Host.Outcome.next (if_neg fun ⟨hlink, hst⟩ => ?_)
    obtain ⟨hrun, hstart, hmode⟩ := hno.resolve_left (not_not.mpr hlink)
    exact hst.elim hrun fun h => h.elim hstart hmode
  case aux => exact fun h n defer s hsink hlate => execAuxTimeout_of_sink hsink hlate
  case done =>
    exact fun h reqs s n c rest hlink hcands => ⟨execLinkTrainingDone_ok hlink hcands rfl,
      fun hrest => execLinkTrainingDone_last hlink hcands rfl hrest, fun hrest => execLinkTrainingDone_next hlink hcands rfl hrest⟩
  case timeout => exact fun h s t hlink ht hdue => execTrainingTimeout_of_due hlink ht hdue
  case fails =>
    intro s i r
    have hend := standing_failLink s i r
    exact ⟨congrArg LinkStanding.st hend, congrArg LinkStanding.link hend, congrArg LinkStanding.reason hend,
      congrArg LinkStanding.lanes hend, trainingFails_of_running⟩
  case retrains =>
    exact fun s i k t hk ht hphase hrests => ⟨retrain_with_candidates hk ht hphase hrests, retrain_without_candidates hk ht hphase hrests⟩
  case trained =>
    exact fun s i n c hphase => trained_of_running hphase

end

end Sys2Proof.Proofs
end

section
/-! PROOFS. What leaves a Welond link: lanes, blocks and packets change the link's own state and nothing else (R345 to R353). -/

namespace Sys2Proof.Proofs

open Sys2Proof Sys2Proof.Machine Sys2Proof.Safety Sys2Proof.Laws

/-- `t` differs from `s` in what sending on a link changes alone. -/
def LineWork (s t : State) : Prop := t = { s with wels := t.wels, lineTx := t.lineTx, fresh := t.fresh, out := t.out }

section
variable {s t u : State}

theorem LineWork.rfl : LineWork s s := Eq.refl s

theorem LineWork.trans (h : LineWork s t) (k : LineWork t u) : LineWork s u := by
  unfold LineWork at h
  rw [h] at k
  exact k

theorem LineWork.field {α : Type} (h : LineWork s t) (f : State → α)
    (hf : ∀ w l n o, f { s with wels := w, lineTx := l, fresh := n, out := o } = f s) : f t = f s := by
  unfold LineWork at h
  rw [h]
  exact hf _ _ _ _

theorem LineWork.foldl {A : Type} {f : State → A → State} (hf : ∀ s a, LineWork s (f s a)) (l : List A) (s : State) :
    LineWork s (l.foldl f s) :=
  List.foldlRecOn l f (motive := LineWork s) .rfl fun _ ht a _ => ht.trans (hf _ a)

end

variable (s : State)

theorem lineWork_setWel (l : Nat) (w : Wel) : LineWork s (s.setWel l w) := rfl

theorem lineWork_setLaneTx (l i : Nat) (t : LaneTx) : LineWork s (s.setLaneTx l i t) := rfl

theorem lineWork_emit (o : Output) : LineWork s (s.emit o) := rfl

theorem lineWork_drawBytes (n : Nat) : LineWork s (s.drawBytes n).2 := rfl

theorem lineWork_drawBool : LineWork s s.drawBool.2 := rfl

theorem lineWork_drawWithin (a b : Int) : LineWork s (drawWithin s a b).2 := rfl

theorem lineWork_emitLane (l i : Nat) (bits : List Bool) (t : LaneTx) : LineWork s (emitLane s l i bits t) := rfl

theorem lineWork_sendPattern (n l i : Nat) : LineWork s (sendPattern s n l i) := by
  unfold sendPattern
  dsimp only
  split
  · exact (lineWork_drawBytes s 4).trans ((lineWork_setLaneTx _ l i _).trans (lineWork_emitLane _ l i _ _))
  · exact lineWork_emitLane s l i _ _

theorem lineWork_sendRows (l : Nat) (lanes : List Nat) (rows : List (List LineBlock)) : LineWork s (sendRows s l lanes rows) := by
  refine .foldl (fun s e => ?_) _ s
  exact lineWork_emitLane s l _ _ _

theorem lineWork_freeLine (l : Nat) : LineWork s (freeLine s l) := by
  have hlane (s : State) (i : Nat) (t : LaneTx) : LineWork s ((drawWithin (drawWithin (s.drawBytes 8).2.drawBool.2 1 29).2.drawBool.2
      0 255).2.setLaneTx l i t) :=
    (lineWork_drawBytes s 8).trans ((lineWork_drawBool _).trans ((lineWork_drawWithin _ 1 29).trans ((lineWork_drawBool _).trans
      ((lineWork_drawWithin _ 0 255).trans (lineWork_setLaneTx _ l i t)))))
  have hslot (s : State) (w : Wel) : LineWork s ((drawWithin s 0 16383).2.setWel l w) :=
    (lineWork_drawWithin s 0 16383).trans (lineWork_setWel _ l w)
  unfold freeLine
  dsimp only
  refine .trans ?_ (hslot _ _)
  refine .foldl (fun s i => ?_) _ s
  exact hlane s i _

theorem lineWork_retrainLost (l : Nat) : LineWork s (retrainLost s l) :=
  .trans (.foldl (fun s i => lineWork_sendPattern s _ l i) _ s) (lineWork_setWel _ l _)

theorem lineWork_sendSlots (l : Nat) : LineWork s (sendSlots s l) := by
  unfold sendSlots
  dsimp only
  split
  · exact .rfl
  · exact (lineWork_sendRows s l _ _).trans (lineWork_setWel _ l _)

theorem lineWork_sendIdle (l : Nat) : LineWork s (sendIdle s l) := by
  unfold sendIdle
  dsimp only
  split
  · exact .rfl
  · exact (lineWork_sendRows s l _ _).trans (lineWork_setWel _ l _)

theorem lineWork_pumpLine (l : Nat) : LineWork s (pumpLine s l) := by
  have hfree : LineWork s (if (s.wel l).mixed then freeLine s l else s) := by
    split
    · exact lineWork_freeLine s l
    · exact .rfl
  have hgo (s : State) : LineWork s (if (s.wel l).st = .active then sendSlots (retrainLost s l) l else sendIdle s l) := by
    split
    · exact (lineWork_retrainLost s l).trans (lineWork_sendSlots _ l)
    · exact lineWork_sendIdle s l
  unfold pumpLine
  split
  · exact .rfl
  · exact .trans (.foldl (fun s i => lineWork_sendPattern s _ l i) _ s) (lineWork_setWel _ l _)
  · exact hfree.trans (hgo _)

theorem lineWork_sendBlocks (l : Nat) (bs : List LineBlock) : LineWork s (sendBlocks s l bs) :=
  (lineWork_pumpLine s l).trans (lineWork_setWel _ l _)

theorem lineWork_sendControl (l : Nat) (b : List Byte) : LineWork s (sendControl s l b) :=
  (lineWork_emit s _).trans ((lineWork_pumpLine _ l).trans (lineWork_setWel _ l _))

theorem lineWork_sendPacket (l channel dest src : Nat) (payload : List Byte) : LineWork s (sendPacket s l channel dest src payload) := by
  unfold sendPacket
  dsimp only
  split
  · exact (lineWork_emit s _).trans (lineWork_sendBlocks _ l _)
  · exact (lineWork_emit s _).trans (lineWork_setWel _ l _)

theorem lineWork_sendOpen (l kind : Nat) (args : List Nat) : LineWork s (sendOpen s l kind args) := rfl

theorem lineWork_settleMirrors : LineWork s (settleMirrors s) := by
  refine .foldl (fun s l => ?_) _ s
  have hadmit (s : State) : LineWork s (admitMirrors s l) := rfl
  dsimp only
  split
  · exact .rfl
  · exact (lineWork_setWel s l _).trans (hadmit _)

end Sys2Proof.Proofs
end

section
/-! PROOFS. Contexts, flow rules and ports: the commands that set them up, and what arrives (R193 to R207, R227, R228). -/

namespace Sys2Proof.Proofs

open Sys2Proof Sys2Proof.Machine Sys2Proof.Safety Sys2Proof.Laws

/-! ### CONTEXT_OPEN, SOURCE_ISOLATE and CONTEXT_STATS -/

theorem cmdContextOpen_opens {q : ContextOpenP} {a : State} {n : Nat} (hn : ctxTarget a q.context = some n) (hle : n ≤ 191)
    (hcoded : q.p.type = 1 → codedOpen a < 128) (hfree : (a.ctx n).state = .free) (hmethod : methodOk q.p = true)
    (hclock : q.p.clockRate = 90000) (hsize : sizeOk q.p = true)
    (hring : if q.p.type = 1 then q.p.ring = 0 else within 2 8 q.p.ring = true) (hext : extOk q.p = true)
    (htimeout : within 100 1000000 q.p.timeoutUs = true) (hlayout : ringOk q.p = true)
    (hwrite : writable a (writersOf q.p) q.p.base (ringBytesOf q.p) = true) :
    cmdContextOpen q a = ok (if q.p.type = 3 then requestMirror (settleMirrors (openFresh a n q.p)) n
      else settleMirrors (openFresh a n q.p)) (leBytes 2 n) := by
  have hmany : ¬ (q.p.type = 1 ∧ 128 ≤ codedOpen a) := fun h => Nat.not_le.mpr (hcoded h.1) h.2
  have hbusy : ¬ (a.ctx n).state ≠ .free := not_not.mpr hfree
  have hrings : (if q.p.type = 1 then q.p.ring != 0 else !within 2 8 q.p.ring) = false := by
    split at hring
    case isTrue h => simp [h, hring]
    case isFalse h => simp [h, hring]
  have hfields : ¬ (191 < n ∨ methodOk q.p = false ∨ q.p.clockRate ≠ 90000 ∨ sizeOk q.p = false ∨
      (if q.p.type = 1 then q.p.ring != 0 else !within 2 8 q.p.ring) = true) := by
    simp [hrings, hmethod, hclock, hsize, hle]
  have htimes : ¬ (extOk q.p = false ∨ within 100 1000000 q.p.timeoutUs = false) := by simp [hext, htimeout]
  have hring' : ¬ ringOk q.p = false := by simp [hlayout]
  have hdyke : ¬ writable a (writersOf q.p) q.p.base (ringBytesOf q.p) = false := by simp [hwrite]
  simp only [cmdContextOpen, hn, if_neg hmany, if_neg hbusy, if_neg hfields, if_neg htimes, if_neg hring', if_neg hdyke]

theorem cmdSourceIsolate_of_open {p : SourceIsolateP} {a : State} {x : Ctx} (hx : openCtx a p.context = some x) :
    cmdSourceIsolate p a = ok (if x.isolated = p.isolate then a
      else if p.isolate then isolateCtx p.context p.leave a else rejoinCtx p.context a) := by
  rw [cmdSourceIsolate, hx, apply_ite ok, apply_ite ok]

theorem cmdContextStats_of_open {n : Nat} {a : State} {x : Ctx} (hx : openCtx a n = some x) :
    cmdContextStats n a = ok a ([x.cnt.frames, x.cnt.lossFrames, x.cnt.pktLost, x.cnt.path0Lost, x.cnt.path1Lost,
      x.cnt.dup, x.cnt.extBad, x.cnt.gap, x.cnt.ringFull, x.cnt.late, x.cnt.fast, x.cnt.dgsBad, x.cnt.unsupported,
      x.cnt.isolatedDrop, x.cnt.refreshSent, 0].flatMap (leBytes 4)) := by
  simp only [cmdContextStats, hx]

/-! ### CONTEXT_CLOSE -/

/-- `t` has the openings, the flow rules and the check channels of `s`. -/
structure KeepsBindings (s t : State) : Prop where
  opening : ∀ k, (t.ctx k).opening = (s.ctx k).opening
  flows : t.flows = s.flows
  checks : t.checks = s.checks

section
variable {s t u : State}

theorem KeepsBindings.refl (s : State) : KeepsBindings s s := ⟨fun _ => rfl, rfl, rfl⟩

theorem KeepsBindings.trans (h : KeepsBindings s t) (k : KeepsBindings t u) : KeepsBindings s u :=
  ⟨fun n => (k.opening n).trans (h.opening n), k.flows.trans h.flows, k.checks.trans h.checks⟩

theorem KeepsBindings.foldl {A : Type} {f : State → A → State} (hf : ∀ s a, KeepsBindings s (f s a)) (l : List A) (s : State) :
    KeepsBindings s (l.foldl f s) :=
  List.foldlRecOn l f (motive := KeepsBindings s) (.refl s) fun _ ht a _ => ht.trans (hf _ a)

theorem KeepsBindings.of_ctxs (hctxs : t.ctxs = s.ctxs) (hflows : t.flows = s.flows) (hchecks : t.checks = s.checks) :
    KeepsBindings s t :=
  ⟨fun k => by simp only [State.ctx, hctxs], hflows, hchecks⟩

theorem LineWork.keepsBindings (h : LineWork s t) : KeepsBindings s t :=
  .of_ctxs (h.field State.ctxs (by intros; rfl)) (h.field State.flows (by intros; rfl))
    (h.field State.checks (by intros; rfl))

theorem keepsBindings_setCtx {n : Nat} {x : Ctx} (h : x.opening = (s.ctx n).opening) : KeepsBindings s (s.setCtx n x) where
  opening k := by
    by_cases hk : k = n
    · rw [hk, setCtx_ctx, h]
    · rw [setCtx_ctx_other s n x hk]
  flows := rfl
  checks := rfl

end

theorem KeepsBindings.after_setCtx {s u : State} {n : Nat} {x : Ctx} (k : KeepsBindings (s.setCtx n x) u)
    (h : x.opening = (s.ctx n).opening) : KeepsBindings s u :=
  (keepsBindings_setCtx h).trans k

section
variable (s : State) (n : Nat)

theorem keepsBindings_sendRecords (t : Ticks) (l : List TouchRecord) : KeepsBindings s (sendRecords s n t l) := by
  have hback (s : State) (bytes : List Byte) : KeepsBindings s (sendBack s n bytes) := by
    unfold sendBack
    dsimp only
    split
    · exact .of_ctxs rfl rfl rfl
    · exact .refl s
  have hinput (more : Bool) : KeepsBindings s (sendInput s n t more l) := by
    unfold sendInput
    dsimp only
    split
    · exact .refl s
    · exact .after_setCtx (hback _ _) rfl
  have hpacket : KeepsBindings s (sendTouchPacket s n t l) := by
    unfold sendTouchPacket
    dsimp only
    split
    · refine .foldl (fun s l => ?_) _ s
      exact (lineWork_sendPacket s _ _ _ _ _).keepsBindings
    · exact .refl s
  unfold sendRecords
  split_ifs
  · exact .refl s
  · exact hpacket
  · exact hinput _

/-- Contacts that end for a source bind nothing anew (R477). -/
theorem keepsBindings_cancelContacts (p : Nat → Nat → Contact → Bool) : KeepsBindings s (cancelContacts s p) := by
  have hdesks (d : Tab Desk) : KeepsBindings s { s with desks := d } := .of_ctxs rfl rfl rfl
  unfold cancelContacts
  dsimp only
  refine (hdesks _).trans (.foldl (fun s k => ?_) _ _)
  exact keepsBindings_sendRecords s k _ _

theorem keepsBindings_settleGroups : KeepsBindings s (settleGroups s) := by
  have hreports (s : State) (p : Nat) (f : Membership → Membership) (l : List Membership) :
      KeepsBindings s (l.foldl (fun s m => report s p (f m)) s) := by
    refine .foldl (fun s m => ?_) l s
    exact .of_ctxs rfl rfl rfl
  refine .foldl (fun s p => ?_) _ s
  unfold settlePort
  dsimp only
  split
  · exact .refl s
  · exact (hreports s p (fun m => ⟨m.group, false, []⟩) _).trans ((hreports _ p id _).trans (.of_ctxs rfl rfl rfl))

theorem keepsBindings_abandonFrame : KeepsBindings s (abandonFrame s n) := by
  have hdrop (f : Frame) : KeepsBindings s (if f.done || f.abandoned then s else match f.target with
      | some k => dropBuf s n k
      | none => s) := by
    split
    · exact .refl s
    · split
      · exact keepsBindings_setCtx rfl
      · exact .refl s
  unfold abandonFrame
  dsimp only
  split
  · exact (hdrop _).trans (keepsBindings_setCtx rfl)
  · exact .refl s

/-- A context that closes is free, or awaits the heads that still show it (R207). -/
theorem releaseContext_ctx (h : (s.ctx n).state ≠ .opened) : ((releaseContext s n).ctx n).state ≠ .opened ∧
    ((releaseContext s n).ctx n).opening = (s.ctx n).opening := by
  unfold releaseContext
  dsimp only
  split
  · rw [setCtx_ctx]
    exact ⟨nofun, rfl⟩
  · exact ⟨h, rfl⟩

theorem releaseContext_flows : (releaseContext s n).flows = s.flows := by
  unfold releaseContext
  dsimp only
  split <;> rfl

theorem releaseContext_checks : (releaseContext s n).checks = s.checks := by
  unfold releaseContext
  dsimp only
  split <;> rfl

end

/-- A context whose contacts have ended and whose flow rules are gone (R206). -/
def unflowed (n : Nat) (a : State) : State :=
  { cancelSource a n with flows := (cancelSource a n).flows.filter (fun e => e.2.context != n) }

/-- Its groups, its frame and its pictures are given up. -/
def dropWork (n : Nat) (s : State) : State := abandonTaps (abandonDecode (abandonFrame (settleGroups s) n) n) n

theorem keepsBindings_dropWork (n : Nat) (s : State) : KeepsBindings s (dropWork n s) := by
  have hdecode (s : State) : KeepsBindings s (abandonDecode s n) := .of_ctxs rfl rfl rfl
  have htaps (s : State) : KeepsBindings s (abandonTaps s n) := .of_ctxs rfl rfl rfl
  exact (keepsBindings_settleGroups s).trans ((keepsBindings_abandonFrame _ n).trans ((hdecode _).trans (htaps _)))

/-- Its binding goes too (R206). -/
def dropBinding (n : Nat) (s : State) : State := { s with checks := s.checks.filter (fun e => !(e.2.use == 0 && e.2.object == n)) }

/-- A context without its flows, its frame and its binding, before it closes. -/
def unbound (n : Nat) (a : State) : State := dropBinding n (dropWork n (unflowed n a))

theorem dropBinding_ctx (n : Nat) (s : State) (k : Nat) : (dropBinding n s).ctx k = s.ctx k := rfl

theorem dropBinding_flows (n : Nat) (s : State) : (dropBinding n s).flows = s.flows := rfl

theorem dropBinding_checks (n : Nat) (s : State) : ∀ e ∈ (dropBinding n s).checks, ¬(e.2.use = 0 ∧ e.2.object = n) := by
  rintro e he ⟨huse, hobject⟩
  simpa [huse, hobject] using (List.mem_filter.mp he).2

theorem unflowed_ctx (n : Nat) (a : State) (k : Nat) : (unflowed n a).ctx k = (cancelSource a n).ctx k := by
  have hctx (s : State) (f : Tab FlowRule) : State.ctx { s with flows := f } k = s.ctx k := rfl
  exact hctx _ _

theorem unbound_opening (n : Nat) (a : State) : ((unbound n a).ctx n).opening = (a.ctx n).opening := by
  rw [unbound, dropBinding_ctx, (keepsBindings_dropWork n _).opening n, unflowed_ctx, cancelSource,
    (keepsBindings_cancelContacts a _).opening n]

theorem unbound_flows (n : Nat) (a : State) : ∀ e ∈ (unbound n a).flows, e.2.context ≠ n := by
  intro e he
  rw [unbound, dropBinding_flows, (keepsBindings_dropWork n _).flows, unflowed] at he
  simpa using (List.mem_filter.mp he).2

theorem unbound_checks (n : Nat) (a : State) : ∀ e ∈ (unbound n a).checks, ¬(e.2.use = 0 ∧ e.2.object = n) :=
  dropBinding_checks n _

/-- A context that closes: its number stays taken while heads show it, and its opening ends (R206, R207). -/
def closedCtx (c : Ctx) : Ctx :=
  { c with state := .awaiting, frame := none, closing := [], aus := [], latest := none, repeats := 0, remoteDown := [],
           dec := { c.dec with waiting := [] } }

/-- A context closes once it is unbound, and the links lose its mirrors (R206, R360). -/
def closeCtx (n : Nat) (s : State) : State := settleMirrors (releaseContext (s.setCtx n (closedCtx (s.ctx n))) n)

theorem cmdContextClose_of_open {n : Nat} {a : State} (hopen : openCtx a n ≠ none) (hskim : skimBindsContext a n = false) :
    cmdContextClose n a = ok (closeCtx n (unbound n a)) := by
  obtain ⟨x, hx⟩ := Option.ne_none_iff_exists'.mp hopen
  simp only [cmdContextClose, hx, hskim, Bool.false_eq_true, if_false, closeCtx, unbound, dropBinding, dropWork, unflowed, closedCtx]

theorem closeCtx_ctx (n : Nat) (s : State) : ((closeCtx n s).ctx n).state ≠ .opened ∧
    ((closeCtx n s).ctx n).opening = (s.ctx n).opening := by
  have hstate : (((s.setCtx n (closedCtx (s.ctx n))).ctx n)).state ≠ .opened := by
    rw [setCtx_ctx]
    exact nofun
  have hrelease := releaseContext_ctx (s.setCtx n (closedCtx (s.ctx n))) n hstate
  rw [setCtx_ctx] at hrelease
  have hctx (s : State) : (settleMirrors s).ctx n = s.ctx n :=
    (lineWork_settleMirrors s).field (fun s => s.ctx n) (by intros; rfl)
  rw [closeCtx, hctx]
  exact hrelease

theorem closeCtx_flows (n : Nat) (s : State) : (closeCtx n s).flows = s.flows := by
  rw [closeCtx, (lineWork_settleMirrors _).field State.flows (by intros; rfl), releaseContext_flows, setCtx_flows]

theorem closeCtx_checks (n : Nat) (s : State) : (closeCtx n s).checks = s.checks := by
  rw [closeCtx, (lineWork_settleMirrors _).field State.checks (by intros; rfl), releaseContext_checks, setCtx_checks]

/-- Settles O37: each command of a context under its checks, and what a closed context has lost (R201 to R207, R227). -/
theorem contextsOpenIsolateAndClose : Obligations.ContextsOpenIsolateAndClose := by
  unfold Obligations.ContextsOpenIsolateAndClose
  refine ⟨?opens, ?isolate, ?stats, ?close⟩
  case opens =>
    exact fun c q s a key n hrun hn hle hcoded hfree hmethod hclock hsize hring hext htimeout hlayout hwrite => next_command_of_runs hrun
      (cmdContextOpen_opens hn hle hcoded hfree hmethod hclock hsize hring hext htimeout hlayout hwrite)
  case isolate => exact fun c p s a key x hrun hx => next_command_of_runs hrun (cmdSourceIsolate_of_open hx)
  case stats => exact fun c s a key n x hrun hx => next_command_of_runs hrun (cmdContextStats_of_open hx)
  case close =>
    intro c s a key n hrun hopen hskim
    obtain ⟨hstate, hopening⟩ := closeCtx_ctx n (unbound n a)
    refine ⟨_, next_command_of_runs hrun (cmdContextClose_of_open hopen hskim), hstate, hopening.trans (unbound_opening n a), ?_, ?_⟩
    · rw [closeCtx_flows]
      exact unbound_flows n a
    · rw [closeCtx_checks]
      exact unbound_checks n a

/-! ### Flow rules and ports -/

theorem bindFlow_binds {p : FlowBindP} {a : State} {n : Nat} (hn : flowTarget a p.rule = some n) (hle : n ≤ 1023)
    (hfree : thas a.flows n = false) (hctx : flowContext a p.r.context = true) (hfields : flowFields p.r = true)
    (hport : (a.port p.r.port).exists_ = true) (hpath : ∀ e ∈ a.flows, e.2.context = p.r.context → e.2.path ≠ p.r.path)
    (hmatch : ∀ e ∈ a.flows, matchFields e.2 ≠ matchFields p.r)
    (hsecond : p.r.path = 1 → ∃ e ∈ a.flows, e.2.context = p.r.context ∧ e.2.path = 0)
    (hjoin : p.r.join = true → multicast p.r.dst = true ∧
      ((∃ m ∈ (a.port p.r.port).joined, m.group = p.r.dst) ∨ (a.port p.r.port).joined.length < 256)) :
    bindFlow p a = ok (settleGroups { a with flows := tset a.flows n p.r }) (leBytes 2 n) := by
  have hpaths : ¬ (a.flows.map (·.2)).any (fun q => q.context == p.r.context && q.path == p.r.path) = true := by
    simp only [List.any_map, List.any_eq_true, Function.comp_apply, Bool.and_eq_true, beq_iff_eq, not_exists, not_and]
    exact hpath
  have hgroups : ¬ (p.r.join && (a.port p.r.port).joined.all (fun m => m.group != p.r.dst) &&
      decide (256 ≤ (a.port p.r.port).joined.length)) = true := by
    simp only [Bool.and_eq_true, List.all_eq_true, bne_iff_ne, decide_eq_true_eq, not_and, Nat.not_le, and_imp]
    intro hj hall
    rcases (hjoin hj).2 with ⟨m, hm, hdst⟩ | hlen
    · exact absurd hdst (hall m hm)
    · exact hlen
  have hrange : ¬ (1023 < n ∨ flowContext a p.r.context = false ∨ flowFields p.r = false) := by simp [hctx, hfields, hle]
  have hprimary : ¬ (p.r.path = 1 ∧ (a.flows.map (·.2)).any (fun q => q.context == p.r.context && q.path == 0) = false) := by
    rintro ⟨hone, hnone⟩
    obtain ⟨e, he, hctx, hzero⟩ := hsecond hone
    refine List.any_eq_false.mp hnone e.2 (List.mem_map_of_mem he) ?_
    rw [hctx, hzero, beq_self_eq_true, beq_self_eq_true, Bool.and_true]
  have hother : ¬ ((a.port p.r.port).exists_ = false ∨
      (a.flows.map (·.2)).any (fun q => matchFields q == matchFields p.r) = true) := by
    simp only [hport, Bool.true_eq_false, false_or, List.any_map, List.any_eq_true, Function.comp_apply, beq_iff_eq,
      not_exists, not_and]
    exact hmatch
  have hmulti : (p.r.join && !multicast p.r.dst) = false := by
    cases hj : p.r.join with
    | false => rfl
    | true => simp [(hjoin hj).1]
  simp only [bindFlow, hn, if_neg hpaths, if_neg hgroups, hfree, if_neg hrange, if_neg hprimary, if_neg hother, hmulti,
    Bool.false_eq_true, if_false]

theorem cmdFlowBind_unbinds {p : FlowBindP} {a : State} (hunbind : p.unbind = true) (hbound : thas a.flows p.rule = true) :
    cmdFlowBind p a = ok (settleGroups { a with flows := tdel a.flows p.rule }) (leBytes 2 p.rule) := by
  simp only [cmdFlowBind, hunbind, unbindFlow, hbound, if_true]

theorem cmdSluiceSet_accepts {c : Caller} {p : SluiceSetP} {a : State} (hport : p.port ≤ 15) (hexists : (a.port p.port).exists_ = true)
    (hudp : within 1 65535 p.udpPort = true) (hrate : within 1000 100000 p.rateKbps = true)
    (hway : p.enable = true ∨ viaPort c ≠ some p.port) :
    cmdSluiceSet c p a = ok (a.setPort p.port { fillBuckets (a.port p.port) a.net with
      sluiceEn := p.enable, udpPort := p.udpPort, rateKbps := p.rateKbps }) := by
  have hfields : ¬ (15 < p.port ∨ (a.port p.port).exists_ = false ∨ within 1 65535 p.udpPort = false ∨
      within 1000 100000 p.rateKbps = false) := by simp [hport, hexists, hudp, hrate]
  have hown : ¬ (p.enable = false ∧ viaPort c = some p.port) := fun h =>
    hway.elim (fun hen => absurd (hen.symm.trans h.1) (by decide)) fun hvia => hvia h.2
  simp only [cmdSluiceSet, if_neg hfields, if_neg hown]

theorem execEthLinkChange_of_port {n : Fin 16} {up : Bool} {s : State} (hreleased : released s = true)
    (hexists : (s.port n.val).exists_ = true) : execEthLinkChange n up s = .next { s with
      ports := tset s.ports n.val { s.port n.val with link := up }, clk := { s.clk with lrefA := up || s.clk.lrefA } } := by
  refine (if_pos (by rw [hreleased, hexists, Bool.and_true])).trans ?_
  cases up with
  | true => rfl
  | false => rfl

/-- Settles O38: each command of the ports under its checks, and a link change (R194 to R197, R200, R228). -/
theorem flowsAndPortsAreConfigured : Obligations.FlowsAndPortsAreConfigured := by
  unfold Obligations.FlowsAndPortsAreConfigured
  refine ⟨?bind, ?unbind, ?sluice, ?link⟩
  case bind =>
    intro c p s a key n hrun hbind hn hle hfree hctx hfields hport hpath hmatch hsecond hjoin
    refine next_command_of_runs hrun ((if_neg (ne_true_of_eq_false hbind)).trans ?_)
    exact bindFlow_binds hn hle hfree hctx hfields hport hpath hmatch hsecond hjoin
  case unbind => exact fun c p s a key hrun hunbind hbound => next_command_of_runs hrun (cmdFlowBind_unbinds hunbind hbound)
  case sluice =>
    exact fun c p s a key hrun hport hexists hudp hrate hway =>
      next_command_of_runs hrun (cmdSluiceSet_accepts hport hexists hudp hrate hway)
  case link => exact fun n up s hreleased hexists => execEthLinkChange_of_port hreleased hexists

/-! ### Frames and packets -/

theorem execEthFrameReceive_of_up {n : Fin 16} (f : EthFrame) {s : State} (hup : portUp s n.val = true) :
    execEthFrameReceive n f s = .next (receiveFrame s n.val f) := if_pos hup

/-- Counting a frame does not change where the classifier sends it. -/
theorem classify_counted (s : State) (n k : Nat) (f : EthFrame) :
    classify (s.setPort n { s.port n with rxFrames := k }) n f = classify s n f := by
  unfold classify
  simp only [setPort_port]
  rfl

/-- A stray frame is counted and does nothing else (R193). -/
theorem receiveFrame_of_stray {s : State} {n : Nat} {f : EthFrame} (h : classify s n f = .stray) :
    receiveFrame s n f = (s.setPort n { s.port n with rxFrames := sat32 (s.port n).rxFrames }).setPort n
      { s.port n with rxFrames := sat32 (s.port n).rxFrames, stray := sat32 (s.port n).stray } := by
  unfold receiveFrame
  simp only [classify_counted, h, setPort_port]

theorem execMgmtFrame_of_mgmt {n : Fin 16} {f : EthFrame} {s : State} (hup : portUp s n.val = true)
    (hmgmt : classify s n.val f = .mgmt) :
    let p := fillBuckets (s.port n.val) s.net
    execMgmtFrame n f s = .next (if tokens f.len ≤ p.mgmtTokens
      then answerMgmt (s.setPort n.val { p with mgmtTokens := p.mgmtTokens - tokens f.len }) n.val f.kind
      else s.setPort n.val { p with mgmtDrop := sat32 p.mgmtDrop }) := by
  intro p
  rw [apply_ite Host.Outcome.next]
  exact if_pos (by rw [hup, hmgmt]; rfl)

section
variable {eth : Fin 4} {s : State} {m : MediaFrame} {rest : List MediaFrame} (hm : mediaOf s eth.val = m :: rest)
include hm

theorem execMediaPacketProcess_of_open (hstate : (s.ctx m.ctx).state = .opened) (hopening : (s.ctx m.ctx).opening = m.opening)
    (hiso : (s.ctx m.ctx).isolated = false) (hrest : memoryRests (popMedia s eth.val) = false) :
    execMediaPacketProcess eth s = .next (processPacket (popMedia s eth.val) m) := by
  unfold execMediaPacketProcess
  rw [hm]
  exact if_pos ⟨hstate, hopening, hiso, hrest⟩

theorem execMediaPacketProcess_of_closed (h : (s.ctx m.ctx).state ≠ .opened ∨ (s.ctx m.ctx).opening ≠ m.opening) :
    execMediaPacketProcess eth s = .next (popMedia s eth.val) := by
  unfold execMediaPacketProcess
  rw [hm]
  exact if_neg fun ⟨hstate, hopening, _⟩ => h.elim (· hstate) (· hopening)

end

theorem execFrameTimeout_of_due {n : Fin 192} {s : State} {f : Frame} (hf : (s.ctx n.val).frame = some f) (hdone : f.done = false)
    (habandoned : f.abandoned = false) (hdue : f.lastAt + (s.ctx n.val).p.timeoutUs * usT ≤ s.ref) :
    execFrameTimeout n s = .next (completeAny s n.val) := by
  unfold execFrameTimeout
  dsimp only
  rw [hf]
  refine if_pos ?_
  rw [hdone, habandoned]
  exact decide_eq_true hdue

/-- Settles O39: where a frame goes, what a management frame takes, and what becomes of packets and of a frame in time (R193, R198,
R199, R215). -/
theorem framesAndPacketsArrive : Obligations.FramesAndPacketsArrive := by
  unfold Obligations.FramesAndPacketsArrive
  refine ⟨?receive, ?stray, ?mgmt, ?packet, ?timeout⟩
  case receive => exact fun n f s hup => execEthFrameReceive_of_up f hup
  case stray =>
    intro n f s hup hstray
    refine ⟨_, (execEthFrameReceive_of_up f hup).trans (congrArg _ (receiveFrame_of_stray hstray)), ?_, ?_, rfl⟩
    · rw [setPort_port]
    · rw [setPort_port]
  case mgmt => exact fun n f s hup hmgmt => execMgmtFrame_of_mgmt hup hmgmt
  case packet =>
    exact fun eth s m rest hm => ⟨fun hstate hopening hiso hrest => execMediaPacketProcess_of_open hm hstate hopening hiso hrest,
      fun h => execMediaPacketProcess_of_closed hm h⟩
  case timeout => exact fun n s f hf hdone habandoned hdue => execFrameTimeout_of_due hf hdone habandoned hdue

end Sys2Proof.Proofs
end

section
/-! PROOFS. Buffers that close and complete: tiles, copies, comparisons, detector reads and completion (R51, R208 to R226, R307, R309). -/

namespace Sys2Proof.Proofs

open Sys2Proof Sys2Proof.Machine Sys2Proof.Safety Sys2Proof.Laws

/-- A compressed tile with all its pieces, once a lane has had its cycles (R219). -/
theorem execDgsTileDecode_of_run {n : Fin 192} {tile e : Nat} {s u : State} {f : Frame} {t : Tile} (hf : (s.ctx n.val).frame = some f)
    (ht : (s.ctx n.val).dgs.tiles.find? (fun t => t.tile == tile) = some t) (hdone : f.done = false) (habandoned : f.abandoned = false)
    (hnew : t.decoded = false) (hgood : t.bad = false) (henc : t.enc ≠ 0) (hall : t.last < t.pieces.length)
    (hlane : laneEnd s 0 t.wholeAt (decodeBlock (t.enc == 2) 64 16384 (tileData t)).2 = some (e, u)) (hdue : e ≤ s.ref) :
    execDgsTileDecode n tile s = .next (match (decodeBlock (t.enc == 2) 64 16384 (tileData t)).1 with
      | some data => dgsCheck (setDgs (tileDecoded u n.val 0x2E idCrys f t data) n.val
          { ((tileDecoded u n.val 0x2E idCrys f t data).ctx n.val).dgs with
            decodedAt := max e ((tileDecoded u n.val 0x2E idCrys f t data).ctx n.val).dgs.decodedAt }) n.val
      | none => dgsCheck (tileFailed u n.val t) n.val) := by
  have hgo : ¬ (f.done || f.abandoned || t.decoded || t.bad || t.enc == 0 || decide (t.pieces.length ≤ t.last)) = true := by
    simp [hdone, habandoned, hnew, hgood, henc, hall]
  have hrun : (laneEnd s 0 t.wholeAt (decodeBlock (t.enc == 2) 64 16384 (tileData t)).2).filter (fun x => decide (x.1 ≤ s.ref)) =
      some (e, u) := by
    rw [hlane]
    exact if_pos (decide_eq_true hdue)
  unfold execDgsTileDecode
  dsimp only
  rw [hf, ht]
  refine (if_neg hgo).trans ?_
  rw [hrun]
  cases (decodeBlock (t.enc == 2) 64 16384 (tileData t)).1 <;> rfl

theorem execFillCopy_of_room {n : Fin 192} {s : State} {k : Closing} (hk : (s.ctx n.val).closing.find? needsCopy = some k)
    (hroom : copyRoom s n.val = true) : execFillCopy n s = .next (fillCopy s n.val k) := by
  unfold execFillCopy
  dsimp only
  rw [hk]
  exact if_pos hroom

section
variable {n : Fin 192} {s : State} {e : Nat × Nat}

theorem execCheckCompareEnd_of_closing {i : Nat} {k : Closing} (hi : (s.ctx n.val).closing.findIdx? (fun k => k.comparing.isSome) = some i)
    (hk : (s.ctx n.val).closing[i]? = some k) (he : k.comparing = some e) (hdue : k.checkAt + 24 * coreT ≤ s.ref) :
    execCheckCompareEnd n s = .next (closeCompare s n.val i k e) := by
  unfold execCheckCompareEnd
  dsimp only
  rw [hi]
  dsimp only
  rw [hk]
  dsimp only
  rw [he]
  exact if_pos hdue

theorem execCheckCompareEnd_of_unit {a : AccessUnit} (hnone : (s.ctx n.val).closing.findIdx? (fun k => k.comparing.isSome) = none)
    (ha : (openAus s n.val).find? (fun a => a.comparing.isSome) = some a) (he : a.comparing = some e)
    (hdue : a.checkAt + 24 * coreT ≤ s.ref) : execCheckCompareEnd n s = .next (auCompare s n.val a e) := by
  unfold execCheckCompareEnd
  dsimp only
  rw [hnone, ha]
  dsimp only
  rw [he]
  exact if_pos hdue

/-- The detector's read of a buffer that closes starts, and ends when its requests have been served (R307). -/
theorem execDetectorComplete_of_closing {k : Closing} (hk : (s.ctx n.val).closing.find? (detectorTurn s n.val) = some k) :
    execDetectorComplete n s = if k.reading = false then .next (startDetector s n.val)
      else if outstanding s (fun p => p == .detector n.val) then .next s else .next (detectorComplete s n.val k) := by
  unfold execDetectorComplete
  dsimp only
  rw [hk]

theorem execDetectorComplete_of_picture {p : Picture} (hnone : (s.ctx n.val).closing.find? (detectorTurn s n.val) = none)
    (hp : (s.ctx n.val).dec.waiting.find? (pictureTurn s n.val) = some p) (hread : p.reading = true)
    (hserved : outstanding s (fun p => p == .detector n.val) = false) :
    execDetectorComplete n s = .next (pictureDetected s n.val p) := by
  unfold execDetectorComplete
  dsimp only
  rw [hnone, hp]
  dsimp only
  rw [if_neg (by simp [hread]), hserved]
  exact if_neg Bool.false_ne_true

theorem execBufferComplete_of_ready {k : Closing} (hk : (s.ctx n.val).closing.find? (readyToComplete s n.val) = some k)
    (hopen : (s.ctx n.val).state = .opened) : execBufferComplete n s = .next (bufferComplete s n.val k) := by
  unfold execBufferComplete
  rw [hk]
  exact if_pos hopen

end

/-! ### The completed buffer -/

theorem buf_setBuf (c : Ctx) (k : Nat) (b : Buf) : (c.setBuf k b).buf k = b := tget_tset_same

/-- What sets complete marks: the buffer that finishes (R51). -/
theorem finishBuf_complete (s : State) (n k : Nat) (r : FreshRecord) (content : Option Nat) (guarded : Bool) :
    (((finishBuf s n k r content guarded).ctx n).buf k).complete = true := by
  have hoffer (s : State) : (offerMirrors s n k).ctx n = s.ctx n := rfl
  unfold finishBuf
  dsimp only
  rw [hoffer, setCtx_ctx]
  exact congrArg Buf.complete (buf_setBuf _ k _)

/-- Marking where a buffer's frame came from keeps its complete mark. -/
theorem setBuf_dgsFrame_complete {s : State} {n k : Nat} (h : ((s.ctx n).buf k).complete = true) (f : Option Nat) :
    (((s.setCtx n ((s.ctx n).setBuf k { (s.ctx n).buf k with dgsFrame := f })).ctx n).buf k).complete = true := by
  rw [setCtx_ctx, buf_setBuf]
  exact h

theorem sendRefresh_bufs (s : State) (n : Nat) : ((sendRefresh s n).ctx n).bufs = (s.ctx n).bufs := by
  have hback (s : State) (bytes : List Byte) : (sendBack s n bytes).ctx n = s.ctx n := by
    unfold sendBack
    dsimp only
    split <;> rfl
  unfold sendRefresh
  dsimp only
  split
  · rfl
  · rw [hback, setCtx_ctx]

theorem bufferComplete_complete (s : State) (n : Nat) (k : Closing) :
    (((bufferComplete s n k).ctx n).buf k.target).complete = true := by
  have hdone (s : State) (d : Done) (content : Option Nat) : (((completeBuf s n k.target d content).ctx n).buf k.target).complete = true :=
    finishBuf_complete _ _ _ _ _ _
  have hrefresh (s : State) (h : ((s.ctx n).buf k.target).complete = true) : (((sendRefresh s n).ctx n).buf k.target).complete = true := by
    rw [Ctx.buf, sendRefresh_bufs]
    exact h
  have hend (u : State) (c : Ctx) (f : Nat) (hu : ((u.ctx n).buf k.target).complete = true) :
      ((State.ctx (if c.p.type = 2 ∧ k.causes.testBit 0 = true then sendRefresh u n else u) n).buf k.target).complete = true := by
    split
    · exact hrefresh u hu
    · exact hu
  unfold bufferComplete
  dsimp only
  refine hend _ _ 0 (setBuf_dgsFrame_complete ?_ _)
  split
  · exact finishBuf_complete _ _ _ _ _ _
  · exact hdone _ _ _

/-- Settles O40: each end in turn under its condition, and the mark of the buffer that completes (R51, R219, R226, R307, R309). -/
theorem buffersCloseAndComplete : Obligations.BuffersCloseAndComplete := by
  unfold Obligations.BuffersCloseAndComplete
  refine ⟨?tile, ?copy, ?compare, ?unit, ?detector, ?picture, ?complete⟩
  case tile =>
    exact fun n tile e s u f t hf ht hdone habandoned hnew hgood henc hall hlane hdue =>
      execDgsTileDecode_of_run hf ht hdone habandoned hnew hgood henc hall hlane hdue
  case copy => exact fun n s k hk hroom => execFillCopy_of_room hk hroom
  case compare => exact fun n s i k e hi hk he hdue => execCheckCompareEnd_of_closing hi hk he hdue
  case unit => exact fun n s a e hnone ha he hdue => execCheckCompareEnd_of_unit hnone ha he hdue
  case detector =>
    refine fun n s k hk => ⟨fun hread => ?_, fun hread hserved => ?_⟩
    · exact (execDetectorComplete_of_closing hk).trans (if_pos hread)
    · exact (execDetectorComplete_of_closing hk).trans ((if_neg (ne_of_eq_of_ne hread (by decide))).trans
        (if_neg (ne_true_of_eq_false hserved)))
  case picture => exact fun n s p hnone hp hread hserved => execDetectorComplete_of_picture hnone hp hread hserved
  case complete => exact fun n s k hk hopen => ⟨execBufferComplete_of_ready hk hopen, bufferComplete_complete s n.val k⟩

end Sys2Proof.Proofs
end

section
/-! PROOFS. Decoders: the commands of an attached context, and the pictures of the engines (R243 to R257). -/

namespace Sys2Proof.Proofs

open Sys2Proof Sys2Proof.Machine Sys2Proof.Safety Sys2Proof.Laws

theorem cmdDecodeAttach_attaches {p : DecodeAttachP} {a : State} (h : attachFault a p.context p.a = none) :
    cmdDecodeAttach p a = ok (attachCtx a p.context p.a) := by
  simp only [cmdDecodeAttach, h]

theorem cmdDecodePriority_accepts {p : DecodePriorityP} {a : State} {x : Ctx} {b : Attach} (hx : openCtx a p.context = some x)
    (hb : x.attach = some b) (hcls : p.cls ≤ 2) (hlag : p.lagMs ≤ 65535)
    (hprio : p.priority = true → b.refPitch ≠ 0 ∧ priorityUsers a p.context < 16)
    (hfits : decodeFits a ((x.p, { b with cls := p.cls, lagMs := p.lagMs }) ::
      ((attachedCtxs a).filter (fun y => y.1 != p.context)).map (·.2)) = true) :
    cmdDecodePriority p a = ok (a.setCtx p.context { x with
      attach := some { b with cls := p.cls, lagMs := p.lagMs },
      dec := { x.dec with nextPriority := if p.priority = b.priority then none else some p.priority } }) := by
  have hfields : ¬ (2 < p.cls ∨ 65535 < p.lagMs ∨ (p.priority = true ∧ b.refPitch = 0)) := by
    simp only [not_or, Nat.not_lt]
    exact ⟨hcls, hlag, fun h => (hprio h.1).1 h.2⟩
  have hmany : ¬ (p.priority = true ∧ 16 ≤ priorityUsers a p.context) := fun h => Nat.not_le.mpr (hprio h.1).2 h.2
  unfold cmdDecodePriority
  rw [hx]
  dsimp only
  rw [hb]
  dsimp only
  rw [if_neg hfields, if_neg hmany, hfits]
  exact if_neg (by decide)

theorem cmdDecodeStats_of_attached {n : Nat} {a : State} {x : Ctx} (hn : n ≠ 0xFFFF) (hx : openCtx a n = some x) (hattach : x.attach ≠ none) :
    cmdDecodeStats n a = ok a (statsBlock x.dec) := by
  simp only [cmdDecodeStats, if_neg hn, hx, Option.isSome_iff_ne_none.mpr hattach, if_true]

theorem cmdDecodeStats_of_engines (a : State) :
    cmdDecodeStats 0xFFFF a = ok a ((List.range 8).flatMap (fun e => engineBlock (a.dec e))) := if_pos rfl

/-- The lowest idle engine takes the unit that ranks first (R246, R247). -/
theorem execDecodePictureStart_takes {e : Fin 8} {s : State} {x : Candidate} {u : AccessUnit} {b : Attach} {k : Nat}
    (hlower : ∀ i, i < e.val → (s.dec i).work ≠ none) (hidle : (s.dec e.val).work = none)
    (hbest : bestOf ((prepareDecode s).ctxs.filterMap (fun y => candidate (prepareDecode s) y.1)) = some x)
    (hu : wantsPicture (prepareDecode s) x.ctx = some u) (hb : ((prepareDecode s).ctx x.ctx).attach = some b)
    (hk : poolBuffer (prepareDecode s) x.ctx = some k) (h : PictureHead) :
    execDecodePictureStart e h s = .next (takeAu (prepareDecode s) e.val x.ctx k u b x.due h) := by
  have hlowest : ¬ (List.range (e.val + 1)).any (fun i => decide (i < e.val) == (s.dec i).work.isNone) = true := by
    simp only [List.any_eq_true, List.mem_range, beq_iff_eq, not_exists, not_and]
    intro i hi heq
    rcases Nat.lt_succ_iff_lt_or_eq.mp hi with hlt | rfl
    · rw [decide_eq_true hlt] at heq
      exact hlower i hlt (Option.isNone_iff_eq_none.mp heq.symm)
    · simp [hidle] at heq
  unfold execDecodePictureStart
  rw [if_neg hlowest]
  dsimp only
  rw [hbest]
  dsimp only
  rw [hu, hb, hk]

section
variable {r : State} {e n k due : Nat} {u : AccessUnit} {b : Attach} {h : PictureHead}
  (hslice : firstSlice b.codec u ≠ none ∨ u.causes.testBit 0 = true)
include hslice

theorem takeAu_starts (hset : setOk (r.ctx n).p b h.set = true) (hleads : (isRasl b.codec u && (r.ctx n).dec.dropRasl) = false) :
    takeAu r e n k u b due h = startPicture r e n k u b due h := by
  have hshown : ((firstSlice b.codec u).isNone && !u.causes.testBit 0) = false := by
    rcases hslice with hsome | hlost
    · simp [Option.isNone_eq_false_iff.mpr (Option.isSome_iff_ne_none.mpr hsome)]
    · simp [hlost]
  simp only [takeAu, hshown, hset, hleads, Bool.false_eq_true, Bool.true_eq_false, if_false]

theorem takeAu_of_unsupported (hset : setOk (r.ctx n).p b h.set = false) : takeAu r e n k u b due h =
    sendPli (modDec (showSet (popAu r n) n h.set) n (fun d => { d with auUnsupported := sat32 d.auUnsupported })) n := by
  have hshown : ((firstSlice b.codec u).isNone && !u.causes.testBit 0) = false := by
    rcases hslice with hsome | hlost
    · simp [Option.isNone_eq_false_iff.mpr (Option.isSome_iff_ne_none.mpr hsome)]
    · simp [hlost]
  simp only [takeAu, hshown, hset, Bool.false_eq_true, if_false, if_true]

end

theorem execDecodePictureEnd_of_served {e : Fin 8} {s : State} {p : Picture} {h : PictureHead} (hp : (s.dec e.val).work = some p)
    (hh : (s.dec e.val).head = some h) (hkeep : (s.dec e.val).abandon = false)
    (hdue : (s.dec e.val).startAt + (if (s.dec e.val).switched then 1024 else 0) * coreT ≤ s.ref)
    (hserved : outstanding s (fun q => q == .decoder e.val) = false) :
    execDecodePictureEnd e s = .next (endPicture s e.val p h) := by
  have hgo : ¬ ((s.dec e.val).abandon || decide (s.ref < (s.dec e.val).startAt + (if (s.dec e.val).switched then 1024 else 0) * coreT) ||
      outstanding s (fun q => q == .decoder e.val)) = true := by
    rw [hkeep, hserved, decide_eq_false (Nat.not_lt.mpr hdue)]
    decide
  unfold execDecodePictureEnd
  dsimp only
  rw [hp, hh]
  exact if_neg hgo

theorem endPicture_work (s : State) (e : Nat) (p : Picture) (h : PictureHead) : ((endPicture s e p h).dec e).work = none :=
  congrArg DecEngine.work (setDec_dec _ e _)

/-- An abandoned picture leaves its engine, and memory as it is (R252). -/
theorem execPictureAbandoned_ends {e : Fin 8} {s : State} {p : Picture} (hp : (s.dec e.val).work = some p)
    (habandon : (s.dec e.val).abandon = true) : ∃ t, execPictureAbandoned e s = .next t ∧ (t.dec e.val).work = none ∧
      (t.dec e.val).abandon = false ∧ t.mem = s.mem := by
  have hdrop : (if (s.ctx (s.dec e.val).ctx).opening = (s.dec e.val).opening then dropBuf s (s.dec e.val).ctx p.buffer else s).mem =
      s.mem := by
    split <;> rfl
  unfold execPictureAbandoned
  dsimp only
  rw [hp]
  refine ⟨_, if_pos habandon, ?_, ?_, hdrop⟩
  · exact congrArg DecEngine.work (setDec_dec _ e.val _)
  · exact congrArg DecEngine.abandon (setDec_dec _ e.val _)

theorem execPictureOutput_of_due {n : Fin 192} {s : State} {p : Picture} (hp : nextOut (s.ctx n.val).dec.waiting = some p)
    (hopen : (s.ctx n.val).state = .opened) (hcompare : p.au.comparing = none) (hturn : pictureTurn s n.val p = false)
    (hdue : pictureDue p ≤ s.ref) : execPictureOutput n s = .next (outputPicture s n.val p) := by
  unfold execPictureOutput
  dsimp only
  rw [hp]
  exact if_pos ⟨hopen, hcompare, hturn, hdue⟩

theorem execDecodeLagDiscard_of_lag {n : Fin 192} {s : State} {b : Attach} (hb : (s.ctx n.val).attach = some b)
    (hopen : (s.ctx n.val).state = .opened) (hlag : lagging s (s.ctx n.val) b = true) :
    execDecodeLagDiscard n s = .next (s.setCtx n.val { s.ctx n.val with
      aus := fromLastRandom b.codec (s.ctx n.val).aus, dec := { (s.ctx n.val).dec with
        auSkipped := satAdd 32 (s.ctx n.val).dec.auSkipped
          ((s.ctx n.val).aus.length - (fromLastRandom b.codec (s.ctx n.val).aus).length) } }) := by
  unfold execDecodeLagDiscard
  dsimp only
  rw [hb]
  exact if_pos ⟨hopen, hlag⟩

/-- Settles O42: each command of an attached context under its checks, and each event of a picture under its condition (R243 to
R257). -/
theorem decodersAttachStartAndEnd : Obligations.DecodersAttachStartAndEnd := by
  unfold Obligations.DecodersAttachStartAndEnd
  refine ⟨?attach, ?priority, ?stats, ?engines, ?start, ?ends, ?abandoned, ?output, ?lag⟩
  case attach => exact fun c p s a key hrun hfault => next_command_of_runs hrun (cmdDecodeAttach_attaches hfault)
  case priority =>
    exact fun c p s a key x b hrun hx hb hcls hlag hprio hfits =>
      next_command_of_runs hrun (cmdDecodePriority_accepts hx hb hcls hlag hprio hfits)
  case stats => exact fun c s a key n x hrun hn hx hattach => next_command_of_runs hrun (cmdDecodeStats_of_attached hn hx hattach)
  case engines => exact fun c s a key hrun => next_command_of_runs hrun (cmdDecodeStats_of_engines a)
  case start =>
    intro e s x u b k hlower hidle r hbest hu hb hk
    have htakes (h : PictureHead) : execDecodePictureStart e h s = .next (takeAu r e.val x.ctx k u b x.due h) :=
      execDecodePictureStart_takes hlower hidle hbest hu hb hk h
    exact ⟨htakes, fun hslice h => ⟨fun hset hleads => (htakes h).trans (congrArg _ (takeAu_starts hslice hset hleads)),
      fun hset => (htakes h).trans (congrArg _ (takeAu_of_unsupported hslice hset))⟩⟩
  case ends =>
    exact fun e s p h hp hh hkeep hdue hserved => ⟨execDecodePictureEnd_of_served hp hh hkeep hdue hserved, endPicture_work s e.val p h⟩
  case abandoned => exact fun e s p hp habandon => execPictureAbandoned_ends hp habandon
  case output => exact fun n s p hp hopen hcompare hturn hdue => execPictureOutput_of_due hp hopen hcompare hturn hdue
  case lag => exact fun n s b hb hopen hlag => execDecodeLagDiscard_of_lag hb hopen hlag

end Sys2Proof.Proofs
end

section
/-! PROOFS. Serial lanes: LINK_STATE, EQ_TABLE_QUERY and the eye scan (R336 to R341). -/

namespace Sys2Proof.Proofs

open Sys2Proof Sys2Proof.Machine Sys2Proof.Safety Sys2Proof.Laws

theorem cmdLinkState_of_head {a : State} (h : Fin 32) (hactive : a.power.state = 0) :
    cmdLinkState ⟨0, h.val⟩ a = ok a (linkBlock (a.head h.val).link) := by
  have hindex : ¬ 31 < h.val := Nat.not_lt.mpr (Nat.le_of_lt_succ h.isLt)
  simp only [cmdLinkState, if_neg hindex, hactive, ne_eq, not_true_eq_false, if_false]

theorem cmdLinkState_of_port {a : State} (n : Fin 16) (hthere : (a.port n.val).exists_ = true) :
    cmdLinkState ⟨1, n.val⟩ a = ok (fecErrors a n.val) (portBlock ((fecErrors a n.val).port n.val)) := by
  have hfields : ¬ (15 < n.val ∨ (a.port n.val).exists_ = false) := by
    rintro (hlarge | hnone)
    · exact Nat.not_lt.mpr (Nat.le_of_lt_succ n.isLt) hlarge
    · simp [hthere] at hnone
  simp only [cmdLinkState, if_neg hfields]

theorem cmdLinkState_of_welond (a : State) (l : Fin 2) : cmdLinkState ⟨2, l.val⟩ a = ok a (welBlock (a.wel l.val)) :=
  if_neg (Nat.not_lt.mpr (Nat.le_of_lt_succ l.isLt))

theorem cmdEqTableQuery_of_display (a : State) (n : Fin 64) : cmdEqTableQuery ⟨0, n.val⟩ a =
    ok a (dplBytes (tget {} a.dpl n.val) ++ leBytes 4 (tget 0 a.clamps n.val)) := by
  have hindex : ¬ 63 < n.val := Nat.not_lt.mpr (Nat.le_of_lt_succ n.isLt)
  simp only [cmdEqTableQuery, show ¬ 2 < 0 from Nat.not_lt_zero 2, if_neg hindex, if_false, if_true]

theorem cmdEqTableQuery_of_receiver (a : State) {k : Nat} (n : Fin 16) (hk : k = 1 ∨ k = 2) :
    cmdEqTableQuery ⟨k, n.val⟩ a = ok (adaptLane a (laneEntry k n.val))
      (laneEqBytes (tget {} (adaptLane a (laneEntry k n.val)).laneEq (laneEntry k n.val)) ++
        rxBytes ((adaptLane a (laneEntry k n.val)).rxLane (laneEntry k n.val))) := by
  have hlow : ¬ 2 < k := by omega
  have hreceiver : ¬ k = 0 := by omega
  have hindex : ¬ 15 < n.val := Nat.not_lt.mpr (Nat.le_of_lt_succ n.isLt)
  simp only [cmdEqTableQuery, if_neg hlow, if_neg hreceiver, if_neg hindex]

theorem cmdEyeScan_starts {p : EyeScanP} {a : State} (hk : p.kind = 1 ∨ p.kind = 2)
    (hidle : (a.rxLane (laneEntry p.kind p.lane)).scan = none) (hfields : eyeFields p = true)
    (hlocked : laneLocked a p.kind p.lane = true) (hwrite : writable a [idWarden] p.resultBase (4 * eyePoints p) = true) :
    cmdEyeScan p a = ok (a.setRxLane (laneEntry p.kind p.lane) { a.rxLane (laneEntry p.kind p.lane) with scan := some p })
      (leBytes 4 (eyePoints p)) := by
  have hkind : ¬ (p.kind ≠ 1 ∧ p.kind ≠ 2) := by omega
  have hbusy : ¬ (p.lane ≤ 15 ∧ (a.rxLane (laneEntry p.kind p.lane)).scan.isSome = true) := by simp [hidle]
  have hbad : ¬ (eyeFields p = false ∨ laneLocked a p.kind p.lane = false) := by simp [hfields, hlocked]
  simp only [cmdEyeScan, if_neg hkind, if_neg hbusy, if_neg hbad, hwrite, Bool.true_eq_false, if_false]

theorem execEyeDone_of_scan {k : Nat} {n : Fin 16} {s : State} {p : EyeScanP} (hk : k = 1 ∨ k = 2)
    (hscan : (s.rxLane (laneEntry k n.val)).scan = some p) (counts : List Nat) : execEyeDone k n counts s =
      .next (postFw ((wardenWrite s p.resultBase (eyeResults p counts)).setRxLane (laneEntry k n.val)
        { (wardenWrite s p.resultBase (eyeResults p counts)).rxLane (laneEntry k n.val) with scan := none }) 0x31 1 none
        [byte k, byte n.val, 0#8, 0#8, byte (eyePoints p)]) := by
  have hkind : ¬ (k ≠ 1 ∧ k ≠ 2) := by omega
  unfold execEyeDone
  dsimp only
  rw [if_neg hkind, hscan]

/-- Settles O43: the queries answer their blocks, and a scan starts under the checks of R340 and ends with EYE_DONE (R189, R228,
R341, R368). -/
theorem laneQueriesAndEyeScans : Obligations.LaneQueriesAndEyeScans := by
  unfold Obligations.LaneQueriesAndEyeScans
  refine ⟨?head, ?port, ?welond, ?display, ?receiver, ?scan, ?scanned⟩
  case head => exact fun c s a key h hrun hactive => next_command_of_runs hrun (cmdLinkState_of_head h hactive)
  case port => exact fun c s a key n hrun hthere => next_command_of_runs hrun (cmdLinkState_of_port n hthere)
  case welond => exact fun c s a key l hrun => next_command_of_runs hrun (cmdLinkState_of_welond a l)
  case display => exact fun c s a key n hrun => next_command_of_runs hrun (cmdEqTableQuery_of_display a n)
  case receiver => exact fun c s a key k n hrun hk => next_command_of_runs hrun (cmdEqTableQuery_of_receiver a n hk)
  case scan =>
    exact fun c p s a key hrun hk hidle hfields hlocked hwrite =>
      next_command_of_runs hrun (cmdEyeScan_starts hk hidle hfields hlocked hwrite)
  case scanned => exact fun k n counts s p hk hscan => execEyeDone_of_scan hk hscan counts

end Sys2Proof.Proofs
end

section
/-! PROOFS. Encode contexts: open, rate and close, and the frames that they capture, code and send (R260 to R282). -/

namespace Sys2Proof.Proofs

open Sys2Proof Sys2Proof.Machine Sys2Proof.Safety Sys2Proof.Laws

/-! ### ENCODE_OPEN, ENCODE_RATE and ENCODE_CLOSE -/

theorem cmdEncodeOpen_opens {q : EncodeOpenP} {a : State} {n : Nat} (hn : encTarget a q.enc = some n)
    (hfault : encodeFault a n q.p = none) :
    cmdEncodeOpen q a = ok (a.setEnc n { p := q.p, lastDue := encKeyNow a q.p }) [byte n] := by
  simp only [cmdEncodeOpen, hn, hfault]

section
variable {c : Caller} {p : EncodeRateP} {a : State} {e : Enc} (he : tfind a.encs p.enc = some e)
include he

theorem cmdEncodeRate_of_query (hquery : p.queryOnly = true) : cmdEncodeRate c p a = ok a (encCounters e a.tb) := by
  simp only [cmdEncodeRate, he, hquery, if_true]

theorem cmdEncodeRate_holds_rate (hset : p.queryOnly = false) (hrole : 1 ≤ callerRole a c) (hrate : rateOk a e p.rate = true) :
    cmdEncodeRate c p a = ok (a.setEnc p.enc { e with nextRate := some p.rate, forceIdr := e.forceIdr || p.forceIdr })
      (encCounters e a.tb) := by
  simp only [cmdEncodeRate, he, hset, Bool.false_eq_true, if_false, if_neg (Nat.not_lt.mpr hrole), hrate, if_true]

end

theorem cmdEncodeClose_closes {a : State} {n : Nat} (hn : thas a.encs n = true) :
    cmdEncodeClose n a = ok { abandonEnc a n with encs := tdel a.encs n } := if_pos hn

/-- Settles O44: each command under its checks (R278 to R282). -/
theorem encodersOpenRateAndClose : Obligations.EncodersOpenRateAndClose := by
  unfold Obligations.EncodersOpenRateAndClose
  refine ⟨?opens, ?rate, ?closes⟩
  case opens => exact fun c q s a key n hrun hn hfault => next_command_of_runs hrun (cmdEncodeOpen_opens hn hfault)
  case rate =>
    exact fun c p s a key e hrun he => ⟨fun hquery => next_command_of_runs hrun (cmdEncodeRate_of_query he hquery),
      fun hset hrole hrate => next_command_of_runs hrun (cmdEncodeRate_holds_rate he hset hrole hrate)⟩
  case closes => exact fun c s a key n hrun hn => next_command_of_runs hrun (cmdEncodeClose_closes hn)

/-! ### Due frames and scaled lines -/

theorem execEncodeFrameDue_of_tide {e : Fin 16} {s : State} {x : Enc} (hx : tfind s.encs e.val = some x)
    (hnew : x.lastDue ≠ encKeyNow s x.p) (htap : x.p.tapContext = true) (hdue : s.tide.count % max 1 x.p.frameDiv = 0) :
    execEncodeFrameDue e s = .next (dueContext s e.val x) := by
  simp only [execEncodeFrameDue, hx, if_neg hnew, htap, hdue, if_true]

theorem execEncodeFrameDue_of_flip {e : Fin 16} {s : State} {x : Enc} (hx : tfind s.encs e.val = some x)
    (hnew : x.lastDue ≠ encKeyNow s x.p) (htap : x.p.tapContext = false) (hon : (s.head x.p.source).st ≠ .disabled)
    (hdue : (s.head x.p.source).frameCount % max 1 x.p.frameDiv = 0) : execEncodeFrameDue e s =
      .next (s.setEnc e.val (beginCapture x ⟨(s.head x.p.source).flipAt, timeNs (s.head x.p.source).flipAt,
        timeS (s.head x.p.source).flipAt, x.half, encKeyNow s x.p⟩ none)) := by
  have hskip : ¬ ((s.head x.p.source).st = .disabled ∨ (s.head x.p.source).frameCount % max 1 x.p.frameDiv ≠ 0) := by
    rintro (hoff | hcount)
    · exact hon hoff
    · exact hcount hdue
  simp only [execEncodeFrameDue, hx, if_neg hnew, htap, Bool.false_eq_true, if_false, if_neg hskip]

/-- A scaled line completes once the source lines of its taps have passed (R262). -/
theorem execEncodeLineComplete_of_passed {e : Fin 16} {s : State} {x : Enc} {k : EncCapture} {size : Nat × Nat}
    (hx : tfind (pumpTap s e.val).encs e.val = some x) (hk : x.capture = some k)
    (hsize : tapSize (pumpTap s e.val) x.p (if x.p.tapContext then none else ((pumpTap s e.val).head x.p.source).gen) = some size)
    (hpassed : ∀ g, (if x.p.tapContext then none else ((pumpTap s e.val).head x.p.source).gen) = some g →
      x.tapKey = k.fr.key ∧ tapHolds x g (linesNeeded x.p none size k.lines) = true) :
    execEncodeLineComplete e s = .next (lineComplete (pumpTap s e.val) e.val x k
      (if x.p.tapContext then none else ((pumpTap s e.val).head x.p.source).gen) size) := by
  unfold execEncodeLineComplete
  dsimp only
  rw [hx]
  dsimp only
  rw [hk]
  dsimp only
  rw [hsize]
  generalize (if x.p.tapContext then none else ((pumpTap s e.val).head x.p.source).gen) = t at hpassed ⊢
  have hgo : t.elim true (fun g => x.tapKey == k.fr.key && tapHolds x g (linesNeeded x.p none size k.lines)) = true := by
    cases t with
    | none => rfl
    | some g =>
      obtain ⟨hkey, hholds⟩ := hpassed g rfl
      simp [hkey, hholds]
  exact if_pos hgo

/-! ### Frames and slices at an engine -/

theorem execEncodeFrameStart_of_ready {e : Fin 2} {s : State} {n : Nat} {x : Enc} {f : EncFrame}
    (hidle : (s.encEngine e.val).work = none) (hready : readyFrame s e.val = some (n, x, f)) :
    execEncodeFrameStart e s = .next (startFrame s e.val n x f) := by
  simp only [execEncodeFrameStart, hidle, hready, Option.isSome_none, Bool.false_eq_true, if_false]

theorem execSlicePublish_of_ready {e : Fin 2} {c : SliceCode} {s : State} {w : EncWork} {x : Enc}
    (hw : (s.encEngine e.val).work = some w) (hx : tfind s.encs w.enc = some x) (hkeep : (s.encEngine e.val).abandon = false)
    (hready : sliceReady s x w = true) (hcode : codeOk s x w c = true) :
    execSlicePublish e c s = .next (putSlice s e.val x w c) := by
  unfold execSlicePublish
  dsimp only
  rw [hw]
  dsimp only
  rw [hx]
  exact if_pos ⟨hkeep, hready, hcode⟩

/-- An abandoned frame leaves its engine and memory as it is; an IDR picture that it was is still owed (R280). -/
theorem execEncodeFrameAbandoned_ends {e : Fin 2} {s : State} {w : EncWork} (hw : (s.encEngine e.val).work = some w)
    (habandon : (s.encEngine e.val).abandon = true) :
    ∃ t, execEncodeFrameAbandoned e s = .next t ∧ (t.encEngine e.val).work = none ∧
      (∀ x, tfind s.encs w.enc = some x → tfind t.encs w.enc = some { x with forceIdr := x.forceIdr || w.idr }) ∧
      t.mem = s.mem := by
  have hidle (g : EncEngine) : ((s.setEncEngine e.val { g with work := none, abandon := false }).encEngine e.val).work = none := by
    rw [setEncEngine_encEngine]
  unfold execEncodeFrameAbandoned
  dsimp only
  rw [hw]
  dsimp only
  rw [if_pos habandon, setEncEngine_encs]
  cases hx : tfind s.encs w.enc with
  | none => exact ⟨_, rfl, hidle _, fun x h => absurd h (by simp), rfl⟩
  | some x => exact ⟨_, rfl, hidle _, fun y h => Option.some.inj h ▸ tfind_tset_same, rfl⟩

/-! ### The RTP transmitter -/

section
variable {e : Fin 16} {s : State} {x : Enc} (hx : tfind s.encs e.val = some x) (hring : x.p.outKind = 2) (hpaced : x.pacedAt ≤ s.ref)
include hx hring hpaced

theorem execRtpTransmit_of_published (hwaits : (settleSent s e.val x).1.consumer ≠ (settleSent s e.val x).1.producer)
    (hup : portUp (settleSent s e.val x).2 (settleSent s e.val x).1.p.port = true) :
    execRtpTransmit e s = .next (transmit (settleSent s e.val x).2 e.val (settleSent s e.val x).1) := by
  unfold execRtpTransmit
  rw [hx]
  dsimp only
  rw [if_pos ⟨hring, hpaced⟩]
  exact if_pos ⟨hwaits, hup⟩

theorem execRtpTransmit_of_empty (hempty : (settleSent s e.val x).1.consumer = (settleSent s e.val x).1.producer) :
    execRtpTransmit e s = .next (settleSent s e.val x).2 := by
  unfold execRtpTransmit
  rw [hx]
  dsimp only
  rw [if_pos ⟨hring, hpaced⟩]
  exact if_neg fun h => h.1 hempty

end

theorem settleSent_of_left {s : State} {e : Nat} {x : Enc} {c : Nat} (hc : x.sending = some c) (hpaced : x.pacedAt ≤ s.ref) :
    (settleSent s e x).1 = { x with consumer := c, sending := none } ∧
      tfind (settleSent s e x).2.encs e = some { x with consumer := c, sending := none } := by
  simp only [settleSent, hc, if_pos hpaced]
  exact ⟨trivial, tfind_tset_same⟩

/-- Settles O45: each event of the converter, the engines and the transmitter under its condition (R260 to R280). -/
theorem encodersCaptureCodeAndSend : Obligations.EncodersCaptureCodeAndSend := by
  unfold Obligations.EncodersCaptureCodeAndSend
  refine ⟨?tide, ?flip, ?line, ?start, ?publish, ?abandoned, ?transmit, ?settle⟩
  case tide => exact fun e s x hx hnew htap hdue => execEncodeFrameDue_of_tide hx hnew htap hdue
  case flip => exact fun e s x hx hnew htap hon hdue => execEncodeFrameDue_of_flip hx hnew htap hon hdue
  case line => exact fun e s x k size hx hk hsize hpassed => execEncodeLineComplete_of_passed hx hk hsize hpassed
  case start => exact fun e s n x f hidle hready => execEncodeFrameStart_of_ready hidle hready
  case publish => exact fun e c s w x hw hx hkeep hready hcode => execSlicePublish_of_ready hw hx hkeep hready hcode
  case abandoned => exact fun e s w hw habandon => execEncodeFrameAbandoned_ends hw habandon
  case transmit =>
    exact fun e s x hx hring hpaced => ⟨execRtpTransmit_of_published hx hring hpaced, execRtpTransmit_of_empty hx hring hpaced⟩
  case settle => exact fun e s x c hc hpaced => settleSent_of_left hc hpaced

end Sys2Proof.Proofs
end

section
/-! PROOFS. Host jobs of the crystallizer: queueing, resume, flush, start and end (R290 to R303). -/

namespace Sys2Proof.Proofs

open Sys2Proof Sys2Proof.Machine Sys2Proof.Safety Sys2Proof.Laws

theorem cmdCrysJob_queues {q : CrysJobP} {a : State} {n : Nat} (hn : crysTarget a q.job = some n) (hfault : crysFault a n q.p = none) :
    cmdCrysJob q a = ok { a.setJob n { p := q.p, st := .queued, outBytes := q.p.outBytes, outBase := q.p.outBase } with
      jobQueue := a.jobQueue ++ [n] } [byte n] := by
  simp only [cmdCrysJob, hn, hfault]
  rfl

section
variable {p : CrysResumeP} {a : State} {j : Job} (hj : tfind a.jobs p.job = some j) (hstopped : j.st = .stopped)
include hj hstopped

theorem cmdCrysResume_drops (hzero : p.outBytes = 0) : cmdCrysResume p a = ok { a with jobs := tdel a.jobs p.job } := by
  simp only [cmdCrysResume, hj, hstopped, hzero, ne_eq, not_true_eq_false, if_false, if_true]

theorem cmdCrysResume_queues (hsome : p.outBytes ≠ 0) (hpermits : dykePermits a idCrys p.outBase p.outBytes true = true) :
    cmdCrysResume p a = ok { a.setJob p.job { j with st := .queued, outBytes := p.outBytes, outBase := p.outBase } with
      jobQueue := a.jobQueue ++ [p.job] } := by
  simp only [cmdCrysResume, hj, hstopped, ne_eq, not_true_eq_false, if_false, if_neg hsome, hpermits, Bool.true_eq_false]
  rfl

end

theorem cmdCrysFlush_adds {p : CrysFlushP} {a : State} {j : Job} (hj : tfind a.jobs p.job = some j)
    (hfault : flushFault ((tfind (readPosition a p.job j).2.jobs p.job).getD j) (readPosition a p.job j).1 p.at_ = none) :
    cmdCrysFlush p a = ok ((readPosition a p.job j).2.setJob p.job
      { (tfind (readPosition a p.job j).2.jobs p.job).getD j with
        flushes := ((tfind (readPosition a p.job j).2.jobs p.job).getD j).flushes ++ [p.at_] }) := by
  simp only [cmdCrysFlush, hj, hfault]

/-- The first waiting job takes the lowest free lane of host jobs (R294). -/
theorem execCrysJobStart_of_free {s : State} {n : Nat} {rest : List Nat} {l : Nat} {j : Job} (hqueue : s.jobQueue = n :: rest)
    (hl : (List.range 16).find? (fun l => (s.lane l).use == 2 && (s.lane l).job.isNone && decide ((s.lane l).freeAt ≤ s.ref)) = some l)
    (hj : tfind s.jobs n = some j) : execCrysJobStart s =
      .next ((State.setJob { s with jobQueue := rest } n { j with st := .running, startAt := s.ref, foundPos := 0 }).setLane l
        { s.lane l with job := some n }) := by
  simp only [execCrysJobStart, hqueue, hl, hj]
  rfl

theorem execCrysDone_of_due {l : Fin 16} {s : State} {n : Nat} {j : Job} (hn : (s.lane l.val).job = some n)
    (hj : tfind s.jobs n = some j)
    (hdue : j.startAt + (runJob j (peekBytes s j.p.inBase j.p.inBytes) 4).cycles * coreT ≤ s.ref) :
    execCrysDone l s = .next (endRun s l.val n j) := by
  simp only [execCrysDone, hn, hj, if_pos hdue]

theorem postFw_lane (s : State) (type vector : Nat) (time : Option Ticks) (payload : List Byte) (l : Nat) :
    (postFw s type vector time payload).lane l = s.lane l :=
  (reports_postFw s type vector time payload).transfers.field (fun u => u.lane l) (by intros; rfl)

theorem endRun_frees_lane (s : State) (l n : Nat) (j : Job) : ((endRun s l n j).lane l).job = none := by
  unfold endRun
  dsimp only
  rw [postFw_lane, setLane_lane]

/-- Settles O46: the commands under their checks, the start of the first waiting job and the end of a run (R290 to R303). -/
theorem crystallizerJobsRun : Obligations.CrystallizerJobsRun := by
  unfold Obligations.CrystallizerJobsRun
  refine ⟨?job, ?resume, ?flush, ?start, ?done⟩
  case job => exact fun c q s a key n hrun hn hfault => next_command_of_runs hrun (cmdCrysJob_queues hn hfault)
  case resume =>
    exact fun c p s a key j hrun hj hstopped => ⟨fun hzero => next_command_of_runs hrun (cmdCrysResume_drops hj hstopped hzero),
      fun hsome hpermits => next_command_of_runs hrun (cmdCrysResume_queues hj hstopped hsome hpermits)⟩
  case flush => exact fun c p s a key j hrun hj hfault => next_command_of_runs hrun (cmdCrysFlush_adds hj hfault)
  case start => exact fun s n rest l j hqueue hl hj => ⟨_, execCrysJobStart_of_free hqueue hl hj, rfl, rfl, rfl⟩
  case done => exact fun l s n j hn hj hdue => ⟨execCrysDone_of_due hn hj hdue, endRun_frees_lane s l.val n j⟩

end Sys2Proof.Proofs
end

section
/-! PROOFS. Network time: the time commands, PTP messages, PPS edges, gates and pulse edges (R322 to R335). -/

namespace Sys2Proof.Proofs

open Sys2Proof Sys2Proof.Machine Sys2Proof.Safety Sys2Proof.Laws

/-! ### Parts of a block of bytes -/

theorem slice_append_of_le {l m : List Byte} {o n : Nat} (h : o + n ≤ l.length) : slice (l ++ m) o n = slice l o n := by
  have htake : ((l ++ m).drop o).take n = (l.drop o).take n := by
    rw [List.drop_append_of_le_length (by omega), List.take_append_of_le_length (by rw [List.length_drop]; omega)]
  simp only [slice, htake]

theorem slice_append_add {l m : List Byte} {k : Nat} (h : l.length = k) (i n : Nat) : slice (l ++ m) (k + i) n = slice m i n := by
  simp only [slice, ← h, List.drop_length_add_append]

theorem slice_one {l : List Byte} {i : Nat} (h : i < l.length) : slice l i 1 = [l[i]] := by
  have hpart : (l.drop i).take 1 = [l[i]] := by rw [List.drop_eq_getElem_cons h, List.take_succ_cons, List.take_zero]
  simp [slice, hpart, zeros]

/-! ### TIME_SET_PROFILE, PULSE_SET and TIME_QUERY -/

theorem cmdTimeSetProfile_sets {p : Profile} {a : State} (hok : profileOk a p = true) :
    cmdTimeSetProfile p a = ok (if a.servo.prof.source = p.source then restartPtp a { a.servo with prof := p, todLag := 0 }
      else
        let b := restartPtp a { a.servo with prof := p, todLag := 0 }
        let d : State := { b with servo := { b.servo with
          sourceAt := b.ref, ppsAt := none, tenBad := false, goodRun := 0, badRun := 0 } }
        if p.source = 4 then setServo (requestWord d 0) .free else setServo d .acquiring) := by
  unfold cmdTimeSetProfile
  dsimp only
  rw [if_pos hok, apply_ite ok, apply_ite ok]

theorem cmdPulseSet_of_output {q : PulseSetP} {a : State} (ht : q.target < 8) (hok : pulseOk a q.p = true) :
    cmdPulseSet q a = ok (putPulse a q.target (if (a.pulse q.target).active then { a.pulse q.target with pend := some q.p }
      else loadPulse a q.p (a.pulse q.target).missed) a.tb) := by
  simp only [cmdPulseSet, if_pos ht, hok, if_true]

theorem cmdPulseSet_of_capture {q : PulseSetP} {a : State} (ht : q.target = 8 ∨ q.target = 9) (hok : captureOk q.p = true) :
    cmdPulseSet q a = ok (a.setCapture (q.target - 8) { a.capture (q.target - 8) with mode := q.p.mode }) := by
  have houtput : ¬ q.target < 8 := by omega
  have hcapture : q.target < 10 ∧ captureOk q.p = true := ⟨by omega, hok⟩
  simp only [cmdPulseSet, if_neg houtput, if_pos hcapture]

/-- The block that TIME_QUERY answers has the time base, the word, the count, the steps and the port states at their offsets
(R335). -/
theorem cmdTimeQuery_answers (a : State) : ∃ r, cmdTimeQuery a = ok (decidePtp a) r ∧ r.length = 80 ∧
    slice r 4 4 = leBytes 4 (a.clk.base / one40 % 1000000000) ∧ slice r 8 6 = leBytes 6 (a.clk.base / one40 / 1000000000) ∧
    slice r 24 4 = leBytes 4 (unsigned 32 a.clk.freqWord) ∧ slice r 40 8 = leBytes 8 a.tide.count ∧
    slice r 56 4 = leBytes 4 a.servo.phaseSteps ∧
    ∀ i, i < 16 → slice r (64 + i) 1 = [byte (portState (decidePtp a) i)] := by
  have hclk : (decidePtp a).clk = a.clk := rfl
  have htide : (decidePtp a).tide = a.tide := rfl
  have hsteps : (decidePtp a).servo.phaseSteps = a.servo.phaseSteps := rfl
  refine ⟨_, rfl, ?_, ?_, ?_, ?_, ?_, ?_, fun i hi => ?_⟩
  · simp
  · simp (disch := simp) only [slice_append_of_le, slice_append_right, hclk]
  · simp (disch := simp) only [slice_append_of_le, slice_append_right, hclk]
  · simp (disch := simp) only [slice_append_of_le, slice_append_right, hclk]
  · simp (disch := simp) only [slice_append_of_le, slice_append_right, htide]
  · simp (disch := simp) only [slice_append_of_le, slice_append_right, hsteps]
  · rw [slice_append_add (by simp), slice_one (by simpa using hi)]
    simp

/-! ### PTP messages -/

section
variable {n : Fin 16} {m : PtpMsg} {s : State} {len stamp : Nat} {rest : List (Nat × Nat)}
  (hin : (s.port n.val).timeIn = (len, stamp) :: rest)
include hin

theorem execPtpReceive_takes (w : Int) (hport : ptpPort (s.setPort n.val { s.port n.val with timeIn := rest }) n.val = true)
    (htransport : m.transport = s.servo.prof.transport) (hdomain : m.domain = s.servo.prof.domain) : execPtpReceive n m w s =
      .next (ptpMessage (s.setPort n.val { s.port n.val with timeIn := rest }) n.val m stamp w) := by
  unfold execPtpReceive
  dsimp only
  rw [hin]
  exact if_pos ⟨hport, htransport, hdomain⟩

theorem execPtpReceive_of_other_domain (w : Int) (hdomain : m.domain ≠ s.servo.prof.domain) : execPtpReceive n m w s =
    .next (s.setPort n.val { s.port n.val with timeIn := rest }) := by
  unfold execPtpReceive
  dsimp only
  rw [hin]
  exact if_neg fun h => hdomain h.2.2

end

theorem execPtpSyncTransmit_of_due {n : Fin 16} {s : State} (hmaster : masterPort s n.val = true)
    (hdue : intervalDue s s.servo.prof.logSync (s.ptpOf n.val).syncAt = true) : execPtpSyncTransmit n s =
      .next (sendPtp (s.setPtp n.val { s.ptpOf n.val with seqSync := ((s.ptpOf n.val).seqSync + 1) % 65536, syncAt := some s.ref })
        n.val (s.ptpOf n.val).seqSync (fine16 (txStamp s n.val % 2)) (.sync false (txStamp s n.val / 2))) :=
  if_pos (Bool.and_eq_true _ _ ▸ ⟨hmaster, hdue⟩)

theorem execPtpAnnounceTransmit_of_due {n : Fin 16} {s : State} (hmaster : masterPort (decidePtp s) n.val = true)
    (hdue : intervalDue (decidePtp s) (decidePtp s).servo.prof.logAnnounce ((decidePtp s).ptpOf n.val).announceAt = true) :
    execPtpAnnounceTransmit n s = .next (sendPtp ((decidePtp s).setPtp n.val { (decidePtp s).ptpOf n.val with
        seqAnnounce := (((decidePtp s).ptpOf n.val).seqAnnounce + 1) % 65536, announceAt := some (decidePtp s).ref })
      n.val ((decidePtp s).ptpOf n.val).seqAnnounce 0 (.announce (announced (decidePtp s)))) := by
  unfold execPtpAnnounceTransmit
  dsimp only
  exact if_pos (Bool.and_eq_true _ _ ▸ ⟨hmaster, hdue⟩)

theorem execPtpDelayReqTransmit_of_due {n : Fin 16} {s : State} (hport : ptpPort s n.val = true) (hslave : portState s n.val = 9)
    (hdue : intervalDue s s.servo.prof.logDelayReq (s.ptpOf n.val).delayAt = true) : execPtpDelayReqTransmit n s =
      .next (sendPtp (s.setPtp n.val { s.ptpOf n.val with
        delayAt := some s.ref, seqDelay := ((s.ptpOf n.val).seqDelay + 1) % 65536,
        delay := some ((s.ptpOf n.val).seqDelay, fine16 (txStamp s n.val)) }) n.val (s.ptpOf n.val).seqDelay 0 .delayReq) :=
  if_pos ⟨hport, hslave, hdue⟩

/-! ### References of the servo -/

theorem execSourceLost_of_gone {s : State} (hgone : sourceGone s = true) (hst : s.servo.st = .locked ∨ s.servo.st = .acquiring) :
    execSourceLost s = .next (setServo (targetWord s (meanWord s)) .holdover) := if_pos ⟨hgone, hst⟩

/-- The state in which a PPS edge of the profile's kind is measured: its seconds are taken up, and the edge is noted (R324). -/
def ppsNoted (s : State) : State :=
  { s with servo := { s.servo with
      todLag := if s.servo.prof.todS = 0 then s.servo.todLag else (s.servo.prof.todS : Int) - nearSecond s, ppsAt := some s.ref,
      prof := { s.servo.prof with todS := 0 } } }

theorem execPpsEdge_of_selected {rising : Bool} {s : State} (hsource : s.servo.prof.source = 1 ∨ s.servo.prof.source = 2)
    (hedge : rising ≠ s.servo.prof.ppsEdge) (w : Int) : execPpsEdge rising w s =
      .next (Machine.measure (ppsNoted s) (some (ppsError (ppsNoted s))) (if s.servo.prof.source = 1 then some w else none)) :=
  if_pos ⟨hsource, hedge⟩

theorem execPpsEdge_of_other (s : State) (w : Int) : execPpsEdge s.servo.prof.ppsEdge w s = .next s :=
  if_neg fun h => h.2 rfl

/-- The state in which a gate of the 10 MHz input has been judged (R323). -/
def gateJudged (s : State) (m : Int) : State := { s with servo := { s.servo with tenBad := decide (5000 < m.natAbs) } }

section
variable {s : State} {m : Int}

theorem execTenMhzGate_of_good (hsource : s.servo.prof.source = 2 ∨ s.servo.prof.source = 3) (hgood : m.natAbs ≤ 5000) (w : Int) :
    execTenMhzGate m w s = (if s.servo.prof.source = 3 then .next (Machine.measure (gateJudged s m) none (some w))
      else if s.servo.st = .locked ∨ s.servo.st = .acquiring then .next (requestWord (gateJudged s m) w)
      else .next (gateJudged s m)) := by
  have hbad : ¬ decide (5000 < m.natAbs) = true := by simpa using hgood
  unfold execTenMhzGate
  dsimp only
  rw [if_pos hsource]
  exact if_neg hbad

theorem execTenMhzGate_of_bad (hsource : s.servo.prof.source = 2 ∨ s.servo.prof.source = 3) (hbad : 5000 < m.natAbs) (w : Int) :
    execTenMhzGate m w s = .next (gateJudged s m) := by
  unfold execTenMhzGate
  dsimp only
  rw [if_pos hsource]
  exact if_pos (decide_eq_true hbad)

end

/-! ### Edges -/

theorem execPulseEdge_of_due {p : Fin 8} {s : State} {t : Nat} (hnext : (s.pulse p.val).next = some t) (hdue : t ≤ tbStamp s) :
    execPulseEdge p s = .next (pulseEdge s p.val (s.pulse p.val) t) := by
  simp only [execPulseEdge, hnext, if_pos hdue]

theorem execEvtInEdge_of_captured {i : Fin 2} {rising : Bool} {s : State}
    (hmode : (if rising then (s.capture i.val).mode.testBit 0 else (s.capture i.val).mode.testBit 1) = true) :
    execEvtInEdge i rising s = .next (s.setCapture i.val (if 16 ≤ (s.capture i.val).fifo.length
      then { s.capture i.val with lost := min 255 ((s.capture i.val).lost + 1) }
      else { s.capture i.val with fifo := (s.capture i.val).fifo ++ [(tbStamp s * halfNs, rising)] })) := by
  have hcaptured : ¬ (!(if rising then (s.capture i.val).mode.testBit 0 else (s.capture i.val).mode.testBit 1)) = true := by
    rw [hmode]
    decide
  unfold execEvtInEdge
  dsimp only
  rw [if_neg hcaptured]
  split <;> rfl

/-- Settles O48: each time command under its checks, and each message, edge and gate under its condition (R322 to R335). -/
theorem timeCommandsAndReferences : Obligations.TimeCommandsAndReferences := by
  unfold Obligations.TimeCommandsAndReferences
  refine ⟨?profile, ?pulse, ?capture, ?query, ?receive, ?sync, ?announce, ?delay, ?lost, ?pps, ?other, ?gate, ?edge, ?event⟩
  case profile => exact fun c p s a key hrun hok => next_command_of_runs hrun (cmdTimeSetProfile_sets hok)
  case pulse => exact fun c q s a key hrun ht hok => next_command_of_runs hrun (cmdPulseSet_of_output ht hok)
  case capture => exact fun c q s a key hrun ht hok => next_command_of_runs hrun (cmdPulseSet_of_capture ht hok)
  case query =>
    intro c s a key hrun
    obtain ⟨r, hr, hblock⟩ := cmdTimeQuery_answers a
    exact ⟨r, next_command_of_runs hrun hr, hblock⟩
  case receive =>
    exact fun n m w s len stamp rest hin => ⟨execPtpReceive_takes hin w, execPtpReceive_of_other_domain hin w⟩
  case sync => exact fun n s hmaster hdue => execPtpSyncTransmit_of_due hmaster hdue
  case announce => exact fun n s hmaster hdue => execPtpAnnounceTransmit_of_due hmaster hdue
  case delay => exact fun n s hport hslave hdue => execPtpDelayReqTransmit_of_due hport hslave hdue
  case lost => exact fun s hgone hst => execSourceLost_of_gone hgone hst
  case pps => exact fun rising w s hsource hedge => execPpsEdge_of_selected hsource hedge w
  case other => exact fun w s => execPpsEdge_of_other s w
  case gate =>
    refine fun m w s => ⟨fun hsource hgood => ?_, fun hsource hgood hst => ?_, fun hsource hbad => execTenMhzGate_of_bad hsource hbad w⟩
    · exact (execTenMhzGate_of_good (.inr hsource) hgood w).trans (if_pos hsource)
    · exact (execTenMhzGate_of_good (.inl hsource) hgood w).trans ((if_neg (by omega)).trans (if_pos hst))
  case edge => exact fun p s t hnext hdue => execPulseEdge_of_due hnext hdue
  case event => exact fun i rising s hmode => execEvtInEdge_of_captured hmode

end Sys2Proof.Proofs
end

section
/-! PROOFS. Training of a Welond link: sensing, adaption, lock, capability and the time-outs (R353 to R355). -/

namespace Sys2Proof.Proofs

open Sys2Proof Sys2Proof.Machine Sys2Proof.Safety Sys2Proof.Laws

theorem elim_true_of_forall {o : Option Ticks} {P : Ticks → Prop} [DecidablePred P] (h : ∀ t, o = some t → P t) :
    o.elim true (fun t => decide (P t)) = true := by
  cases o with
  | none => rfl
  | some t => exact decide_eq_true (h t rfl)

theorem elim_false_of_forall {o : Option Ticks} {P : Ticks → Prop} [DecidablePred P] (h : ∀ t, o = some t → ¬ P t) :
    o.elim false (fun t => decide (P t)) = false := by
  cases o with
  | none => rfl
  | some t => exact decide_eq_false (h t rfl)

/-! ### Bits and packets that come -/

/-- What bits on a lane change of the link's own state. -/
theorem lineIn_wel (s : State) (l i : Nat) (bits : List Bool) : ∃ h e, (lineIn s l i bits).2.wel l =
    { s.wel l with hdrInvalid := h, stuffErr := e } := ⟨_, _, setWel_wel _ l _⟩

theorem lineIn_sound (s : State) (l i : Nat) (bits : List Bool) :
    ((lineIn s l i bits).2.wel l).st = (s.wel l).st ∧ ((lineIn s l i bits).2.wel l).rxLocked = (s.wel l).rxLocked ∧
    ((lineIn s l i bits).2.wel l).exchange = (s.wel l).exchange ∧ ((lineIn s l i bits).2.wel l).laneTries = (s.wel l).laneTries ∧
    ((lineIn s l i bits).2.wel l).since = (s.wel l).since := by
  obtain ⟨h, e, hwel⟩ := lineIn_wel s l i bits
  rw [hwel]
  exact ⟨rfl, rfl, rfl, rfl, rfl⟩

section
variable {s : State} {l channel : Nat} {bs : List (Bool × List Byte)}

theorem packetIn_of_failed (h : packetPayload bs = none) : packetIn s l channel bs =
    (none, countBadPacket (bs.foldl (fun s b => takeBlock s l b) s) l) := by
  simp only [packetIn, h]

theorem packetIn_of_payload {p : List Byte} (h : packetPayload bs = some p) : packetIn s l channel bs =
    (if sopReserved bs = true ∨ sopChannel bs ≠ channel then none else some p, bs.foldl (fun s b => takeBlock s l b) s) := by
  simp only [packetIn, h, Bool.or_eq_true, bne_iff_ne]

theorem packetIn_eq_some {p : List Byte} (h : (packetIn s l channel bs).1 = some p) :
    packetIn s l channel bs = (some p, (packetIn s l channel bs).2) := Prod.ext h rfl

theorem packetIn_eq_none (h : (packetIn s l channel bs).1 = none) :
    packetIn s l channel bs = (none, (packetIn s l channel bs).2) := Prod.ext h rfl

end

/-! ### The events of bring-up -/

section
variable {l : Fin 2} {s : State}

theorem execWelondDetect_senses {m : Nat} (hsense : canSense s l.val = true)
    (hdue : ∀ t, (s.wel l.val).sensedAt = some t → t + 100 * msT ≤ s.ref) (hst : (s.wel l.val).st = .detect)
    (hm : m &&& (s.wel l.val).fitted ≠ 0) : execWelondDetect l m s =
      .next (startAttempt (s.setWel l.val { s.wel l.val with sensing := m &&& (s.wel l.val).fitted, sensedAt := some s.ref })
        l.val) := by
  have hgo : ¬ (canSense s l.val = false ∨ (s.wel l.val).sensedAt.elim true (fun t => decide (t + 100 * msT ≤ s.ref)) = false) := by
    rw [hsense, elim_true_of_forall hdue]
    decide
  simp only [execWelondDetect, if_neg hgo, hst, if_neg hm]

theorem execReceiverAdapted_adapts (m : Nat) (hst : (s.wel l.val).st = .train) : ∃ t, execReceiverAdapted l m s = .next t ∧
    (t.wel l.val).adapted = (s.wel l.val).adapted ||| (m &&& (s.wel l.val).sensing) ∧
    (t.wel l.val).st = (if (t.wel l.val).adapted = (s.wel l.val).sensing then .lock else .train) := by
  refine ⟨_, if_neg (not_not.mpr hst), ?_, ?_⟩ <;> rw [setWel_wel]

section
variable {i : Fin 8} {bits : List Bool} (hst : (s.wel l.val).st = .lock ∨ (s.wel l.val).st = .exchange)
  (hsensing : (s.wel l.val).sensing.testBit i.val = true) (hunlocked : (s.wel l.val).rxLocked.testBit i.val = false)
include hst hsensing hunlocked

theorem not_idle_of_sensing : ¬ (((s.wel l.val).st ≠ .lock ∧ (s.wel l.val).st ≠ .exchange) ∨
    (s.wel l.val).sensing.testBit i.val = false ∨ (s.wel l.val).rxLocked.testBit i.val = true) := by
  rw [hsensing, hunlocked]
  rintro (⟨hlock, hexchange⟩ | h | h)
  · exact hst.elim hlock hexchange
  · cases h
  · cases h

/-- The first lane whose bits give bit and block lock starts EXCHANGE (R353). -/
theorem execWelondLock_locks (hready : laneReady ((lineIn s l.val i.val bits).2.laneRx l.val i.val) = true) :
    ∃ t, execWelondLock l i bits s = .next t ∧ (t.wel l.val).st = .exchange ∧
      (t.wel l.val).rxLocked = (s.wel l.val).rxLocked ||| 1 <<< i.val ∧
      t.laneRx l.val i.val = (lineIn s l.val i.val bits).2.laneRx l.val i.val ∧
      (t.wel l.val).exchange = (if (s.wel l.val).st = .lock then some s.ref else (s.wel l.val).exchange) := by
  obtain ⟨hkeepSt, hkeepLocked, hkeepExchange, -, -⟩ := lineIn_sound s l.val i.val bits
  have hrun := (if_neg (not_idle_of_sensing hst hsensing hunlocked) : execWelondLock l i bits s = _)
  refine ⟨_, hrun.trans (if_pos hready), ?_, ?_, rfl, ?_⟩
  · rw [setWel_wel]
  · rw [setWel_wel]
    exact congrArg (· ||| 1 <<< i.val) hkeepLocked
  · rw [setWel_wel]
    dsimp only
    rw [hkeepSt, hkeepExchange]
    rfl

/-- Bits that leave a lane without lock note the first bit lock of the attempt (R353). -/
theorem execWelondLock_notes (hready : laneReady ((lineIn s l.val i.val bits).2.laneRx l.val i.val) = false) :
    execWelondLock l i bits s = .next ((lineIn s l.val i.val bits).2.setWel l.val { (lineIn s l.val i.val bits).2.wel l.val with
      bitAt := if ((lineIn s l.val i.val bits).2.laneRx l.val i.val).bit = true ∧
          ((lineIn s l.val i.val bits).2.wel l.val).bitAt = none then some (lineIn s l.val i.val bits).2.ref
        else ((lineIn s l.val i.val bits).2.wel l.val).bitAt }) := by
  have hrun := (if_neg (not_idle_of_sensing hst hsensing hunlocked) : execWelondLock l i bits s = _)
  refine hrun.trans ((if_neg (Bool.eq_false_iff.mp hready)).trans ?_)
  simp only [Bool.and_eq_true, Option.isNone_iff_eq_none]

end

theorem execWelondAttemptTimeout_of_attempt (hst : (s.wel l.val).st = .train ∨ (s.wel l.val).st = .lock)
    (hdue : (s.wel l.val).since + 20 * msT ≤ s.ref) : execWelondAttemptTimeout l s = .next (startAttempt s l.val) := by
  unfold execWelondAttemptTimeout
  dsimp only
  rcases hst with hst | hst
  · rw [hst]
    exact if_pos (decide_eq_true hdue)
  · rw [hst]
    exact if_pos (decide_eq_true hdue)

theorem execWelondAttemptTimeout_of_exchange {t : Ticks} (hst : (s.wel l.val).st = .exchange) (ht : (s.wel l.val).exchange = some t)
    (hdue : t + 10 * msT ≤ s.ref) : execWelondAttemptTimeout l s = .next (startAttempt s l.val) := by
  unfold execWelondAttemptTimeout
  dsimp only
  rw [hst]
  dsimp only
  rw [ht, Option.elim_some]
  exact if_pos (decide_eq_true hdue)

section
variable (m : Nat) (hreleased : released s = true) (henable : (s.wel l.val).enable = true)
  (hdue : (s.wel l.val).since + 1000 * msT ≤ s.ref)
include hreleased henable hdue

theorem not_early_of_due : ¬ (released s = false ∨ (s.wel l.val).enable = false ∨ s.ref < (s.wel l.val).since + 1000 * msT) := by
  rw [hreleased, henable]
  rintro (h | h | h)
  · cases h
  · cases h
  · exact Nat.not_lt.mpr hdue h

theorem execWelondRetry_of_foreign (hst : (s.wel l.val).st = .foreign) : execWelondRetry l m s =
    .next (s.setWel l.val { s.wel l.val with since := s.ref, exchange := some s.ref, capAt := none }) := by
  simp only [execWelondRetry, if_neg (not_early_of_due hreleased henable hdue), hst]

theorem execWelondRetry_of_absent (hst : (s.wel l.val).st = .absent) (hm : m &&& (s.wel l.val).fitted ≠ 0) :
    execWelondRetry l m s = .next (retryAttempt (State.setWel { s with clk := { s.clk with lrefB := true } } l.val
      { s.wel l.val with sensing := m &&& (s.wel l.val).fitted }) l.val) := by
  simp only [execWelondRetry, if_neg (not_early_of_due hreleased henable hdue), hst, if_neg hm]

end

theorem execWelondTerminationLost_of_attempt
    (hst : (s.wel l.val).st = .train ∨ (s.wel l.val).st = .lock ∨ (s.wel l.val).st = .exchange) :
    execWelondTerminationLost l s = .next (enterAbsent (s.setWel l.val { s.wel l.val with sensing := 0 }) l.val 5) := if_pos hst

theorem execCapabilitySend_of_due (hst : (s.wel l.val).st = .exchange) (hwire : wireOf s (s.wel l.val) = .blocks)
    (hdue : ∀ t, (s.wel l.val).capAt = some t → t + 10 * usT ≤ s.ref) : execCapabilitySend l s =
      .next (sendPacket (s.setWel l.val { s.wel l.val with capAt := some s.ref }) l.val 3 (s.wel l.val).partner s.ring.device
        (capabilityBytes (ownCapability s l.val))) := by
  have hgo : (exchanging s (s.wel l.val) && (s.wel l.val).capAt.elim true (fun t => decide (t + 10 * usT ≤ s.ref))) = true := by
    rw [elim_true_of_forall hdue, exchanging, hst, hwire]
    rfl
  exact if_pos hgo

theorem execCapabilityReceive_takes {bs : List (Bool × List Byte)} {p : List Byte} {m : Capability}
    (hst : (s.wel l.val).st = .exchange ∨ (s.wel l.val).st = .foreign) (hp : (packetIn s l.val 3 bs).1 = some p)
    (hm : capabilityOf p = some m) (hver : m.ver = 1) :
    execCapabilityReceive l bs s = .next (takeCapability (packetIn s l.val 3 bs).2 l.val m) := by
  have hgo : ¬ ((s.wel l.val).st ≠ .exchange ∧ (s.wel l.val).st ≠ .foreign) := fun h => hst.elim h.1 h.2
  unfold execCapabilityReceive
  rw [if_neg hgo, packetIn_eq_some hp]
  simp only [hm, hver, if_true]

end

/-- A message that passes every check makes the link ACTIVE when it acknowledges (R355). -/
theorem takeCapability_of_sound {s : State} {l : Nat} {m : Capability}
    (hsound : foreignReason (s.setWel l { s.wel l with
        partner := m.device % 4, partnerValid := true, partnerFitted := m.fitted, txLocked := m.rxLocked })
      { s.wel l with partner := m.device % 4, partnerValid := true, partnerFitted := m.fitted, txLocked := m.rxLocked } m = 0) :
    takeCapability s l m = if m.ack then enterActive (s.setWel l { s.wel l with
        partner := m.device % 4, partnerValid := true, partnerFitted := m.fitted, txLocked := m.rxLocked }) l m.tideCount
      else s.setWel l { s.wel l with
        partner := m.device % 4, partnerValid := true, partnerFitted := m.fitted, txLocked := m.rxLocked } :=
  if_neg (not_not.mpr hsound)

/-- Settles O49: each event of bring-up under its condition, and what the blocks and messages that come do (R351 to R355). -/
theorem welondLinksTrain : Obligations.WelondLinksTrain := by
  unfold Obligations.WelondLinksTrain
  refine ⟨?detect, ?adapted, ?lock, ?attempt, ?exchange, ?foreign, ?absent, ?lost, ?send, ?receive, ?packet, ?take⟩
  case detect => exact fun l m s hsense hdue hst hm => execWelondDetect_senses hsense hdue hst hm
  case adapted => exact fun l m s hst => execReceiverAdapted_adapts m hst
  case lock =>
    exact fun l i bits s hst hsensing hunlocked =>
      ⟨execWelondLock_locks hst hsensing hunlocked, execWelondLock_notes hst hsensing hunlocked⟩
  case attempt => exact fun l s hst hdue => execWelondAttemptTimeout_of_attempt hst hdue
  case exchange => exact fun l s t hst ht hdue => execWelondAttemptTimeout_of_exchange hst ht hdue
  case foreign => exact fun l m s hreleased henable hdue hst => execWelondRetry_of_foreign m hreleased henable hdue hst
  case absent => exact fun l m s hreleased henable hdue hst hm => execWelondRetry_of_absent m hreleased henable hdue hst hm
  case lost => exact fun l s hst => execWelondTerminationLost_of_attempt hst
  case send => exact fun l s hst hwire hdue => execCapabilitySend_of_due hst hwire hdue
  case receive => exact fun l bs p m s hst hp hm hver => execCapabilityReceive_takes hst hp hm hver
  case packet =>
    intro l channel bs s
    cases hp : packetPayload bs with
    | none => exact packetIn_of_failed hp
    | some p => exact packetIn_of_payload hp
  case take => exact fun l m s hsound => takeCapability_of_sound hsound

end Sys2Proof.Proofs
end

section
/-! PROOFS. What the lanes of a Welond link keep: the locked lanes while its lines carry traffic, and the receivers (R349, R357). -/

namespace Sys2Proof.Proofs

open Sys2Proof Sys2Proof.Machine Sys2Proof.Safety Sys2Proof.Laws

/-- A field that each round of a loop keeps is kept by the loop. -/
theorem foldl_keeps {A B : Type} {f : State → A → State} (v : State → B) (hf : ∀ s a, v (f s a) = v s) (l : List A) (s : State) :
    v (l.foldl f s) = v s :=
  List.foldlRecOn l f (motive := fun t => v t = v s) rfl fun _ ht a _ => (hf _ a).trans ht

theorem wel_of_wels {s t : State} (h : t.wels = s.wels) (l : Nat) : t.wel l = s.wel l := by
  rw [State.wel, h, State.wel]

/-! ### The locked lanes while the lines carry traffic -/

theorem sendPattern_wels (s : State) (n l i : Nat) : (sendPattern s n l i).wels = s.wels := by
  unfold sendPattern
  dsimp only
  split <;> rfl

theorem sendRows_wels (s : State) (l : Nat) (lanes : List Nat) (rows : List (List LineBlock)) :
    (sendRows s l lanes rows).wels = s.wels := by
  refine foldl_keeps State.wels (fun s e => ?_) _ s
  rfl

theorem setWel_rxLocked {s t : State} {l : Nat} {w : Wel} (h : t.wels = s.wels) (hw : w.rxLocked = (t.wel l).rxLocked) :
    ((t.setWel l w).wel l).rxLocked = (s.wel l).rxLocked := by
  rw [setWel_wel, hw, wel_of_wels h]

theorem drawWithin_wels (s : State) (a b : Int) : (drawWithin s a b).2.wels = s.wels := rfl

theorem drawBool_wels (s : State) : s.drawBool.2.wels = s.wels := rfl

theorem drawBytes_wels (s : State) (n : Nat) : (s.drawBytes n).2.wels = s.wels := rfl

theorem setLaneTx_wels (s : State) (l i : Nat) (t : LaneTx) : (s.setLaneTx l i t).wels = s.wels := rfl

theorem freeLine_rxLocked (s : State) (l : Nat) : ((freeLine s l).wel l).rxLocked = (s.wel l).rxLocked := by
  unfold freeLine
  dsimp only
  refine setWel_rxLocked ((drawWithin_wels _ _ _).trans ?_) rfl
  refine foldl_keeps State.wels (fun s i => ?_) _ s
  rw [setLaneTx_wels, drawWithin_wels, drawBool_wels, drawWithin_wels, drawBool_wels, drawBytes_wels]

theorem retrainLost_rxLocked (s : State) (l : Nat) : ((retrainLost s l).wel l).rxLocked = (s.wel l).rxLocked :=
  setWel_rxLocked (foldl_keeps State.wels (fun s i => sendPattern_wels s _ l i) _ s) rfl

theorem sendSlots_rxLocked (s : State) (l : Nat) : ((sendSlots s l).wel l).rxLocked = (s.wel l).rxLocked := by
  unfold sendSlots
  dsimp only
  split
  · rfl
  · exact setWel_rxLocked (sendRows_wels s l _ _) rfl

theorem sendIdle_rxLocked (s : State) (l : Nat) : ((sendIdle s l).wel l).rxLocked = (s.wel l).rxLocked := by
  unfold sendIdle
  dsimp only
  split
  · rfl
  · exact setWel_rxLocked (sendRows_wels s l _ _) rfl

theorem pumpLine_rxLocked (s : State) (l : Nat) : ((pumpLine s l).wel l).rxLocked = (s.wel l).rxLocked := by
  have hgo (s : State) : ((if (s.wel l).st = .active then sendSlots (retrainLost s l) l else sendIdle s l).wel l).rxLocked =
      (s.wel l).rxLocked := by
    split
    · rw [sendSlots_rxLocked, retrainLost_rxLocked]
    · exact sendIdle_rxLocked s l
  unfold pumpLine
  split
  · rfl
  · exact setWel_rxLocked (foldl_keeps State.wels (fun s i => sendPattern_wels s _ l i) _ s) rfl
  · dsimp only
    rw [hgo]
    split
    · exact freeLine_rxLocked s l
    · rfl

theorem sendControl_rxLocked (s : State) (l : Nat) (b : List Byte) : ((sendControl s l b).wel l).rxLocked = (s.wel l).rxLocked := by
  unfold sendControl
  dsimp only
  rw [setWel_wel]
  exact pumpLine_rxLocked (s.emit (.block l b)) l

theorem sendWidth_rxLocked (s : State) (l : Nat) : ((sendWidth s l).wel l).rxLocked = (s.wel l).rxLocked := by
  unfold sendWidth
  dsimp only
  rw [sendControl_rxLocked, setWel_wel]

/-! ### The receivers of the lanes -/

theorem laneRx_of_lineRx {s t : State} (h : t.lineRx = s.lineRx) (l i : Nat) : t.laneRx l i = s.laneRx l i := by
  rw [State.laneRx, h, State.laneRx]

theorem LineWork.lineRx {s t : State} (h : LineWork s t) : t.lineRx = s.lineRx := h.field State.lineRx (by intros; rfl)

theorem dropLane_laneRx_same (s : State) (l i : Nat) : (dropLane s l i).laneRx l i = {} := by
  unfold State.laneRx dropLane tget
  dsimp only
  rw [tfind_tdel_same]
  rfl

theorem dropLane_laneRx {s : State} {l i : Nat} (h : s.laneRx l i = {}) (j : Nat) : (dropLane s l j).laneRx l i = {} := by
  by_cases hj : 8 * l + i = 8 * l + j
  · obtain rfl : i = j := by omega
    exact dropLane_laneRx_same s l i
  · have hkeep : (dropLane s l j).laneRx l i = s.laneRx l i := by
      unfold State.laneRx dropLane tget tdel
      dsimp only
      rw [tfind_filter (p := fun m => m != 8 * l + j) (bne_iff_ne.mpr hj)]
    exact hkeep.trans h

theorem unlockLanes_laneRx {s : State} {l i : Nat} (h : s.laneRx l i = {}) : (unlockLanes s l).laneRx l i = {} :=
  List.foldlRecOn (List.range 8) (fun s i => dropLane s l i) (motive := fun t => t.laneRx l i = {}) h
    fun _ ht j _ => dropLane_laneRx ht j

theorem dropPeerFrames_lineRx (s : State) (l : Nat) : (dropPeerFrames s l).lineRx = s.lineRx := by
  refine foldl_keeps State.lineRx (fun s n => ?_) _ s
  dsimp only
  split
  · split
    · split <;> rfl
    · rfl
  · rfl

theorem requestPeers_lineRx (s : State) : (requestPeers s).lineRx = s.lineRx := by
  refine foldl_keeps State.lineRx (fun s n => ?_) _ s
  split
  · unfold requestMirror
    dsimp only
    split <;> rfl
  · rfl

section
variable {s : State} {l i : Nat} (h : s.laneRx l i = {})
include h

theorem stopWel_laneRx (st : WelState) : (stopWel s l st).laneRx l i = {} := by
  have hframes : (if (s.wel l).st = .active then dropPeerFrames s l else s).laneRx l i = {} := by
    split
    · exact (laneRx_of_lineRx (dropPeerFrames_lineRx s l) l i).trans h
    · exact h
  unfold stopWel
  dsimp only
  generalize (if (s.wel l).st = .active then dropPeerFrames s l else s) = u at hframes ⊢
  have hlanes : (unlockLanes (u.setWel l { idleWel (u.wel l) st u.ref with lineFrom := u.welT }) l).laneRx l i = {} :=
    unlockLanes_laneRx hframes
  split
  · exact (laneRx_of_lineRx (requestPeers_lineRx _) l i).trans hlanes
  · exact hlanes

theorem startAttempt_laneRx : (startAttempt s l).laneRx l i = {} := by
  unfold startAttempt
  split
  · exact stopWel_laneRx h .absent
  · exact stopWel_laneRx h .train

theorem leaveActive_laneRx : (leaveActive s l).laneRx l i = {} :=
  startAttempt_laneRx (s := s.setWel l { s.wel l with attempts := 0 }) h

end

theorem countChange_lineRx (s : State) (l : Nat) (sending : Bool) : (countChange s l sending).lineRx = s.lineRx := by
  have hpost (s : State) : (postChange s l).lineRx = s.lineRx :=
    (reports_postFw s _ _ _ _).transfers.field State.lineRx (by intros; rfl)
  unfold countChange
  dsimp only
  rw [hpost]
  split <;> rfl

end Sys2Proof.Proofs
end

section
/-! PROOFS. An ACTIVE Welond link: its lanes, and the width, fence and tide messages (R349 to R351, R357, R358, R364 to R367). -/

namespace Sys2Proof.Proofs

open Sys2Proof Sys2Proof.Machine Sys2Proof.Safety Sys2Proof.Laws

/-! ### What a locked lane receives -/

section
variable {s : State} {l i : Nat} {bits : List Bool} (hreceives : receiving (s.wel l) = true)
  (hlocked : (s.wel l).rxLocked.testBit i = true)
include hreceives hlocked

theorem lockedLane_eq : lockedLane s l i bits =
    if ((takeBlocks (lineIn s l i bits).2 l i (lineIn s l i bits).1).wel l).rxLocked.testBit i &&
        !laneReady ((takeBlocks (lineIn s l i bits).2 l i (lineIn s l i bits).1).laneRx l i) then
      laneLost (takeBlocks (lineIn s l i bits).2 l i (lineIn s l i bits).1) l i
    else takeBlocks (lineIn s l i bits).2 l i (lineIn s l i bits).1 :=
  if_pos (Bool.and_eq_true _ _ ▸ ⟨hreceives, hlocked⟩)

theorem lockedLane_loses
    (hstill : ((takeBlocks (lineIn s l i bits).2 l i (lineIn s l i bits).1).wel l).rxLocked.testBit i = true)
    (hready : laneReady ((takeBlocks (lineIn s l i bits).2 l i (lineIn s l i bits).1).laneRx l i) = false) :
    lockedLane s l i bits = laneLost (takeBlocks (lineIn s l i bits).2 l i (lineIn s l i bits).1) l i := by
  rw [lockedLane_eq hreceives hlocked, hstill, hready]
  exact if_pos rfl

theorem lockedLane_keeps (hready : laneReady ((takeBlocks (lineIn s l i bits).2 l i (lineIn s l i bits).1).laneRx l i) = true) :
    lockedLane s l i bits = takeBlocks (lineIn s l i bits).2 l i (lineIn s l i bits).1 := by
  rw [lockedLane_eq hreceives hlocked, hready, Bool.not_true, Bool.and_false]
  exact if_neg Bool.false_ne_true

end

theorem mergeRows_of_waiting {s : State} {l : Nat} (h : mergeRow s l = none) (n : Nat) : mergeRows n s l = s := by
  cases n with
  | zero => rfl
  | succ n => rw [mergeRows, h]

theorem mergeRow_of_empty {s : State} {l i : Nat} (hi : i ∈ rxLanes (s.wel l)) (hempty : (s.laneRx l i).held = []) :
    mergeRow s l = none := by
  have hwaits : ((rxLanes (s.wel l)).map (fun i => (i, (s.laneRx l i).held.head?))).any (fun e => e.2.isNone) = true := by
    simp only [List.any_map, List.any_eq_true]
    exact ⟨i, hi, by simp [hempty]⟩
  exact if_pos (.inr hwaits)

/-- What one of several used lanes gives waits while another has brought nothing (R349). -/
theorem takeBlocks_waits {s : State} {l lane i : Nat} (hlane : lane ∈ rxLanes (s.wel l)) (hi : i ∈ rxLanes (s.wel l))
    (hother : i ≠ lane) (hempty : (s.laneRx l i).held = []) (bs : List LineBlock) :
    takeBlocks s l lane bs = holdBlocks s l lane bs := by
  have hmany : ¬ ((rxLanes (s.wel l)).length ≤ 1 ∨ (rxLanes (s.wel l)).contains lane = false) := by
    rintro (hfew | hout)
    · obtain ⟨a, ha⟩ | hnil : (∃ a, rxLanes (s.wel l) = [a]) ∨ rxLanes (s.wel l) = [] := by
        match rxLanes (s.wel l), hfew with
        | [], _ => exact .inr rfl
        | [a], _ => exact .inl ⟨a, rfl⟩
      · rw [ha, List.mem_singleton] at hlane hi
        exact hother (hi.trans hlane.symm)
      · rw [hnil] at hlane
        cases hlane
    · rw [List.contains_iff_mem.mpr hlane] at hout
      cases hout
  have hkeep : (holdBlocks s l lane bs).laneRx l i = s.laneRx l i :=
    tget_tset_other (by omega)
  unfold takeBlocks
  dsimp only
  rw [if_neg hmany]
  exact mergeRows_of_waiting (mergeRow_of_empty (s := holdBlocks s l lane bs) hi ((congrArg LaneRx.held hkeep).trans hempty)) _

/-! ### A lane that has lost its lock -/

theorem laneLost_of_inactive {s : State} {l : Nat} (i : Nat) (h : (s.wel l).st ≠ .active) : laneLost s l i =
    (dropLane s l i).setWel l { s.wel l with
      rxLocked := (s.wel l).rxLocked &&& (255 ^^^ 1 <<< i), laneTries := tset (s.wel l).laneTries i (0, s.ref) } := if_pos h

theorem laneLost_laneRx (s : State) (l i : Nat) : (laneLost s l i).laneRx l i = {} := by
  have hdrop := dropLane_laneRx_same s l i
  have hleave (w : Wel) : (leaveActive ((dropLane s l i).setWel l w) l).laneRx l i = {} :=
    leaveActive_laneRx (s := (dropLane s l i).setWel l w) hdrop
  have hsend (w : Wel) : (sendWidth ((dropLane s l i).setWel l w) l).lineRx = (dropLane s l i).lineRx := by
    unfold sendWidth
    dsimp only
    exact (lineWork_sendControl _ l _).lineRx
  have hcount (u : State) (w : Wel) (h : u.lineRx = (dropLane s l i).lineRx) :
      (countChange (u.setWel l w) l false).laneRx l i = {} :=
    (laneRx_of_lineRx ((countChange_lineRx (u.setWel l w) l false).trans h) l i).trans hdrop
  unfold laneLost
  dsimp only
  split
  · exact hdrop
  · split
    · exact hleave _
    · split
      · exact hdrop
      · split
        · exact hcount _ _ (hsend _)
        · exact (laneRx_of_lineRx (hsend _) l i).trans hdrop

/-! ### Blocks and fences -/

section
variable {s : State} {l : Nat} {b : List Byte} (hst : (s.wel l).st = .active) (hgood : controlGood b = true)
include hst hgood

theorem takeBlock_of_width (htype : leAt b 0 1 = 3) : takeBlock s l (true, b) = takeWidth (heard s l) l (leAt b 1 1) := by
  unfold takeBlock
  rw [if_neg Bool.noConfusion, if_neg (by rw [hgood]; decide), if_neg (not_not.mpr hst), htype]
  rfl

theorem takeBlock_of_fence (htype : leAt b 0 1 = 2) (hreserved : leAt b 2 1 < 16) :
    takeBlock s l (true, b) = takeFence s l b := by
  unfold takeBlock
  rw [if_neg Bool.noConfusion, if_neg (by rw [hgood]; decide), if_neg (not_not.mpr hst), htype]
  exact if_pos hreserved

end

theorem sendFence_fences (s : State) (l groups origin hops : Nat) : (sendFence s l groups origin hops).fences = s.fences := by
  unfold sendFence
  dsimp only
  split
  · exact (lineWork_sendControl _ l _).field State.fences (by intros; rfl)
  · rfl

theorem postOrigins_fences (s : State) (t : Ticks) (old : Tab Nat) : (postOrigins s t old).fences = s.fences := by
  refine foldl_keeps State.fences (fun s e => ?_) _ s
  split
  · rfl
  · exact (reports_putEvent s _ _ _ _).transfers.field State.fences (by intros; rfl)

/-- A FENCE block replaces the groups of its origin, and leaves the software fences and the ball as they are (R364). -/
theorem takeFence_fences (s : State) (l : Nat) (b : List Byte) :
    (takeFence s l b).fences = { s.fences with wel := tset s.fences.wel (leAt b 2 1 % 4) (leAt b 1 1) } := by
  have hpass : (if leAt b 2 1 / 4 % 4 + 1 < (heard s l).ring.ring then
      sendFence (heard s l) (1 - l) (leAt b 1 1) (leAt b 2 1 % 4) (leAt b 2 1 / 4 % 4 + 1) else heard s l).fences = s.fences := by
    split
    · exact sendFence_fences (heard s l) _ _ _ _
    · rfl
  unfold takeFence
  dsimp only
  generalize (if leAt b 2 1 / 4 % 4 + 1 < (heard s l).ring.ring then
      sendFence (heard s l) (1 - l) (leAt b 1 1) (leAt b 2 1 % 4) (leAt b 2 1 / 4 % 4 + 1) else heard s l) = u at hpass ⊢
  rw [← hpass]
  split
  · rfl
  · exact postOrigins_fences _ _ _

/-! ### Time-outs, retraining and tide messages -/

section
variable {l : Fin 2} {s : State} (hst : (s.wel l.val).st = .active)
include hst

theorem execNarrowingTimeout_of_due {t : Ticks} (ht : (s.wel l.val).narrowAt = some t) (hdue : t + 2 * usT ≤ s.ref) :
    execNarrowingTimeout l s = .next (leaveActive s l.val) := by
  simp only [execNarrowingTimeout, hst, ht, if_pos hdue]

section
variable {i : Fin 8} {bits : List Bool} (hfitted : (s.wel l.val).fitted.testBit i.val = true)
  (hunlocked : (s.wel l.val).rxLocked.testBit i.val = false) (htries : retrainDue s (s.wel l.val) i.val = true)
include hfitted hunlocked htries

theorem not_settled_of_retrainDue : ¬ ((s.wel l.val).st ≠ .active ∨ (s.wel l.val).fitted.testBit i.val = false ∨
    (s.wel l.val).rxLocked.testBit i.val = true ∨ retrainDue s (s.wel l.val) i.val = false) := by
  rw [hst, hfitted, hunlocked, htries]
  decide

/-- A lane whose bits give lock again joins the mask (R358). -/
theorem execLaneRetrain_locks
    (hready : laneReady ((lineIn (dropLane s l.val i.val) l.val i.val bits).2.laneRx l.val i.val) = true) :
    ∃ t, execLaneRetrain l i bits s = .next t ∧ (t.wel l.val).rxLocked = (s.wel l.val).rxLocked ||| 1 <<< i.val := by
  have hrun := (if_neg (not_settled_of_retrainDue hst hfitted hunlocked htries) : execLaneRetrain l i bits s = _)
  refine ⟨_, hrun.trans (if_pos hready), ?_⟩
  rw [sendWidth_rxLocked, setWel_wel]
  exact congrArg (· ||| 1 <<< i.val) (lineIn_sound (dropLane s l.val i.val) l.val i.val bits).2.1

/-- A failed attempt is counted (R358). -/
theorem execLaneRetrain_fails
    (hready : laneReady ((lineIn (dropLane s l.val i.val) l.val i.val bits).2.laneRx l.val i.val) = false)
    (hlate : tryBegan (s.wel l.val) i.val + 20 * msT ≤ s.ref) : execLaneRetrain l i bits s =
      .next ((lineIn (dropLane s l.val i.val) l.val i.val bits).2.setWel l.val
        { (lineIn (dropLane s l.val i.val) l.val i.val bits).2.wel l.val with
          laneTries := tset (s.wel l.val).laneTries i.val ((laneTry (s.wel l.val) i.val).1 + 1, s.ref) }) := by
  have hrun := (if_neg (not_settled_of_retrainDue hst hfitted hunlocked htries) : execLaneRetrain l i bits s = _)
  obtain ⟨-, -, -, hkeepTries, hkeepSince⟩ := lineIn_sound (dropLane s l.val i.val) l.val i.val bits
  have htry : laneTry ((lineIn (dropLane s l.val i.val) l.val i.val bits).2.wel l.val) i.val = laneTry (s.wel l.val) i.val := by
    rw [laneTry, hkeepTries, hkeepSince]
    rfl
  have hbegan : tryBegan ((lineIn (dropLane s l.val i.val) l.val i.val bits).2.wel l.val) i.val = tryBegan (s.wel l.val) i.val := by
    rw [tryBegan, htry, tryBegan]
  refine hrun.trans ((if_neg (Bool.eq_false_iff.mp hready)).trans ((if_pos (hbegan.symm ▸ hlate)).trans ?_))
  rw [htry, hkeepTries]
  rfl

end

theorem execFenceBlockPeriodic_of_due (hdue : (s.wel l.val).fenceAt + slotsT (s.wel l.val).rateCode 1024 ≤ s.welT) :
    execFenceBlockPeriodic l s = .next (sendFence (s.setWel l.val { s.wel l.val with fenceAt := s.welT }) l.val (ownFences s)
      s.ring.device 0) := if_pos ⟨hst, hdue⟩

section
variable {bs : List (Bool × List Byte)} {p : List Byte} (hp : (packetIn s l.val 3 bs).1 = some p) (count depart : Nat)
include hp

/-- A tide message is compared with the own tide count (R367). -/
theorem execTideMessageReceive_of_first : execTideMessageReceive l bs count depart none s =
    .next (checkCounts ((widenRx (heard (packetIn s l.val 3 bs).2 l.val) l.val).setWel l.val
      { (widenRx (heard (packetIn s l.val 3 bs).2 l.val) l.val).wel l.val with
        lastTide := some (depart, (widenRx (heard (packetIn s l.val 3 bs).2 l.val) l.val).pt) }) l.val count 0) := by
  unfold execTideMessageReceive
  rw [if_neg (not_not.mpr hst), packetIn_eq_some hp]

omit hst hp in
theorem reports_checkCounts (s : State) (l count n : Nat) : Reports s (checkCounts s l count n) := by
  unfold checkCounts
  split
  · exact reports_raiseErr s (code := 0x0061) (by decide) _ _ _ _
  · exact .rfl

omit hst hp in
theorem reports_skewAlarm (s : State) (run l skew : Nat) : Reports s (if 3 ≤ run then raiseErr s 0x0060 l skew 0 else s) := by
  split
  · exact reports_raiseErr s (code := 0x0060) (by decide) _ _ _ _
  · exact .rfl

/-- The echo of a tide message gives the skew of the link (R367). -/
theorem execTideMessageReceive_of_echo (d b : Nat) : ∃ t, execTideMessageReceive l bs count depart (some (d, b)) s = .next t ∧
    (t.wel l.val).tideSkew = roundHalfUp (((b : Int) - d) -
      (((widenRx (heard (packetIn s l.val 3 bs).2 l.val) l.val).pt : Int) - depart)) (2 * nsT) ∧
    (t.wel l.val).lastTide = some (depart, (widenRx (heard (packetIn s l.val 3 bs).2 l.val) l.val).pt) := by
  unfold execTideMessageReceive
  rw [if_neg (not_not.mpr hst), packetIn_eq_some hp]
  dsimp only
  have hwel (u : State) (run skew : Nat) : (checkCounts (if 3 ≤ run then raiseErr u 0x0060 l.val skew 0 else u) l.val count 0).wel l.val =
      u.wel l.val :=
    ((reports_skewAlarm u run l.val skew).trans (reports_checkCounts _ l.val count 0)).transfers.field (fun u => u.wel l.val)
      (by intros; rfl)
  refine ⟨_, rfl, ?_, ?_⟩ <;> rw [hwel, setWel_wel]

end

end

/-- Settles O50: each event of an ACTIVE link under its condition, and what its blocks do (R349 to R351, R357, R358, R364, R367). -/
theorem welondLinksNarrowAndRetrain : Obligations.WelondLinksNarrowAndRetrain := by
  unfold Obligations.WelondLinksNarrowAndRetrain
  refine ⟨?lane, ?single, ?several, ?lost, ?narrow, ?block, ?retrain, ?fence, ?periodic, ?tide, ?echo⟩
  case lane =>
    exact fun l i bits s hreceives hlocked =>
      ⟨fun ⟨hstill, hready⟩ => congrArg Host.Outcome.next (lockedLane_loses hreceives hlocked hstill hready), fun hready =>
        have hkeeps := congrArg Host.Outcome.next (lockedLane_keeps hreceives hlocked hready)
        ⟨hkeeps, hkeeps, hkeeps⟩⟩
  case single => exact fun l lane bs s hfew => if_pos (.inl hfew)
  case several => exact fun l lane i bs s hlane hi hother hempty => takeBlocks_waits hlane hi hother hempty bs
  case lost =>
    refine fun l i s => ⟨laneLost_laneRx s l.val i.val, fun hst => ?_⟩
    rw [laneLost_of_inactive i.val hst, setWel_wel]
  case narrow => exact fun l s t hst ht hdue => execNarrowingTimeout_of_due hst ht hdue
  case block => exact fun l b s hst hgood => ⟨takeBlock_of_width hst hgood, takeBlock_of_fence hst hgood⟩
  case retrain =>
    exact fun l i bits s hst hfitted hunlocked htries => ⟨execLaneRetrain_locks hst hfitted hunlocked htries,
      execLaneRetrain_fails hst hfitted hunlocked htries⟩
  case fence =>
    intro l b s
    rw [takeFence_fences]
    exact ⟨rfl, rfl, rfl⟩
  case periodic => exact fun l s hst hdue => execFenceBlockPeriodic_of_due hst hdue
  case tide => exact fun l bs p count depart s hst hp => execTideMessageReceive_of_first hst hp count depart
  case echo => exact fun l bs p count depart d b s hst hp => execTideMessageReceive_of_echo hst hp count depart d b

end Sys2Proof.Proofs
end

section
/-! PROOFS. Mirrors on Welond: requests, mirror sets, the sending of buffers and the packets that come (R360 to R363). -/

namespace Sys2Proof.Proofs

open Sys2Proof Sys2Proof.Machine Sys2Proof.Safety Sys2Proof.Laws

section
variable {l : Fin 2} {s : State} (hst : (s.wel l.val).st = .active)
include hst

section
variable {bs : List (Bool × List Byte)} {p : List Byte} (hp : (packetIn s l.val 3 bs).1 = some p)
include hp

section
variable {m : MirrorAsk}

theorem execMirrorRequest_of_own (horigin : m.origin = (heard (packetIn s l.val 3 bs).2 l.val).ring.device) :
    execMirrorRequest l bs m s = .next
      (if (linkTo (heard (packetIn s l.val 3 bs).2 l.val) m.device).getD l.val = l.val then
        addMirror (heard (packetIn s l.val 3 bs).2 l.val) ((linkTo (heard (packetIn s l.val 3 bs).2 l.val) m.device).getD l.val)
          (askedMirror m)
      else sendAsk (addMirror (heard (packetIn s l.val 3 bs).2 l.val)
          ((linkTo (heard (packetIn s l.val 3 bs).2 l.val) m.device).getD l.val) (askedMirror m))
        ((linkTo (heard (packetIn s l.val 3 bs).2 l.val) m.device).getD l.val) m) := by
  unfold execMirrorRequest
  rw [if_neg (not_not.mpr hst), packetIn_eq_some hp]
  exact if_pos horigin

section
variable (horigin : m.origin ≠ (heard (packetIn s l.val 3 bs).2 l.val).ring.device)
include horigin

theorem execMirrorRequest_of_arrived (hdevice : m.device = (heard (packetIn s l.val 3 bs).2 l.val).ring.device) :
    execMirrorRequest l bs m s = .next (heard (packetIn s l.val 3 bs).2 l.val) := by
  unfold execMirrorRequest
  rw [if_neg (not_not.mpr hst), packetIn_eq_some hp]
  exact (if_neg horigin).trans (if_pos hdevice)

/-- A request between other devices joins the link on its way where it passes here, and goes on (R363). -/
theorem execMirrorRequest_of_passing (hdevice : m.device ≠ (heard (packetIn s l.val 3 bs).2 l.val).ring.device) :
    let r := heard (packetIn s l.val 3 bs).2 l.val
    let out := if leadsTo r l.val m.device m.origin = true then l.val else 1 - l.val
    let b := if onPath r m.origin m.device = true then addMirror r out (askedMirror m) else r
    execMirrorRequest l bs m s = .next (if (b.wel (1 - l.val)).st = .active then sendAsk b (1 - l.val) m else b) := by
  unfold execMirrorRequest
  rw [if_neg (not_not.mpr hst), packetIn_eq_some hp]
  dsimp only
  rw [if_neg horigin, if_neg hdevice]
  exact (apply_ite Host.Outcome.next _ _ _).symm

end

end

/-! ### Mirror sets -/

omit hst hp in
/-- Holding mirrors changes contexts alone. -/
theorem setHeld_keeps (s : State) (n : Nat) (held : Bool) : (setHeld s n held).wels = s.wels ∧ (setHeld s n held).mem = s.mem := by
  unfold setHeld
  dsimp only
  split <;> exact ⟨rfl, rfl⟩

/-- A mirror set is recorded, and memory stays as it is (R360). -/
theorem execMirrorSetReceive_records (held : List (Nat × Nat)) : ∃ t, execMirrorSetReceive l bs held s = .next t ∧
    (t.wel l.val).remoteHeld = held ∧ t.mem = (packetIn s l.val 3 bs).2.mem := by
  have hloop (u : State) : ((u.ctxs.map (·.1)).foldl (fun s n =>
      if (s.ctx n).state = .opened ∧ (s.ctx n).p.type = 3 ∧ linkFrom s (s.ctx n).p.originDevice = some l.val then
        setHeld s n (held.contains ((s.ctx n).p.originDevice, (s.ctx n).p.originContext))
      else s) u).wels = u.wels ∧ ((u.ctxs.map (·.1)).foldl (fun s n =>
      if (s.ctx n).state = .opened ∧ (s.ctx n).p.type = 3 ∧ linkFrom s (s.ctx n).p.originDevice = some l.val then
        setHeld s n (held.contains ((s.ctx n).p.originDevice, (s.ctx n).p.originContext))
      else s) u).mem = u.mem := by
    refine Prod.ext_iff.mp (foldl_keeps (fun s => (s.wels, s.mem)) (fun s n => ?_) _ u)
    split
    · exact Prod.ext (setHeld_keeps s n _).1 (setHeld_keeps s n _).2
    · rfl
  have hother : l.val ≠ 1 - l.val := by omega
  have hset (u : State) : ((sendMirrorSet u (1 - l.val)).wel l.val) = u.wel l.val := setWel_wel_other _ _ _ hother
  unfold execMirrorSetReceive
  rw [if_neg (not_not.mpr hst), packetIn_eq_some hp]
  dsimp only
  generalize hu : (heard (packetIn s l.val 3 bs).2 l.val).setWel l.val
    { (heard (packetIn s l.val 3 bs).2 l.val).wel l.val with remoteHeld := held } = u
  have hheld : (u.wel l.val).remoteHeld = held := by rw [← hu, setWel_wel]
  have hmem : u.mem = (packetIn s l.val 3 bs).2.mem := by rw [← hu]; rfl
  obtain ⟨hwels, hkeep⟩ := hloop u
  generalize List.foldl _ u _ = v at hwels hkeep ⊢
  have hv : (v.wel l.val).remoteHeld = held := (congrArg Wel.remoteHeld (wel_of_wels hwels l.val)).trans hheld
  split
  · exact ⟨_, rfl, (congrArg Wel.remoteHeld (hset v)).trans hv, hkeep.trans hmem⟩
  · exact ⟨_, rfl, hv, hkeep.trans hmem⟩

end

/-! ### Buffers and packets -/

theorem execMirrorBufferSend_sends {n : Fin 192} {m : Mirror} {k : Nat}
    (hm : (s.wel l.val).mirrors.find? (fun m => m.context == n.val && m.originDevice == s.ring.device && m.waiting.isSome) = some m)
    (hk : m.waiting = some k) : execMirrorBufferSend l n s = .next (sendMirror s l.val m k) := by
  unfold execMirrorBufferSend
  dsimp only
  rw [hst, hm]
  dsimp only
  rw [hk]
  rfl

section
variable {p : MirrorPacket}

theorem execMirrorPacketReceive_of_failed (hp : (packetIn s l.val 0 p.blocks).1 = none) :
    execMirrorPacketReceive l p s = .next (packetIn s l.val 0 p.blocks).2 := by
  unfold execMirrorPacketReceive
  rw [if_neg (not_not.mpr hst), packetIn_eq_none hp]

variable {d : List Byte} (hp : (packetIn s l.val 0 p.blocks).1 = some d)
include hp

theorem execMirrorPacketReceive_of_other (hdest : sopDest p.blocks ≠ (heard (packetIn s l.val 0 p.blocks).2 l.val).ring.device) :
    execMirrorPacketReceive l p s = .next (forwardPacket (heard (packetIn s l.val 0 p.blocks).2 l.val) l.val p) := by
  unfold execMirrorPacketReceive
  rw [if_neg (not_not.mpr hst), packetIn_eq_some hp]
  exact if_pos hdest

section
variable (hdest : sopDest p.blocks = (heard (packetIn s l.val 0 p.blocks).2 l.val).ring.device)
include hdest

theorem execMirrorPacketReceive_of_data {o : Nat} {b : List Byte} (hbody : p.body = .data o b) : execMirrorPacketReceive l p s =
    .next ((peersOf (heard (packetIn s l.val 0 p.blocks).2 l.val) (sopSrc p.blocks) p.originContext).foldl
      (fun s n => peerData l.val s n o b) (heard (packetIn s l.val 0 p.blocks).2 l.val)) := by
  unfold execMirrorPacketReceive
  rw [if_neg (not_not.mpr hst), packetIn_eq_some hp]
  refine (if_neg (not_not.mpr hdest)).trans ?_
  rw [hbody]

theorem execMirrorPacketReceive_of_record {x : FreshRecord} (hbody : p.body = .record x) : execMirrorPacketReceive l p s =
    .next ((peersOf (heard (packetIn s l.val 0 p.blocks).2 l.val) (sopSrc p.blocks) p.originContext).foldl
      (fun s n => peerRecord l.val s n x) (heard (packetIn s l.val 0 p.blocks).2 l.val)) := by
  unfold execMirrorPacketReceive
  rw [if_neg (not_not.mpr hst), packetIn_eq_some hp]
  refine (if_neg (not_not.mpr hdest)).trans ?_
  rw [hbody]

end

end

end

theorem sendMirror_of_bytes {s t : State} {l k : Nat} {m : Mirror} {d : List Byte}
    (hd : mirrorBytes s l m.context k m.compress = some (d, t)) : sendMirror s l m k =
      (sendBuffer t l m d ((s.ctx m.context).buf k).record).setWel l
        { (sendBuffer t l m d ((s.ctx m.context).buf k).record).wel l with
          mirrors := ((sendBuffer t l m d ((s.ctx m.context).buf k).record).wel l).mirrors.map
            (fun x => if sameMirror m x then { x with waiting := none } else x) } := by
  simp only [sendMirror, hd]

/-- Settles O51: each event of a mirror under its condition (R360 to R363). -/
theorem mirrorsAreAskedSentAndReceived : Obligations.MirrorsAreAskedSentAndReceived := by
  unfold Obligations.MirrorsAreAskedSentAndReceived
  refine ⟨?request, ?set, ?send, ?sent, ?failed, ?packet⟩
  case request =>
    exact fun l bs p m s hst hp => ⟨execMirrorRequest_of_own hst hp, execMirrorRequest_of_arrived hst hp,
      execMirrorRequest_of_passing hst hp⟩
  case set => exact fun l bs p held s hst hp => execMirrorSetReceive_records hst hp held
  case send => exact fun l n s m k hst hm hk => execMirrorBufferSend_sends hst hm hk
  case sent => exact fun l m k d s t hd => sendMirror_of_bytes hd
  case failed => exact fun l p s hst hp => execMirrorPacketReceive_of_failed hst hp
  case packet =>
    refine fun l p d s hst hp => ⟨execMirrorPacketReceive_of_other hst hp, fun hdest => ?_⟩
    cases hbody : p.body with
    | data o b => exact execMirrorPacketReceive_of_data hst hp hdest hbody
    | record x => exact execMirrorPacketReceive_of_record hst hp hdest hbody

end Sys2Proof.Proofs
end

section
/-! PROOFS. The desk touch sensors: frames, the events of a desk, reports and packets (R461 to R479). -/

namespace Sys2Proof.Proofs

open Sys2Proof Sys2Proof.Machine Sys2Proof.Safety Sys2Proof.Laws

/-! ### Frames and the events of a desk -/

section
variable {d : Fin 4} {s : State}

theorem execTouchFrame_of_due {l : List NodeReading} {noise : List (List Int)}
    (hst : (s.desk d.val).st = .baselining ∨ (s.desk d.val).st = .full) (hdue : framesDue s (s.desk d.val).frameIx 1 = true)
    (hreadings : readingsOk (nodeCount (s.desk d.val)) l = true) (hnoise : noise.length = 4)
    (hsense : noise.all (fun e => e.length == (s.desk d.val).cfg.sense) = true) :
    execTouchFrame d l noise s = .next (touchFrame s d.val (l.map nodeValue) noise) :=
  if_pos ⟨hst, hdue, hreadings, hnoise, hsense⟩

theorem execSlowScanFrame_of_due {l : List NodeReading} (hst : (s.desk d.val).st = .slow)
    (hdue : framesDue s (s.desk d.val).frameIx 30 = true) (hreadings : readingsOk (superCount (s.desk d.val)) l = true) :
    execSlowScanFrame d l s = .next (slowFrame s d.val (l.map nodeValue)) := if_pos ⟨hst, hdue, hreadings⟩

/-- A node that is steadily negative takes its value as baseline, and the contacts and memory stay (R464). -/
theorem execNegRebase_rebases {i : Nat} {n : Node} (hn : tfind (s.desk d.val).nodes i = some n) (hst : (s.desk d.val).st = .full)
    (hsteady : negSteady (s.desk d.val) n = true) : ∃ t, execNegRebase d i s = .next t ∧
      tfind (t.desk d.val).nodes i = some { n with base := 256 * (n.value : Int), negRun := [] } ∧
      (t.desk d.val).contacts = (s.desk d.val).contacts ∧ t.mem = s.mem := by
  have hnode : tget {} (s.desk d.val).nodes i = n := by rw [tget, hn, Option.getD_some]
  have hrun : execNegRebase d i s = .next (s.setDesk d.val (negRebase (s.desk d.val) i)) := by
    unfold execNegRebase
    dsimp only
    rw [hn]
    exact if_pos ⟨hst, hsteady⟩
  refine ⟨_, hrun, ?_, ?_, rfl⟩
  · rw [setDesk_desk, negRebase, hnode]
    exact tfind_tset_same
  · rw [setDesk_desk, negRebase]

theorem execThresholdUpdate_of_due (hdue : thresholdDue (s.desk d.val) = true) :
    execThresholdUpdate d s = .next (s.setDesk d.val (setThreshold (s.desk d.val))) := if_pos hdue

section
variable (hst : (s.desk d.val).st = .full ∨ (s.desk d.val).st = .baselining)
include hst

theorem execChargerNoiseEntry_of_run (hnoise : noiseBegins (s.desk d.val) = true) :
    execChargerNoiseEntry d s = .next (s.setDesk d.val (enterNoise (s.desk d.val))) := if_pos ⟨hst, hnoise⟩

theorem execChargerNoiseExit_of_run (hnoise : noiseEnds (s.desk d.val) = true) :
    execChargerNoiseExit d s = .next (s.setDesk d.val (leaveNoise (s.desk d.val))) := if_pos ⟨hst, hnoise⟩

end

theorem execSlowScanEntry_enters (hst : (s.desk d.val).st = .full) (hslow : (s.desk d.val).cfg.slowEn = true)
    (hafter : (s.desk d.val).cfg.slowAfterS ≠ 0) (hnone : (s.desk d.val).contacts = [])
    (hdue : (s.desk d.val).lastContact + (s.desk d.val).cfg.slowAfterS * secT ≤ s.aon) :
    ∃ t, execSlowScanEntry d s = .next t ∧ (t.desk d.val).st = .slow := by
  refine ⟨_, if_pos ⟨hst, hslow, hafter, hnone, hdue⟩, ?_⟩
  rw [setDesk_desk, slowDesk]

theorem execTouchStuck_of_late {i : Fin 10} {c : Contact} (hc : tfind (s.desk d.val).contacts i.val = some c)
    (hfirst : c.stuck = false) (hlate : c.since + (s.desk d.val).cfg.stuckS * secT < s.aon) :
    execTouchStuck d i s = .next (raiseClass (s.setDesk d.val { s.desk d.val with
      contacts := tset (s.desk d.val).contacts i.val { c with stuck := true }, stuck := sat32 (s.desk d.val).stuck })
      0x0301 1 (d.val + 256 * i.val) (256 * c.d + c.s) ((s.aon - c.since) / secT)) := by
  unfold execTouchStuck
  dsimp only
  rw [hc]
  exact if_pos ⟨hfirst, hlate⟩

theorem execTouchSaturated_of_run {i : Nat} {n : Node} (hn : tfind (s.desk d.val).nodes i = some n) (hfirst : n.satRaised = false)
    (hrun : 240 ≤ n.satRun) : execTouchSaturated d i s = .next (raiseClass (s.setDesk d.val { s.desk d.val with
      nodes := tset (s.desk d.val).nodes i { n with satRaised := true } })
      0x0302 1 d.val (256 * (i % (s.desk d.val).cfg.drive) + i / (s.desk d.val).cfg.drive) 0) := by
  unfold execTouchSaturated
  dsimp only
  rw [hn]
  exact if_pos ⟨hfirst, hrun⟩

theorem execTouchReport_of_ready (hreleased : released s = true)
    (hreport : (s.desk d.val).report = true ∨ s.ctxs.any (fun c => c.2.repeats != 0) = true) (hready : reportsReady s = true) :
    execTouchReport d s = .next (touchReport s) := if_pos ⟨hreleased, hreport, hready⟩

end

/-! ### Touch packets -/

section
variable {l : Fin 2} {bs : List (Bool × List Byte)} {s : State} (hst : (s.wel l.val).st = .active)
include hst

theorem execTouchPacketReceive_of_failed (hp : (packetIn s l.val 2 bs).1 = none) :
    execTouchPacketReceive l bs s = .next (packetIn s l.val 2 bs).2 := by
  unfold execTouchPacketReceive
  rw [if_neg (not_not.mpr hst), packetIn_eq_none hp]

variable {payload : List Byte} (hp : (packetIn s l.val 2 bs).1 = some payload)
include hp

theorem execTouchPacketReceive_of_other (hdest : sopDest bs ≠ (packetIn s l.val 2 bs).2.ring.device)
    (hon : ((packetIn s l.val 2 bs).2.wel (1 - l.val)).st = .active) : execTouchPacketReceive l bs s =
      .next (sendPacket (packetIn s l.val 2 bs).2 (1 - l.val) 2 (sopDest bs) (sopSrc bs) payload) := by
  unfold execTouchPacketReceive
  rw [if_neg (not_not.mpr hst), packetIn_eq_some hp]
  exact (if_pos hdest).trans (if_pos hon)

theorem execTouchPacketReceive_takes {p : TouchPacket} (hdest : sopDest bs = (packetIn s l.val 2 bs).2.ring.device)
    (hpacket : touchPacketOf (sopDest bs) payload = some p)
    (hreturns : returns ((packetIn s l.val 2 bs).2.ctx p.context) = true) :
    let b := (packetIn s l.val 2 bs).2.setCtx p.context { (packetIn s l.val 2 bs).2.ctx p.context with
      remoteDown := remoteDownAfter ((packetIn s l.val 2 bs).2.ctx p.context).remoteDown p }
    execTouchPacketReceive l bs s =
      .next (sendInput b p.context (ofCap p.touchS p.touchNs) (streamDown b p.context) p.records) := by
  unfold execTouchPacketReceive
  rw [if_neg (not_not.mpr hst), packetIn_eq_some hp]
  dsimp only
  rw [if_neg (not_not.mpr hdest), hpacket]
  exact if_pos hreturns

end

/-- Settles O52: each event of a desk under its condition, and what becomes of a touch packet (R461 to R479). -/
theorem touchFramesAndDeskEvents : Obligations.TouchFramesAndDeskEvents := by
  unfold Obligations.TouchFramesAndDeskEvents
  refine ⟨?frame, ?slow, ?baseline, ?rebase, ?threshold, ?noise, ?entry, ?stuck, ?saturated, ?report, ?packet⟩
  case frame => exact fun d l noise s hst hdue hreadings hnoise hsense => execTouchFrame_of_due hst hdue hreadings hnoise hsense
  case slow => exact fun d l s hst hdue hreadings => execSlowScanFrame_of_due hst hdue hreadings
  case baseline => exact fun d s => rfl
  case rebase => exact fun d i s n hn hst hsteady => execNegRebase_rebases hn hst hsteady
  case threshold => exact fun d s hdue => execThresholdUpdate_of_due hdue
  case noise => exact fun d s hst => ⟨execChargerNoiseEntry_of_run hst, execChargerNoiseExit_of_run hst⟩
  case entry => exact fun d s hst hslow hafter hnone hdue => execSlowScanEntry_enters hst hslow hafter hnone hdue
  case stuck => exact fun d i s c hc hfirst hlate => execTouchStuck_of_late hc hfirst hlate
  case saturated => exact fun d i s n hn hfirst hrun => execTouchSaturated_of_run hn hfirst hrun
  case report => exact fun d s hreleased hreport hready => execTouchReport_of_ready hreleased hreport hready
  case packet =>
    exact fun l bs s hst => ⟨execTouchPacketReceive_of_failed hst, fun payload hp =>
      ⟨execTouchPacketReceive_of_other hst hp, fun p hdest hpacket hreturns =>
        execTouchPacketReceive_takes hst hp hdest hpacket hreturns⟩⟩

end Sys2Proof.Proofs
end

section
/-! PROOFS. TOUCH_CONFIG, TOUCH_REBASE and TOUCH_ROUTE (R480 to R482). -/

namespace Sys2Proof.Proofs

open Sys2Proof Sys2Proof.Machine Sys2Proof.Safety Sys2Proof.Laws

/-! ### TOUCH_CONFIG -/

section
variable {p : TouchConfigP} {a : State} (hdesk : p.desk ≤ 3)
include hdesk

theorem cmdTouchConfig_of_busy (hon : (a.desk p.desk).cfg.enable = true)
    (hdiffers : geometryDiffers (a.desk p.desk).cfg p.cfg = true) : cmdTouchConfig p a = refuse a stBusy := by
  simp only [cmdTouchConfig, if_neg (Nat.not_lt.mpr hdesk), hon, hdiffers, Bool.and_self, if_true]

variable (hok : deskConfigOk p.cfg = true)
include hok

theorem cmdTouchConfig_of_enabled (hon : (a.desk p.desk).cfg.enable = true)
    (hsame : geometryDiffers (a.desk p.desk).cfg p.cfg = false) : cmdTouchConfig p a =
      ok (if p.cfg.enable then changeDesk a p.desk p.cfg else disableDesk a p.desk p.cfg) := by
  simp only [cmdTouchConfig, if_neg (Nat.not_lt.mpr hdesk), hon, hsame, hok, Bool.and_false, Bool.false_eq_true, Bool.true_eq_false,
    if_false, if_true]

theorem cmdTouchConfig_of_off (hoff : (a.desk p.desk).cfg.enable = false) : cmdTouchConfig p a =
    ok (if p.cfg.enable then enableDesk a p.desk p.cfg else a.setDesk p.desk { a.desk p.desk with cfg := p.cfg, next := none }) := by
  unfold cmdTouchConfig
  dsimp only
  rw [if_neg (Nat.not_lt.mpr hdesk), hoff, if_neg (by rw [Bool.false_and]; exact Bool.false_ne_true),
    if_neg (Bool.eq_false_iff.not_left.mpr hok), if_neg Bool.false_ne_true]
  split <;> rfl

end

/-! ### TOUCH_REBASE and TOUCH_ROUTE -/

theorem cmdTouchRebase_rebases {p : TouchRebaseP} {a : State} (hdesk : p.desk ≤ 3) (hop : p.op ≠ 3) :
    let k := a.desk p.desk
    let b := cancelContacts (a.setDesk p.desk { k with rebase := k.rebase ++ rebased k p.op })
      (fun d _ x => d == p.desk && (footprint k x).any (fun i => (rebased k p.op).contains i))
    cmdTouchRebase p a = ok b (deskBlock (b.desk p.desk)) := by
  have hfields : ¬ (3 < p.desk ∨ p.op = 3) := by omega
  exact if_neg hfields

section
variable {p : TouchRouteP} {a : State}

theorem cmdTouchRoute_of_absent (hclear : p.clear = true) (habsent : thas (a.desk p.desk).routes p.entry = false) :
    cmdTouchRoute p a = refuse a stBadParam := by
  unfold cmdTouchRoute
  dsimp only
  rw [hclear, habsent]
  exact ite_self _

variable (hdesk : p.desk ≤ 3) (hentry : p.entry ≤ 7)
include hdesk hentry

theorem not_outside_of_le : ¬ (3 < p.desk ∨ 7 < p.entry) := by omega

theorem cmdTouchRoute_sets (hset : p.clear = false) (hok : routeBad a (a.desk p.desk) p.entry p.r = false) : cmdTouchRoute p a =
    ok (a.setDesk p.desk { a.desk p.desk with routes := tset (a.desk p.desk).routes p.entry p.r }) := by
  simp only [cmdTouchRoute, if_neg (not_outside_of_le hdesk hentry), hset, hok, Bool.false_eq_true, if_false]

theorem cmdTouchRoute_clears (hclear : p.clear = true) (hthere : thas (a.desk p.desk).routes p.entry = true) : cmdTouchRoute p a =
    ok (cancelContacts (a.setDesk p.desk (clearRoute (a.desk p.desk) p.entry))
      (fun d _ x => d == p.desk && x.route.map (·.1) == some p.entry)) := by
  simp only [cmdTouchRoute, if_neg (not_outside_of_le hdesk hentry), hclear, hthere, if_true]

end

/-- Settles O53: each form of the three commands under its checks (R480 to R482). -/
theorem touchCommandsComplete : Obligations.TouchCommandsComplete := by
  unfold Obligations.TouchCommandsComplete
  refine ⟨?busy, ?enabled, ?off, ?rebase, ?set, ?clear, ?cleared, ?absent⟩
  case busy =>
    exact fun c p s a key hrun hdesk hok hon hdiffers => next_command_of_runs hrun (cmdTouchConfig_of_busy hdesk hon hdiffers)
  case enabled =>
    exact fun c p s a key hrun hdesk hok hon hsame => next_command_of_runs hrun (cmdTouchConfig_of_enabled hdesk hok hon hsame)
  case off => exact fun c p s a key hrun hdesk hok hoff => next_command_of_runs hrun (cmdTouchConfig_of_off hdesk hok hoff)
  case rebase => exact fun c p s a key hrun hdesk hop => next_command_of_runs hrun (cmdTouchRebase_rebases hdesk hop)
  case set =>
    exact fun c p s a key hrun hdesk hentry hset hok => next_command_of_runs hrun (cmdTouchRoute_sets hdesk hentry hset hok)
  case clear =>
    exact fun c p s a key hrun hdesk hentry hclear hthere =>
      next_command_of_runs hrun (cmdTouchRoute_clears hdesk hentry hclear hthere)
  case cleared => exact fun k e => ⟨rfl, rfl, rfl⟩
  case absent => exact fun c p s a key hrun hclear habsent => next_command_of_runs hrun (cmdTouchRoute_of_absent hclear habsent)

end Sys2Proof.Proofs
end

section
/-! PROOFS. Trim runs: their commands, samples, steps and end (R483 to R493, R500, R501). -/

namespace Sys2Proof.Proofs

open Sys2Proof Sys2Proof.Machine Sys2Proof.Safety Sys2Proof.Laws

theorem slice_self {l : List Byte} {n : Nat} (h : l.length = n) : slice l 0 n = l := by
  rw [← List.append_nil l, slice_append_left h, List.append_nil]

theorem reports_raiseClass (s : State) (code : Nat) {cls : Nat} (h : cls ≠ 3) (obj a b : Nat) (k : ErrKey) :
    Reports s (raiseClass s code cls obj a b k) := by
  have hqueue : raiseClass s code cls obj a b k = queueErr s code cls obj a b k := if_pos (.inl h)
  rw [hqueue]
  exact reports_queueErr s _ _ _ _ _ _

/-! ### TRIM_RUN and TRIM_QUERY -/

section
variable {c : Caller} {p : TrimRunP} {a : State} (hidle : a.trim.run = none)
include hidle

theorem cmdTrimRun_starts (hrun : p.run = true) (hdelta : p.setDelta = true → 2 ≤ p.deltaC ∧ p.deltaC ≤ 20)
    (hclock : a.clk.refclk = true) : cmdTrimRun c p a =
      ⟨startRunNow (settleWrite a) (if p.setDelta then p.deltaC else (settleWrite a).trim.deltaC) (some c), stPending, []⟩ := by
  have hfields : ¬ ((!p.run && !p.setDelta) || (p.setDelta && (decide (p.deltaC < 2) || decide (20 < p.deltaC)))) = true := by
    simp only [hrun, Bool.not_true, Bool.false_and, Bool.false_or, Bool.and_eq_true, Bool.or_eq_true, decide_eq_true_eq]
    rintro ⟨hset, hout⟩
    have hin := hdelta hset
    omega
  unfold cmdTrimRun
  rw [hidle, if_neg (by decide), if_neg hfields, hrun, hclock]
  rfl

theorem cmdTrimRun_writes_delta (hrun : p.run = false) (hset : p.setDelta = true) (hlow : 2 ≤ p.deltaC) (hhigh : p.deltaC ≤ 20) :
    cmdTrimRun c p a = ⟨writeDelta (settleWrite a) c p.deltaC, stPending, []⟩ := by
  have hfields : ¬ ((!p.run && !p.setDelta) || (p.setDelta && (decide (p.deltaC < 2) || decide (20 < p.deltaC)))) = true := by
    simp only [hrun, hset, Bool.not_true, Bool.and_false, Bool.false_or, Bool.true_and, Bool.or_eq_true, decide_eq_true_eq]
    omega
  unfold cmdTrimRun
  rw [hidle, if_neg (by decide), if_neg hfields, hrun]
  rfl

end

theorem cmdTrimQuery_of_entry {a : State} {i x : Nat} (hpoint : trimPointOk i x = true) : cmdTrimQuery ⟨1, i, x⟩ a =
    ok a (leBytes 8 (setShown a i x).select ++ leBytes 8 (setShown a i x).failed ++ leBytes 4 (unsigned 32 (setShown a i x).value) ++
      [byte (setShown a i x).flags] ++ zeros 3) := if_pos hpoint

/-! ### The end of a run and the temperature -/

section
variable {s : State} {r : TrimRun} {w : NvmWrite} (hr : s.trim.run = some r) (hw : s.trim.write = some w) (hleft : r.left = [])
  (hwritten : w.records.length ≤ w.written)
include hr hw hleft hwritten

theorem execTrimRunComplete_eq : execTrimRunComplete s = (match r.caller with
    | some c => if overdue s c 0x0E01 then .next (undoRun s c) else .next (completeRun s r w)
    | none => .next (completeRun s r w)) := by
  have hdone : ¬ (r.left ≠ [] ∨ w.written < w.records.length) := by
    rintro (h | h)
    · exact h hleft
    · exact Nat.not_lt.mpr hwritten h
  unfold execTrimRunComplete
  rw [hr, hw]
  refine (if_neg hdone).trans ?_
  cases r.caller <;> rfl

theorem execTrimRunComplete_completes (hbound : ∀ c, r.caller = some c → overdue s c 0x0E01 = false) :
    execTrimRunComplete s = .next (completeRun s r w) := by
  rw [execTrimRunComplete_eq hr hw hleft hwritten]
  cases hc : r.caller with
  | none => rfl
  | some c => exact if_neg (Bool.eq_false_iff.mp (hbound c hc))

theorem execTrimRunComplete_undoes {c : Caller} (hc : r.caller = some c) (hlate : overdue s c 0x0E01 = true) :
    execTrimRunComplete s = .next (undoRun s c) := by
  rw [execTrimRunComplete_eq hr hw hleft hwritten, hc]
  exact if_pos hlate

end

/-- The start of a run keeps the temperature, the sets and memory (R483). -/
theorem startRunNow_keeps (s : State) (deltaC : Nat) (caller : Option Caller) :
    (startRunNow s deltaC caller).trim.tempNow = s.trim.tempNow ∧ (startRunNow s deltaC caller).trim.tempAt = s.trim.tempAt ∧
      (startRunNow s deltaC caller).trim.sets = s.trim.sets ∧ (startRunNow s deltaC caller).mem = s.mem := by
  have hraise (u : State) (uv : Nat) : Reports u (raiseClass u 0x0201 1 0 uv 0) := reports_raiseClass u _ (by decide) _ _ _ _
  have htrim (u : State) (uv : Nat) : (raiseClass u 0x0201 1 0 uv 0).trim = u.trim :=
    (hraise u uv).transfers.field State.trim (by intros; rfl)
  unfold startRunNow
  dsimp only
  unfold startRun
  dsimp only
  split
  · split
    · rw [htrim, (hraise _ _).mem]
      exact ⟨rfl, rfl, rfl, rfl⟩
    · exact ⟨rfl, rfl, rfl, rfl⟩
  · exact ⟨rfl, rfl, rfl, rfl⟩

/-- The die temperature is the highest of the readings, and a run that it starts keeps the sets (R489). -/
theorem execTemperatureSample_takes {l : List Int} {s : State} (hreleased : released s = true) (hlength : l.length = 16)
    (hdue : ∀ t, s.trim.tempAt = some t → t + secT ≤ s.aon) : ∃ t, execTemperatureSample l s = .next t ∧
      t.trim.tempNow = (hottest s l).1 ∧ t.trim.tempAt = some s.aon ∧ t.trim.sets = s.trim.sets ∧ t.mem = s.mem := by
  have hgo : ¬ (released s = false ∨ l.length ≠ 16 ∨ s.trim.tempAt.elim false (fun t => decide (s.aon < t + secT)) = true) := by
    rw [hreleased, elim_false_of_forall fun t ht => Nat.not_lt.mpr (hdue t ht), hlength]
    decide
  have hrun := (if_neg hgo : execTemperatureSample l s = _)
  by_cases hstart : (decide (16 * (s.trim.deltaC : Int) < (hottest s l).1 - tempLast s) ||
      decide (16 * (s.trim.deltaC : Int) < tempLast s - (hottest s l).1)) && s.trim.run.isNone && s.clk.refclk &&
      s.trim.tempRunAt.elim true (fun t => decide (t + 60 * secT ≤ s.aon))
  · refine ⟨_, hrun.trans (if_pos hstart), ?_⟩
    obtain ⟨hnow, hat, hsets, hmem⟩ := startRunNow_keeps { s with trim := { s.trim with
      tempNow := (hottest s l).1, tempAt := some s.aon, tempRunAt := some s.aon } } s.trim.deltaC none
    exact ⟨hnow, hat, hsets, hmem⟩
  · exact ⟨_, hrun.trans (if_neg hstart), rfl, rfl, rfl, rfl⟩

/-! ### Steps of the sequencer -/

section
variable {item index : Nat} {s : State} (hpoint : trimPointOk item index = true)
include hpoint

theorem execTrimElementStep_measures {r : TrimRun} (hr : s.trim.run = some r) {e : Nat} (hmay : mayMeasure s r item index e = true)
    (v : Nat × Nat) (sensor edge : Int) :
    execTrimElementStep item index (.measure e v sensor edge) s = .next (measureEntry s r item index e v sensor edge) := by
  unfold execTrimElementStep
  rw [if_neg (Bool.eq_false_iff.not_left.mpr hpoint), hr]
  exact congrArg Host.Outcome.next (if_pos hmay)

variable (hitem : item = 3 ∨ item = 4) (hdue : stepDue s = true)
include hitem hdue

theorem execTrimElementStep_swaps {r : TrimRun} (hr : s.trim.run = some r) (e f : Nat) :
    execTrimElementStep item index (.move (some e) (some f)) s = .next (swapElement s r item index e f) := by
  unfold execTrimElementStep
  rw [if_neg (Bool.eq_false_iff.not_left.mpr hpoint), hr]
  exact congrArg Host.Outcome.next (if_pos ⟨hitem, hdue⟩)

theorem execTrimElementStep_grows {e f : Option Nat} (hgrows : s.trim.run = none ∨ e = none ∨ f = none) :
    execTrimElementStep item index (.move e f) s = .next (growSet s item index e f) := by
  have hgrow : (Host.Outcome.next (if (item = 3 ∨ item = 4) ∧ stepDue s = true then growSet s item index e f else s) :
      Host.Outcome State Fault Refusal) = .next (growSet s item index e f) := congrArg Host.Outcome.next (if_pos ⟨hitem, hdue⟩)
  unfold execTrimElementStep
  rw [if_neg (Bool.eq_false_iff.not_left.mpr hpoint)]
  cases hr : s.trim.run with
  | none => exact hgrow
  | some r =>
    cases e with
    | none => exact hgrow
    | some e =>
      cases f with
      | none => exact hgrow
      | some f => simp [hr] at hgrows

end

theorem measureEntry_of_value {item index e : Nat} {s : State} {r : TrimRun} (hitem : item ≤ 2) (v : Nat × Nat) (sensor edge : Int) :
    measureEntry s r item index e v sensor edge = applyValue r.absent item index (tracedValue item v sensor)
      { s with trim := { s.trim with run := some (entryDone r item index) } } := if_pos hitem

/-- A swap of a set that need not wait has its new selection in force (R487). -/
theorem swapElement_swaps {item index e f : Nat} {s : State} {r : TrimRun} {old : NvmRec}
    (hold : (tfind s.trim.deferred (trimKey item index)).getD (setInForce s item index) = old)
    (hsound : (tfind (tget [] r.got (trimKey item index)) e).elim false (elementSound item) = true)
    (hspare : old.select.testBit e = false) (hused : old.select.testBit f = true) (hfree : waits s item index = false) :
    ∃ v, tfind (swapElement s r item index e f).trim.sets (trimKey item index) =
      some { old with select := old.select + 2 ^ e - 2 ^ f, value := v } := by
  have hwaits (select : Nat) (x : Option Ticks) :
      waits (stepValue old select { s with trim := { s.trim with stepAt := x } }).2 item index = waits s item index := rfl
  have hgo : ((tfind (tget [] r.got (trimKey item index)) e).elim false (elementSound item) && !old.select.testBit e &&
      old.select.testBit f) = true := by
    rw [hsound, hspare, hused]
    rfl
  unfold swapElement
  dsimp only
  rw [hold, if_pos hgo, if_neg (Bool.eq_false_iff.mp ((hwaits _ _).trans hfree))]
  exact ⟨_, tfind_tset_same⟩

end Sys2Proof.Proofs
end

section
/-! PROOFS. Power states and the core voltage: budgets, queries, the voltage loop, wake-up and rest (R494 to R504). -/

namespace Sys2Proof.Proofs

open Sys2Proof Sys2Proof.Machine Sys2Proof.Safety Sys2Proof.Laws

theorem cmdWakeBudget_takes {b : Budgets} {a : State} (hlow : 10 ≤ b.restS) (hhigh : b.restS ≤ 3600) : cmdWakeBudget b a =
    ok (applyBudgets { a with power := { a.power with budgets := b } }) ([byte (powerTarget b)] ++ zeros 3) := by
  have hfields : ¬ (b.restS < 10 ∨ 3600 < b.restS) := by omega
  exact if_neg hfields

/-- POWER_QUERY answers the state and the target, the wake reason and the core voltage first (R503). -/
theorem cmdPowerQuery_answers (a : State) : ∃ r b, cmdPowerQuery a = ok b r ∧
    slice r 0 4 = [byte (a.power.state + 4 * powerTarget a.power.budgets), byte a.power.wakeReason] ++ leBytes 2 a.power.vdd ∧
    b.power = a.power ∧ b.mem = a.mem ∧ b.heads = a.heads := by
  refine ⟨_, _, rfl, ?_, rfl, rfl, rfl⟩
  simp (disch := simp) only [slice_append_of_le]
  exact slice_self (by simp)

section
variable {s : State}

theorem execAvsSample_of_due {l : List Nat} (hreleased : released s = true) (hlength : l.length = 32) (hcodes : ∀ m ∈ l, m ≤ 63)
    (hdue : ∀ t, s.power.sampledAt = some t → t + 10 * usT ≤ s.ref) :
    execAvsSample l s = .next (avsLoop s (lowestMargin l).1 (lowestMargin l).2) := by
  have hall : l.all (fun m => decide (m ≤ 63)) = true := List.all_eq_true.mpr fun m hm => decide_eq_true (hcodes m hm)
  have hgo : (released s && l.length == 32 && l.all (fun m => decide (m ≤ 63)) &&
      s.power.sampledAt.elim true (fun t => decide (t + 10 * usT ≤ s.ref))) = true := by
    rw [hreleased, hlength, hall, elim_true_of_forall hdue]
    rfl
  exact if_pos hgo

/-- A readback within 10 mV ends the command; another one fails it (R496). -/
theorem execVoutReadback_of_due {t : Nat} (ht : s.power.voutAt = some t) (hdue : t + 40 * usT ≤ s.ref) (ack : Bool) (uv : Nat) :
    execVoutReadback ack uv s =
      .next (if ack = true ∧ 1000 * s.power.vdd ≤ uv + 10000 ∧ uv ≤ 1000 * s.power.vdd + 10000 then
        { pmbus s 0x8B none with power := { (pmbus s 0x8B none).power with retries := 0, voutAt := none, pmbusFail := false } }
      else voutFails (pmbus s 0x8B none)) := by
  unfold execVoutReadback
  rw [ht]
  dsimp only
  rw [if_neg (Nat.not_lt.mpr hdue)]
  by_cases hgood : ack = true ∧ 1000 * s.power.vdd ≤ uv + 10000 ∧ uv ≤ 1000 * s.power.vdd + 10000
  · obtain ⟨hack, hlow, hhigh⟩ := hgood
    have hsound : ¬ (ack = false ∨ uv + 10000 < 1000 * s.power.vdd ∨ 1000 * s.power.vdd + 10000 < uv) := by
      rintro (h | h | h)
      · rw [hack] at h
        cases h
      · exact Nat.not_lt.mpr hlow h
      · exact Nat.not_lt.mpr hhigh h
    rw [if_neg hsound, if_pos ⟨hack, hlow, hhigh⟩]
  · have hfails : ack = false ∨ uv + 10000 < 1000 * s.power.vdd ∨ 1000 * s.power.vdd + 10000 < uv := by
      by_contra hsound
      push Not at hsound
      obtain ⟨hack, hlow, hhigh⟩ := hsound
      exact hgood ⟨Bool.eq_true_of_not_eq_false hack, hlow, hhigh⟩
    rw [if_pos hfails, if_neg hgood]

theorem execWakeIn_wakes {us : Nat} (hheld : 1000 ≤ us) (hrests : s.power.state ≠ 0) (hfirst : s.power.waking = false) :
    execWakeIn us s = .next { s with power := { s.power with waking := true, resume := true, wakeReason := 4 } } := by
  have hgo : ¬ (s.power.state = 0 ∨ s.power.waking = true) := by
    rintro (h | h)
    · exact hrests h
    · rw [hfirst] at h
      cases h
  unfold execWakeIn
  rw [if_pos hheld, wake, if_neg hgo]

theorem execPowerExitDone_of_done (hdone : exitDone s = true) : execPowerExitDone s =
    .next (postPower { s with power := { s.power with state := 0, waking := false } } s.power.state 0) := if_pos hdone

theorem execRestTimeout_of_ready (hready : restReady s = true) : execRestTimeout s =
    .next (if powerTarget s.power.budgets = 3 then beginWarm (enterPower s (powerTarget s.power.budgets)) 2
      else enterPower s (powerTarget s.power.budgets)) := if_pos hready

end

/-- Settles O54: each command under its checks, and each event of trim, voltage and power under its condition (R483 to R504). -/
theorem trimRunsAndPowerStates : Obligations.TrimRunsAndPowerStates := by
  unfold Obligations.TrimRunsAndPowerStates
  refine ⟨?run, ?delta, ?query, ?entry, ?budget, ?power, ?complete, ?temperature, ?measure, ?swap, ?grow, ?swapped, ?sample, ?readback,
    ?wake, ?exit, ?rest⟩
  case run =>
    exact fun c p s a key hruns hrun hdelta hidle hclock => next_command_of_runs hruns (cmdTrimRun_starts hidle hrun hdelta hclock)
  case delta =>
    exact fun c p s a key hruns hrun hset hlow hhigh hidle =>
      next_command_of_runs hruns (cmdTrimRun_writes_delta hidle hrun hset hlow hhigh)
  case query => exact fun c s a key hruns => next_command_of_runs hruns rfl
  case entry => exact fun c s a key i x hruns hpoint => next_command_of_runs hruns (cmdTrimQuery_of_entry hpoint)
  case budget => exact fun c b s a key hruns hlow hhigh => next_command_of_runs hruns (cmdWakeBudget_takes hlow hhigh)
  case power =>
    intro c s a key hruns
    obtain ⟨r, b, hr, hblock⟩ := cmdPowerQuery_answers a
    exact ⟨r, b, next_command_of_runs hruns hr, hblock⟩
  case complete =>
    exact fun s r w hr hw hleft hwritten => ⟨execTrimRunComplete_completes hr hw hleft hwritten,
      fun c hc hlate => execTrimRunComplete_undoes hr hw hleft hwritten hc hlate⟩
  case temperature => exact fun l s hreleased hlength hdue => execTemperatureSample_takes hreleased hlength hdue
  case measure =>
    exact fun item index e v sensor edge s r hr hpoint hmay => ⟨execTrimElementStep_measures hpoint hr hmay v sensor edge,
      fun hitem => measureEntry_of_value hitem v sensor edge⟩
  case swap => exact fun item index e f s r hr hitem hpoint hdue => execTrimElementStep_swaps hpoint hitem hdue hr e f
  case grow => exact fun item index e f s hgrows hitem hpoint hdue => execTrimElementStep_grows hpoint hitem hdue hgrows
  case swapped => exact fun item index e f s r hsound hspare hused hfree => swapElement_swaps rfl hsound hspare hused hfree
  case sample => exact fun l s hreleased hlength hcodes hdue => execAvsSample_of_due hreleased hlength hcodes hdue
  case readback => exact fun ack uv t s ht hdue => execVoutReadback_of_due ht hdue ack uv
  case wake => exact fun us s hheld hrests hfirst => execWakeIn_wakes hheld hrests hfirst
  case exit => exact fun s hdone => execPowerExitDone_of_done hdone
  case rest =>
    refine fun s hready => ⟨fun hlight => ?_, fun hdormant => ?_⟩
    · exact (execRestTimeout_of_ready hready).trans (congrArg Host.Outcome.next (if_neg hlight))
    · exact (execRestTimeout_of_ready hready).trans (congrArg Host.Outcome.next ((if_pos hdormant).trans (by rw [hdormant])))

end Sys2Proof.Proofs
end

section
/-! PROOFS. Host window A: reads that latch, interrupt and event-ring registers, mailboxes, register writes and the sluice (R199, R401
to R407, R420 to R423). -/

namespace Sys2Proof.Proofs

open Sys2Proof Sys2Proof.Machine Sys2Proof.Safety Sys2Proof.Laws

section
variable {s : State}

/-- A mask that keeps every bit set sends no message. -/
theorem writeMask_of_kept {v : BitVec 32} (hkept : ∀ i, s.irq.mask.getLsbD i = true → v.getLsbD i = true) :
    writeMask v s = { s with irq := { s.irq with mask := v } } := by
  have hnone (i : Nat) (t : State) : ¬ (s.irq.mask.getLsbD i && !v.getLsbD i && t.irq.status.getLsbD i) = true := by
    cases hmask : s.irq.mask.getLsbD i with
    | false => simp
    | true => simp [hkept i hmask]
  unfold writeMask
  refine List.foldlRecOn (List.range 32) _ (motive := fun t => t = { s with irq := { s.irq with mask := v } }) rfl fun t ht i _ => ?_
  rw [if_neg (hnone i t)]
  exact ht

theorem writeEnable_starts {v : BitVec 32} (hv : v.getLsbD 0 = true) (hoff : s.evr.enable = false) : writeEnable v s =
    { s with evr := { s.evr with enable := true, prod := 0, cons := 0, phase := true, seq := 0, fullLost := 0 } } := by
  unfold writeEnable
  dsimp only
  rw [hv, hoff]
  rfl

theorem writeCons_of_room {v : BitVec 32} (hin : v.toNat % 65536 < evrSize s.evr) (hlost : s.evr.fullLost = 0) :
    writeCons v s = { s with evr := { s.evr with cons := v.toNat % 65536 } } := by
  have hkeep : ¬ (s.evr.enable && decide (0 < s.evr.fullLost) && !evrFull { s.evr with cons := v.toNat % 65536 }) = true := by
    rw [hlost]
    simp
  unfold writeCons
  dsimp only
  rw [if_neg (Nat.not_le.mpr hin), if_neg hkeep]

/-! ### Mailboxes -/

section
variable {n : Fin 8} {v : BitVec 32}

/-- GO submits the record of an IDLE mailbox (R407). -/
theorem writeMailbox_of_go (hidle : (s.mailbox n.val).state = 0) (hgo : v.getLsbD 0 = true) :
    writeMailbox n v s = submit n (s.setMailbox n.val { s.mailbox n.val with irqEn := v.getLsbD 2 }) := by
  unfold writeMailbox
  dsimp only
  rw [setMailbox_mailbox]
  dsimp only
  rw [hidle, if_neg fun h => absurd h.1 (by decide), if_pos ⟨rfl, hgo⟩]

/-- ACK frees a DONE mailbox (R407). -/
theorem writeMailbox_of_ack (hdone : (s.mailbox n.val).state = 2) (hack : v.getLsbD 1 = true) :
    (writeMailbox n v s).mailbox n.val = { s.mailbox n.val with irqEn := v.getLsbD 2, state := 0 } := by
  unfold writeMailbox
  dsimp only
  rw [setMailbox_mailbox]
  dsimp only
  rw [hdone, if_pos ⟨rfl, hack⟩, setMailbox_mailbox]

end

/-! ### Register writes and the sluice -/

/-- The data word of an MSI-X entry takes its value (R401). -/
theorem writeMsix_of_data {o : Nat} {v : BitVec 32} (hin : o < 512) (hword : o % 16 / 4 = 2) : writeMsix (o / 4 * 4) v s =
    { s with irq := { s.irq with table := tset s.irq.table (o / 16) ((tget (0, 0) s.irq.table (o / 16)).1, v.toNat) } } := by
  have hentry : o / 4 * 4 / 16 = o / 16 := by omega
  have hdata : o / 4 * 4 % 16 / 4 = 2 := by omega
  have htable : ¬ 0x200 ≤ o / 4 * 4 := by omega
  simp only [writeMsix, hentry, hdata, if_neg htable]

section
variable {o : Nat} {v : BitVec 32} (hup : hostUp s = true)
include hup

theorem execRegisterWrite_of_hwa (hin : o < 65536) : execRegisterWrite .hwa o v s = .next (writeHwa o v s) := by
  simp only [execRegisterWrite, hup, Bool.true_eq_false, if_false, if_pos hin]

theorem execRegisterWrite_of_data (hin : o < 512) (hword : o % 16 / 4 = 2) : execRegisterWrite .msix o v s =
    .next { s with irq := { s.irq with table := tset s.irq.table (o / 16) ((tget (0, 0) s.irq.table (o / 16)).1, v.toNat) } } := by
  have hbar : o < 8192 := by omega
  unfold execRegisterWrite
  rw [if_neg (Bool.eq_false_iff.not_left.mpr hup)]
  dsimp only
  rw [if_pos hbar, writeMsix_of_data hin hword]

theorem execRegisterWrite_of_control : execRegisterWrite .msixControl o v s =
    .next (sendPending { s with irq := { s.irq with funcMask := v.getLsbD 30 } }) :=
  if_neg (Bool.eq_false_iff.not_left.mpr hup)

end

theorem execSluiceDatagram_of_tokens {n : Fin 16} (src : IpAddr) (u : Nat) {len : Nat} (l : List Byte) (hup : portUp s n.val = true)
    (hen : (s.port n.val).sluiceEn = true) (htokens : tokens len ≤ (fillBuckets (s.port n.val) s.net).sluiceTokens) :
    let p := fillBuckets (s.port n.val) s.net
    let b := s.setPort n.val { p with sluiceRx := sat32 p.sluiceRx, sluiceTokens := p.sluiceTokens - tokens len }
    execSluiceDatagram n src u len l s = .next (if l.length < 32 then sluiceDropped b n.val else sluiceRecord n src u l b) := by
  have hgo : (portUp s n.val && (s.port n.val).sluiceEn) = true := by rw [hup, hen]; rfl
  unfold execSluiceDatagram
  rw [if_pos hgo]
  dsimp only
  rw [if_neg (Nat.not_lt.mpr htokens)]
  exact (apply_ite Host.Outcome.next _ _ _).symm

end

/-- Settles O55: each register access of a working host link, and each datagram with tokens (R199, R401 to R407, R420 to R423). -/
theorem hostRegistersMailboxesAndSluice : Obligations.HostRegistersMailboxesAndSluice := by
  unfold Obligations.HostRegistersMailboxesAndSluice
  refine ⟨?count, ?time, ?clear, ?kept, ?mask, ?unmask, ?enable, ?cons, ?go, ?ack, ?write, ?datagram⟩
  case count => exact fun wide s hup => if_pos hup
  case time => exact fun s hup => if_pos hup
  case clear => exact fun v s hup => if_pos hup
  case kept => exact fun v s hup hkept => (if_pos hup).trans (congrArg Host.Outcome.next (writeMask_of_kept hkept))
  case mask => exact fun v s hup => if_pos hup
  case unmask => exact fun e f s hup => if_pos hup
  case enable => exact fun v s hup hv hoff => (if_pos hup).trans (congrArg Host.Outcome.next (writeEnable_starts hv hoff))
  case cons => exact fun v s hup hin hlost => (if_pos hup).trans (congrArg Host.Outcome.next (writeCons_of_room hin hlost))
  case go => exact fun n v s hup hidle hgo => (if_pos hup).trans (congrArg Host.Outcome.next (writeMailbox_of_go hidle hgo))
  case ack => exact fun n v s hup hdone hack => ⟨_, if_pos hup, writeMailbox_of_ack hdone hack⟩
  case write =>
    exact fun o v s hup => ⟨execRegisterWrite_of_hwa hup, execRegisterWrite_of_data hup, execRegisterWrite_of_control (o := o) hup⟩
  case datagram => exact fun n src u len l s hup hen htokens => execSluiceDatagram_of_tokens src u l hup hen htokens

end Sys2Proof.Proofs
end

section
/-! PROOFS. Beds and skims: loading, storing, applying, approving, and the messages between devices (R418, R419, R449 to R458). -/

namespace Sys2Proof.Proofs

open Sys2Proof Sys2Proof.Machine Sys2Proof.Safety Sys2Proof.Laws

/-! ### BED_LOAD and SKIM_STORE -/

section
variable {p : BedLoadP} {a b t : State} {l : List Byte} {poisoned : Bool} (hchans : a.start.failedChans = [])
  (hread : dykePermits a idWarden p.addr p.bytes false = true) (hsize : p.bytes ≤ 2 ^ 20)
  (hl : wardenRead a p.addr p.bytes = (l, poisoned, b))
include hchans hread hsize hl

theorem cmdBedLoad_accepts {bed : Bed} (hcheck : checkBed b l p.bytes = .ok (bed, t)) :
    cmdBedLoad p a = ok (acceptBed (retainBed t l) bed) (leBytes 8 (nextCount t)) := by
  unfold cmdBedLoad
  rw [if_neg (not_not.mpr hchans), if_neg (by rw [hread]; decide), if_pos hsize, hl]
  dsimp only
  rw [hcheck]

theorem cmdBedLoad_of_fault {f : BedFault} (hcheck : checkBed b l p.bytes = .error (f, t)) :
    cmdBedLoad p a = ⟨t, f.status, faultBlockBed f⟩ := by
  unfold cmdBedLoad
  rw [if_neg (not_not.mpr hchans), if_neg (by rw [hread]; decide), if_pos hsize, hl]
  dsimp only
  rw [hcheck]

end

theorem cmdSkimStore_stores {c : Caller} {p : SkimStoreP} {a b : State} {l : List Byte} {poisoned : Bool} {k : Nat}
    (hk : skimTarget a p.skim = some k) (hle : k ≤ 31) (hfree : slotLive a k = false)
    (hread : dykePermits a idWarden p.addr p.bytes false = true) (hsize : p.bytes ≤ 2 ^ 16)
    (hl : wardenRead a p.addr p.bytes = (l, poisoned, b)) (hfault : skimFault b l p.bytes = none)
    (hring : p.loc = false → ringReachable a = true ∧ (b.ring.ring = 0 ∨ p.acked = true)) :
    cmdSkimStore c p a = ok (storeSkim (if p.loc then b else sendSkim b (skimArgs (.store k (callerRole b c) l))) k l (callerRole b c))
      ([byte k, 0#8, 0#8, 0#8] ++ leBytes 4 (leAt l (l.length - 4) 4)) := by
  have hbusy : ¬ (slotLive a k || (!p.loc && !ringReachable a)) = true := by
    cases hloc : p.loc with
    | true => simp [hfree]
    | false => simp [hfree, (hring hloc).1]
  have hacked : ¬ (!p.loc && b.ring.ring != 0 && !p.acked) = true := by
    cases hloc : p.loc with
    | true => simp
    | false => rcases (hring hloc).2 with h | h <;> simp [h]
  unfold cmdSkimStore
  rw [hk]
  dsimp only
  rw [if_neg (Nat.not_lt.mpr hle), if_neg hbusy, if_neg (by rw [hread]; decide), if_pos hsize, hl]
  dsimp only
  rw [hfault]
  exact if_neg hacked

/-! ### SKIM_APPLY -/

/-- What SKIM_APPLY tells the other devices of the apply (R454). -/
def toldApply (p : SkimApplyP) (k : Skim) (a : State) : State :=
  if p.loc then a else sendSkim a (skimArgs (.apply p.skim p.tide a.tide.count k.dual))

section
variable {c : Caller} {p : SkimApplyP} {a : State} {k : Skim} (happly : p.cancel = false)
  (hbed : (answersOf p a).contains .bedDiffers = false) (hfault : applyFault a p.skim p.tide = none)
  (hpeers : peersFault (answersOf p a) = none) (hk : tfind a.cfg.skims p.skim = some k)
  (hfree : a.cfg.applies.any (fun x => x.tide == p.tide) = false) (hroom : a.cfg.applies.length < 8)
  (hrole : p.loc = true → 2 ≤ callerRole a c)
include happly hbed hfault hpeers hk hfree hroom hrole

theorem cmdSkimApply_eq : cmdSkimApply c p a =
    if k.dual then
      if a.approvals.any (fun x => x.skim == p.skim) then refuse a stBusy
      else if 4 ≤ a.approvals.length then refuseFull a stLimit 10
      else ⟨holdApply c (toldApply p k a) p.skim p.tide p.loc, stApprovalNeeded, []⟩
    else ok (addApply (toldApply p k a) ⟨p.skim, p.tide, false, p.loc⟩) := by
  have hdenied : ¬ (p.loc = true ∧ callerRole a c < 2) := fun h => Nat.not_lt.mpr (hrole h.1) h.2
  unfold cmdSkimApply
  rw [happly, if_neg Bool.false_ne_true, hbed, if_neg Bool.false_ne_true, hfault]
  dsimp only
  rw [hpeers]
  dsimp only
  rw [hk]
  dsimp only
  rw [finishApply, hfree, if_neg Bool.false_ne_true, if_neg (Nat.not_le.mpr hroom), if_neg hdenied]
  rfl

theorem cmdSkimApply_schedules (hsingle : k.dual = false) : cmdSkimApply c p a =
    ok (addApply (toldApply p k a) ⟨p.skim, p.tide, false, p.loc⟩) := by
  rw [cmdSkimApply_eq happly hbed hfault hpeers hk hfree hroom hrole, hsingle]
  exact if_neg Bool.false_ne_true

theorem cmdSkimApply_holds (hdual : k.dual = true) (hnone : a.approvals.any (fun x => x.skim == p.skim) = false)
    (hfew : a.approvals.length < 4) : cmdSkimApply c p a =
    ⟨holdApply c (toldApply p k a) p.skim p.tide p.loc, stApprovalNeeded, []⟩ := by
  rw [cmdSkimApply_eq happly hbed hfault hpeers hk hfree hroom hrole, hdual, hnone, if_pos rfl, if_neg Bool.false_ne_true,
    if_neg (Nat.not_le.mpr hfew)]

end

theorem cmdSkimApply_of_cancel {c : Caller} {p : SkimApplyP} {a : State} (hcancel : p.cancel = true) :
    cmdSkimApply c p a = cancelApply c p a := if_pos hcancel

/-! ### SKIM_APPROVE, CONFIG_QUERY and skim messages -/

theorem cmdSkimApprove_releases {c : Caller} {p : SkimApproveP} {a : State} {x : Approval}
    (hx : a.approvals.find? (fun x => x.skim == p.skim) = some x) (hkey : (openSession a c).map (·.keySlot) ≠ some x.keySlot)
    (htide : x.tide = p.tide) (hintime : a.ref < x.at_ + 30 * secT) (hahead : a.tide.count + 2 ≤ x.tide)
    (hacked : p.acked = true ∨ appliesAway a x = false) : cmdSkimApprove c p a = ok (approve c x a) := by
  have hreaches : ¬ (x.tide < a.tide.count + 2 ∨ (p.acked = false ∧ appliesAway a x = true)) := by
    rintro (h | ⟨h, haway⟩)
    · exact Nat.not_lt.mpr hahead h
    · rcases hacked with hack | hnone
      · rw [hack] at h
        cases h
      · rw [hnone] at haway
        cases haway
  unfold cmdSkimApprove
  dsimp only
  rw [hx]
  dsimp only
  rw [if_neg hkey, if_neg (not_not.mpr htide), if_neg (Nat.not_le.mpr hintime), if_neg hreaches]

theorem cmdConfigQuery_of_slot {a : State} {i : Nat} {k : Skim} (hi : i ≤ 31) (hk : tfind a.cfg.skims i = some k) :
    cmdConfigQuery ⟨3, i, 0⟩ a = ok a (slotBlock a i k) := by
  have hfields : ¬ (3 < 3 ∨ 31 < i ∨ (3 ≠ 2 ∧ 0 ≠ 0)) := by omega
  unfold cmdConfigQuery
  dsimp only
  refine (if_neg hfields).trans ?_
  simp only [hk]

section
variable {l : Fin 2} {bs : List (Bool × List Byte)} {p : List Byte} {s : State} (hst : (s.wel l.val).st = .active)
  (hp : (packetIn s l.val 1 bs).1 = some p)
include hst hp

theorem execSkimMessageReceive_handles (m : SkimMsg) (hdest : sopDest bs = (packetIn s l.val 1 bs).2.ring.device)
    (hready : (packetIn s l.val 1 bs).2.start.warden = .ready) :
    execSkimMessageReceive l bs m s = .next (skimMessage (packetIn s l.val 1 bs).2 (sopSrc bs) m) := by
  unfold execSkimMessageReceive
  rw [if_neg (not_not.mpr hst), packetIn_eq_some hp]
  dsimp only
  rw [if_neg (not_not.mpr hdest), if_pos hready]

theorem execSkimMessageReceive_passes (m : SkimMsg) (hdest : sopDest bs ≠ (packetIn s l.val 1 bs).2.ring.device)
    (hon : ((packetIn s l.val 1 bs).2.wel (1 - l.val)).st = .active) : execSkimMessageReceive l bs m s =
      .next (sendBlocks ((packetIn s l.val 1 bs).2.emit (.passed (1 - l.val) (packetOnly bs))) (1 - l.val) (packetOnly bs)) := by
  unfold execSkimMessageReceive
  rw [if_neg (not_not.mpr hst), packetIn_eq_some hp]
  dsimp only
  rw [if_pos hdest, if_pos hon]

end

/-- Settles O56: each command under its checks, and what becomes of a skim message (R418, R419, R449 to R458). -/
theorem bedsAndSkimsComplete : Obligations.BedsAndSkimsComplete := by
  unfold Obligations.BedsAndSkimsComplete
  refine ⟨?bed, ?store, ?apply, ?cancel, ?approve, ?config, ?refusals, ?slot, ?message⟩
  case bed =>
    intro c p s a key hrun hchans hread hsize
    dsimp only
    cases hcheck : checkBed (wardenRead a p.addr p.bytes).2.2 (wardenRead a p.addr p.bytes).1 p.bytes with
    | ok x => exact next_command_of_runs hrun (cmdBedLoad_accepts hchans hread hsize rfl hcheck)
    | error x => exact next_command_of_runs hrun (cmdBedLoad_of_fault hchans hread hsize rfl hcheck)
  case store =>
    exact fun c p s a b key l poisoned k hrun hk hle hfree hread hsize hl hfault hring =>
      next_command_of_runs hrun (cmdSkimStore_stores hk hle hfree hread hsize hl hfault hring)
  case apply =>
    exact fun c p s a key k hrun happly hbed hfault hpeers hk hfree hroom hrole =>
      ⟨fun hsingle => next_command_of_runs hrun (cmdSkimApply_schedules happly hbed hfault hpeers hk hfree hroom hrole hsingle),
        fun hdual hnone hfew =>
          next_command_of_runs hrun (cmdSkimApply_holds happly hbed hfault hpeers hk hfree hroom hrole hdual hnone hfew)⟩
  case cancel => exact fun c p s a key hrun hcancel => next_command_of_runs hrun (cmdSkimApply_of_cancel hcancel)
  case approve =>
    exact fun c p s a key x hrun hx hkey htide hintime hahead hacked =>
      next_command_of_runs hrun (cmdSkimApprove_releases hx hkey htide hintime hahead hacked)
  case config => exact fun c s a key hrun => next_command_of_runs hrun rfl
  case refusals => exact fun c s a key hrun => next_command_of_runs hrun rfl
  case slot => exact fun c s a key i k hrun hi hk => next_command_of_runs hrun (cmdConfigQuery_of_slot hi hk)
  case message =>
    exact fun l bs p m s hst hp => ⟨execSkimMessageReceive_handles hst hp m, execSkimMessageReceive_passes hst hp m⟩

end Sys2Proof.Proofs
end

section
/-! PROOFS. A link that is set to ABSENT leaves the other one in its state (R353). -/

namespace Sys2Proof.Proofs

open Sys2Proof Sys2Proof.Machine Sys2Proof.Safety Sys2Proof.Laws

variable (s : State) (l k : Nat)

theorem setWel_st {w : Wel} (h : w.st = (s.wel l).st) : ((s.setWel l w).wel k).st = (s.wel k).st := by
  by_cases hk : k = l
  · rw [hk, setWel_wel, h]
  · rw [setWel_wel_other _ _ _ hk]

theorem requestPeers_st : ((requestPeers s).wel k).st = (s.wel k).st := by
  have hask (s : State) (l : Nat) (a : MirrorAsk) : ((sendAsk s l a).wel k).st = (s.wel k).st := setWel_st s l k rfl
  refine foldl_keeps (fun s => (s.wel k).st) (fun s n => ?_) _ s
  split
  · unfold requestMirror
    dsimp only
    split
    · exact hask _ _ _
    · rfl
  · rfl

theorem dropPeerFrames_wels : (dropPeerFrames s l).wels = s.wels := by
  refine foldl_keeps State.wels (fun s n => ?_) _ s
  dsimp only
  split
  · split
    · split <;> rfl
    · rfl
  · rfl

theorem unlockLanes_wels : (unlockLanes s l).wels = s.wels := by
  refine foldl_keeps State.wels (fun s i => ?_) _ s
  rfl

theorem stopWel_st (st : WelState) : ((stopWel s l st).wel k).st = if k = l then st else (s.wel k).st := by
  have hframes : (if (s.wel l).st = .active then dropPeerFrames s l else s).wels = s.wels := by
    split
    · exact dropPeerFrames_wels s l
    · rfl
  have hidle (u : State) (w : Wel) (hw : w.st = st) (hu : u.wels = s.wels) :
      ((unlockLanes (u.setWel l w) l).wel k).st = if k = l then st else (s.wel k).st := by
    rw [wel_of_wels (unlockLanes_wels _ l)]
    split
    next hk => rw [hk, setWel_wel, hw]
    next hk => rw [setWel_wel_other _ _ _ hk, wel_of_wels hu]
  unfold stopWel
  dsimp only
  split
  · rw [requestPeers_st]
    exact hidle _ _ rfl (dropPeerFrames_wels s l)
  · exact hidle _ _ rfl rfl

theorem enterAbsent_st (reason : Nat) : ((enterAbsent s l reason).wel k).st = if k = l then .absent else (s.wel k).st := by
  unfold enterAbsent
  dsimp only
  refine (setWel_st (stopWel s l .absent) l k ?_).trans (stopWel_st s l k .absent)
  rfl

/-- Every link that is not DISABLED is ABSENT after both have been visited (R14). -/
theorem absent_after_loop (l : Fin 2) (h : (s.wel l.val).st ≠ .disabled) :
    (((List.range 2).foldl (fun s l => if (s.wel l).st = .disabled then s else enterAbsent s l 0) s).wel l.val).st = .absent := by
  have hother (s : State) (l k : Nat) (hk : k ≠ l) :
      ((if (s.wel l).st = .disabled then s else enterAbsent s l 0).wel k).st = (s.wel k).st := by
    split
    · rfl
    · rw [enterAbsent_st, if_neg hk]
  have hown (s : State) (l : Nat) (hl : (s.wel l).st ≠ .disabled) :
      ((if (s.wel l).st = .disabled then s else enterAbsent s l 0).wel l).st = .absent := by
    rw [if_neg hl, enterAbsent_st, if_pos rfl]
  rw [show List.range 2 = [0, 1] from rfl, List.foldl_cons, List.foldl_cons, List.foldl_nil]
  match l with
  | 0 => exact (hother _ 1 0 (by decide)).trans (hown s 0 h)
  | 1 => exact hown _ 1 (by rw [hother s 0 1 (by decide)]; exact h)

end Sys2Proof.Proofs
end

section
/-! PROOFS. The error queue, lost references, the host link, thermal readings and FATAL errors (R14, R405, R435, R438, R514 to R525). -/

namespace Sys2Proof.Proofs

open Sys2Proof Sys2Proof.Machine Sys2Proof.Safety Sys2Proof.Laws

/-! ### ERR_READ and ERR_ACK -/

theorem cmdErrRead_answers {p : ErrReadP} (a : State) (hlow : 1 ≤ p.count) (hhigh : p.count ≤ 14) : cmdErrRead p a =
    ok a ([byte a.errs.length, byte ((a.errs.drop p.first).take p.count).length] ++ leBytes 2 a.errOverflow ++ zeros 4 ++
      ((a.errs.drop p.first).take p.count).flatMap errorBytes) := by
  have hfields : ¬ (p.count < 1 ∨ 14 < p.count) := by omega
  exact if_neg hfields

theorem cmdErrAck_removes {c : Caller} {p : ErrAckP} {a : State} (hnone : p.none = false)
    (hid : a.errs.any (fun r => r.id == p.id) = true)
    (hrole : (∀ r ∈ a.errs.filter (acked p), r.cls < 2) ∨ 2 ≤ callerRole a c) : cmdErrAck c p a =
      ok (endSafe (ackErrors p a)) ([byte (a.errs.filter (acked p)).length, byte (endSafe (ackErrors p a)).errs.length] ++ zeros 2) := by
  have hdenied : ¬ ((a.errs.filter (acked p)).any (fun r => decide (2 ≤ r.cls)) && decide (callerRole a c < 2)) = true := by
    rw [Bool.and_eq_true, decide_eq_true_eq, List.any_eq_true]
    rintro ⟨⟨r, hr, hcls⟩, hlow⟩
    rcases hrole with hlight | hhigh
    · exact Nat.not_lt.mpr (of_decide_eq_true hcls) (hlight r hr)
    · exact Nat.not_lt.mpr hhigh hlow
  unfold cmdErrAck
  dsimp only
  rw [hnone, if_neg Bool.false_ne_true, hid, Bool.not_true, if_neg Bool.false_ne_true, if_neg hdenied]

theorem cmdErrAck_of_none {c : Caller} {p : ErrAckP} {a : State} (hnone : p.none = true) (hid : p.id = 0) (holder : p.older = false)
    (hrole : a.start.safe = true → 2 ≤ callerRole a c) : cmdErrAck c p a =
      ok (endSafe (ackErrors p a)) ([0#8, byte (endSafe (ackErrors p a)).errs.length] ++ zeros 2) := by
  have hfields : ¬ (p.id ≠ 0 ∨ p.older = true) := by simp [hid, holder]
  have hdenied : ¬ (a.start.safe = true ∧ callerRole a c < 2) := fun h => Nat.not_lt.mpr (hrole h.1) h.2
  unfold cmdErrAck
  dsimp only
  rw [if_pos hnone, if_neg hfields, if_neg hdenied]

theorem ackErrors_errs_of_none {p : ErrAckP} (hnone : p.none = true) (s : State) : (ackErrors p s).errs = s.errs := by
  refine List.filter_eq_self.mpr fun r _ => ?_
  simp [acked, hnone]

/-! ### References -/

theorem abandonTrim_run (t : Trim) : (abandonTrim t).run = none := by
  unfold abandonTrim
  split
  next h => exact h
  next => rfl

section
variable {s : State}

section
variable (hboot : s.start.boot ≠ .porst) (hclock : s.clk.refclk = true)
include hboot hclock

theorem execRefclkLost_of_caller {c : Caller} (hc : s.trim.run.bind (·.caller) = some c) : execRefclkLost s =
    .next (finishRunning (raiseErr { s with clk := { s.clk with refclk := false, aonRing := true }, trim := abandonTrim s.trim }
      0x0001 0 0 0) c 0x0E01 stInternal []) := by
  unfold execRefclkLost
  rw [hclock, if_neg (by decide), if_neg hboot]
  dsimp only
  rw [hc]

theorem execRefclkLost_of_none (hc : s.trim.run.bind (·.caller) = none) : execRefclkLost s =
    .next (raiseErr { s with clk := { s.clk with refclk := false, aonRing := true }, trim := abandonTrim s.trim } 0x0001 0 0 0) := by
  unfold execRefclkLost
  rw [hclock, if_neg (by decide), if_neg hboot]
  dsimp only
  rw [hc]

end

theorem execRefclkReturn_of_held {us : Nat} (habsent : s.clk.refclk = false) (hheld : 1000 ≤ us) : execRefclkReturn us s =
    .next { s with clk := { s.clk with
      refclk := true, aonRing := false, refclkSince := s.ref - us * usT, aon := alignAon s.clk } } := by
  have hgo : ¬ (s.clk.refclk || decide (us < 1000)) = true := by
    rw [habsent, Bool.false_or, decide_eq_true_eq]
    exact Nat.not_lt.mpr hheld
  exact if_neg hgo

section
variable (hreleased : released s = true)
include hreleased

theorem execLrefALost_of_present (hclock : s.clk.lrefA = true) : execLrefALost s =
    .next { raiseErr { s with clk := { s.clk with lrefA := false } } 0x0002 0 0 0 with
      ports := tmap (fun _ (p : Port) => { p with link := false })
        (raiseErr { s with clk := { s.clk with lrefA := false } } 0x0002 0 0 0).ports } :=
  if_pos (Bool.and_eq_true _ _ ▸ ⟨hreleased, hclock⟩)

theorem execLrefBLost_of_present (hclock : s.clk.lrefB = true) : execLrefBLost s =
    .next ((List.range 2).foldl (fun s l => if (s.wel l).st = .disabled then s else enterAbsent s l 0)
      (raiseErr { s with clk := { s.clk with lrefB := false } } 0x0002 1 0 0)) :=
  if_pos (Bool.and_eq_true _ _ ▸ ⟨hreleased, hclock⟩)

theorem execWatchdog_of_late (n : Fin 4) {ms : Nat} (hlate : 100 ≤ ms) :
    execWatchdog n ms s = .next (raiseErr s 0x0101 n.val 0 0) :=
  if_pos (Bool.and_eq_true _ _ ▸ ⟨hreleased, decide_eq_true hlate⟩)

end

/-- Every mailbox is IDLE once the host link is down (R405). -/
theorem hostLinkDown_mailbox (s : State) (n : Nat) : ((hostLinkDown s).mailbox n).state = 0 := by
  unfold hostLinkDown State.mailbox tget
  dsimp only
  rw [tfind_tmap]
  cases tfind _ n <;> rfl

/-! ### Thermal readings -/

/-- The state in which the thermal readings have been noted (R524). -/
def thermalNoted (s : State) (x : Int) (armed : Bool) : State :=
  { s with start := { s.start with junction := some x, checkedAt := some s.aon, alertArmed := armed } }

/-- The state in which an armed alert has been raised (R524). -/
def thermalAlert (s : State) (x : Int) (sensor : Nat) : State :=
  raiseErr (thermalNoted s x false) 0x0103 sensor (unsigned 32 x) 0

section
variable {l : List Int} (hboot : s.start.boot ≠ .porst) (hlength : l.length = 20)
  (hdue : ∀ t, s.start.checkedAt = some t → t + msT ≤ s.aon)
include hboot hlength hdue

theorem execThermalCheck_eq {armed : Bool} (harmed : (s.start.alertArmed || decide ((hottest s l).1 < 110 * 16)) = armed) :
    execThermalCheck l s = .next (if 125 * 16 ≤ (hottest s l).1 then
        raiseErr (if armed && decide (115 * 16 ≤ (hottest s l).1) then thermalAlert s (hottest s l).1 (hottest s l).2
          else thermalNoted s (hottest s l).1 armed) 0x0102 (hottest s l).2 (unsigned 32 (hottest s l).1) 0
      else if armed && decide (115 * 16 ≤ (hottest s l).1) then thermalAlert s (hottest s l).1 (hottest s l).2
        else thermalNoted s (hottest s l).1 armed) := by
  have hgo : ¬ (s.start.boot = .porst ∨ l.length ≠ 20 ∨
      s.start.checkedAt.elim false (fun t => decide (s.aon < t + msT)) = true) := by
    rw [elim_false_of_forall fun t ht => Nat.not_lt.mpr (hdue t ht), hlength]
    simp [hboot]
  subst harmed
  exact if_neg hgo

theorem execThermalCheck_arms (hcool : (hottest s l).1 < 110 * 16) :
    execThermalCheck l s = .next (thermalNoted s (hottest s l).1 true) := by
  rw [execThermalCheck_eq hboot hlength hdue (armed := true) (by rw [decide_eq_true hcool, Bool.or_true]), if_neg (by omega),
    decide_eq_false (by omega), Bool.and_false, if_neg Bool.false_ne_true]

section
variable (hwarm : 110 * 16 ≤ (hottest s l).1)
include hwarm

omit hboot hlength hdue in
theorem armed_of_warm : (s.start.alertArmed || decide ((hottest s l).1 < 110 * 16)) = s.start.alertArmed := by
  rw [decide_eq_false (by omega), Bool.or_false]

theorem execThermalCheck_notes
    (hquiet : (hottest s l).1 < 115 * 16 ∨ ((hottest s l).1 < 125 * 16 ∧ s.start.alertArmed = false)) :
    execThermalCheck l s = .next (thermalNoted s (hottest s l).1 s.start.alertArmed) := by
  have halert : (s.start.alertArmed && decide (115 * 16 ≤ (hottest s l).1)) = false := by
    rcases hquiet with hbelow | ⟨-, hunarmed⟩
    · rw [decide_eq_false (by omega), Bool.and_false]
    · rw [hunarmed, Bool.false_and]
  rw [execThermalCheck_eq hboot hlength hdue (armed_of_warm hwarm), if_neg (by omega), halert,
    if_neg Bool.false_ne_true]

theorem execThermalCheck_alerts (halert : 115 * 16 ≤ (hottest s l).1) (hbelow : (hottest s l).1 < 125 * 16)
    (harmed : s.start.alertArmed = true) : execThermalCheck l s = .next (thermalAlert s (hottest s l).1 (hottest s l).2) := by
  rw [execThermalCheck_eq hboot hlength hdue (armed_of_warm hwarm), if_neg (by omega), harmed,
    decide_eq_true halert, Bool.and_true, if_pos rfl]

theorem execThermalCheck_trips (hhot : 125 * 16 ≤ (hottest s l).1) : execThermalCheck l s =
    .next (raiseErr (if s.start.alertArmed then thermalAlert s (hottest s l).1 (hottest s l).2
      else thermalNoted s (hottest s l).1 s.start.alertArmed) 0x0102 (hottest s l).2 (unsigned 32 (hottest s l).1) 0) := by
  rw [execThermalCheck_eq hboot hlength hdue (armed_of_warm hwarm), if_pos hhot, decide_eq_true (by omega),
    Bool.and_true]

end

end

end

/-- Settles O57: the commands of the error queue under their checks, and each lost reference, reading and error under its condition
(R14, R405, R435, R438, R514 to R525). -/
theorem errorsAndReferencesAreHandled : Obligations.ErrorsAndReferencesAreHandled := by
  unfold Obligations.ErrorsAndReferencesAreHandled
  refine ⟨?read, ?ack, ?none, ?records, ?refclk, ?back, ?lrefA, ?lrefB, ?pcie, ?perst, ?host, ?thermal, ?watchdog, ?parity, ?fatal,
    ?handled⟩
  case read => exact fun c p s a key hrun hlow hhigh => next_command_of_runs hrun (cmdErrRead_answers a hlow hhigh)
  case ack => exact fun c p s a key hrun hnone hid hrole => next_command_of_runs hrun (cmdErrAck_removes hnone hid hrole)
  case none =>
    exact fun c p s a key hrun hnone hid holder hrole => next_command_of_runs hrun (cmdErrAck_of_none hnone hid holder hrole)
  case records => exact fun p s => ⟨rfl, fun hnone => ackErrors_errs_of_none hnone s⟩
  case refclk =>
    refine fun s hboot hclock => ⟨?_, abandonTrim_run s.trim⟩
    cases hc : s.trim.run.bind (·.caller) with
    | none => exact execRefclkLost_of_none hboot hclock hc
    | some c => exact execRefclkLost_of_caller hboot hclock hc
  case back => exact fun us s habsent hheld => execRefclkReturn_of_held habsent hheld
  case lrefA => exact fun s hreleased hclock => execLrefALost_of_present hreleased hclock
  case lrefB => exact fun s hreleased hclock => ⟨_, execLrefBLost_of_present hreleased hclock, absent_after_loop _⟩
  case pcie => exact fun s hup => ⟨if_pos hup, if_pos hup⟩
  case perst => exact fun s hreleased => if_pos hreleased
  case host => exact fun s => ⟨rfl, rfl, hostLinkDown_mailbox s⟩
  case thermal =>
    refine fun l s hboot hlength hdue => ⟨execThermalCheck_arms hboot hlength hdue, execThermalCheck_notes hboot hlength hdue,
      fun halert hbelow harmed => execThermalCheck_alerts hboot hlength hdue (by omega) halert hbelow harmed,
      fun hhot => execThermalCheck_trips hboot hlength hdue (by omega) hhot⟩
  case watchdog => exact fun n ms s hreleased hlate => execWatchdog_of_late hreleased n hlate
  case parity => exact fun i a s hreleased => if_pos hreleased
  case fatal => exact ⟨rfl, rfl⟩
  case handled => exact fun s hready => if_pos hready

end Sys2Proof.Proofs
end

section
/-! PROOFS. What errors and the release of the main die keep of the start-up status (R507, R514, R519). -/

namespace Sys2Proof.Proofs

open Sys2Proof Sys2Proof.Machine Sys2Proof.Safety Sys2Proof.Laws

variable (s : State)

@[simp] theorem restartWarden_boot : (restartWarden s).start.boot = s.start.boot := by
  simp [restartWarden]

@[simp] theorem enterSafe_boot : (enterSafe s).start.boot = s.start.boot := by
  unfold enterSafe
  split
  · rfl
  · simp only [restartWarden_boot, postFence_start, forceActive_start]
    rfl

/-- No error changes how far the device has booted. -/
theorem raiseErr_boot (code obj a b : Nat) (k : ErrKey) : (raiseErr s code obj a b k).start.boot = s.start.boot := by
  have hqueue : (queueErr s code (errClass code) obj a b k).start.boot = s.start.boot := by rw [queueErr_start]
  unfold raiseErr raiseClass
  dsimp only
  split
  · exact hqueue
  · split
    · rw [enterSafe_boot, hqueue]
    · split <;> exact hqueue

theorem sendFence_start (l groups origin hops : Nat) : (sendFence s l groups origin hops).start = s.start := by
  unfold sendFence
  dsimp only
  split
  · exact (lineWork_sendControl _ l _).field State.start (by intros; rfl)
  · rfl

theorem ballChange_start (f : Fences) (t at_ : Ticks) : (ballChange s f t at_).start = s.start := by
  have hchange : (changeFences s f t).start = s.start := by
    unfold changeFences
    dsimp only
    split
    · rfl
    · exact (foldl_start (fun s l => sendFence_start s l _ _ _) _ _).trans (setFences_start s f t)
  unfold ballChange
  dsimp only
  split
  · exact hchange
  · rw [postFence_start, hchange]

/-- The cause of a warm reset stays noted when the main die is released. -/
theorem releaseDie_warmCause : (releaseDie s).start.warmCause = s.start.warmCause := by
  unfold releaseDie
  dsimp only
  split
  · rw [ballChange_start]
  · rfl

end Sys2Proof.Proofs
end

section
/-! PROOFS. PORST_N, power-up, firmware boot, memory training, readiness and warm reset (R398, R506 to R512, R520). -/

namespace Sys2Proof.Proofs

open Sys2Proof Sys2Proof.Machine Sys2Proof.Safety Sys2Proof.Laws

/-! ### PORST_N and power-up -/

theorem powerOff_key (s : State) (k : Nat) : ((powerOff s).keySlot k).key = (s.keySlot k).key := by
  unfold powerOff State.keySlot tget
  dsimp only
  rw [tfind_tmap]
  cases tfind s.keys k <;> rfl

theorem execPwrGood_of_porst {s : State} (hboot : s.start.boot = .porst) (uv : Nat) : execPwrGood uv s =
    .next (if (pmbus (pmbus (loadNvm (releaseDie s)) 0x20 none) 0x8B none).clk.refclk = true then
        startRun (pmbus (pmbus (loadNvm (releaseDie s)) 0x20 none) 0x8B none)
          (pmbus (pmbus (loadNvm (releaseDie s)) 0x20 none) 0x8B none).trim.deltaC none uv
      else raiseErr { pmbus (pmbus (loadNvm (releaseDie s)) 0x20 none) 0x8B none with
        trim := { (pmbus (pmbus (loadNvm (releaseDie s)) 0x20 none) 0x8B none).trim with calrefUv := uv } } 0x0001 0 0 0) := by
  unfold execPwrGood
  rw [if_pos hboot]
  generalize pmbus (pmbus (loadNvm (releaseDie s)) 0x20 none) 0x8B none = u
  cases hclock : u.clk.refclk with
  | true => exact (if_neg (by rw [hclock]; decide)).trans (congrArg Host.Outcome.next (if_pos rfl).symm)
  | false => exact (if_pos hclock).trans (congrArg Host.Outcome.next (if_neg Bool.false_ne_true).symm)

/-! ### Firmware -/

section
variable {a b : FlashSlot}

/-- The verified image with the higher version runs, slot 0's where they are equal (R508). -/
theorem chosenImage_eq : chosenImage a b =
    if slotVerified b = true ∧ (slotVerified a = false ∨ a.version < b.version) then some (1, b.image)
    else if slotVerified a = true then some (0, a.image) else none := by
  unfold chosenImage
  cases slotVerified a with
  | false => cases slotVerified b <;> rfl
  | true =>
    cases slotVerified b with
    | false => rfl
    | true => by_cases hnewer : a.version < b.version <;> simp [hnewer]

section
variable {s : State} (hboots : s.start.boot = .dieUp ∨
  (s.start.warden = .restarting ∧ released s = true ∧ s.start.restartImage = false ∧ s.start.boot ≠ .halted))
include hboots

theorem not_running_of_boots : ¬ (s.start.boot = .halted ∨
    (s.start.boot ≠ .dieUp ∧ (decide (s.start.warden = .restarting) && released s && !s.start.restartImage) = false)) := by
  rcases hboots with hup | ⟨hwarden, hreleased, himage, hrunning⟩
  · rintro (h | ⟨h, -⟩)
    · rw [hup] at h
      cases h
    · exact h hup
  · rw [hwarden, hreleased, himage]
    rintro (h | ⟨-, h⟩)
    · exact hrunning h
    · cases h

theorem execFirmwareBoot_halts (hnone : chosenImage a b = none) : execFirmwareBoot a b s = .next (haltWarden s) := by
  unfold execFirmwareBoot
  dsimp only
  rw [if_neg (not_running_of_boots hboots), hnone]

theorem execFirmwareBoot_runs {n : Nat} {image : List Byte} (hchosen : chosenImage a b = some (n, image)) :
    execFirmwareBoot a b s = .next (runImage (imageBad (imageBad s 0 a) 1 b) n image) := by
  unfold execFirmwareBoot
  dsimp only
  rw [if_neg (not_running_of_boots hboots), hchosen]

end

end

theorem haltWarden_boot (s : State) : (haltWarden s).start.boot = .halted := by
  have herr : (raiseErr { s with start := { s.start with boot := .halted, slot := none } } 0x0105 0 0 0).start.boot = .halted :=
    raiseErr_boot _ _ _ _ _ _
  exact herr

/-! ### Memory and readiness -/

section
variable {s : State}

section
variable (hboot : s.start.boot = .running) (l : List Nat)
include hboot

theorem execMemoryTrainingDone_of_trained (htrained : s.start.trained = true) :
    execMemoryTrainingDone l s = .next { s with start := { s.start with boot := .memory } } :=
  (if_neg (not_not.mpr hboot)).trans (if_pos htrained)

theorem execMemoryTrainingDone_of_first (hfirst : s.start.trained = false) :
    let bad := (l.filter (fun c => decide (c < 32))).foldl insertAsc []
    let u := bad.foldl (fun s c => raiseErr s 0x0106 c 3 0) s
    execMemoryTrainingDone l s =
      .next { u with start := { u.start with boot := .memory, trained := true, failedChans := bad } } :=
  (if_neg (not_not.mpr hboot)).trans (if_neg (Bool.eq_false_iff.mp hfirst))

end

section
variable (f : Option (List Byte))

theorem execWardenReady_of_booting (hwarden : s.start.warden = .booting) (hboot : s.start.boot = .memory) : execWardenReady f s =
    .next (startBed f (flushHeld { s with start := { s.start with boot := .up, warden := .ready, restartImage := false } })) := by
  have hfirst : decide (s.start.boot = .memory) = true := decide_eq_true hboot
  have hgo : (s.start.warden = .booting ∨ s.start.restartImage = true) ∧ s.start.warden ≠ .ready ∧
      (decide (s.start.boot = .memory) = true ∨ s.start.boot = .up) := ⟨.inl hwarden, by rw [hwarden]; decide, .inl hfirst⟩
  exact (if_pos hgo).trans (congrArg Host.Outcome.next (if_pos hfirst))

theorem execWardenReady_of_restarting (hwarden : s.start.warden = .restarting) (himage : s.start.restartImage = true)
    (hboot : s.start.boot = .memory ∨ s.start.boot = .up) : execWardenReady f s =
    .next (if s.start.boot = .memory then
        startBed f (flushHeld { s with start := { s.start with boot := .up, warden := .ready, restartImage := false } })
      else flushHeld { s with start := { s.start with boot := .up, warden := .ready, restartImage := false } }) := by
  have hgo : (s.start.warden = .booting ∨ s.start.restartImage = true) ∧ s.start.warden ≠ .ready ∧
      (decide (s.start.boot = .memory) = true ∨ s.start.boot = .up) :=
    ⟨.inr himage, by rw [hwarden]; decide, hboot.imp_left decide_eq_true⟩
  unfold execWardenReady
  dsimp only
  rw [if_pos hgo]
  simp only [decide_eq_true_eq]

end

/-! ### Warm reset -/

theorem execWarmReset_of_cause {k : Nat} (hboot : s.start.boot ≠ .porst)
    (hcause : k = 1 ∨ (k = 2 ∧ leavingDeep s = true) ∨ (k = 3 ∧ restartLate s = true)) :
    execWarmReset k s = .next (beginWarm s k) := (if_neg hboot).trans (if_pos hcause)

/-- At the release the main die starts again with the cause logged (R511, R521). -/
theorem execWarmResetRelease_releases (hboot : s.start.boot = .warm)
    (hawake : s.start.warmCause = 2 → s.power.state = 3 → s.power.waking = true) :
    let b := raiseErr (releaseDie { s with start := { s.start with safe := false }, fences := { s.fences with safe := false } })
      0x0108 s.start.warmCause 0 0
    execWarmResetRelease s = .next (if safeAgain b then enterSafe b else b) := by
  have hgo : ¬ (s.start.boot ≠ .warm ∨ (s.start.warmCause = 2 ∧ s.power.state = 3 ∧ s.power.waking = false)) := by
    rintro (h | ⟨hdeep, hstate, hasleep⟩)
    · exact h hboot
    · rw [hawake hdeep hstate] at hasleep
      cases hasleep
  have hcause := releaseDie_warmCause { s with start := { s.start with safe := false }, fences := { s.fences with safe := false } }
  unfold execWarmResetRelease
  dsimp only
  rw [if_neg hgo, hcause]

end

/-- Settles O58: what each reset and each step of start-up leaves, under its condition (R506 to R512, R520, R521). -/
theorem startUpAndResetsRun : Obligations.StartUpAndResetsRun := by
  unfold Obligations.StartUpAndResetsRun
  refine ⟨?porst, ?kept, ?power, ?firmware, ?images, ?trained, ?training, ?booting, ?restarting, ?warm, ?watchdog, ?release⟩
  case porst => exact fun s => ⟨rfl, rfl⟩
  case kept => exact fun s => ⟨rfl, rfl, rfl, rfl, rfl, rfl, rfl, powerOff_key s⟩
  case power => exact fun uv s hboot => execPwrGood_of_porst hboot uv
  case firmware =>
    intro a b s hboots
    cases hchosen : chosenImage a b with
    | none => exact execFirmwareBoot_halts hboots hchosen
    | some x => exact execFirmwareBoot_runs hboots hchosen
  case images => exact fun a b n s => ⟨chosenImage_eq, rfl, rfl, rfl, haltWarden_boot s⟩
  case trained => exact fun l s hboot htrained => execMemoryTrainingDone_of_trained hboot l htrained
  case training => exact fun l s hboot hfirst => execMemoryTrainingDone_of_first hboot l hfirst
  case booting => exact fun f s hwarden hboot => execWardenReady_of_booting f hwarden hboot
  case restarting => exact fun f s hwarden himage hboot => execWardenReady_of_restarting f hwarden himage hboot
  case warm => exact fun k s hboot hcause => ⟨execWarmReset_of_cause hboot hcause, rfl, rfl⟩
  case watchdog => exact fun s hlate => if_pos hlate
  case release => exact fun s hboot hawake => execWarmResetRelease_releases hboot hawake

end Sys2Proof.Proofs
end
